-- ==== Sys2Proof/Word.lean ====
section
/-! DEFINITION. The word types of the block: register words, bytes, cache-line data, and index types. -/

namespace Sys2Proof

/-- A byte. -/
abbrev Byte := BitVec 8
/-- A 64-bit register word (MMIO registers and CSRs). -/
abbrev Word := BitVec 64
/-- The 64 bytes of one cache line, byte `i` in bits 8i+7..8i (R5 little-endian). -/
abbrev LineData := BitVec 512
/-- A hart ID (R27): 80 s + 4 c + t. -/
abbrev HartId := Fin 960
/-- A Sleeve number. -/
abbrev SleeveId := Fin 12
/-- A core, numbered 20 s + c. -/
abbrev CoreId := Fin 240
/-- A store queue pair. -/
abbrev QId := Fin 1024
/-- A coherent domain. -/
abbrev DomId := Fin 4
/-- A DRAM channel. -/
abbrev ChanId := Fin 12
/-- A flash lane group. -/
abbrev LgId := Fin 8
/-- A PCIe root port group. -/
abbrev PortId := Fin 6
/-- A link of a root port group under its bifurcation. -/
abbrev LinkId := Fin 4
/-- A power block, numbered as the bits of VEST.PWR.CLAIM (Table 3.12). -/
abbrev BlockId := Fin 40
/-- A debug module: 0 to 11 in the Sleeves, 12 in the Vest (R430). -/
abbrev ModuleId := Fin 13
/-- A general or floating-point register number of a hart. -/
abbrev XReg := Fin 32

end Sys2Proof
end

