-- ==== Sys2Proof/Syntax.lean ====
section
/-! DEFINITION. The commands of the block: one constructor of `Instr` for each row of spec/opcode_table.json, and the
types of their operands. -/

namespace Sys2Proof

/-- A management controller: MC-E or MC-W (R63). -/
inductive Mc where | e | w
deriving DecidableEq, Repr

/-- An agent that can send a request. -/
inductive Agent where
  | hart (h : HartId)          -- secure exactly while its ubxworld.SEC = 1
  | cloak                      -- the Cloak processor (secure)
  | mc (m : Mc)                -- a management controller (non-secure)
  | media | copy | pocket | belt | power   -- Vest engines (secure)
  | device (p : PortId) (l : LinkId) (rid : BitVec 16)   -- a device behind a root port (non-secure)
  | iommu                      -- an IOMMU table walk (non-secure)
  | debug (m : ModuleId)       -- the system bus of a debug module
deriving DecidableEq, Repr

/-- Who issues a power request (Table 3.14, record CLAIMREF): a register write, the dictionary or the Lace port. -/
inductive Requester where
  | register (who : Agent)
  | dictionary
  | lace
deriving DecidableEq, Repr

/-- Access size in bytes. -/
inductive Size where | b1 | b2 | b4 | b8
deriving DecidableEq, Repr

/-- The forms of a load (RV64 loads, floating-point loads and the hypervisor loads HLV and HLVX). -/
inductive LoadKind where | signed | unsigned | fp | hlv | hlvu | hlvx
deriving DecidableEq, Repr

/-- The forms of a store. -/
inductive StoreKind where | int | fp | hsv
deriving DecidableEq, Repr

/-- The atomic read-modify-write operations. -/
inductive AmoOp where | swap | add | xor | and | or | min | max | minu | maxu
deriving DecidableEq, Repr

/-- The Zicbop prefetches. -/
inductive PrefetchKind where | r | w | i
deriving DecidableEq, Repr

/-- The block translation registers of a hart (Tables 4.2, 4.3): pair `k`, address or physical half. -/
inductive BlkReg where
  | blk (k : Fin 8) | blkpa (k : Fin 8)
  | vsblk (k : Fin 8) | vsblkpa (k : Fin 8)
  | hblk (k : Fin 8) | hblkpa (k : Fin 8)
deriving DecidableEq, Repr

/-- Every MMIO register of the package. -/
inductive Reg where
  | slvwa (s : SleeveId) | slvwaImp (s : SleeveId) | slvstat (s : SleeveId)
  | pkginfo | pkgfeat | hartmap (s : SleeveId) | distlo (i : Fin 16) | disthi (i : Fin 16)
  | domcfg | dommem (d : DomId) (k : Fin 4) | diefuse (k : Fin 13) (w : Fin 4)
  | mtimecmp (h : HartId)
  | hem | monvec | wdtctl | wdtstat | wdtkick | claim | claimcfg | claimstat | mediaRegion | monrdy
  | l3cScratch (s : SleeveId) | l3cWaypd (s : SleeveId) | l3cStat (s : SleeveId) | l3cEcc (s : SleeveId)
  | fstop (d : DomId) | cohTmo | domrst
  | fabRegcfg | fabEcc | cuffStat (s : SleeveId) | cuffCnt (s : SleeveId) | cuffCfg (s : SleeveId)
  | chStat (n : ChanId) | chRh (n : ChanId) | chEcc (n : ChanId) | chErraddr (n : ChanId)
  | dramScrub | dramMap | dramTop
  | cxlDecRange (k : Fin 16) | cxlDecTgt (k : Fin 16) | cxlCfg
  | storCtl | storArb | storRl | storPool | storNs (n : Fin 64)
  | sqcCfg (q : QId) | sqcNsmask (q : QId) | sqcStat (q : QId) | sqcIntcfg (q : QId) | sqcIntcoal (q : QId)
  | sqcIntstat (q : QId) | sqcIntdisc (q : QId) | sqcReserved (q : QId)
  | sqPush (q : QId) | sqPushEnd (q : QId) | sqStat (q : QId) | cqPop (q : QId) | cqPeek (q : QId) | cqStat (q : QId)
  | cqMark (q : QId) | cqRewind (q : QId) | cqRelease (q : QId) | qReset (q : QId) | qRststat (q : QId)
  | lgStat (g : LgId)
  | holdCfg | holdTest | holdStat | holdMeas | plsStat
  | actCfg (a : Fin 256) | actStat (a : Fin 256) | actCnt (a : Fin 256)
  | clsPeriod (c : Fin 6) | clsCap (c : Fin 6) (k : Fin 8) | beltErr
  | tenRst | tenRststat | tenLogq (i : Fin 64)
  | pl (s : SleeveId) | pwrPkg | slcfg | pwrReq | pwrReqstat | wakesrc | pwrState | thmStat | thmPred
  | bootStat | hartrel | ownStat | ownCtl (m : Mc)
  | pktPtr | pktCnt | pktQ | pktMir | pktCtl | rdptr | rddata | drop (k : Fin 16) | errCls | sramEcc | errCfg | errMsi
  | pcieCfg (p : PortId) | pcieLnk (p : PortId) (l : LinkId)
  | iommuBlk (n : Fin 64) (r : Fin 32) | iommuStd (off : Fin 4096)
  | bistCtl | bistStat (t : ModuleId) | bistSig (t : ModuleId) (u : Fin 8) (k : Fin 32)
deriving DecidableEq, Repr

/-- The target of a register write that has no row of its own (R8). -/
inductive RegTarget where
  | mmio (r : Reg)
  | csr (h : HartId) (n : BitVec 12)
deriving DecidableEq, Repr

/-- A level of the two-level protocol: the slices of one Sleeve, or the home agents of the Vest (Tables 6.4, 6.6). -/
inductive Level where
  | sleeve (s : SleeveId)
  | vest
deriving DecidableEq, Repr

/-- Line states of a caching agent (Table 6.1). -/
inductive LState where | I | S | F | E | M
deriving DecidableEq, Repr

/-- A merge buffer (R126): of a sleeve-cache slice, of a bank of the secure SRAM, or of a bank of the store-queue SRAM, which is
written in whole words alone (R214). -/
inductive MergeBank where
  | slice (s : SleeveId) (i : Fin 16)
  | vest (i : Fin 16)
  | queue (i : Fin 16)
deriving DecidableEq, Repr

/-- An I/O packet's routing fields (Table 7.5). -/
structure IoPkt where
  who  : Agent
  addr : Nat
  tag  : BitVec 12
deriving DecidableEq, Repr

/-- An injection point with a regulator (R168). -/
inductive InjPoint where
  | core (c : CoreId)
  | rootPort (p : PortId)
  | store
deriving DecidableEq, Repr

/-- The number of failed data lanes that the lane test found, for each module and direction (R177). -/
structure LaneFails where
  m0up : Nat
  m0dn : Nat
  m1up : Nat
  m1dn : Nat
deriving DecidableEq, Repr

/-- A report to the Pocket: its source, class, type and payload (Tables 16.2 to 16.4). -/
structure Report where
  src     : BitVec 16
  cls     : BitVec 3
  sec     : Bool
  type    : BitVec 12
  payload : List Byte
deriving DecidableEq, Repr

/-- The rails of Table 19.4. -/
inductive Rail where
  | vinSlv (s : SleeveId)
  | vddVest | vddqD01 | vddqD | vccqNf | vddPcie | vddaPll | vddioMgt | vddAon | vddioAon
deriving DecidableEq, Repr

/-- The two power-failure inputs (R282). -/
inductive PfSource where | pwrfailN | vinSns
deriving DecidableEq, Repr

/-- The strap lands as sampled at the end of package reset (R450). -/
structure Straps where
  primarySel : Mc
  adpEnroll  : Bool
  laceAdr    : BitVec 2
  t1sNode    : BitVec 3
deriving DecidableEq, Repr

/-- The scope of a sleep state (Table 13.3). -/
inductive Scope where
  | core (c : CoreId)
  | sleeve (s : SleeveId)
  | package
deriving DecidableEq, Repr

/-- A source address and UDP port on the management network. -/
structure NetAddr where
  ip   : BitVec 128
  port : BitVec 16
deriving DecidableEq, Repr

/-- The session and request identifiers of a dictionary request (R358). -/
structure DictCtx where
  sid   : BitVec 32
  reqid : BitVec 32
deriving DecidableEq, Repr

/-- One entry of a dictionary request (Table 14.6). -/
structure DictEntry where
  index : BitVec 16
  sub   : BitVec 8
  value : List Byte
deriving DecidableEq, Repr


/-- Instruction classes of Table 2.1. -/
inductive IClass where | alu | mul | div | load | store | fp | zkn | branch | alone
deriving DecidableEq, Repr

/-- The classes that compute in registers. -/
inductive ExecCls where | alu | mul | div | fp | zkn
deriving DecidableEq, Repr

/-- A register that an instruction writes, and the value. -/
structure RegWrite where
  fp  : Bool
  rd  : XReg
  val : Word
deriving DecidableEq, Repr

/-- The standard cache-block operations. -/
inductive CboKind where | clean | inval | flush | zero
deriving DecidableEq, Repr

/-- An instruction of the load and store units: a load or store at its virtual address, a cache-block operation on the address in
a register, or a prefetch. -/
inductive MemOp where
  | load (k : LoadKind) (z : Size) (rd : XReg) (va : Word)
  | store (k : StoreKind) (z : Size) (rs2 : XReg) (va : Word)
  | cbo (k : CboKind) (rs1 : XReg)
  | prefetch (k : PrefetchKind) (rs1 : XReg) (off : BitVec 12)
deriving DecidableEq, Repr

/-- A synchronous trap: its cause, trap value and guest physical address (shifted right by 2). -/
structure TrapInfo where
  cause : Nat
  tval  : Word
  tval2 : Word
deriving DecidableEq, Repr

/-- An instruction as the issue stage sees it (R39, R43 to R45): one that computes in registers, with what it writes and the
floating-point flags it raises; one of the load and store units; one that issues alone and is performed by its own command; the
bits of an instruction in a custom opcode; one that raises an exception, an unimplemented instruction among them; a conditional
branch; a direct jump; an indirect jump. `c`: the instruction is compressed. -/
inductive IssueInstr where
  | compute (cls : ExecCls) (c : Bool) (wr : Option RegWrite) (fl : BitVec 5)
  | mem (op : MemOp) (c : Bool)
  | alone
  | custom (w : BitVec 32)
  | trapping (t : TrapInfo)
  | branch
  | jump (c : Bool) (rd : XReg) (target : Word)
  | indirect (c : Bool) (rd rs1 : XReg)
deriving DecidableEq, Repr

/-- What a hart offers to the issue handshake of its core (R39): nothing while it is not ready, else its oldest unissued
instruction, and the next one when that does not depend on it. -/
inductive Offer where
  | notReady
  | ready (first : IssueInstr) (second : Option IssueInstr)
deriving DecidableEq, Repr

/-- What one DIMM's SPD says (Table 8.1, R186): an RDIMM with RCD, SPD hub and 80-bit ECC width; device width 8 (else 4);
density in Gb; package ranks; dies per stack; capacity in GiB; the highest rate it reports, in MT/s ÷ 100; DRFM support; the
refresh-management threshold it requires (0: none); the number its bytes 0 to 127 spell. -/
structure Dimm where
  rdimm  : Bool
  width  : Nat
  dens   : Nat
  ranks  : Nat
  stack  : Nat
  gib    : Nat
  rate   : Nat
  drfm   : Bool
  raa    : Nat
  ident  : Nat
deriving DecidableEq, Repr

/-- What a bring-up step of a channel yields: the SPDs read in step 2, and the drift limit learned in step 7. -/
structure DimmSpd where
  dimms  : List Dimm
  oscLim : Nat
deriving DecidableEq, Repr

/-- Why a bring-up step ends without success (R189): it overruns its bound, or it fails. -/
inductive DramFail where | overrun | failed
deriving DecidableEq, Repr

/-- What a buffer or an array yields on a read: no error, a corrected or an uncorrectable one. -/
inductive EccResult where | ok | ce | ue
deriving DecidableEq, Repr

/-- The data arrays with SECDED words (Table 5.12): a core's, a Sleeve's, and the array at a line's home (a scratch way, or the Vest
SRAM). -/
inductive DataArr where | l1d (c : CoreId) | l2 (c : CoreId) | l3 (k : SleeveId) | home
deriving DecidableEq, Repr

/-- An entry of an array with parity (Table 5.12): a line of an L1I, an entry of the TLBs, the walk cache, the indirect target
buffer or a return stack. -/
inductive ParArr where
  | l1i (c : CoreId) (line : Nat) | itlb (h : HartId) (i : Nat) | dtlb (h : HartId) (i : Nat) | l2tlb (c : CoreId) (key : Nat)
  | walk (c : CoreId) (way : Nat) | itb (c : CoreId) (idx : Nat) | ras (h : HartId) (i : Nat)
deriving DecidableEq, Repr

/-- The tag arrays, snoop filters and the directory. -/
inductive TagArr where | l1d (c : CoreId) | l2 (c : CoreId) | l3 (k : SleeveId) | sf (k : SleeveId) | dir
deriving DecidableEq, Repr

/-- An error that a read of an array finds (R122): in data, corrected or not; in an entry with parity; in a tag; or in one of the
three copies of a valid bit, a state bit or a poison mark, of a Sleeve's array or of the Vest's SRAM; or the poison with which a CXL
device answers the read of a line (R212). -/
inductive ArrErr where
  | data (a : DataArr) (line : Nat) (ue : Bool)
  | parity (a : ParArr)
  | tag (a : TagArr) (line : Nat) (ue : Bool)
  | copies (k : Option SleeveId) (line : Nat)
  | device (line : Nat)
deriving DecidableEq, Repr

/-- An error in a symbol of a DRAM line's codeword (R204): symbol 0 to 79, and the bits in error. On an x4 channel symbols 8d to
8d + 7 are those of device d; on an x8 channel symbols 2p and 2p + 1 are those of DQ pin p. -/
structure SymErr where
  sym  : Fin 80
  bits : BitVec 8
deriving DecidableEq, Repr

/-- A request to a DRAM controller (R197): the channel-local line address, what a write carries (byte mask, data, poison), and
the errors that the devices' copy of the line holds. -/
structure DramReq where
  loc : Nat
  wr  : Option (BitVec 64 × BitVec 512 × Bool)
  err : List SymErr
deriving DecidableEq, Repr

/-- The geometry and part profile of a lane group's dies (Table 10.1, R268): dies per channel, LUNs per CE, bits per cell,
planes, pages per block per plane, erase blocks per die, block endurance, typical times in µs of a native read, an SLC read, a
native program, an SLC program and an erase, and the maximum SLC multi-plane program time (R278). -/
structure Geo where
  dies   : Nat
  luns   : Nat
  qlc    : Bool
  planes : Nat
  pages  : Nat
  blocks : Nat
  rated  : Nat
  tR     : Nat
  tRs    : Nat
  tP     : Nat
  tPs    : Nat
  tE     : Nat
  tPS    : Nat
deriving DecidableEq, Repr

/-- What bring-up finds in one lane group (Table 10.1): nothing, or the channel training, the die count and CE/LUN placement
of the 16 channels, the parameter-page CRCs, the equality of the parts, the page and spare bytes, the geometry and whether the
firmware holds a profile. -/
structure LgFacts where
  present  : Bool
  iface    : Bool
  dieCounts : List Nat
  ceLun    : Bool
  crcOk    : Bool
  samePart : Bool
  pageBytes : Nat
  spareBytes : Nat
  tlcOrQlc : Bool
  profile  : Bool
  geo      : Geo
deriving DecidableEq, Repr

/-- What the media return while storage is enabled: the factory bad blocks that the
part profile identifies (by erase-block key), the checkpoints (CKNUM) and journal records (JNUM) readable in neither copy, the
system bands of home and mirror readable at all, the drain bands readable, the drain data units (by sequence number) and
flash units (by media key) that do not decode. -/
structure MediaFacts where
  factory  : List Nat
  ckBad    : List Nat
  jBad     : List Nat
  sysOk    : Bool
  drainOk  : Bool
  drainBad : List Nat
  unitBad  : List Nat
deriving DecidableEq, Repr

/-- An item that an enforcement point charges (R306): its owner, class, scope and cost in units of the class. -/
structure BeltItem where
  eng   : Bool
  tid   : BitVec 12
  cls   : Fin 6
  scope : Fin 8
  cost  : Nat
  line  : Option (Fin (2 ^ 46))
deriving DecidableEq, Repr

/-- How the boot flash reads of an image slot went (Table 15.3, check 1): a valid directory entry was read from one of the
two copies; a read error occurred. -/
structure ImageFacts where
  entry   : Bool
  readErr : Bool
deriving DecidableEq, Repr

/-- What the end of a boot step finds: the slots (by 2 × TYPE + SLOT) whose boot flash reads did not go well. -/
structure BootFacts where
  slots : List (Nat × ImageFacts)
deriving DecidableEq, Repr

/-- A request that a device sends (R419): the link it enters by, its requester ID, its PASID (with execute and supervisor
mode), its address, and whether it carries an address already translated under ATS. -/
structure DevReq where
  port  : PortId
  link  : LinkId
  rid   : BitVec 16
  pasid : Option (BitVec 20)
  exec  : Bool
  priv  : Bool
  addr  : BitVec 64
  xlated : Bool
deriving DecidableEq, Repr

/-- The AtomicOps of PCI Express: FetchAdd, Swap and CAS of 32 or 64 bits, and CAS of 128 bits. -/
inductive DevAtomic where
  | fetchAdd (dbl : Bool) | swap (dbl : Bool) | cas (dbl : Bool) | cas128
deriving DecidableEq, Repr

/-- What a trigger of Sdtrig is compared with (Table 18.5): an instruction at the program counter, a load or store (its address
and data), the end of an instruction count, an interrupt or an exception taken. -/
inductive TrigEvent where
  | exec
  | load (va data : BitVec 64)
  | store (va data : BitVec 64)
  | icount
  | interrupt (n : Nat)
  | exception (n : Nat)
deriving DecidableEq, Repr


/-- One command or event of spec/opcode_table.json: the block's whole interface. The operands with a default say what the
command meets beside its effect (array errors, errors of a transmission, a failure, a device's limits): none unless given. -/
inductive Instr where
  /-- LOAD (R86). A hart load is translated under its regime and performed, faulting as the region, world, domain and poison checks require. -/
  | load (h : HartId) (kind : LoadKind) (sz : Size) (rd : XReg) (va : BitVec 64) (c : Bool) (errs : List ArrErr)
  /-- STORE (R86). A hart store is translated and performed through the store path and caches. -/
  | store (h : HartId) (kind : StoreKind) (sz : Size) (rs2 : XReg) (va : BitVec 64) (c : Bool) (errs : List ArrErr)
  /-- AMO (R144). An AMO executes at the place Table 6.11 gives for its memory type and FA attribute, or faults. -/
  | amo (h : HartId) (op : AmoOp) (dbl : Bool) (aqrl : BitVec 2) (rd rs2 : XReg) (va : BitVec 64) (errs : List ArrErr := [])
  /-- LR (R145). LR loads from PMA main memory and sets a 64 B reservation, holding back snoops of the line for a bounded time. -/
  | lr (h : HartId) (dbl : Bool) (rd : XReg) (va : BitVec 64) (errs : List ArrErr := [])
  /-- SC (R145). SC stores only if the hart's reservation holds, then clears it. -/
  | sc (h : HartId) (dbl : Bool) (rd rs2 : XReg) (va : BitVec 64) (errs : List ArrErr := [])
  /-- CBO_ZERO (R109). CBO.ZERO gains ownership and writes 64 zero bytes in the L1D, clearing any poison. -/
  | cboZero (h : HartId) (rs1 : XReg)
  /-- PREFETCH (R97). A Zicbop prefetch fills caches and may start a walk; a faulting prefetch is dropped silently. -/
  | prefetch (h : HartId) (kind : PrefetchKind) (rs1 : XReg) (off : BitVec 12) (errs : List ArrErr := [])
  /-- INBOUND_MEM_WRITE (R420). A device memory write is translated, metered and served at its destination per Table 17.4. -/
  | inboundMemWrite (rq : DevReq) (data : List Byte) (ep : Bool)
  /-- INBOUND_MEM_READ (R420). A device memory read is translated, metered and completed after earlier posted writes. -/
  | inboundMemRead (rq : DevReq) (n : Nat) (errs : List ArrErr := [])
  /-- INBOUND_ATOMIC (R420). A device AtomicOp is executed at the home agent or slice, or receives UR. -/
  | inboundAtomic (rq : DevReq) (op : DevAtomic) (v cmp : BitVec 64)
  /-- INBOUND_MSI (R423). A device 4 B write translated into the IMSIC range becomes an Msi to the target file. -/
  | inboundMsi (rq : DevReq) (v : BitVec 32)
  /-- REGISTER_WRITE (R8). A write to an MMIO register or CSR field that has no row of its own sets its fields under the access codes, lock bits and reserved-encoding rules. -/
  | registerWrite (who : Agent) (r : RegTarget) (v : BitVec 64)
  /-- FUSE_READ (R18). Vest GCLK lock starts the fuse read: all thirteen identity blocks are read, and checks 1 to 4 are made for every Sleeve. -/
  | fuseRead (blocks : List (BitVec 256)) (waImp : List (BitVec 63))
  /-- CUFF_TRAIN_STEP_DONE (R172). A Cuff training step completes, and the next step starts. -/
  | cuffTrainStepDone (s : SleeveId) (lanes : LaneFails)
  /-- CUFF_TRAIN_TIMEOUT (R173). A training step overruns its bound, or negotiation fails; training is retried up to three attempts, then the Sleeve is excluded or the link is lost. -/
  | cuffTrainTimeout (s : SleeveId)
  /-- DOMCFG_LOCK (R34). A write of LOCK = 1 to VEST.DOMCFG is validated against Table 1.13; it either sets CFGERR or locks the domains and DOMMEM. -/
  | domcfgLock (who : Agent) (v : BitVec 64)
  /-- SLVWA_LOCK (R26). A write to VEST.SLVWA[s] with LOCK = 1 freezes the Sleeve's workaround bits until package reset. -/
  | slvwaLock (who : Agent) (s : SleeveId) (v : BitVec 64)
  /-- ISSUE_HANDSHAKE (R39). A core's issue handshake completes and fills its two slots round-robin from the ready harts. -/
  | issueHandshake (c : CoreId) (o0 o1 o2 o3 : Offer) (paced : Bool) (errs : List ArrErr := [])
  /-- BRANCH_RESOLVE (R43). A conditional branch resolves, and the hart's stopped fetch restarts at the taken or fall-through address. -/
  | branchResolve (h : HartId) (target : BitVec 64)
  /-- INDIRECT_RESOLVE (R50). A predicted indirect resolves; a correct prediction commits the path, and a wrong one squashes and repairs. -/
  | indirectResolve (h : HartId) (target : BitVec 64)
  /-- BPC_MODE_WRITE (R51). A write to ubxbpc.MODE retires after no predicted indirect is outstanding, emptying the return stack and history. -/
  | bpcModeWrite (h : HartId) (v : BitVec 64)
  /-- RASFLUSH (R47). A write of RASFLUSH = 1 empties the hart's return stack and clears its path history unless MLOCK blocks it. -/
  | rasflush (h : HartId)
  /-- ITBFLUSH (R47). A write of ITBFLUSH = 1 invalidates all 512 entries of the core's indirect target buffer unless MLOCK blocks it. -/
  | itbflush (h : HartId)
  /-- BPKEY_WRITE (R51). A write to ubxbpkey sets K for the hart's next A100-compatible prediction. -/
  | bpkeyWrite (h : HartId) (v : BitVec 64)
  /-- MTIMECMP_MATCH (R57). time reaches a hart's MTIMECMP, and mip.MTIP is set within 20 ns. -/
  | mtimecmpMatch (h : HartId)
  /-- INTERRUPT_TAKE (R68). A hart takes a pending enabled interrupt, going to E + 0x100 while SEC = 1 and otherwise to its trap vector. -/
  | interruptTake (h : HartId)
  /-- RESERVATION_HOLD_EXPIRE (R145). The bounded period after an LR ends, and the L1D releases any snoops it held back. -/
  | reservationHoldExpire (h : HartId)
  /-- FENCE (R146). FENCE orders memory and I/O accesses under RVWMO; FENCE.TSO executes as FENCE RW,RW. -/
  | fence (h : HartId) (pred succ : BitVec 4) (tso : Bool)
  /-- FENCE_I (R42). FENCE.I discards the hart's fetch buffers and the L1I lines fetched before it. -/
  | fenceI (h : HartId)
  /-- WFI (R42). WFI waits for an interrupt without timeout, subject to TW and VTW. -/
  | wfi (h : HartId)
  /-- ECALL (R66). An ECALL that is not a monitor call is an ordinary environment-call exception. -/
  | ecall (h : HartId)
  /-- MONITOR_CALL (R67). An ECALL from HS or S with a7 in the vendor range enters the secure world at E + 0x000. -/
  | monitorCall (h : HartId)
  /-- SECURE_TRAP (R68). A trap taken while SEC = 1 goes to E + 0x100 and leaves SEC at 1; this includes an MRET, which is illegal there. -/
  | secureTrap (h : HartId) (t : TrapInfo)
  /-- UBX_WSWITCH (R69). UBX.WSWITCH leaves the secure world: it scrubs as configured, clears SEC and performs the MRET state changes. -/
  | ubxWswitch (h : HartId)
  /-- CBO_CLEAN (R109). CBO.CLEAN writes back the line from every cache of the domain that holds it dirty. -/
  | cboClean (h : HartId) (rs1 : XReg)
  /-- CBO_INVAL (R109). CBO.INVAL invalidates the line in the domain, or flushes it, as CBIE selects. -/
  | cboInval (h : HartId) (rs1 : XReg)
  /-- CBO_FLUSH (R109). CBO.FLUSH writes back and invalidates the line throughout the domain. -/
  | cboFlush (h : HartId) (rs1 : XReg)
  /-- UBX_CBO_CLEAN_LV (R110). UBX.CBO.CLEAN.LV cleans the line at the cache levels that the rs2 LEVEL names. -/
  | ubxCboCleanLv (h : HartId) (rs1 rs2 : XReg)
  /-- UBX_CBO_INVAL_LV (R110). UBX.CBO.INVAL.LV invalidates the line at the named levels, or flushes it under CBIE. -/
  | ubxCboInvalLv (h : HartId) (rs1 rs2 : XReg)
  /-- UBX_CBO_FLUSH_LV (R110). UBX.CBO.FLUSH.LV cleans and invalidates the line at the named levels. -/
  | ubxCboFlushLv (h : HartId) (rs1 rs2 : XReg)
  /-- UBX_CSW_CLEAN (R112). UBX.CSW.CLEAN writes back the dirty line in one selected cache entry. -/
  | ubxCswClean (h : HartId) (rs1 : XReg)
  /-- UBX_CSW_INVAL (R112). UBX.CSW.INVAL discards one selected cache entry, including dirty data. -/
  | ubxCswInval (h : HartId) (rs1 : XReg)
  /-- UBX_CSW_FLUSH (R112). UBX.CSW.FLUSH cleans and discards one selected cache entry. -/
  | ubxCswFlush (h : HartId) (rs1 : XReg)
  /-- SFENCE_VMA (R101). SFENCE.VMA invalidates the executing hart's translation entries that Table 4.9 lists for its operands. -/
  | sfenceVma (h : HartId) (rs1 rs2 : XReg)
  /-- HFENCE_VVMA (R101). HFENCE.VVMA invalidates the hart's VS-stage entries of the current VMID, as Table 4.9 lists. -/
  | hfenceVvma (h : HartId) (rs1 rs2 : XReg)
  /-- HFENCE_GVMA (R101). HFENCE.GVMA invalidates the hart's G-stage and V = 1 entries, as Table 4.9 lists. -/
  | hfenceGvma (h : HartId) (rs1 rs2 : XReg)
  /-- BLOCK_REG_WRITE (R91). A write to a block translation register invalidates the hart's L1 TLBs and fetch buffers at once. -/
  | blockRegWrite (h : HartId) (b : BlkReg) (v : BitVec 64)
  /-- PREFETCHER_ISSUE (R105). A trained L1D or L2 prefetcher issues a prefetch within the training page. -/
  | prefetcherIssue (c : CoreId) (l2 : Bool) (stream : Nat) (line : Nat)
  /-- HEM_WRITE (R74). A secure write to VEST.HEM is checked in order; when accepted it moves the Hem, may lock it, and starts the recall scan. -/
  | hemWrite (who : Agent) (v : BitVec 64)
  /-- MONRDY_SET (R380). The Cloak processor sets MONRDY once the monitor is loaded and write-protected. -/
  | monrdySet (who : Agent)
  /-- CLOAK_VERSION (R72). Monitor call that returns the monitor version. -/
  | cloakVersion (h : HartId)
  /-- CLOAK_PROBE (R72). Monitor call that reports whether a call number is implemented. -/
  | cloakProbe (h : HartId)
  /-- ATTEST_REPORT (R390). Monitor call that writes a signed attestation report for the caller's nonce into the buffer. -/
  | attestReport (h : HartId)
  /-- ALIAS_PUBKEY (R72). Monitor call that writes the 1,793 B alias public key into the buffer. -/
  | aliasPubkey (h : HartId)
  /-- HEM_QUERY (R72). Monitor call that returns the current VEST.HEM value. -/
  | hemQuery (h : HartId)
  /-- CLAIM_QUERY (R72). Monitor call that returns the current VEST.PWR.CLAIM value. -/
  | claimQuery (h : HartId)
  /-- WDT_CTL_WRITE (R79). A secure write to WDTCTL EN or TIMEOUT sets the field and restarts the watchdog count. -/
  | wdtCtlWrite (who : Agent) (v : BitVec 64)
  /-- WDT_KICK (R79). A write of 0xC10A to WDTKICK restarts the count; any other value has no effect. -/
  | wdtKick (who : Agent) (v : BitVec 64)
  /-- CLAIM_WRITE (R83). A write to VEST.PWR.CLAIM; clearing a bit with a deferred request lets that request proceed within 2 µs. -/
  | claimWrite (who : Agent) (v : BitVec 64)
  /-- CLAIM_BOUND_EXPIRE (R83). BOUND ms pass on a deferred request; it ends REFUSED, with a Pocket record. -/
  | claimBoundExpire (b : BlockId)
  /-- SCRATCH_WRITE (R115). A write to SCRATCH.COUNT is evaluated per Table 5.7 and, when accepted, starts conversion to or from scratch. -/
  | scratchWrite (who : Agent) (s : SleeveId) (v : BitVec 64)
  /-- SCRATCH_STEP_DONE (R116). A step of a scratch conversion or return completes, and the sequence moves on until BUSY clears. -/
  | scratchStepDone (s : SleeveId)
  /-- WAYPD_WRITE (R119). A write to WAYPD.REQ is evaluated per Table 5.7 and starts way power-down or power-up. -/
  | waypdWrite (who : Agent) (s : SleeveId) (v : BitVec 64)
  /-- WAY_DRAIN_DONE (R119). No dirty line remains in a way being powered down; the way is invalidated, turned off, and OFF is set. -/
  | wayDrainDone (s : SleeveId) (w : Fin 16)
  /-- WAY_POWER_UP_DONE (R120). A way being powered up is ready; OFF clears, and BUSY clears after the last way. -/
  | wayPowerUpDone (s : SleeveId) (w : Fin 16)
  /-- MERGE_ENTRY_IDLE_DRAIN (R127). The idle bound after a merge-buffer entry's last write passes, and the entry drains by read-modify-write. -/
  | mergeEntryIdleDrain (b : MergeBank) (word : Nat) (ue : Bool := false)
  /-- RDS (R140). A read-for-sharing request arrives at a slice or home agent and is served per Table 6.4 or 6.6. -/
  | rds (l : Level) (fr : Nat) (line : Nat)
  /-- RDC (R140). A code-read request arrives at its home and is granted without E or M. -/
  | rdc (l : Level) (fr : Nat) (line : Nat)
  /-- RDO (R140). A read-for-ownership request arrives at its home, which snoops the holders and grants M. -/
  | rdo (l : Level) (fr : Nat) (line : Nat)
  /-- UPG (R140). An upgrade request arrives at its home and grants ownership, or is treated as RdO. -/
  | upg (l : Level) (fr : Nat) (line : Nat)
  /-- RDCUR (R140). A non-caching read of current data arrives at a home agent, with no state change. -/
  | rdcur (who : Agent) (line : Nat) (errs : List ArrErr := [])
  /-- WRFULL (R140). A full-line write from a non-caching agent arrives at the home agent, which invalidates holders and writes. -/
  | wrfull (who : Agent) (line : Nat) (data : BitVec 512) (poison : Bool)
  /-- WRPART (R140). A partial-line write with a byte mask arrives at the home agent and is performed. -/
  | wrpart (who : Agent) (line : Nat) (mask : BitVec 64) (data : BitVec 512) (poison : Bool)
  /-- ATOMH (R144). An atomic request arrives at a home agent, which recalls the line and executes the AMO there. -/
  | atomh (who : Agent) (op : AmoOp) (dbl : Bool) (addr : Nat) (v : BitVec 64)
  /-- ATOMF (R144). A far-atomic request is executed at the owning DRAM controller after the line is recalled. -/
  | atomf (who : Agent) (op : AmoOp) (dbl : Bool) (addr : Nat) (v : BitVec 64)
  /-- SNPFWDS (R138). A forward-for-sharing snoop arrives at a holder, which forwards data and keeps a shared copy. -/
  | snpfwds (l : Level) (holder req : Nat) (line : Nat) (errs : List ArrErr := [])
  /-- SNPFWDO (R138). A forward-for-ownership snoop arrives at a holder, which forwards data granted M and invalidates. -/
  | snpfwdo (l : Level) (holder req : Nat) (line : Nat) (errs : List ArrErr := [])
  /-- SNPCUR (R138). A current-data snoop arrives at the owner, which forwards data and keeps its state. -/
  | snpcur (holder : SleeveId) (req : Agent) (line : Nat) (errs : List ArrErr := [])
  /-- SNPI (R138). An invalidating snoop arrives at a holder, which invalidates and returns dirty data home. -/
  | snpi (l : Level) (holder : Nat) (line : Nat) (errs : List ArrErr := [])
  /-- RSPFWDF (R140). A holder's response that data was forwarded and a shared copy kept arrives at the home. -/
  | rspfwdf (l : Level) (fr : Nat) (line : Nat)
  /-- RSPFWDI (R140). A holder's response that data was forwarded and the holder is now I arrives at the home. -/
  | rspfwdi (l : Level) (fr : Nat) (line : Nat)
  /-- RSPCUR (R140). The owner's response to SnpCur arrives at the home agent. -/
  | rspcur (fr : SleeveId) (line : Nat)
  /-- RSPI (R140). A holder's response that it is now I arrives, completing the snoop collection of its transaction. -/
  | rspi (l : Level) (fr : Nat) (line : Nat)
  /-- RSPWB (R142). A holder's response that the line left in a WbM arrives and closes the snoop. -/
  | rspwb (l : Level) (fr : Nat) (line : Nat)
  /-- EVC (R136). A clean-eviction notice arrives at its home, which clears presence and replies EvAck. -/
  | evc (l : Level) (fr : Nat) (line : Nat)
  /-- CMP (R134). A completion confirming ownership arrives at the requester. -/
  | cmp (l : Level) (dest : Nat) (line : Nat)
  /-- WBACK (R134). A write-back acknowledgement arrives, freeing the agent to request the line again. -/
  | wback (l : Level) (dest : Nat) (line : Nat)
  /-- EVACK (R134). An eviction-notice acknowledgement arrives at the caching agent. -/
  | evack (l : Level) (dest : Nat) (line : Nat)
  /-- DATA (R134). Line data with its granted state arrives at the requester. -/
  | data (l : Level) (dest : Nat) (line : Nat) (st : LState) (data : BitVec 512) (poison : Bool)
  /-- DATAHOME (R140). Dirty data returned by a holder arrives at the home and is written once. -/
  | datahome (l : Level) (fr : Nat) (line : Nat) (data : BitVec 512) (poison : Bool)
  /-- WBM (R142). A dirty line given up arrives at its home; when it crosses a snoop, the write-back answers the snoop. -/
  | wbm (l : Level) (fr : Nat) (line : Nat) (data : BitVec 512) (poison : Bool)
  /-- WBK (R140). A write-back keeping a clean copy arrives at the home agent, and memory is written. -/
  | wbk (fr : SleeveId) (line : Nat) (data : BitVec 512) (poison : Bool)
  /-- WBC (R136). A clean L2 victim arrives at the slice and is written into the sleeve cache if permitted. -/
  | wbc (s : SleeveId) (c : Fin 20) (line : Nat) (data : BitVec 512) (poison : Bool)
  /-- SLICE_TIMEOUT (R148). A slice gets no answer from a core within SLICE_TMO, which is fail-stop cause 0x1. -/
  | sliceTimeout (s : SleeveId) (line : Nat)
  /-- HA_TIMEOUT (R148). A home agent's snoop or memory request gets no answer within HA_TMO, which is fail-stop cause 0x2 unless the requester is a device. -/
  | haTimeout (ha : Fin 64) (line : Nat)
  /-- FAILSTOP_SCAN_DONE (R149). The home agents finish removing the domain's pointers and poisoning its owned lines. -/
  | failstopScanDone (d : DomId)
  /-- DOMAIN_RESET (R150). A write of DOMRST bit d to a fail-stopped domain resets its Sleeves and reruns admission. -/
  | domainReset (who : Agent) (v : BitVec 64)
  /-- IOWR (R160). A posted I/O write packet arrives at its target. -/
  | iowr (p : IoPkt) (data : List Byte)
  /-- MSI_WRITE (R466). An Msi packet arrives at an IMSIC file and sets the pending bit of its identity. -/
  | msiWrite (addr : Nat) (v : BitVec 32)
  /-- IORD (R160). A non-posted I/O read arrives at its target. -/
  | iord (p : IoPkt) (n : Nat)
  /-- IOWRNP (R160). A non-posted I/O write that needs a completion arrives at its target. -/
  | iowrnp (p : IoPkt) (data : List Byte)
  /-- IOATOM (R160). An I/O atomic request arrives at its target. -/
  | ioatom (p : IoPkt) (op : AmoOp) (dbl : Bool) (v : BitVec 64)
  /-- IOCPL (R160). An I/O completion without data arrives at the requester. -/
  | iocpl (tag : BitVec 12) (dest : Agent) (status : BitVec 8)
  /-- IOCPLD (R160). An I/O completion with data arrives at the requester. -/
  | iocpld (tag : BitVec 12) (dest : Agent) (status : BitVec 8) (data : List Byte)
  /-- REGULATOR_GRANT (R168). A Belt grant arrives at an injection regulator, adding allowance and releasing held packets. -/
  | regulatorGrant (pt : InjPoint) (a : Fin 256)
  /-- CUFF_DATA_FLIT (R176). A data flit arrives; it is accepted in sequence, or discarded with a NAK. -/
  | cuffDataFlit (s : SleeveId) (toVest : Bool) (f : BitVec 2048) (err : BitVec 2048 := 0) (ecc : EccResult := .ok)
  /-- CUFF_CONTROL_FLIT (R175). A control flit arrives with cumulative credits and ACK; on a CRC error it is discarded without NAK. -/
  | cuffControlFlit (s : SleeveId) (toVest : Bool) (f : BitVec 2048) (err : BitVec 2048 := 0)
  /-- CUFF_VERSION_MSG (R179). An FTYPE 2 version message arrives, and the Cuff negotiates its protocol version. -/
  | cuffVersionMsg (s : SleeveId) (toVest : Bool) (crcOk : Bool) (map sel : BitVec 8)
  /-- CUFF_REPAIR_MSG (R178). An FTYPE 3 repair message arrives during a repair pause. -/
  | cuffRepairMsg (s : SleeveId) (toVest : Bool) (crcOk : Bool) (nakSeq : BitVec 12)
  /-- CUFF_ACK_TIMEOUT (R176). No ACK advances within ACK_TMO, so the sender replays from its oldest unacknowledged flit. -/
  | cuffAckTimeout (s : SleeveId) (vestSide : Bool)
  /-- REPAIR_PAUSE_DONE (R178). The repair pause ends, and each end resumes by replay. -/
  | repairPauseDone (s : SleeveId) (lanes : LaneFails)
  /-- SLEEVE_SUPPLY_LOSS (R180). The Sleeve reports loss of its VIN_SLV supply over the sideband, and the main band is lost. -/
  | sleeveSupplyLoss (s : SleeveId)
  /-- TIMEBASE_CHECK (R185). The 1 ms timebase check reloads a Sleeve's timebase copy when it differs by more than one count. -/
  | timebaseCheck (s : SleeveId) (slip : Int)
  /-- DRAM_BRINGUP_START (R188). MCLK lock starts bring-up of each populated channel. -/
  | dramBringupStart (dpc : List (Fin 3))
  /-- DRAM_STEP_DONE (R188). A channel bring-up step completes, and the next starts; after zero-fill STATE becomes 3. -/
  | dramStepDone (n : ChanId) (spd : DimmSpd)
  /-- DRAM_STEP_TIMEOUT (R189). A bring-up step fails or overruns; it is retried from step 5, or the channel fails with a Pocket record. -/
  | dramStepTimeout (n : ChanId) (why : DramFail)
  /-- DQS_OSC_CHECK (R190). The 100 ms DQS oscillator check runs a short write-centering update when drift exceeds its limit. -/
  | dqsOscCheck (n : ChanId) (drift : Nat)
  /-- DRAM_MAP_LOCK (R194). A write of LOCK = 1 to VEST.DRAM.MAP is validated, and it locks the map and sets TOP. -/
  | dramMapLock (who : Agent) (v : BitVec 64)
  /-- DRAM_REQUEST (R197). A DRAM controller accepts a read or write and schedules it by row hit, age and write-drain rules. -/
  | dramRequest (n : ChanId) (rq : DramReq)
  /-- DRAM_READ_AGE_EXPIRE (R197). A read waits 2 µs and is served before every younger request. -/
  | dramReadAgeExpire (n : ChanId)
  /-- REFSB_DUE (R200). A same-bank refresh falls due; it is issued when idle, or forced on the fifth postponement. -/
  | refsbDue (n : ChanId) (rank : Fin 8) (bank : Fin 4)
  /-- DIMM_TEMP_SAMPLE (R200). The 16 ms DIMM sensor read updates TEMP and tREFI, and writes a DRAMHOT record above 95 °C. -/
  | dimmTempSample (n : ChanId) (t : Option (BitVec 8))
  /-- PATROL_SCRUB_READ (R207). The patrol scrub reads the next line at its pace, correcting or poisoning it per R206. -/
  | patrolScrubRead (n : ChanId) (err : List SymErr)
  /-- CXL_DEC_COMMIT (R211). A write that sets COMMIT on a CXL decoder is validated and commits the decoder, or sets ERR. -/
  | cxlDecCommit (who : Agent) (k : Fin 16) (v : BitVec 64)
  /-- CXL_DEC_DECOMMIT (R211). Clearing COMMIT makes the range reserved and starts recall of its cached lines. -/
  | cxlDecDecommit (who : Agent) (k : Fin 16) (v : BitVec 64)
  /-- CXL_MEM_TIMEOUT (R213). A CXL.mem request times out, and the port enters isolation with a Pocket record. -/
  | cxlMemTimeout (p : PortId) (l : LinkId)
  /-- CXL_LINK_DOWN (R213). A CXL link goes down, and the port enters CXL.mem isolation. -/
  | cxlLinkDown (p : PortId) (l : LinkId)
  /-- STOR_ENABLE (R215). A write of STOR.CTL.EN = 1 is checked against the refusal codes; if none applies, recovery starts with ST = 0x1. -/
  | storEnable (who : Agent) (v : BitVec 64) (m : MediaFacts)
  /-- STOR_DISABLE (R215). A write of EN = 0 is refused with DREF while a pair is enabled, or else starts the disable with ST = 0x8. -/
  | storDisable (who : Agent) (v : BitVec 64)
  /-- SQC_ENABLE (R218). A CFG write that sets EN is validated and enables the queue pair with pool SRAM, or sets ERR. -/
  | sqcEnable (who : Agent) (q : QId) (v : BitVec 64)
  /-- SQC_DISABLE (R218). A write of EN = 0 to an enabled pair starts the drop form of queue reset. -/
  | sqcDisable (who : Agent) (q : QId) (v : BitVec 64)
  /-- SQ_PUSH (R221). A word is appended to the SQ tail without an end mark, or discarded with OVF. -/
  | sqPush (who : Agent) (q : QId) (w : BitVec 64)
  /-- SQ_PUSHEND (R221). A word is appended with the end mark set, completing a packet for admission. -/
  | sqPushend (who : Agent) (q : QId) (w : BitVec 64)
  /-- CQ_POP (R222). Returns the word at the CQ read pointer and advances it, or returns the idle item. -/
  | cqPop (who : Agent) (q : QId) (ecc : EccResult)
  /-- CQ_MARK (R223). Sets the CQ mark to the read pointer. -/
  | cqMark (who : Agent) (q : QId)
  /-- CQ_REWIND (R223). Moves the CQ read pointer back to the mark and recomputes AVAIL and PKTS. -/
  | cqRewind (who : Agent) (q : QId)
  /-- CQ_RELEASE (R223). Frees every CQ word before the read pointer. -/
  | cqRelease (who : Agent) (q : QId)
  /-- QUEUE_RESET (R233). A normal-form Q.RESET withdraws not-started commands with ABORTED_QUEUE_RESET completions and empties the SQ. -/
  | queueReset (who : Agent) (q : QId)
  /-- QUEUE_RESET_DROP (R233). A Q.RESET with DROP = 1 withdraws commands and empties the CQ without completions. -/
  | queueResetDrop (who : Agent) (q : QId)
  /-- COMMAND_ADMIT (R230). The arbiter picks an eligible SQ and admits one command, running the admission checks of Table 9.9. -/
  | commandAdmit (bad : List (Fin 8)) (ce : List (Fin 8) := [])
  /-- NOP (R224). The NOP command completes SUCCESS and touches nothing. -/
  | nop (id : Nat)
  /-- READ (R224). The READ command copies logical blocks into the buffer, located per R251. -/
  | read (id : Nat)
  /-- WRITE (R224). The WRITE command reserves flash locations and acknowledges its blocks in the PWB. -/
  | write (id : Nat)
  /-- DISCARD (R255). The DISCARD command marks blocks unused in the segment or page maps. -/
  | discard (id : Nat)
  /-- FLUSH (R224). The FLUSH command completes once every earlier WRITE to the namespace is programmed. -/
  | flush (id : Nat)
  /-- COMMAND_COMPLETE (R228). A command completes: its completion is made visible or suppressed, and its range lock is freed. -/
  | commandComplete (id : Nat) (fail : Option (BitVec 8) := none)
  /-- FLASH_BRINGUP_DONE (R242). Bring-up of the lane groups ends, and each STATE reads usable, unusable or empty. -/
  | flashBringupDone (pop : List LgFacts)
  /-- FLASH_READ_DONE (R268). A flash read completes; the codeword decodes, or the read moves to the next step of the retry ladder. -/
  | flashReadDone (id : Nat) (decoded : Bool)
  /-- FLASH_PROGRAM_DONE (R269). A flash program completes, updating parity and placement, or failing the program. -/
  | flashProgramDone (id : Nat) (ok : Bool)
  /-- FLASH_ERASE_DONE (R261). An erase completes; the erase block returns to the free pool, or is retired and replaced. -/
  | flashEraseDone (id : Nat) (ok : Bool)
  /-- MERGE_START (R256). The media engine chooses a merge; it creates the descriptor, sets BUSY and allocates DEST and the successor slot. -/
  | mergeStart (g : Nat)
  /-- MERGE_MAP_DURABLE (R256). MERGE_DONE is durable, the segment maps DEST, and the old bands are erased once their slots are released. -/
  | mergeMapDurable (g : Nat)
  /-- FILL_IDLE_EXPIRE (R253). A direct fill receives no write for FILL_IDLE and becomes a merge that zero-fills the rest. -/
  | fillIdleExpire (g : Nat)
  /-- DIE_FAIL (R264). A die stops answering for 10 ms or fails 16 operations, so its blocks are failed and its bands relocated. -/
  | dieFail (lg : LgId) (pos : Fin 16) (slot : Fin 16)
  /-- HOLD_ENERGY_UPDATE (R279). The 1 ms update computes EUSE and sets or clears LOW. -/
  | holdEnergyUpdate (vnow : Option (BitVec 16))
  /-- HOLD_TEST_START (R280). A write of START = 1 requests a capacitance test. -/
  | holdTestStart (who : Agent) (v : BitVec 64)
  /-- HOLD_TEST_STEP_DONE (R280). A capacitance test step completes; the last computes CAP, ESR, TERR and VALID. -/
  | holdTestStepDone (uv : Option Nat)
  /-- POWER_FAIL_DETECT (R282). PWRFAIL_N low for 1 µs, or VIN_SNS below threshold, latches a power failure and starts the drain. -/
  | powerFailDetect (src : PfSource)
  /-- DRAIN_STEP_DONE (R283). A drain step's programs complete, and the next drain step starts. -/
  | drainStepDone (bad : List Nat := [])
  /-- MSI_COALESCE_TIMEOUT (R302). TMO passes since the oldest pending completion became visible, so the pair's MSI is sent. -/
  | msiCoalesceTimeout (q : QId)
  /-- BELT_CHARGE (R306). An enforcement point charges an item to its activity, borrowing or holding it as R306 sets out. -/
  | beltCharge (i : BeltItem) (ue : Option (Fin 256) := none)
  /-- BELT_PERIOD_BOUNDARY (R309). A class period ends: budgets and pools refill, debts are paid, and held items are released in order. -/
  | beltPeriodBoundary (c : Fin 6)
  /-- ACT_CFG_WRITE (R313). A write to VEST.BELT.ACT[a].CFG is applied, or rejected with a code in VEST.BELT.ERR. -/
  | actCfgWrite (who : Agent) (a : Fin 256) (v : BitVec 64)
  /-- TENANT_RESET (R317). A write of GO = 1 with a TID starts a tenant reset, drop-resetting its pairs and withdrawing its activities. -/
  | tenantReset (who : Agent) (v : BitVec 64)
  /-- PL_REQ_WRITE (R324). A write to SLV[s].PL.REQ changes the requested level and starts a transition toward min(REQ, LIM). -/
  | plReqWrite (who : Agent) (s : SleeveId) (v : BitVec 64)
  /-- PL_TRANSITION_DONE (R324). The regulator and pacing gate reach the new level; CUR updates and BUSY clears. -/
  | plTransitionDone (s : SleeveId)
  /-- POWER_LIMITER_TICK (R325). The 1 ms comparison of MEAS with LIMIT lowers or raises one Sleeve's power cap. -/
  | powerLimiterTick (meas : BitVec 10)
  /-- SLEEP_ENTER (R328). A scope meets an entry condition and enters the deepest sleep state that fits before its next known event. -/
  | sleepEnter (sc : Scope)
  /-- SLEEP_ENTRY_DONE (R326). A sleep-state entry completes, and the scope rests in the state. -/
  | sleepEntryDone (sc : Scope)
  /-- KNOWN_EVENT_WAKE (R328). The wake bound before a known event is reached, so the wake starts. -/
  | knownEventWake (sc : Scope)
  /-- WAKE_SOURCE (R329). A source that is not a known event arrives, so the scope wakes and WAKESRC is recorded. -/
  | wakeSource (sc : Scope) (src : BitVec 8)
  /-- WAKE_STEP_READY (R330). A wake step's ready signal is asserted, and the next wake step starts. -/
  | wakeStepReady (sc : Scope)
  /-- POWER_UP (R332). A power-request with OP 0 powers up or wakes the target block. -/
  | powerUp (who : Requester) (b : BlockId)
  /-- CLOCK_STOP (R332). A power-request with OP 1 stops the target's clock, subject to the conditions, claims and deferral. -/
  | clockStop (who : Requester) (b : BlockId)
  /-- POWER_OFF (R332). A power-request with OP 2 removes the target's power, subject to the conditions, claims and deferral. -/
  | powerOff (who : Requester) (b : BlockId)
  /-- POWER_REQ_DONE (R83). The target block reaches the requested state, and the outcome becomes DONE. -/
  | powerReqDone (b : BlockId)
  /-- PKGOFF (R333). A dictionary command requests PK3; it is refused unless storage is disabled, and is deferred while claims hold. -/
  | pkgoff (x : DictCtx)
  /-- LACE_MATCH (R335). A Lace transfer to the static or dynamic address is acknowledged and asserts the package wake. -/
  | laceMatch (addr : BitVec 7)
  /-- LACE_INDEX_WRITE (R335). A private write sets the Lace register index, and later bytes read or write from it. -/
  | laceIndexWrite (idx : BitVec 8) (rest : List Byte)
  /-- SETDASA (R334). The I3C CCC SETDASA assigns the Lace port's dynamic address. -/
  | setdasa (st dyn : BitVec 7)
  /-- ENTDAA (R334). The I3C CCC ENTDAA assigns the Lace port's dynamic address. -/
  | entdaa (dyn : BitVec 7)
  /-- THERMAL_SENSOR_SAMPLE (R336). The 100 µs junction sensor read updates TJ; a 105 °C reading forces HSC to 0. -/
  | thermalSensorSample (readings : List Int)
  /-- COOLANT_SAMPLE (R336). The 10 ms read of CT_IN and CT_OUT updates the coolant readings and detects sensor faults. -/
  | coolantSample (tin tout : Int)
  /-- FLOW_PULSE (R336). A valid FLOW pulse is counted into the 1 s sliding window. -/
  | flowPulse (widthUs : Nat)
  /-- THERMAL_SHUTDOWN (R340). A 110 °C reading held for 1 ms halts the harts, drains storage, writes a record and enters PK3. -/
  | thermalShutdown (sensor : Fin 56)
  /-- DUPLICATE_ADDRESS_DETECTION (R347). The device runs DAD on its link-local address; on failure it holds no address and writes a record. -/
  | duplicateAddressDetection (dup : Bool)
  /-- DATAGRAM_RECEIVE (R349). An ADP datagram arrives; it is checked, tag-verified and reassembled into a message. -/
  | datagramReceive (src : NetAddr) (bytes : List Byte)
  /-- CLIENT_HELLO (R350). A CLIENT_HELLO starts a handshake, and the device answers DEVICE_HELLO within 40 ms. -/
  | clientHello (src : NetAddr) (body : List Byte)
  /-- CLIENT_AUTH (R352). A CLIENT_AUTH is verified against the key table or a service token; SESSION_OK or ERROR follows. -/
  | clientAuth (src : NetAddr) (sid : BitVec 32) (body : List Byte)
  /-- AUTH_BLOCK_EXPIRE (R355). The 60 s block of a source address after 8 failed handshakes ends. -/
  | authBlockExpire (ip : BitVec 128)
  /-- SESSION_CLOSE (R354). A SESSION_CLOSE ends the session and drops its subscriptions. -/
  | sessionClose (sid : BitVec 32)
  /-- SESSION_IDLE_TIMEOUT (R354). IDLETMO seconds pass without a valid client datagram, and the session ends. -/
  | sessionIdleTimeout (sid : BitVec 32)
  /-- SESSION_LIFETIME_EXPIRE (R354). A session reaches 24 h or 2^32 datagrams and ends. -/
  | sessionLifetimeExpire (sid : BitVec 32)
  /-- ADP_READ (R359). A READ message reads one object through the entry checks. -/
  | adpRead (x : DictCtx) (e : DictEntry)
  /-- ADP_WRITE (R359). A WRITE message writes one object through the entry checks under its change class. -/
  | adpWrite (x : DictCtx) (e : DictEntry)
  /-- MREAD (R358). An MREAD reads 1 to 64 objects, with TOO_LARGE beyond the response limit. -/
  | mread (x : DictCtx) (es : List DictEntry)
  /-- MWRITE (R359). An MWRITE checks every entry, then applies all of them in order or none. -/
  | mwrite (x : DictCtx) (es : List DictEntry)
  /-- SUBSCRIBE (R360). A SUBSCRIBE creates an on-change or periodic subscription. -/
  | subscribe (x : DictCtx) (e : DictEntry) (mode : BitVec 8) (int : BitVec 32)
  /-- UNSUBSCRIBE (R360). An UNSUBSCRIBE removes a subscription. -/
  | unsubscribe (x : DictCtx) (sub : BitVec 16)
  /-- NOTIFY (R360). A subscription's period or change condition falls due, and a NOTIFY with the current value is sent. -/
  | notify (sub : BitVec 16)
  /-- COMMAND (R361). A COMMAND message runs a command object, answering its result or PENDING. -/
  | command (x : DictCtx) (e : DictEntry)
  /-- DESCRIBE (R362). A DESCRIBE returns the type, access, level, class and default of objects. -/
  | describe (x : DictCtx) (es : List DictEntry)
  /-- MGMTRST (R386). The dictionary command resets the management subsystem only. -/
  | mgmtrst (x : DictCtx)
  /-- MC_RELOAD_DONE (R386). The Cloak processor rechecks the controller images and releases each controller that passes. -/
  | mcReloadDone (e w : ImageFacts)
  /-- NSCREATE (R372). A dictionary command creates a namespace at the lowest free SBASE. -/
  | nscreate (x : DictCtx) (nsid : BitVec 8) (nseg : BitVec 32) (lgmask : BitVec 8)
  /-- NSRESIZE (R373). A dictionary command grows or shrinks a namespace, releasing any cut-off segments. -/
  | nsresize (x : DictCtx) (nsid : BitVec 8) (nseg : BitVec 32)
  /-- NSDELETE (R217). A dictionary command deletes a namespace, entering STATE 3 until its segments are released. -/
  | nsdelete (x : DictCtx) (nsid : BitVec 8)
  /-- DOMRST (R150). A dictionary command resets the domains in its mask, as VEST.COH.DOMRST does. -/
  | domrst (x : DictCtx) (mask : BitVec 8)
  /-- PWRREQ (R332). A dictionary command issues a clock or power request, as VEST.PWR.REQ does. -/
  | pwrreq (x : DictCtx) (op : BitVec 8) (target : BitVec 8)
  /-- HOLD_TEST (R297). A dictionary command starts a capacitance test, as START does. -/
  | holdTest (x : DictCtx)
  /-- TENRESET (R316). A dictionary command starts a tenant reset, as GO does. -/
  | tenreset (x : DictCtx) (tid : BitVec 16)
  /-- SHARE (R322). A dictionary command creates or updates a percentage activity for a TID and class. -/
  | share (x : DictCtx) (tid : BitVec 16) (cls pct : BitVec 8)
  /-- PACKAGE_RESET_END (R454). 100 µs after the last reset condition clears, package reset ends, straps are sampled and boot starts. -/
  | packageResetEnd (straps : Straps)
  /-- BOOT_STEP_DONE (R379). A boot sequence step completes, and the next step runs. -/
  | bootStepDone (f : BootFacts)
  /-- OWN_CLAIM (R382). A controller writes CLAIM; the first claim opens a 1 ms window, and a late claim is refused. -/
  | ownClaim (m : Mc)
  /-- OWN_TAKE (R384). The standby writes TAKE and takes the token if the holder is not present. -/
  | ownTake (m : Mc)
  /-- OWN_RELEASE (R384). The holder writes RELEASE and hands the token to a present standby. -/
  | ownRelease (m : Mc)
  /-- OWN_ALIVE (R383). A controller writes ALIVE, refreshing its presence. -/
  | ownAlive (m : Mc)
  /-- PRESENCE_TIMEOUT (R383). A controller's last ALIVE becomes 10 ms old, and it is no longer present. -/
  | presenceTimeout (m : Mc)
  /-- HARTREL_SET (R380). The holder sets HARTREL bits, requesting release of Sleeves. -/
  | hartrelSet (who : Agent) (v : BitVec 64)
  /-- ATTEST (R390). A dictionary command returns a signed attestation report for a nonce. -/
  | attest (x : DictCtx) (nonce : List Byte)
  /-- SVNCOMMIT (R378). A dictionary command raises a type's anti-rollback fuse counter to the running SVN. -/
  | svncommit (x : DictCtx) (ty : BitVec 8)
  /-- FWWRITE (R393). A dictionary command erases and writes a boot flash slot area. -/
  | fwwrite (x : DictCtx) (ty slot : BitVec 8) (off : BitVec 32) (data : List Byte)
  /-- FWCHECK (R393). A dictionary command checks an image slot and returns its result code without loading. -/
  | fwcheck (x : DictCtx) (ty slot : BitVec 8) (f : ImageFacts)
  /-- TOKREVOKE (R391). A dictionary command raises the token epoch, invalidating every issued token. -/
  | tokrevoke (x : DictCtx)
  /-- DBGCHAL (R392). A dictionary command issues a new debug challenge. -/
  | dbgchal (x : DictCtx)
  /-- DBGUNLOCK (R437). A dictionary command passes a debug token to the Cloak processor for verification. -/
  | dbgunlock (x : DictCtx) (tok : List Byte)
  /-- HANDOVER (R384). A dictionary command makes the holder write RELEASE. -/
  | handover (x : DictCtx)
  /-- ERROR_REPORT (R406). An error or event report reaches the Pocket ingress and is folded, queued or dropped. -/
  | errorReport (r : Report)
  /-- POCKET_CLEAR (R412). A CLEAR from a permitted agent invalidates the ring, resets its pointers and writes CLEARED. -/
  | pocketClear (who : Agent)
  /-- RDPTR_WRITE (R403). A write to VEST.PKT.RDPTR selects a record, which the read port copies atomically. -/
  | rdptrWrite (who : Agent) (v : BitVec 64)
  /-- RDDATA_READ (R403). A read of RDDATA returns the next word of the selected record, loading the next record at its end. -/
  | rddataRead (who : Agent)
  /-- PKTREAD (R413). A dictionary command returns whole ring records from an offset. -/
  | pktread (x : DictCtx) (off : BitVec 32) (mx : BitVec 16)
  /-- MIRREAD (R413). A dictionary command returns one 4 KiB mirror unit. -/
  | mirread (x : DictCtx) (copy : BitVec 8) (unit : BitVec 32)
  /-- PKTCLEAR (R412). A dictionary command clears the ring, as CLEAR does. -/
  | pktclear (x : DictCtx)
  /-- INTX_MESSAGE (R418). A legacy INTx message is discarded and counted in the AER log. -/
  | intxMessage (p : PortId)
  /-- IOMMU_BLOCK_WRITE (R424). A write to an IOMMU block-set register invalidates the IOTLB entries derived from that set. -/
  | iommuBlockWrite (who : Agent) (n : Fin 64) (r : Fin 32) (v : BitVec 64)
  /-- COMPLETION_TIMEOUT (R426). A request the port sent gets no completion within CTO; the hart faults and CTOCNT counts it. -/
  | completionTimeout (p : PortId) (l : LinkId)
  /-- SURPRISE_LINK_DOWN (R426). A link goes down unexpectedly; DPC contains it and a hot-plug event follows. -/
  | surpriseLinkDown (p : PortId) (l : LinkId)
  /-- DPC_RELEASE (R426). Writing 1 to LNK[l].DPC releases the link's containment. -/
  | dpcRelease (who : Agent) (p : PortId) (l : LinkId)
  /-- SAMPLE_PRELOAD (R428). The TAP instruction samples or preloads the boundary register. -/
  | samplePreload (lands : BitVec 384) (shift : BitVec 384)
  /-- EXTEST (R428). The TAP instruction drives the lands from the boundary register. -/
  | extest (lands : BitVec 384) (shift : BitVec 384)
  /-- DTMCS (R429). The TAP instruction accesses the debug transport control and status register. -/
  | dtmcs (shift : BitVec 32)
  /-- DMI (R429). The TAP instruction performs a DMI access to a debug module, busy while its Sleeve wakes. -/
  | dmi (shift : BitVec 50)
  /-- SECTOKEN (R437). The TAP instruction shifts in a debug token and passes it for verification on update. -/
  | sectoken (tok : List Byte)
  /-- BIST (R444). The TAP instruction's update writes VEST.BIST.CTL, and its capture returns BIST status. -/
  | bist (v : BitVec 64)
  /-- BYPASS (R428). The TAP instruction selects the one-bit bypass register. -/
  | bypass (tdi : Bool)
  /-- HALT_REQUEST (R434). A debugger halt request halts the hart and its halt group, or pends under the secure world. -/
  | haltRequest (h : HartId)
  /-- RESUME_REQUEST (R434). A debugger resume request resumes the hart and its resume group. -/
  | resumeRequest (h : HartId)
  /-- ABSTRACT_COMMAND (R431). An Access Register abstract command reads or writes a halted hart's register. -/
  | abstractCommand (m : ModuleId) (cmd : BitVec 32)
  /-- NDMRESET (R431). ndmreset resets the module's Sleeve, and has no effect in the Vest module. -/
  | ndmreset (m : ModuleId) (on : Bool)
  /-- SYSTEM_BUS_ACCESS (R436). A debug module issues a coherent, uncached system bus access, reporting sberror on failure. -/
  | systemBusAccess (m : ModuleId) (wr : Bool)
  /-- TRIGGER_FIRE (R435). An Sdtrig trigger matches a committed instruction or access and takes a breakpoint or enters debug mode. -/
  | triggerFire (h : HartId) (t : Fin 4) (ev : TrigEvent)
  /-- BIST_GO (R441). A write of GO starts a Sleeve self-test run, or arms a Vest run, if its preconditions hold. -/
  | bistGo (who : Agent) (v : BitVec 64)
  /-- BIST_STEP_DONE (R441). A Sleeve run step completes; the last stores its signatures and returns the Sleeve to reset. -/
  | bistStepDone (s : SleeveId) (sigs : List (BitVec 64))
  /-- BISTRUN (R441). A dictionary command starts or arms a self-test run. -/
  | bistrun (x : DictCtx) (target kind : BitVec 8)
  /-- BISTDISARM (R442). A dictionary command disarms an armed Vest run. -/
  | bistdisarm (x : DictCtx)
  /-- RAIL_OUT_OF_TOLERANCE (R454). A non-Sleeve rail leaves tolerance and holds package reset. -/
  | railOutOfTolerance (r : Rail)
  /-- PWRFAIL_RELEASE (R454). PWRFAIL_N returns high, or VIN_SNS rises above its release, clearing a reset condition and ending PK3 after a power failure. -/
  | pwrfailRelease (src : PfSource)
  /-- FLASH_TEMP_SAMPLE (R461). The 1 s read of the flash module sensors updates each die temperature, with substitutes for silent sensors. -/
  | flashTempSample (lg : LgId) (temps : List (Option Int))
  /-- XRET (R145). An MRET or SRET executed in the normal world returns from a trap and clears the hart's reservation. -/
  | xret (h : HartId) (sret : Bool)
  /-- EBREAK (R42). EBREAK raises a breakpoint exception with mtval set to the instruction's address, or enters debug mode. -/
  | ebreak (h : HartId) (compressed : Bool)
  /-- LINK_UP (R426). A root-port PCIe or CXL link trains and enters L0, so LNK[l].UP is set after a port reset, a hot-plug insertion or a retrain. -/
  | linkUp (p : PortId) (l : LinkId) (cxl : Bool) (width : BitVec 8) (speed : BitVec 4) (noPoison : Bool := false)
  /-- ATS_TRANSLATION_REQUEST (R418). A device's ATS translation request arrives at a root port and the IOMMU answers it. -/
  | atsTranslationRequest (rq : DevReq)
  /-- PTM_REQUEST (R418). A device's PTM request arrives and the root port answers as PTM responder with the package timebase. -/
  | ptmRequest (p : PortId)
  /-- IOMMU_COMMAND_QUEUE (R422). Software advances the IOMMU command-queue tail, and the IOMMU executes the queued invalidation and fence commands. -/
  | iommuCommandQueue (who : Agent) (tail : BitVec 32)
  /-- NEIGHBOR_SOLICITATION (R347). A Neighbor Discovery message for the device's link-local address arrives on the management port and is answered. -/
  | neighborSolicitation (src : NetAddr) (target : BitVec 128)
  /-- ICMPV6_ECHO_REQUEST (R347). An ICMPv6 echo request arrives on the management port and the device answers with an echo reply. -/
  | icmpv6EchoRequest (src : NetAddr) (payload : List Byte)
  /-- SYSTEM_BUS_TIMEOUT (R436). A debug system bus access receives no completion within 100 µs and ends with sberror 1. -/
  | systemBusTimeout (m : ModuleId)
  /-- RAIL_IN_TOLERANCE (R454). A supply rail, VDD_AON and the Sleeve rails included, rises into tolerance, releasing the AON power-on reset or a package-reset condition. -/
  | railInTolerance (r : Rail)
  /-- HEM_SCAN_DONE (R75). The home agents finish recalling the lines between the old and new Hem, and BUSY returns to 0. -/
  | hemScanDone
  /-- WDT_WARN (R80). 7/8 of the timeout elapses, and WDTWARN is asserted to the Cloak processor. -/
  | wdtWarn
  /-- WDT_EXPIRE (R81). The watchdog expires: it writes the WDT record, halts every hart and starts the drain and mirror update. -/
  | wdtExpire
  /-- WDT_DRAIN_DEADLINE (R81). 20 ms after expiry, package reset is asserted with EXPIRED set, and DRAINFAIL set if steps 3 and 4 are incomplete. -/
  | wdtDrainDeadline
  /-- ACT_TABLE_CLEAR (R201). Every 32 ms all activate-count tables are cleared. -/
  | actTableClear
  /-- CXL_RECALL_DONE (R211). The decommit recall ends, and CXL.CFG.BUSY clears. -/
  | cxlRecallDone
  /-- RECOVERY_DONE (R289). Recovery ends: ST becomes 0x2 on success, or 0x7 with RCAUSE. -/
  | recoveryDone
  /-- STOR_DISABLE_DONE (R295). Dirty slots and the journal are programmed and a checkpoint written, and ST becomes 0x0. -/
  | storDisableDone
  /-- FLASH_BRINGUP (R242). NCLK lock starts the parameter-page reads, channel training and checks of every lane group. -/
  | flashBringup
  /-- RWC_DECAY (R258). Every DECAY hours every rewrite counter is halved. -/
  | rwcDecay
  /-- AGE_UPDATE (R265). The hourly update advances each band's effective age by its temperature factor and schedules refreshes. -/
  | ageUpdate
  /-- HOLD_TEST_DAILY (R280). 24 h pass since the last passed test, and a test starts unless it is deferred. -/
  | holdTestDaily
  /-- HOLD_TEST_CHARGE_TIMEOUT (R280). The bank is not within 2 % of VCHG 10 s after the test start, so the test ends with TERR = 1. -/
  | holdTestChargeTimeout
  /-- JOURNAL_TIME_RECORD (R287). Every 60 s a TIME journal record is made. -/
  | journalTimeRecord
  /-- CHECKPOINT_START (R288). 30 s or a full map-change count starts a checkpoint with a snapshot of the maps. -/
  | checkpointStart
  /-- MGMT_WAKE_PACKET (R333). A management wake packet received by the 10BASE-T1S PHY ends PK3. -/
  | mgmtWakePacket
  /-- LACE_CMD_WAKE (R335). Lace CMD 0x01 wakes the package with no further effect. -/
  | laceCmdWake
  /-- LACE_CMD_PK3 (R333). Lace CMD 0x5A requests PK3 while LACEPD is 1. -/
  | laceCmdPk3
  /-- RSTDAA (R334). The I3C CCC RSTDAA clears the Lace port's dynamic address. -/
  | rstdaa
  /-- GETPID (R334). The I3C CCC GETPID returns the provisioned ID. -/
  | getpid
  /-- GETBCR (R334). The I3C CCC GETBCR returns the bus characteristics register. -/
  | getbcr
  /-- GETDCR (R334). The I3C CCC GETDCR returns the device characteristics register. -/
  | getdcr
  /-- GETSTATUS (R334). The I3C CCC GETSTATUS returns the target status. -/
  | getstatus
  /-- THERMAL_MODEL_UPDATE (R337). The 10 ms model update predicts H1, H10 and H60 and adjusts TPL per Table 13.10. -/
  | thermalModelUpdate
  /-- HOTSPOT_CAP_TICK (R340). The hotspot cap lowers every 1 ms above threshold, or raises every 10 ms below TJ_CTL. -/
  | hotspotCapTick
  /-- FDEM_UPDATE (R341). The 1 s update recomputes the flow demand FDEM. -/
  | fdemUpdate
  /-- VALVE_UPDATE (R342). The 100 ms PI update sets the valve duty, or holds MANDUTY in manual mode. -/
  | valveUpdate
  /-- FLOW_SHORT_TIMEOUT (R342). Duty at 100 % with flow below 0.9 × FDEM for 10 s sets FLOW_SHORT with a record. -/
  | flowShortTimeout
  /-- NO_FLOW_TIMEOUT (R343). No flow pulses for 2 s with duty ≥ VMIN: F is taken as 0, the valve goes to 100 % and FDEM to FMAX. -/
  | noFlowTimeout
  /-- REASSEMBLY_TIMEOUT (R349). A partial message is not completed within 200 ms and is discarded. -/
  | reassemblyTimeout
  /-- HANDSHAKE_TIMEOUT (R350). A handshake's next message does not arrive within 1 s, and the handshake is discarded. -/
  | handshakeTimeout
  /-- CLAIM_WINDOW_CLOSE (R382). The claim window closes, and the token goes to the sole or higher-SVN claimant. -/
  | claimWindowClose
  /-- HOLDER_ABSENT_TIMEOUT (R384). The holder is absent for 100 ms with no standby present, so a management subsystem reset occurs. -/
  | holderAbsentTimeout
  /-- DISAGREE_TIMEOUT (R385). DISAGREE holds for 50 ms, so the forced safe state and a management reset follow. -/
  | disagreeTimeout
  /-- ALIAS_KEYGEN_DONE (R389). The DevID and alias keys are generated and the alias certificate made, so sessions can be served. -/
  | aliasKeygenDone
  /-- CHALLENGE_LAPSE (R392). A debug challenge reaches 600 s and lapses. -/
  | challengeLapse
  /-- POCKET_RECORD_WRITE (R405). The Pocket takes the oldest queue entry and writes it as a record, or folds it into the last record. -/
  | pocketRecordWrite
  /-- POCKET_MSI_HOLDOFF_EXPIRE (R398). The 10 µs MSI interval ends, and the MSI covering the records within it is sent. -/
  | pocketMsiHoldoffExpire
  /-- MIRROR_FLUSH_TIMEOUT (R409). 1 s after the oldest waiting record, or 10 ms after a CLASS 4 record, a mirror unit is programmed. -/
  | mirrorFlushTimeout
  /-- TAP_RESET (R428). TRST_N or Test-Logic-Reset resets the TAP, and IDCODE is loaded in the instruction register. -/
  | tapReset
  /-- IDCODE (R428). The TAP instruction selects the 32-bit IDCODE register. -/
  | idcode
  /-- SECCHAL (R437). The TAP instruction's capture issues a new debug challenge. -/
  | secchal
  /-- TOKEN_VERIFY_DONE (R438). The Cloak processor finishes verifying a debug token, adding its scope or recording a failure. -/
  | tokenVerifyDone
  /-- RESET_N_LOW (R454). RESET_N driven low for 10 µs asserts and holds package reset. -/
  | resetNLow
  /-- AON_POWER_ON_RESET (R465). VDD_AON falls below its power-on reset threshold, resetting every domain including AON. -/
  | aonPowerOnReset
  /-- REFCLK_LOSS (R454). REFCLK becomes absent or out of range, holding package reset. -/
  | refclkLoss
  /-- RESET_N_HIGH (R454). RESET_N is driven high, which clears one of the conditions that hold package reset. -/
  | resetNHigh
  /-- REFCLK_VALID (R454). REFCLK becomes present and within 100 MHz ± 0.1 %, which clears its package-reset condition. -/
  | refclkValid
  /-- AON_OSCILLATOR_STABLE (R454). The 32.768 kHz AON oscillator becomes stable, up to 1 s after it starts, which clears its package-reset condition. -/
  | aonOscillatorStable
deriving DecidableEq, Repr

end Sys2Proof
end

