-- ==== Sys2Proof/Config.lean ====
section
/-! DEFINITION. What an implementation fixes and what the spec leaves open: constants without a body, so that nothing can
be proved of their values. -/

namespace Sys2Proof

/-- A value the spec leaves open, by the index of its use (State.free): see the log entries that name it. -/
opaque Config.freeWord : Nat → Word
/-- As `freeWord`, 64 bytes wide. -/
opaque Config.freeLine : Nat → LineData
/-- A choice the spec leaves open between listed outcomes (R13, R14). -/
opaque Config.freeNat : Nat → Nat

/-- SHAKE256 (FIPS 202) of a byte string, with an output length in bytes: a standard function, left uninterpreted. -/
opaque Config.shake256 : List Byte → Nat → List Byte
/-- KMAC256 (NIST SP 800-185): key, data, output length in bytes, customisation string. -/
opaque Config.kmac256 : List Byte → List Byte → Nat → List Byte → List Byte
/-- Falcon-1024 signature verification: public key, message, signature. -/
opaque Config.falconVerify : List Byte → List Byte → List Byte → Bool
/-- Falcon-1024 signature with a key derived from a seed, with fresh randomness by index. -/
opaque Config.falconSign : List Byte → List Byte → Nat → List Byte
/-- Falcon-1024 public key (1,793 B) of the key pair generated from a seed. -/
opaque Config.falconPub : List Byte → List Byte
/-- ML-KEM-1024 encapsulation (FIPS 203): encapsulation key, randomness by index; ciphertext and shared secret. -/
opaque Config.mlkemEncaps : List Byte → Nat → List Byte × List Byte
/-- Random bytes drawn by the Cloak processor: index of the draw and length. -/
opaque Config.random : Nat → Nat → List Byte

/-- The device's fused secrets and roots (R387): the UDS, the image root hash and the token root hash, 32 B each. -/
opaque Config.uds : List Byte
opaque Config.imageRoot : List Byte
opaque Config.tokenRoot : List Byte
/-- The fuse SECDBG_EN (R391). -/
opaque Config.secdbgEn : Bool
/-- The monitor version that CLOAK_VERSION returns (Table 3.5). -/
opaque Config.monitorVersion : Word
/-- The firmware's boot flash OFFSET of a slot's area, by 2 × TYPE + SLOT: the spec gives none. -/
opaque Config.slotOffset : Nat → BitVec 32
/-- The golden signatures of a controller's image by unit, kind and die revision (R443), if it holds one. -/
opaque Config.golden : Nat → Nat → Nat → Nat → Option Word

/-- The contents of the boot ROM. -/
opaque Config.bootRom : Nat → Byte

/-- The I3C provisioned ID and characteristics of the Lace port: the spec gives no values. -/
opaque Config.lacePid : BitVec 48
opaque Config.laceBcr : Byte
opaque Config.laceDcr : Byte

/-- The transaction tag that a requester, by node, chooses for a line (Table 7.4). -/
opaque Config.tagOf : Nat → Nat → BitVec 12

/-- The link of a root port through which a window or ECAM address is reached while the port has more than one link: what its
bridge functions hold. -/
opaque Config.linkOf : Nat → Fin 4

/-- The register at an address of Vest or Sleeve MMIO for which the spec gives no offset: the spec names registers without
addresses (VEST.DOMCFG, VEST.CUFF, VEST.DRAM and others). -/
opaque Config.regAt : Nat → Option Reg
/-- What the configuration space of a root port's own function reads as, by address. -/
opaque Config.portSpace : Nat → Byte

/-- The codes of TYPE and ACCESS in an answer to DESCRIBE: the spec gives them no values. -/
opaque Config.typeCode : Nat → Byte
opaque Config.accessCode : Nat → Byte
/-- OD 0x3000+s.02 PLCUR: one byte that holds CUR, LIM and LIMSRC (Table 13.12), whose places the spec does not give; applied to
the three fields. -/
opaque Config.plcurByte : BitVec 3 → BitVec 3 → BitVec 4 → Byte
/-- The part profile's threshold table (OD 0x4400 + e), 16 bytes an entry. -/
opaque Config.partThr : Nat → BitVec 128
/-- What Yalrun's certificate authority wrote into the DevID certificate: the hash of its key and its signature (Table 15.11). -/
opaque Config.caHash : BitVec 256
opaque Config.caSig : List Byte

end Sys2Proof
end

