-- ==== Sys2Proof/Machine/Tab.lean ====
section
/-! DEFINITION. Sparse tables: a list of (key, value) pairs in one canonical form (keys strictly rising, no entry equal to
the table's default), so that equal tables are equal data. They hold every indexed group of registers and every memory. -/

namespace Sys2Proof.Machine

/-- A sparse table. What an unlisted key reads as is given at each access (the group's reset value). -/
abbrev Tab (α : Type) := List (Nat × α)

/-- The entry at key `k`, if one is listed. -/
def tabFind {α : Type} (k : Nat) : Tab α → Option α
  | [] => none
  | e :: r => if e.1 = k then some e.2 else tabFind k r

/-- What key `k` reads as, with `d` for an unlisted key. -/
def tabGet {α : Type} (t : Tab α) (d : α) (k : Nat) : α := (tabFind k t).getD d

/-- Insert or replace the entry at key `k`, keeping the keys in rising order. -/
def tabInsert {α : Type} (k : Nat) (v : α) : Tab α → Tab α
  | [] => [(k, v)]
  | e :: r => if k < e.1 then (k, v) :: e :: r else if e.1 = k then (k, v) :: r else e :: tabInsert k v r

/-- Remove the entry at key `k`. -/
def tabErase {α : Type} (k : Nat) : Tab α → Tab α
  | [] => []
  | e :: r => if e.1 = k then r else e :: tabErase k r

/-- Write key `k`: a value equal to the default is not listed. -/
def tabSet {α : Type} [DecidableEq α] (t : Tab α) (d : α) (k : Nat) (v : α) : Tab α :=
  if v = d then tabErase k t else tabInsert k v t

/-- The keys of the list rise strictly and all lie above `k`. -/
def tabAbove {α : Type} (k : Nat) : Tab α → Bool
  | [] => true
  | e :: r => decide (k < e.1) && tabAbove e.1 r

/-- The canonical form: keys strictly rising, and no entry equal to the default `d`. -/
def tabWf {α : Type} [DecidableEq α] (d : α) : Tab α → Bool
  | [] => true
  | e :: r => tabAbove e.1 r && decide (e.2 ≠ d) && tabWf d r

end Sys2Proof.Machine
end

