-- ==== Sys2Proof/Machine/Bits.lean ====
section
/-! DEFINITION. Bit fields of register words, counters that saturate, and little-endian bytes (R5). -/

namespace Sys2Proof.Machine

/-- The field of width `w` whose lowest bit is bit `lo` (R5). -/
def fld (v : Word) (lo w : Nat) : BitVec w := v.extractLsb' lo w

/-- Bit `n` of a word. -/
def bit (v : Word) (n : Nat) : Bool := v.getLsbD n

/-- A field placed with its lowest bit at bit `lo` of a register word; every other bit is zero (R6). -/
def at_ (lo : Nat) {w : Nat} (x : BitVec w) : Word := (x.setWidth 64) <<< lo

/-- One bit placed at bit `n` of a register word. -/
def on (n : Nat) (b : Bool) : Word := at_ n (BitVec.ofBool b)

/-- The fields of a register joined into its word. -/
def cat (l : List Word) : Word := l.foldr (· ||| ·) 0#64

/-- A counter that saturates: one more, unless it is at its largest value. -/
def satInc {w : Nat} (x : BitVec w) : BitVec w := if x = BitVec.allOnes w then x else x + 1

/-- A counter that saturates: `n` more. -/
def satAdd {w : Nat} (x : BitVec w) (n : Nat) : BitVec w :=
  if x.toNat + n ≥ 2 ^ w then BitVec.allOnes w else BitVec.ofNat w (x.toNat + n)

/-- The `n` low bytes of a number, least significant first (R5). -/
def leBytes : Nat → Nat → List Byte
  | 0, _ => []
  | n + 1, v => BitVec.ofNat 8 v :: leBytes n (v / 256)

/-- The number that bytes spell, least significant first (R5). -/
def leNat : List Byte → Nat
  | [] => 0
  | b :: r => b.toNat + 256 * leNat r

/-- `n` zero bytes. -/
def zeros (n : Nat) : List Byte := List.replicate n 0#8

/-- The numbers below `n`. -/
def upto (n : Nat) : List Nat := List.range n

/-- Whether bit `i` of a mask is set. -/
def inMask {w : Nat} (m : BitVec w) (i : Nat) : Bool := m.getLsbD i

/-- A mask with bit `i` set or cleared. -/
def setBit {w : Nat} (m : BitVec w) (i : Nat) (b : Bool) : BitVec w :=
  if b then m ||| BitVec.ofNat w (2 ^ i) else m &&& ~~~ (BitVec.ofNat w (2 ^ i))

/-- The mask whose bit `i` (below `w`) is `f i`. -/
def maskOf (w : Nat) (f : Nat → Bool) : BitVec w :=
  (upto w).foldl (fun a i => if f i then a ||| BitVec.ofNat w (2 ^ i) else a) 0

/-- The first element that meets a test, with its place. -/
def firstIdx {α : Type} (p : α → Bool) : List α → Option Nat
  | [] => none
  | a :: r => if p a then some 0 else (firstIdx p r).map (· + 1)

/-- Replace element `i` of a list (nothing when there is none). -/
def setAt {α : Type} (l : List α) (i : Nat) (a : α) : List α := l.set i a

/-- Sign-extension of the low `w` bits of a word. -/
def sextTo64 (w : Nat) (v : Nat) : Word := (BitVec.ofNat w v).signExtend 64

/-- CRC-32C (Table 7.12) of bytes. -/
def crc32cBit (c : BitVec 32) : BitVec 32 := if c.getLsbD 0 then (c >>> 1) ^^^ 0x82F63B78 else c >>> 1
def crc32cByte (c : BitVec 32) (b : Byte) : BitVec 32 := (upto 8).foldl (fun a _ => crc32cBit a) (c ^^^ b.setWidth 32)
def crc32c (l : List Byte) : BitVec 32 := ~~~(l.foldl crc32cByte 0xFFFFFFFF)

end Sys2Proof.Machine
end

