-- ==== Sys2Proof/Machine/StCpu.lean ====
section
/-! DEFINITION. The state of the harts, cores and caches (02, 04, 05), the secure world (03), coherence (06) and memory (08). -/

namespace Sys2Proof.Machine

/-- An IMSIC interrupt file (R31, R466): 255 identities, eidelivery and eithreshold. -/
structure ImsicFile where
  pend   : BitVec 256
  en     : BitVec 256
  deliv  : Word
  thresh : Word
deriving DecidableEq, Repr

/-- A first-level or second-level TLB entry (R100, Table 4.8). `stage`: 0 single-stage, 1 VS stage, 2 G stage,
3 combined two-stage. `size` is the log2 of the page or block size. -/
structure TlbEnt where
  stage : Nat
  asid  : BitVec 16
  vmid  : BitVec 12
  glob  : Bool
  hart  : Nat
  va    : Nat
  size  : Nat
  out   : Nat
  /-- PTE permission bits (V R W X U G A D in bits 0 to 7) and the PBMT and FA attributes. -/
  perm  : BitVec 8
  pbmt  : BitVec 2
  fa    : Bool
  /-- The log2 of the page or block of the first stage: of a combined entry, the VS stage's, for the fences. -/
  span  : Nat
deriving DecidableEq, Repr

/-- A walk-cache entry (R100): a non-leaf PTE of a stage and level. -/
structure WalkEnt where
  stage : Nat
  level : Nat
  asid  : BitVec 16
  vmid  : BitVec 12
  glob  : Bool
  hart  : Nat
  va    : Nat
  next  : Nat
deriving DecidableEq, Repr

/-- A complete translation: the physical address, memory type (0 PMA, 1 NC, 2 IO), far-atomic attribute, the entries with which it
fills the TLBs and the walk cache when the access completes, and whether the first-level TLB missed. -/
structure Xl where
  pa   : Nat
  pbmt : BitVec 2
  fa   : Bool
  tlb  : List TlbEnt
  walk : List WalkEnt
  l1   : List TlbEnt
  l1g  : List TlbEnt
  miss : Bool
deriving DecidableEq, Repr

/-- The checkpoint of an outstanding indirect (R49): whether its target was predicted, what it pops and pushes, its length and
the register that takes its link. -/
structure Checkpoint where
  pc      : Word
  pred    : Bool
  target  : Word
  hist    : BitVec 9
  ras     : List Word
  pop     : Bool
  push    : Option Word
  len     : Nat
  rd      : XReg
deriving DecidableEq, Repr

/-- An Sdtrig trigger. -/
structure Trig where
  data1 : Word
  data2 : Word
  data3 : Word
deriving DecidableEq, Repr

/-- What a hart's access to a PCIe window or to configuration space does with its completion. -/
inductive IoWhat where
  | load (kind : LoadKind) (sz : Size) (rd : XReg)
  | amo (dbl : Bool) (rd : XReg)
  | store
deriving DecidableEq, Repr

/-- A hart's access that awaits its completion (R147, Table 17.7): its tag, its virtual address, whether that is a guest's, the
length of the instruction, what the completion does, and the translation, which is kept when the access completes (R96). -/
structure HartIo where
  tag  : BitVec 12
  va   : Word
  gva  : Bool
  len  : Nat
  what : IoWhat
  xl   : Xl
deriving DecidableEq, Repr

/-- A hart (02, 03, 04). -/
structure Hart where
  pc      : Word
  x       : List (Nat × Word)
  f       : List (Nat × Word)
  /-- Privilege (3 M, 1 S or HS, 0 U) and the virtualization mode. -/
  priv    : BitVec 2
  virt    : Bool
  /-- CSRs that hold plain values, by CSR number. -/
  csr     : List (Nat × Word)
  /-- Waiting in WFI; halted in debug mode; stopped by a package-wide action (watchdog, thermal shutdown, fail-stop). -/
  wfi     : Bool
  halted  : Bool
  stopped : Bool
  inReset : Bool
  /-- ubxworld.SEC, SCRUB_ITB, SCRUB_L1 (Table 3.2). -/
  sec     : Bool
  scrubItb : Bool
  scrubL1 : Bool
  /-- LR reservation (line), and the time at which its snoop hold ends. -/
  resv    : Option Nat
  resHold : Option Nat
  /-- Interrupt files: 0 machine, 1 supervisor, 1 + g guest g. -/
  imsic   : List (Nat × ImsicFile)
  /-- mip.MTIP as set by the timer compare. -/
  mtip    : Bool
  /-- Branch handling: fetch stopped by an unresolved branch, return stack (top first), path history, outstanding indirect,
  wrong-path instructions issued, stopped mark, speculative fill buffer. -/
  fetchStop : Bool
  ras     : List Word
  hist    : BitVec 9
  indir   : Option Checkpoint
  wrong   : Nat
  wrongStop : Bool
  /-- On the predicted path: the address of the next instruction, and the instructions issued, oldest first; the stores among them
  are held in the store queue. -/
  specPc  : Word
  path    : List IssueInstr
  specFill : List Nat
  /-- Committed instructions that have issued and not yet retired, oldest first. -/
  rest    : List IssueInstr
  itlb    : List TlbEnt
  dtlb    : List TlbEnt
  /-- Debug: pending halt request, halt-on-reset, triggers. -/
  haltPend : Bool
  resetHalt : Bool
  trigs   : List (Nat × Trig)
  /-- The access of the hart is held by the injection regulator (R169); the line of a table read that the regulator let go. -/
  heldAcc : Bool
  walkPaid : Option Nat
  io      : Option HartIo
  /-- Debug mode: the hart runs the program buffer of its module; an exception ended the last run (R431). -/
  prog    : Bool
  progExc : Bool
deriving DecidableEq, Repr

/-- An indirect target buffer entry (R46). -/
structure ItbEnt where
  compat : Bool
  tag    : BitVec 12
  target : Word
deriving DecidableEq, Repr

/-- A cache line in an array: line number (address bits 51:6), state, data and poison (R103, R122, R123). -/
structure CLine where
  line   : Nat
  st     : LState
  data   : LineData
  poison : Bool
deriving DecidableEq, Repr

/-- A set-associative cache: entries at key set × ways + way, and the pseudo-LRU bits of each set (R107). -/
structure Cache where
  ents : List (Nat × CLine)
  plru : List (Nat × Nat)
deriving DecidableEq, Repr

/-- A prefetch stream (R105): its page, the hart that trained it, the last line, the stride and its confirmations. -/
structure Stream where
  page   : Nat
  hart   : Nat
  last   : Nat
  stride : Int
  conf   : Nat
deriving DecidableEq, Repr

/-- A core: what its four harts share. -/
structure Core where
  itb    : List (Nat × ItbEnt)
  rr     : Nat
  /-- The L2 TLB at key set × 8 + way, and the pseudo-LRU bits of each set; the walk cache by way, and its bits. -/
  l2tlb  : List (Nat × TlbEnt)
  tlbPlru : List (Nat × Nat)
  walk   : List (Nat × WalkEnt)
  walkPlru : Nat
  l1i    : Cache
  l1d    : Cache
  l2     : Cache
  str1   : List Stream
  str2   : List Stream
deriving DecidableEq, Repr

/-- A merge-buffer entry (R126): an aligned word, its byte mask and data. -/
structure MergeEnt where
  word : Nat
  mask : BitVec 8
  data : BitVec 64
deriving DecidableEq, Repr

/-- A snoop-filter entry of a slice (R135). -/
structure SfEnt where
  line  : Nat
  /-- The Sleeve-level state of the line. -/
  st    : LState
  pres  : BitVec 20
  fhold : Option Nat
deriving DecidableEq, Repr

/-- Sleeve cache control (Table 5.6) and the arrays of a Sleeve. -/
structure Slv where
  count   : BitVec 4
  wayReq  : BitVec 16
  off     : BitVec 16
  scr     : BitVec 16
  err     : BitVec 2
  busy    : Bool
  uecnt   : BitVec 32
  cecnt   : BitVec 32
  ceBase  : BitVec 32
  /-- A conversion in progress: target COUNT and step; ways draining or powering up. -/
  convTo  : Option Nat
  convStep : Nat
  drain   : BitVec 16
  powerUp : BitVec 16
  l3      : Cache
  sf      : List (Nat × SfEnt)
  sfPlru  : List (Nat × Nat)
  /-- Merge buffers of slice i at key i, newest entry last. -/
  merge   : List (Nat × List MergeEnt)
deriving DecidableEq, Repr

/-- A directory entry (Table 6.6): P (a list of 1 to 4 sharers), B (any number), X (one owner). -/
inductive DirSt where
  | p (l : List Nat)
  | b
  | x (o : Nat)
deriving DecidableEq, Repr

structure DirEnt where
  line : Nat
  st   : DirSt
deriving DecidableEq, Repr

/-- A message on the network (Tables 6.3, 7.5): its command code, its ends by number at its level, the granted state of a
Data, the requester a snoop names, and the data it carries. -/
structure Msg where
  lvl    : Level
  cmd    : Nat
  fr     : Nat
  dest     : Nat
  line   : Nat
  st     : LState
  req    : Nat
  data   : LineData
  poison : Bool
deriving DecidableEq, Repr

/-- What a transaction at a home serves (Tables 6.4, 6.6). -/
inductive ReqKind where | rds | rdc | rdo | upg | rdcur | wrfull | wrpart | atom
deriving DecidableEq, Repr

/-- A transaction at a home (R140): the line, what is asked and by whom (a core or Sleeve number; for an agent that caches
nothing, `who`), the holders whose responses are awaited, whether a slice waits for the home agent, the data gathered, and
the operand of a write or an atomic. -/
structure Txn where
  lvl   : Level
  line  : Nat
  kind  : ReqKind
  req   : Nat
  who   : Option Agent
  wait  : List Nat
  /-- The holder asked to forward; holders whose WbM, and whose RspWb, has arrived in a crossing (R142). -/
  fwd   : Option Nat
  wbGot : List Nat
  wbRsp : List Nat
  home  : Bool
  got   : Option (LineData × Bool)
  /-- State that the home agent granted to a slice. -/
  gst   : LState
  mask  : BitVec 64
  val   : LineData
  poison : Bool
  aop   : Option (AmoOp × Bool × Nat × Word)
  since : Nat
deriving DecidableEq, Repr

/-- A request that a caching agent has outstanding (R134), which is the space it has reserved for the answers (R163): data and, for
ownership, the Cmp still to come, and the snoops held behind it. -/
structure Mshr where
  lvl   : Level
  agent : Nat
  line  : Nat
  own   : Bool
  code  : Bool
  needData : Bool
  needCmp : Bool
  /-- The core becomes the F holder with the Data still to come (Table 6.4). -/
  asF   : Bool
  held  : List Msg
deriving DecidableEq, Repr

/-- A write-back or eviction notice that awaits its WbAck or EvAck: `wb` for WbM, WbK and WbC (a WbAck is due), `left` when
the line left the agent in a WbM (a snoop that crosses it is answered RspWb). -/
structure WbOut where
  lvl   : Level
  agent : Nat
  line  : Nat
  wb    : Bool
  left  : Bool
deriving DecidableEq, Repr

/-- VEST.COH.FSTOP[d] (Table 6.14). -/
structure FStop where
  active : Bool
  linev  : Bool
  cause  : BitVec 4
  src    : BitVec 8
  line   : BitVec 46
  /-- The directory scan of the fail-stop is pending (R149). -/
  scan   : Bool
  /-- A domain reset is under way (R150). -/
  rst    : Bool
deriving DecidableEq, Repr

/-- Coherence (06). -/
structure Coh where
  dir    : List (Nat × DirEnt)
  dplru  : List (Nat × Nat)
  txns   : List Txn
  queue  : List Txn
  mshr   : List Mshr
  /-- Snoops that an agent holds back: while its slice collects answers of cores (R138), or while an LR holds the line (R145). -/
  late   : List Msg
  wbs    : List WbOut
  fstop  : List (Nat × FStop)
  haTmo  : BitVec 16
  slTmo  : BitVec 16
  /-- The values in force (loaded at the lock of DOMCFG and at each domain reset). -/
  haTmoF : BitVec 16
  slTmoF : BitVec 16
deriving DecidableEq, Repr

/-- The secure registers of the Vest (03): Tables 3.3, 3.8, 3.10, 3.12. -/
structure Cloak where
  /-- VEST.CLOAK.MONVEC (Table 3.3). -/
  monLock  : Bool
  monAddr  : BitVec 40
  /-- VEST.HEM (Table 3.8): LOCK, BUSY, ERR and ADDR (bits 51:21 of the address). -/
  hemLock  : Bool
  hemBusy  : Bool
  hemErr   : BitVec 2
  hemAddr  : BitVec 31
  /-- The old Hem while the recall scan runs. -/
  hemOld   : Option (BitVec 31)
  /-- VEST.CLOAK.WDTCTL and WDTSTAT (Table 3.10). -/
  wdtLock  : Bool
  wdtEn    : Bool
  wdtTmo   : BitVec 16
  wdtExp   : Bool
  wdtDfail : Bool
  /-- Time at which the count was restarted, the WDTWARN line, and the step of the expiry sequence (0: none). -/
  wdtFrom  : Nat
  wdtWarn  : Bool
  wdtStep  : Nat
  wdtDrained : Bool
  wdtMirrored : Bool
  /-- VEST.PWR.CLAIM and CLAIMCFG.BOUND (Table 3.12); CLAIMSTAT.DEFER is computed from the deferred requests. -/
  claim    : BitVec 40
  bound    : BitVec 10
deriving DecidableEq, Repr

/-- A request in a DRAM controller's queue, with the time of its arrival. -/
structure DQEnt where
  rq : DramReq
  at_ : Nat
deriving DecidableEq, Repr

/-- A DRAM channel (08): VEST.DRAM.CH[n] (Tables 8.2, 8.8, 8.9). -/
structure Chan where
  state  : BitVec 4
  cause  : BitVec 4
  rate   : BitVec 8
  temp   : BitVec 8
  cap    : BitVec 10
  dpc    : BitVec 2
  lranks : BitVec 4
  width  : BitVec 2
  dens   : BitVec 2
  nref   : BitVec 32
  rhMode : Bool
  blast  : BitVec 2
  th     : BitVec 16
  /-- TH in force (from the next tREFI boundary). -/
  thF    : BitVec 16
  uecnt  : BitVec 32
  cecnt  : BitVec 32
  ceBase : BitVec 32
  eaV    : Bool
  eaUe   : Bool
  eaLine : BitVec 46
  /-- Bring-up step (2 to 8 of Table 8.3; 0 none) and attempt. -/
  step   : Nat
  attempt : Nat
  spd    : DimmSpd
  /-- Activate-count tables by bank key: up to 32 entries of row and count, in entry order (R201). -/
  acts   : List (Nat × List (Nat × Nat))
  /-- Open row by bank key. -/
  openRow : List (Nat × Nat)
  /-- Postponed REFsb at key 4 × rank + bank; rolling activate counts by bank key (R203). -/
  postp  : List (Nat × Nat)
  raa    : List (Nat × Nat)
  /-- tREFI is 1.95 µs; a DRAMHOT record has been written for this excursion above 95 °C. -/
  fast   : Bool
  hotRec : Bool
  /-- Drift limit learned in step 7; a write-centering update runs until this time. -/
  oscLim : Nat
  updTil : Nat
  /-- The read queue and the write queue (R197), in one list in order of arrival; the write queue is being drained. -/
  reqs   : List DQEnt
  drainW : Bool
  /-- The reads that the last service answered, in order: channel-local line, bytes, poison indication. -/
  served : List (Nat × List Byte × Bool)
  scrubPos : Nat
  /-- Channel-local lines that a scrub poisoned before they had an address. -/
  pz     : List Nat
deriving DecidableEq, Repr

/-- A CXL decoder (Table 8.11). -/
structure CxlDec where
  commit : Bool
  iw     : BitVec 3
  ig     : BitVec 3
  err    : BitVec 2
  limit  : BitVec 24
  base   : BitVec 24
  target : BitVec 40
deriving DecidableEq, Repr

/-- DRAM and CXL memory (08). -/
structure Dram where
  chans   : List (Nat × Chan)
  scrubEn : Bool
  scrubPer : BitVec 8
  mapLock : Bool
  mapErr  : BitVec 3
  /-- CHMASK has been loaded by hardware (Table 8.4). -/
  chLoaded : Bool
  chmask  : BitVec 12
  pwben   : Bool
  ilen    : Bool
  grain   : BitVec 3
  order   : BitVec 2
  top     : BitVec 52
  /-- Contents of DRAM, secure SRAM, scratch ways and CXL memory, by physical byte address. -/
  mem     : List Host.Cell
  /-- Lines stored poisoned. -/
  poison  : List (Nat × Bool)
  decs    : List (Nat × CxlDec)
  /-- Decoders cleared whose recall has not ended (R211). -/
  recalls  : List CxlDec
  /-- Isolated links, by root port × 4 + link, and those of them that have been retrained since (R213). -/
  cxlIso  : BitVec 20
  cxlRetr : BitVec 20
  cxlTmo  : BitVec 10
  cxlTmoF : BitVec 10
  /-- Targets (root port × 4 + link) whose lines have an open content after an isolation (R213), with the index of the free
  choice, and the target and number of each line written since. -/
  cxlOpen : List (Nat × Nat)
  cxlDef  : List (Nat × Nat)
deriving DecidableEq, Repr

end Sys2Proof.Machine
end

