-- ==== Sys2Proof/Machine/StPlat.lean ====
section
/-! DEFINITION. The state of the package platform: dies and identity (01), fabric and Cuffs (07), power, sleep, Lace and
thermal control (13), the Pocket (16), and the lands and resets (19). -/

namespace Sys2Proof.Machine

/-- Package, dies and identity (01): the Vest registers of Tables 1.1 to 1.6, 1.11 and 1.12, and admission. -/
structure Pkg where
  /-- VEST.DIEFUSE[k], Table 1.1; an unlisted image reads 0 (R19). -/
  dieFuse    : List (Nat × BitVec 256)
  /-- The fuse read has been made (R18). -/
  fuseRead   : Bool
  /-- The Vest block failed its CRC or KIND (R19). -/
  vestBad    : Bool
  /-- VEST.SLVSTAT[s].EXCL, Table 1.3; unlisted: 0xF. -/
  excl       : List (Nat × BitVec 4)
  /-- VEST.SLVSTAT[s].CUFF_UP and CUFF_VER. -/
  cuffUp     : BitVec 12
  cuffVer    : List (Nat × BitVec 4)
  /-- VEST.PKGINFO.FUSE_DONE. -/
  fuseDone   : Bool
  /-- VEST.SLVWA[s].LOCK and WA, SLVWAIMP[s].IMP, and the workarounds in force in each Sleeve (R26). -/
  waLock     : BitVec 12
  wa         : List (Nat × BitVec 63)
  waImp      : List (Nat × BitVec 63)
  waInForce  : List (Nat × BitVec 63)
  /-- VEST.DOMCFG (Table 1.11). -/
  domLock    : Bool
  cfgErr     : BitVec 3
  dom        : BitVec 24
  /-- VEST.DOMMEM[d][k] at key 4d + k (Table 1.12). -/
  domMem     : List (Nat × BitVec 64)
  /-- Sleeves held in reset: all until VEST.DOMCFG.LOCK (R34); bit s. -/
  slvHeld    : BitVec 12
deriving DecidableEq, Repr

/-- A packet (R159): the four words of its header unit (Table 7.4), and its data units of 32 B. -/
structure Packet where
  hw0   : Word
  hw1   : Word
  hw2   : Word
  hw3   : Word
  units : List (BitVec 256)
deriving DecidableEq, Repr

/-- The ports of a router: a Vest router's mesh and local ports (R155), a Sleeve router's agents (R153). -/
inductive RPort where | n | s | w | e | l0 | l1 | core | slice | adapter | ctrl
deriving DecidableEq, Repr

/-- Where a packet in flight stands: at its source, in an input queue of a router, at a Cuff adapter before or after the link
(by the direction of travel), or at its destination. -/
inductive NetPlace where
  | src
  | inq (die x y : Nat) (p : RPort)
  | tx (k : Nat) (toVest : Bool)
  | rx (k : Nat) (toVest : Bool)
  | dest
deriving DecidableEq, Repr

/-- A packet in flight; `seq` numbers the packets in the order they were sent. -/
structure Flight where
  pkt : Packet
  loc : NetPlace
  seq : Nat
deriving DecidableEq, Repr

/-- The meshes (07): the packets in flight in the order of their last move, so that those of one queue stand in its order; and
for each router output the input queue it serves next (R166). -/
structure Mesh where
  flights : List Flight
  seq     : Nat
  rr      : List (Nat × Nat)
deriving DecidableEq, Repr

/-- The fields of a flit (R174, Table 7.12) but its CRC: the seven unit slots and the control unit. -/
structure Flit where
  slots   : List (BitVec 256)
  crd     : BitVec 48
  start   : BitVec 7
  slotVc  : BitVec 21
  msg     : BitVec 75
  seq     : BitVec 12
  ack     : BitVec 12
  nakSeq  : BitVec 12
  nak     : Bool
  ftype   : BitVec 3
deriving DecidableEq, Repr

/-- One end of a Cuff link (R174 to R179). -/
structure LinkEnd where
  /-- SEQ of the next new data flit sent, and SEQ expected next. -/
  nextSeq  : BitVec 12
  expSeq   : BitVec 12
  /-- The replay buffer: the unacknowledged data flits, oldest first (at most 128). -/
  replay   : List Flit
  /-- A replay under way: SEQ of the next flit to be sent again. -/
  again    : Option (BitVec 12)
  /-- Last ACK value received, and the NAKSEQ last received. -/
  lastAck  : BitVec 12
  nakSeen  : Option (BitVec 12)
  /-- A NAK to be sent in the next outgoing flit, with its NAKSEQ. -/
  nak      : Option (BitVec 12)
  /-- Replays in a row without ACK advancing. -/
  replays  : Nat
  /-- Cumulative units by channel, eight bits each: sent, credited by the other end (CRD received), and freed from this
  end's receive buffer (the CRD it sends). -/
  sent     : BitVec 48
  crd      : BitVec 48
  freed    : BitVec 48
  /-- By channel, the packet whose units have not all arrived. -/
  part     : List (Nat × Packet)
  /-- The peer's version map and SEL of the last version message. -/
  verSeen  : BitVec 8
  selSeen  : BitVec 8
deriving DecidableEq, Repr

/-- A Cuff (07): VEST.CUFF[s] (Table 7.15), training progress and both link ends. -/
structure Cuff where
  state      : BitVec 4
  mods       : BitVec 2
  repaired   : BitVec 16
  vermap     : BitVec 8
  retrain    : BitVec 16
  repair     : BitVec 16
  replay     : BitVec 32
  ackTmo     : BitVec 8
  retryLim   : BitVec 8
  /-- The values in force, loaded at the start of each training attempt (R364). -/
  ackTmoF    : BitVec 8
  retryLimF  : BitVec 8
  /-- The training step now running (2 to 8 of Table 7.11), 0 when none; the attempt, and whether it is a retrain. -/
  step       : Nat
  attempt    : Nat
  isRetrain  : Bool
  /-- UCIe link power state: 0 active, 1 L1, 2 L2 (Table 7.10). -/
  lpow       : Nat
  phyOn      : Bool
  vest       : LinkEnd
  sleeve     : LinkEnd
  /-- The Sleeve's timebase copy less the package timebase, in counts (R185). -/
  tbOff      : Int
  /-- What the copy read when it was last reloaded to a lower value: harts read no less (R56). -/
  tbMin      : Int
deriving DecidableEq, Repr

/-- What a regulator holds (R169): the packet that a command carries; a table read of a hart's walk; the packets that deliver a block
into its area, or that read the source areas, of a store command. -/
inductive HeldPkt where
  | cmd (c : Instr)
  | walk (h line : Nat)
  | area (id blk : Nat) (data : List Byte)
  | source (id : Nat)
deriving DecidableEq, Repr

/-- An entry of what the regulators hold, oldest first: its injection point, its activity, and the units still to be charged. -/
structure Held where
  pt   : Nat
  act  : Nat
  cost : Nat
  pkt  : HeldPkt
deriving DecidableEq, Repr

/-- Fabric and Cuffs (07). -/
structure Fab where
  /-- VEST.FAB.REGCFG.GRANT, and the value in force (from the next period boundary). -/
  grant      : BitVec 8
  grantF     : BitVec 8
  uecnt      : BitVec 32
  cecnt      : BitVec 32
  /-- The value CECNT was last written with, from which the multiples of CETH count (R397). -/
  ceBase     : BitVec 32
  cuffs      : List (Nat × Cuff)
  /-- Local allowance of each regulator for each activity, at key 256 × point + activity (R168). -/
  allow      : List (Nat × Nat)
  /-- Grant requests outstanding, at the same keys. -/
  asked      : List Nat
  held       : List Held
  /-- Packets of withdrawn activities that go on at the next idle step (Table 12.9, step 3). -/
  passed     : List HeldPkt
  mesh       : Mesh
deriving DecidableEq, Repr

/-- Power states (13): Tables 13.2, 13.5, 13.7 and the sleep states. One `SlvPwr` per Sleeve. -/
structure SlvPwr where
  req     : BitVec 3
  cur     : BitVec 3
  busy    : Bool
  /-- Target of the transition under way. -/
  target  : BitVec 3
  pwc     : BitVec 3
  hsc     : BitVec 3
  /-- HSC is being lowered (R340). -/
  hscLow  : Bool
  /-- 1 ms ticks counted toward the next raise of HSC. -/
  hscTick : Nat
  /-- Sleep state of the Sleeve: 0 active, 3 SL3, 4 SL4. -/
  sl      : Nat
  /-- Held in SL3 or SL4 by a clock stop or power-off request (Table 13.8). -/
  slHeld  : Bool
  /-- Highest reading of the Sleeve's four sensors, in milli-degrees. -/
  hot     : Int
deriving DecidableEq, Repr

/-- A sleep entry or a wake in progress: the scope, the state entered or left, the step, and the wake source. -/
structure SleepOp where
  scope : Scope
  state : Nat
  step  : Nat
  src   : BitVec 8
deriving DecidableEq, Repr

/-- A clock or power request in progress or deferred (R332, R83). -/
structure PwrOp where
  block : BlockId
  op    : Nat
  who   : Requester
  /-- The dictionary request whose CMD_DONE it answers (session, REQID). -/
  ctx   : Option DictCtx
  since : Nat
deriving DecidableEq, Repr

/-- Power control (13). -/
structure Pwr where
  slv        : List (Nat × SlvPwr)
  meas       : BitVec 10
  limit      : BitVec 10
  /-- Sleeves in the order the power limiter lowered them, most recent first (R325). -/
  lowered    : List Nat
  /-- 1 ms comparisons below 0.95 LIMIT in a row. -/
  belowCnt   : Nat
  guard_     : BitVec 16
  pkmax      : BitVec 2
  slmax      : BitVec 3
  /-- Package state: 0 active, 1 PK1, 2 PK2. -/
  pk         : Nat
  /-- Core states: 1 SL1, 2 SL2; unlisted: active. -/
  coreSl     : List (Nat × Nat)
  entering   : List SleepOp
  waking     : List SleepOp
  /-- VEST.PWR.WAKESRC (Table 13.5), held in AON. -/
  wakesrc    : BitVec 64
  reqBusy    : Bool
  reqTarget  : BitVec 6
  reqOutcome : BitVec 4
  /-- Operations that proceed now, and requests deferred by a claim (R83) with the time the deferral began. -/
  ops        : List PwrOp
  deferred   : List PwrOp
  /-- State of each power block: 0 running, 1 clock stopped, 2 powered off. -/
  blocks     : List (Nat × Nat)
  /-- The package is in PK3, and what put it there: 1 power-off request, 2 thermal shutdown, 3 power failure. -/
  pk3        : Bool
  pk3Cause   : Nat
  /-- A package power-off request deferred while a block is claimed (R333), with its requester. -/
  offPending : Option PwrOp
  /-- Blocks whose claim was set while a clock stop or power-off of them was in progress (Table 3.14). -/
  secHeld    : BitVec 40
deriving DecidableEq, Repr

/-- The Lace port (13 R334, R335). -/
structure Lace where
  staticLow : BitVec 2
  dyn       : Option (BitVec 7)
  index     : BitVec 8
  cmdstat   : BitVec 8
  /-- The package wake is asserted. -/
  wake      : Bool
  /-- OD 0x3400.01 LACEPD. -/
  lacepd    : Bool
deriving DecidableEq, Repr

/-- Thermal control (13 R336 to R343). Temperatures are in milli-degrees Celsius where a sensor gives them. -/
structure Thm where
  tj        : Int
  /-- 56 sensors as last read, by sensor number: 4 s + i, then 48 + k in the Vest. -/
  sensors   : List Int
  tin       : Int
  tout      : Int
  tinBad    : Bool
  toutBad   : Bool
  /-- Times of the FLOW pulses of the last second, newest first. -/
  pulses    : List Nat
  lastPulse : Nat
  /-- Model state: coolant node and flow of R337, and power means. -/
  tp        : Rat
  flowF     : Rat
  /-- Power samples at each 10 ms model update, newest first (the last 10 s). -/
  pHist     : List Nat
  /-- Valve setpoints in force at each 10 ms update, newest first, for the delay TDLY. -/
  setHist   : List Rat
  h1        : Rat
  h10       : Rat
  h60       : Rat
  tpl       : BitVec 3
  /-- 10 ms updates since TPL last changed. -/
  tplStill  : Nat
  fdem      : Rat
  /-- Valve duty in 0.1 %, whether the land is driven, and the integrator of the PI law. -/
  duty      : Nat
  driven    : Bool
  integ     : Rat
  /-- Time at which the duty reached 100 % with the flow below 0.9 FDEM. -/
  shortFrom : Option Nat
  flowShort : Bool
  inLow     : Bool
  noFlow    : Bool
  /-- Step of a thermal shutdown in progress (R340), 0 when none, and the sensor that started it. -/
  shut      : Nat
  shutSens  : Nat
deriving DecidableEq, Repr

/-- The thermal objects OD 0x3200.01 to .0D of Table 13.12. -/
structure ThmObj where
  cj     : Nat
  rjp    : Nat
  cp     : Nat
  cpf    : Nat
  tauf   : Nat
  tdly   : Nat
  kf     : Nat
  tjCtl  : Nat
  tjTgt  : Nat
  fmin   : Nat
  fmax   : Nat
  vmin   : Nat
  vmode  : BitVec 16
deriving DecidableEq, Repr

/-- A record of the Pocket ring (Table 16.3), at its ring offset. -/
structure PktRec where
  off     : Nat
  time    : Nat
  rep     : Nat
  rpt     : Report
  /-- The present contents are in the mirror. -/
  mirrored : Bool
  /-- A word of the record is uncorrectable in SRAM. -/
  bad     : Bool
deriving DecidableEq, Repr

/-- An entry of the ingress queue: a report, its time, its count, and whether it holds its class's reserved entry. -/
structure PktEntry where
  rpt   : Report
  time  : Nat
  count : Nat
  rsvd  : Bool
deriving DecidableEq, Repr

/-- A 4 KiB mirror unit (R409): its sequence number and its records. -/
structure MirUnit where
  mseq : Nat
  recs : List PktRec
deriving DecidableEq, Repr

/-- The Pocket and the error registers (16). -/
structure Pkt where
  /-- Valid records, oldest first. -/
  ring      : List PktRec
  /-- The bytes of the ring in the secure SRAM, by offset; 0 where none is listed. -/
  back      : List (Nat × Byte)
  head      : Nat
  tail      : Nat
  written   : BitVec 32
  overwr    : BitVec 32
  hwm       : BitVec 8
  queue     : List PktEntry
  /-- VEST.PKT.DROP[k], and the interval counts and times of R407, R408. -/
  drops     : List (Nat × BitVec 32)
  ivCnt     : List (Nat × BitVec 32)
  ivFirst   : Nat
  ivLast    : Nat
  /-- Read port: OFF, the words of the record in its buffer still to be read, and the offset that follows it. -/
  rdOff     : BitVec 22
  rdBuf     : List Word
  rdLoaded  : Bool
  mirState  : BitVec 2
  mir0      : List MirUnit
  mir1      : List MirUnit
  mseq      : Nat
  /-- The copy of the mirror that is being rotated (R410): 0 none, 1 the journal home's, 2 the other. -/
  rot       : Nat
  /-- Time the oldest waiting record was written, and the time of a waiting CLASS 4 record. -/
  waitFrom  : Option Nat
  waitFatal : Option Nat
  /-- The retained slot (AON), and whether its record, written to the ring again, is mirrored before the others (R81, R411). -/
  retained  : Option PktRec
  retPend   : Bool
  fatal     : BitVec 16
  ucs       : BitVec 16
  defer     : BitVec 16
  corr      : BitVec 16
  sramUe    : BitVec 32
  sramCe    : BitVec 32
  sramBase  : BitVec 32
  ceth      : BitVec 16
  msiEn     : Bool
  msiMask   : BitVec 4
  msiHart   : BitVec 10
  msiEiid   : BitVec 8
  /-- Time of the last error MSI, and whether a record waits for the end of the 10 µs interval (R398). -/
  msiLast   : Option Nat
  msiDefer  : Bool
deriving DecidableEq, Repr

/-- Lands, supplies and resets (19). -/
structure Pins where
  resetNLow  : Bool
  /-- Rails out of tolerance. -/
  railBad    : List Rail
  oscStable  : Bool
  refclkOk   : Bool
  pwrfailLow : Bool
  vinLow     : Bool
  /-- Package reset is asserted. -/
  inReset    : Bool
  /-- Time of the last internal reset assertion, held for 1 ms (R454). -/
  intReset   : Option Nat
  /-- Events since the previous package reset ended (R455), held in AON. -/
  evPor      : Bool
  evWdt      : Bool
  evThm      : Bool
  evPf       : Bool
  evPk3      : Bool
  evRstN     : Bool
  straps     : Straps
deriving DecidableEq, Repr

end Sys2Proof.Machine
end

