-- ==== Sys2Proof/Machine/StStor.lean ====
section
/-! DEFINITION. The state of the storage interface (09), flash translation (10), power-loss safety (11), tenants and the
Belt (12). -/

namespace Sys2Proof.Machine

/-- Queue pair q (09 Tables 9.5, 9.6; 12 Table 12.2). Queue words carry their end mark. The CQ list starts at the oldest
unreleased word; the read pointer and the mark are places in it. -/
structure QPair where
  en     : Bool
  err    : BitVec 3
  tid    : BitVec 12
  cls    : BitVec 2
  sqsz   : BitVec 4
  cqsz   : BitVec 4
  xlate  : Bool
  nsmask : BitVec 64
  state  : BitVec 2
  sq     : List (Word × Bool)
  /-- Granules of store-queue SRAM that the SQ and the CQ hold (R218, R467), and the places in them of the words at the head
  of `sq` and of `cq`, counted in words. -/
  sqG    : List Nat
  cqG    : List Nat
  sqHead : Nat
  cqHead : Nat
  ovf    : Bool
  cq     : List (Word × Bool)
  rp     : Nat
  mark   : Nat
  em     : Bool
  rdone  : Bool
  nsupp  : BitVec 16
  nabort : BitVec 16
  ndrop  : BitVec 16
  /-- The running reset ends with EN = 0, and the CIDs of ABORTED_QUEUE_RESET completions still to be written. -/
  rstDis : Bool
  aborts : List (BitVec 16)
  intEn  : Bool
  file   : BitVec 4
  ihart  : BitVec 10
  eiid   : BitVec 8
  thr    : BitVec 8
  tmo    : BitVec 16
  pend   : BitVec 16
  sent   : BitVec 32
  disc   : BitVec 32
  /-- Time the oldest completion counted in PEND became visible. -/
  oldest : Nat
deriving DecidableEq, Repr

/-- A flash location reserved for a block of a WRITE (R253): the block's place in the command, its segment and offset, the
band, the unit in it (native offset or log unit) and the log slot; and the block's data until it is acknowledged. -/
structure Res where
  blk  : Nat
  seg  : Nat
  off  : Nat
  bn   : Nat
  unit : Nat
  log  : Option Nat
  data : List Byte
  unrec : Bool
deriving DecidableEq, Repr

/-- An admitted store command (09 Table 9.12). -/
structure Cmd where
  id    : Nat
  q     : Nat
  cid   : BitVec 16
  opc   : Nat
  nsid  : Nat
  slba  : Nat
  nlb   : Nat
  hint  : Nat
  dptm  : Nat
  dptr  : Nat
  tid   : BitVec 12
  /-- Holds a range-lock entry; has started; its data operations have been issued. -/
  lock  : Bool
  started : Bool
  issued : Bool
  /-- The packets that read a WRITE's source areas have passed the media engine's port (R167). -/
  metered : Bool
  /-- Blocks (offsets from SLBA) outstanding; for a FLUSH the WRITEs of other pairs that were not complete at its admission. -/
  todo  : List Nat
  res   : List Res
  /-- Failures met: LBA and status. -/
  errs  : List (Nat × Nat)
deriving DecidableEq, Repr

/-- The storage interface (09): VEST.STOR (Table 9.2), the queue pairs and the admitted commands in admission order. -/
structure Stor where
  en    : Bool
  wt    : Bool
  dref  : Bool
  st    : BitVec 4
  wh    : BitVec 8
  wm    : BitVec 8
  wl    : BitVec 8
  credH : Nat
  credM : Nat
  credL : Nat
  /-- Round-robin position of each class: the pair after the one served last. -/
  rr    : List (Nat × Nat)
  waits : BitVec 32
  hwm   : BitVec 13
  pairs : List (Nat × QPair)
  cmds  : List Cmd
  nextId : Nat
deriving DecidableEq, Repr

/-- The segment map entry of a global segment (Table 10.5). -/
structure SegEnt where
  v    : Bool
  log  : Bool
  hot  : Bool
  busy : Bool
  rwc  : Nat
  idx  : Nat
  band : Nat
deriving DecidableEq, Repr

/-- A log slot's descriptor (R250): the segment it serves, its band, the next free log unit, the TID it is charged to
(R315) and the time of its last write. -/
structure LogSlot where
  bound : Bool
  seg   : Nat
  band  : Nat
  next  : Nat
  tid   : BitVec 12
  lastW : Nat
deriving DecidableEq, Repr

/-- A merge or fill descriptor (R253, R256). -/
structure FDesc where
  seg   : Nat
  /-- KIND = FILL; DEST; the next offset; a merge is running (a fill only collects writes until one does). -/
  fill  : Bool
  dest  : Nat
  next  : Nat
  run   : Bool
  succ  : Option Nat
  /-- Media sequence counter of the MERGE_START record. -/
  rseq  : Nat
  /-- A unit of the segment's log band could not be decoded at recovery (R291). -/
  unk   : Bool
  /-- The band that DEST replaces (Rebuilding, Table 10.17), and how many offsets only that band holds. -/
  reb   : Option (Nat × Nat)
  /-- Step of Table 10.10: 2 copying, 3 verifying, 4 waiting for the map change to be durable. -/
  step  : Nat
  /-- Time of the last write to a fill. -/
  lastW : Nat
deriving DecidableEq, Repr

/-- A namespace (R216, R248). -/
structure Ns where
  state  : Nat
  lgmask : BitVec 8
  sbase  : Nat
  nseg   : Nat
  segblk : Nat
deriving DecidableEq, Repr

/-- States of a band: free, open, closed and being verified, verified or full and mapped, being rebuilt, waiting for its
erase or being erased, fixed to a system role, dissolved. -/
inductive BandSt where | free | open_ | verifying | mapped | rebuild | erase | fixed | gone
deriving DecidableEq, Repr

/-- A band record (R245, Table 10.3). -/
structure Band where
  st      : BandSt
  kind    : Nat
  hot     : Bool
  seg     : Nat
  slc     : Bool
  openSeq : Nat
  openTime : Nat
  /-- Temperature of the 16 dies at open, in °C. -/
  temp    : List Int
  /-- Effective age in hours (R265). -/
  age     : Nat
  /-- Erase block in use at each of the 16 positions. -/
  eb      : List Nat
  /-- Stripes whose parity has been mirrored (R269), units verified, and the parity exists. -/
  mir     : Nat
  ver     : Nat
  parity  : Bool
  /-- A refresh of the band is due: 0 none, 1 retention, 2 ladder, 3 disturb, 4 die failure, 5 wear (R263 to R267). -/
  due     : Nat
deriving DecidableEq, Repr

/-- A block record (Table 10.13). -/
structure EBlk where
  state   : Nat
  suspect : Bool
  ec      : Nat
  rdc     : Nat
deriving DecidableEq, Repr

/-- A programmed 4 KiB unit of flash: its data and metadata (Table 10.4). `bad`: the codeword was not programmed, or its die
failed, so that only the stripe parity yields it. -/
structure FUnit where
  data  : List Byte
  seg   : Nat
  gc    : Bool
  zero  : Bool
  unrec : Bool
  hdr   : Bool
  page  : Nat
  seq   : Nat
  bn    : Nat
  bad   : Bool
deriving DecidableEq, Repr

/-- A page map entry (Table 10.6): V with the log unit, or D. -/
inductive PmEnt where
  | none
  | unit (l : Nat)
  | disc
deriving DecidableEq, Repr

/-- The map that the checkpoint holds (Table 11.8): segment map, slot descriptors, merge and fill descriptors, namespaces,
band table and block table. -/
structure Maps where
  segs  : List (Nat × SegEnt)
  slots : List (Nat × LogSlot)
  descs : List FDesc
  nss   : List (Nat × Ns)
  bands : List (Nat × Band)
  ebs   : List (Nat × EBlk)
deriving DecidableEq, Repr

/-- A lane group (R242, Table 10.2). -/
structure LgSt where
  state : Nat
  cause : Nat
  geo   : Geo
  /-- Formatted (its system bands carry valid headers), spares and merge reserve chosen at its format: non-volatile. -/
  fmt   : Bool
  spareN : Nat
  mres  : Nat
  grown : Nat
  unrec : Nat
  /-- Parity-scratch units used in the current scratch band, and which of the two it is. -/
  scrUsed : Nat
  scrSel  : Bool
deriving DecidableEq, Repr

/-- What a flash operation is for. -/
inductive FOpKind where
  | readCmd (cmd blk : Nat)
  | readBack (slot : Nat)
  | progSlot (slot : Nat)
  | progHdr (pos : Nat)
  | readMerge (seg off : Nat)
  | progMerge (seg off : Nat)
  | verify
  | progPar (stripe : Nat)
  | reparity (stripe : Nat)
  | erase (pos : Nat)
  | sample
  | ckpt
deriving DecidableEq, Repr

/-- A flash operation that waits or runs: the band and the unit (position × 2^20 + unit of the erase block), the owner that
the Belt charges, the classes still to be charged, the entry that holds its program unit and whether that is a borrowed one, the ladder step, and for a program
the unit's contents. -/
structure FOp where
  id    : Nat
  kind  : FOpKind
  bn    : Nat
  u     : Nat
  eng   : Bool
  tid   : BitVec 12
  left  : List (Fin 6)
  act3  : Option Nat
  bor3  : Bool
  step  : Nat
  /-- The entry of the threshold table whose offsets a read uses at step 0 (R266). -/
  thr   : Nat
  what  : FUnit
deriving DecidableEq, Repr

/-- A namespace command that has not finished (R371): 1 resize, 2 delete; the segments still to be released; the commands
admitted before it. -/
structure NsCmd where
  op    : Nat
  nsid  : Nat
  ctx   : Option DictCtx
  lo    : Nat
  hi    : Nat
  wait  : List Nat
deriving DecidableEq, Repr

/-- The media management objects of Table 10.18. -/
structure MediaObj where
  maxopen : Nat
  mres    : Nat
  logLow  : Nat
  freeBg  : Nat
  freeLow : Nat
  fillIdle : Nat
  hotTh   : Nat
  hintW   : Nat
  decay   : Nat
  gcb     : List Nat
  sparePct : Nat
  wlGap   : Nat
  eolPe   : Nat
  retTh   : List Nat
  rdTh    : List Nat
  /-- Threshold table entries that have been written (the others hold the part profile's). -/
  thr     : List (Nat × List Byte)
deriving DecidableEq, Repr

/-- Flash translation and media management (10). -/
structure Ftl where
  lgs    : List (Nat × LgSt)
  /-- Programmed units (non-volatile), by erase block × 2^20 + unit. -/
  media  : List (Nat × FUnit)
  /-- Dies that have failed, by (lane group × 16 + position) × 16 + die slot. -/
  deadDie : List Nat
  /-- Program and erase operations that each die has failed in a row (R264). -/
  dieRow : List (Nat × Nat)
  maps   : Maps
  /-- The page map, at slot × 2^24 + offset. -/
  pm     : List (Nat × PmEnt)
  ops    : List FOp
  nextOp : Nat
  /-- Media sequence counter, and the offset of media time. -/
  seq    : Nat
  mtOff  : Nat
  /-- Flash die temperatures in 1/16 °C by lane group × 16 + position. -/
  temps  : List (Nat × Int)
  /-- Sum and number of the samples of each die since the last age update. -/
  tempSum : List (Nat × (Int × Nat))
  /-- VEST.MEDIA.REGION (Table 10.7). -/
  rLock  : Bool
  rErr   : BitVec 3
  rBase  : BitVec 31
  rSize  : BitVec 16
  obj    : MediaObj
  /-- The Static objects MAXOPEN in force (from the last enable). -/
  maxopenF : Nat
  offtime  : Nat
  /-- Units programmed, and those of tenants (WAF). -/
  progU  : Nat
  tenU   : Nat
  urg    : Nat
  nsCmd  : Option NsCmd
  /-- Times of the last age update and of the last decay. -/
  ageAt  : Nat
  decayAt : Nat
deriving DecidableEq, Repr

/-- The holdup supervisor (11 R279, R280): VEST.HOLD (Table 11.2) and its outputs (Table 19.8). Voltages of samples are in
microvolts. -/
structure Hold where
  vchg  : BitVec 12
  vlo   : BitVec 12
  itst  : BitVec 12
  phold : BitVec 16
  ttst  : BitVec 8
  ereq  : BitVec 16
  valid : Bool
  busy  : Bool
  low   : Bool
  terr  : BitVec 3
  cap   : BitVec 16
  esr   : BitVec 12
  euse  : BitVec 20
  lasttst : BitVec 32
  vnow  : BitVec 16
  /-- HOLD_V gave a valid reading at the last update. -/
  vok   : Bool
  /-- The test after this package reset has been started (first case of R280). -/
  first : Bool
  /-- The test waits for the bank to charge; else the step of Table 11.3 (0: none). -/
  waiting : Bool
  step  : Nat
  since : Nat
  v1    : Nat
  va    : Nat
  chgOut : Bool
  enOut  : Bool
  tstOut : Bool
deriving DecidableEq, Repr

/-- A slot of the protected write buffer (Table 11.1): its block, sequence number, reserved location, tenant and state. -/
structure PSlot where
  id    : Nat
  seg   : Nat
  off   : Nat
  seq   : Nat
  data  : List Byte
  unrec : Bool
  tid   : BitVec 12
  bn    : Nat
  /-- The unit in the band: native offset, or log unit with its log slot. -/
  unit  : Nat
  log   : Option Nat
  super : Bool
  /-- Programmed, and the read-back or the parity mirror still outstanding. -/
  prog  : Bool
  /-- The command that wrote it, and the block of that command that is acknowledged only at the release (WT = 1). -/
  cmd   : Nat
  wait  : Option Nat
deriving DecidableEq, Repr

/-- A journal record (Tables 11.6, 11.7): what it says. -/
inductive JOp where
  | segmap (g : Nat) (e : SegEnt)
  | slotBind (slot g band : Nat) (tid : BitVec 12)
  | slotFree (slot : Nat)
  | discard (slot off cnt : Nat)
  | mergeStart (g : Nat) (succ : Option Nat) (fromFill : Bool) (dest : Nat)
  | mergeDone (g : Nat) (oldData oldLog : Option Nat)
  | fillOpen (g dest : Nat)
  | erased (bn : Nat)
  | block (key : Nat) (e : EBlk)
  | bandMap (bn pos : Nat) (eb : Option Nat)
  | namespace_ (n : Nat) (v : Ns)
  | time (t : Nat)
  | checkpoint (num bn : Nat)
deriving DecidableEq, Repr

structure JRec where
  rseq : Nat
  jnum : Nat
  op   : JOp
deriving DecidableEq, Repr

/-- A valid checkpoint (Table 11.8). -/
structure Ckpt where
  num   : Nat
  jnum  : Nat
  mtime : Nat
  seq   : Nat
  maps  : Maps
deriving DecidableEq, Repr

/-- One manifest entry of a drain with its data unit (Table 11.5); no data: the unit was not programmed. -/
structure DrainEnt where
  seg   : Nat
  off   : Nat
  seq   : Nat
  data  : Option (List Byte)
  unrec : Bool
deriving DecidableEq, Repr

/-- The drain bands' contents (Table 11.5). -/
structure DrainImg where
  num   : Nat
  mtime : Nat
  seq   : Nat
  /-- Manifest entries that the drain header counts. -/
  cnt   : Nat
  man   : List DrainEnt
  manOk : Bool
  jrn   : List JRec
  done  : Bool
  /-- Main power was present throughout (LAST = 4). -/
  main  : Bool
deriving DecidableEq, Repr

/-- Power-loss safety (11). -/
structure Pls where
  slots  : List PSlot
  nextSlot : Nat
  dlim   : Nat
  last   : BitVec 4
  rcause : BitVec 4
  unrec  : BitVec 16
  recAt  : Nat
  recTime : Nat
  /-- Outcome of the recovery that runs: 0 OK, else RCAUSE. -/
  recRes : Nat
  /-- The journal tail ring (volatile); the programmed records since the older checkpoint, and the checkpoints, in the journal
  home and its mirror (non-volatile). -/
  tail   : List JRec
  jrn    : List JRec
  /-- Journal units programmed in the band that holds them since the last snapshot. -/
  jUnits : Nat
  jnum   : Nat
  cks    : List Ckpt
  ckNum  : Nat
  /-- The snapshot of the checkpoint being written, the time it started, and the map-change count in bytes. -/
  snap   : Option Ckpt
  ckAt   : Nat
  timeAt : Nat
  mapChg : Nat
  drain  : Option DrainImg
  drainNum : Nat
  /-- Step of the drain that runs (3 to 8 of Table 11.4; 0 none), what started it (0 power failure, 1 watchdog, 2 thermal
  shutdown), and whether a power failure holds it. -/
  step   : Nat
  cause  : Nat
  pf     : Bool
  holdEn : Bool
deriving DecidableEq, Repr

/-- One scope of a Belt activity: units charged in the period, own units left, debt (R306), and for class 3 the programs
in progress on own and on borrowed units. -/
structure ActSc where
  used : Nat
  left : Nat
  debt : Nat
  own  : Nat
  bor  : Nat
deriving DecidableEq, Repr

/-- A Belt activity entry (Table 12.4): the fields as written, and what is in force until the next boundary. -/
structure Act where
  en      : Bool
  borrow  : Bool
  eng     : Bool
  cls     : BitVec 3
  scope   : BitVec 4
  tid     : BitVec 12
  budget  : BitVec 32
  active  : Bool
  borrowF : Bool
  budgetF : BitVec 32
  remnant : Bool
  last    : BitVec 32
  holds   : BitVec 32
  /-- The entry was found uncorrectable: its CFG reads zero until rewritten (Table 12.6). -/
  bad     : Bool
  sc      : List (Nat × ActSc)
deriving DecidableEq, Repr

/-- What a held item is: a plain item, a packet that a command carries, a flash operation, or a home agent's transaction. -/
inductive HeldWhat where
  | item
  | cmd (c : Instr)
  | op (id : Nat)
  | txn (line : Nat)
deriving DecidableEq, Repr

/-- An item held at an enforcement point of classes 1 to 5, oldest first in its list: its activity, scope and cost; `bor` says of
a released one that it took a borrowed program unit. -/
structure HeldItem where
  act   : Nat
  scope : Nat
  cost  : Nat
  what  : HeldWhat
  bor   : Bool
deriving DecidableEq, Repr

/-- A resource class (Table 12.5): PERIOD and CAPR as written and in force, and the borrow pool of each scope. -/
structure BCls where
  period  : BitVec 14
  periodF : BitVec 14
  cap     : List (Nat × BitVec 32)
  capF    : List (Nat × BitVec 32)
  pool    : List (Nat × Nat)
  /-- Time of the last boundary. -/
  lastB   : Nat
deriving DecidableEq, Repr

/-- The Belt and the tenant registers (12). -/
structure Belt where
  acts   : List (Nat × Act)
  cls    : List (Nat × BCls)
  held   : List HeldItem
  /-- Items of withdrawn activities that go on at the next idle step (Table 12.9, steps 3 and 5). -/
  passed : List HeldItem
  errEnt : BitVec 8
  errCode : BitVec 3
  /-- VEST.TEN.RST and RSTSTAT (Table 12.8). -/
  tBusy  : Bool
  tDone  : Bool
  tErr   : BitVec 3
  tTid   : BitVec 12
  /-- The TID of the reset in progress, its pairs, and the counts of the last reset. -/
  tCur   : BitVec 12
  tPairs : List Nat
  tActs  : BitVec 8
  tNdrop : BitVec 16
  tNsupp : BitVec 16
  tNqp   : BitVec 5
  /-- VEST.TEN.LOGQ[i] as words (Table 12.8); unlisted: MAX 1024. -/
  logq   : List (Nat × BitVec 64)
deriving DecidableEq, Repr

end Sys2Proof.Machine
end

