-- ==== Sys2Proof/Machine/StSvc.lean ====
section
/-! DEFINITION. The state of the Akale dictionary (14), boot and ownership (15), PCIe, CXL links and the IOMMU (17), debug
and self-test (18). -/

namespace Sys2Proof.Machine

/-- A response kept for a resent request (R362). -/
structure Kept where
  reqid : BitVec 32
  body  : List Byte
deriving DecidableEq, Repr

/-- A management session (R354). -/
structure Session where
  sid    : BitVec 32
  level  : BitVec 8
  src    : NetAddr
  /-- Session keys: client to device, device to client (R351). -/
  kc2d   : List Byte
  kd2c   : List Byte
  rxSeq  : Nat
  txSeq  : Nat
  rxCnt  : Nat
  maxReq : Nat
  kept   : List Kept
  /-- Time of establishment, of the last valid datagram from the client, and the idle timeout in s that applies. -/
  start  : Nat
  last   : Nat
  idle   : Nat
deriving DecidableEq, Repr

/-- A client key table entry (OD 0x1030+k). -/
structure KeyEnt where
  hash  : List Byte
  level : BitVec 8
  en    : Bool
deriving DecidableEq, Repr

/-- A handshake in progress (R350): what DEVICE_HELLO fixed. -/
structure Handshake where
  src   : NetAddr
  sid   : BitVec 32
  level : BitVec 8
  th1   : List Byte
  sig   : List Byte
  secret : List Byte
  since : Nat
  /-- The client key table when the handshake started (OD 0x1030+k.03). -/
  keys  : List (Nat × KeyEnt)
deriving DecidableEq, Repr

/-- A message being reassembled (R349). -/
structure Partial where
  src   : NetAddr
  sid   : BitVec 32
  type  : Nat
  mlen  : Nat
  fcnt  : Nat
  frags : List (Nat × List Byte)
  since : Nat
deriving DecidableEq, Repr

/-- A subscription (R360). -/
structure Sub where
  id     : BitVec 16
  sid    : BitVec 32
  dst    : NetAddr
  index  : BitVec 16
  sub    : BitVec 8
  mode   : BitVec 8
  int    : Nat
  /-- The value last sent. -/
  value  : List Byte
deriving DecidableEq, Repr

/-- A datagram sent (R348): its destination and bytes (header, fragment and tag). -/
structure Sent where
  dst   : NetAddr
  bytes : List Byte
deriving DecidableEq, Repr

/-- A command that a session started and that has not ended (R361). -/
structure PendCmd where
  sid   : BitVec 32
  reqid : BitVec 32
  index : BitVec 16
  sub   : BitVec 8
deriving DecidableEq, Repr

/-- The Static communication objects of Table 14.11. -/
structure NetCfg where
  port    : BitVec 16
  plcaen  : Bool
  nodeid  : BitVec 8
  nodecnt : BitVec 8
  burst   : BitVec 8
  totmr   : BitVec 8
deriving DecidableEq, Repr

/-- The Akale dictionary (14). -/
structure Adp where
  /-- Duplicate address detection: 0 running, 1 address held, 2 failed (R347). -/
  dad       : Nat
  cfg       : NetCfg
  cfgF      : NetCfg
  idletmo   : BitVec 16
  authfail  : BitVec 32
  keys      : List (Nat × KeyEnt)
  /-- Enrolment by the strap has been used since package reset (R352). -/
  enrolled  : Bool
  hs        : List Handshake
  sessions  : List Session
  partials  : List Partial
  subs      : List Sub
  /-- Times of failed handshakes by source address, newest first, and blocked addresses with the time of the block. -/
  fails     : List (BitVec 128 × Nat)
  blocked   : List (BitVec 128 × Nat)
  pend      : List PendCmd
  out       : List Sent
deriving DecidableEq, Repr

/-- The boot flash area of an image slot (R375, R376): the OFFSET and LENGTH of its directory entry and its bytes (header
and body, or a certificate), erased bytes unlisted. -/
structure FwSlot where
  off   : BitVec 32
  len   : Nat
  bytes : List Host.Cell
deriving DecidableEq, Repr

/-- The image record of an image in use (Table 15.12): slot, FWVER, SVN and header digest D. -/
structure ImgRec where
  slot  : Nat
  fwver : Nat
  svn   : Nat
  dig   : List Byte
deriving DecidableEq, Repr

/-- Boot and trust (15). Images are numbered 0 Cloak firmware, 1 MC-E, 2 MC-W, 3 media engine, 4 monitor, 5 normal firmware. -/
structure Boot where
  /-- The step of Table 15.4 under way (0: before step 1); the boot ROM has stopped (R19, R381). -/
  step    : Nat
  romStop : Bool
  stage   : BitVec 4
  /-- Result codes of VEST.BOOT.STAT by image number. -/
  res     : List (Nat × BitVec 4)
  hartrel : BitVec 12
  monrdy  : Bool
  /-- The boot flash (by 2 × TYPE + SLOT), the thermometer counters by TYPE, and the token epoch: non-volatile. -/
  flash   : List (Nat × FwSlot)
  svn     : List (Nat × Nat)
  epoch   : Nat
  /-- Images in use, and the digests measured at package reset (R388). -/
  imgs    : List (Nat × ImgRec)
  meas    : List (Nat × List Byte)
  /-- Step 7 is done: the keys exist and the alias certificate is made. The UDS fuses are locked. -/
  keys    : Bool
  udsLock : Bool
  aliasCert : List Byte
  /-- The current debug challenge and the time of its issue (R392). -/
  chal    : Option (List Byte × Nat)
  /-- Secure debug has been unlocked since package reset. -/
  dbgEver : Bool
  /-- DRAM bring-up or the image loads of the media engine have ended with firmware loaded. -/
  mediaFw : Bool
deriving DecidableEq, Repr

/-- The token logic (15 R382 to R386). -/
structure Own where
  /-- 0 none, 1 MC-E, 2 MC-W; PHASE 0 free, 1 claim window, 2 held, 3 safe state. -/
  holder  : BitVec 2
  phase   : BitVec 2
  claimE  : Bool
  claimW  : Bool
  /-- Last ALIVE writes while present (R383). -/
  aliveE  : Option Nat
  aliveW  : Option Nat
  absE    : Bool
  absW    : Bool
  svnE    : BitVec 8
  svnW    : BitVec 8
  takeovers : BitVec 16
  safestops : BitVec 16
  /-- Controllers held in reset; a reload of the Cloak processor under way for them. -/
  rstE    : Bool
  rstW    : Bool
  reload  : Bool
  /-- Controllers whose writes are discarded in the safe state. -/
  safe    : Bool
deriving DecidableEq, Repr

/-- A link of a root port (Table 17.1, LNK). -/
structure PLink where
  up     : Bool
  cxl    : Bool
  dpc    : Bool
  /-- The CXL device cannot keep the poison of a line (R212). -/
  noPoison : Bool
  width  : BitVec 8
  speed  : BitVec 4
  ctocnt : BitVec 16
deriving DecidableEq, Repr

/-- A root port (Table 17.1, CFG): the Static fields as written and in force; the port is powered; INTx messages and other
AER events logged. -/
structure Port where
  cto    : BitVec 16
  cxlen  : BitVec 4
  rate   : BitVec 3
  bifur  : BitVec 3
  cxlenF : BitVec 4
  rateF  : BitVec 3
  bifurF : BitVec 3
  aer    : Nat
  /-- Requests to the port's windows that await a completion: tag, requester and address. -/
  wait   : List (BitVec 12 × (Agent × Nat))
deriving DecidableEq, Repr

/-- An IOTLB entry (Table 17.5): context tags, the translated page and its attributes, and the block set it came from. -/
structure IoTlbEnt where
  gscid : BitVec 16
  pscid : BitVec 20
  did   : BitVec 24
  pid   : Option (BitVec 20)
  va    : Nat
  gpa   : Nat
  out   : Nat
  size  : Nat
  perm  : BitVec 8
  glob  : Bool
  /-- The context has a second stage. -/
  two   : Bool
  bset  : Option Nat
deriving DecidableEq, Repr

/-- A directory cache entry: a device context by DID (eight words), or a process context. -/
structure DdtEnt where
  did   : BitVec 24
  pid   : Option (BitVec 20)
  words : List Word
deriving DecidableEq, Repr

/-- The IOMMU (R422 to R425): the registers of its standard file by offset ÷ 4 (32-bit words), the block sets, IOTLB and
directory cache. -/
structure Iommu where
  regs  : List (Nat × BitVec 32)
  blk   : List (Nat × Word)
  tlb   : List IoTlbEnt
  ddc   : List DdtEnt
deriving DecidableEq, Repr

/-- PCIe, CXL links and the IOMMU (17). Links are at key port × 4 + link. -/
structure Pcie where
  ports : List (Nat × Port)
  links : List (Nat × PLink)
  iommu : Iommu
deriving DecidableEq, Repr

/-- A debug module (18 R430, R431). -/
structure DbgMod where
  active  : Bool
  ndm     : Bool
  hartsel : BitVec 20
  hasel   : Bool
  hawsel  : BitVec 15
  mask    : BitVec 80
  data0   : BitVec 32
  data1   : BitVec 32
  cmd     : BitVec 32
  progbuf : List (Nat × BitVec 32)
  cmderr  : BitVec 3
  resumeAck : BitVec 80
  haveReset : BitVec 80
  grpRes  : Bool
  sbBusy  : Bool
  sbBusyErr : Bool
  sbRonA  : Bool
  sbAcc   : BitVec 3
  sbInc   : Bool
  sbRonD  : Bool
  sbErr   : BitVec 3
  sbAddr  : Word
  sbData  : Word
deriving DecidableEq, Repr

/-- A self-test target (Table 18.9, STAT) and the step of its run. -/
structure BistSt where
  state : BitVec 3
  err   : BitVec 3
  kind  : BitVec 2
  tend  : BitVec 48
  step  : Nat
  /-- A domain reset waits for the run to end (R445); the BISTRUN that the run answers. -/
  rst   : Bool
  ctx   : Option (BitVec 32 × BitVec 32)
deriving DecidableEq, Repr

/-- The debug port and self-test (18). The Vest harts (Table 18.2) stand in `State.harts` from 960. -/
structure Dbg where
  ir     : BitVec 5
  /-- Boundary register: captured lands and the update latch. -/
  bsrIn  : BitVec 384
  bsrOut : BitVec 384
  bypass : Bool
  /-- dmi: sticky status, and address, data and result of the last access. -/
  dmistat : BitVec 2
  dmiAddr : BitVec 16
  dmiData : BitVec 32
  /-- A debug token that is verifying (from the dictionary when `tokDict`), the result of the last one, the unlocked scope. -/
  tok    : Option (List Byte × List Byte)
  tokDict : Option (BitVec 32 × BitVec 32)
  tokRes : BitVec 4
  scope  : BitVec 13
  mods   : List (Nat × DbgMod)
  haltGrp : List (Nat × Nat)
  resGrp : List (Nat × Nat)
  bTarget : BitVec 4
  bKind  : BitVec 2
  bist   : List (Nat × BistSt)
  /-- Signatures by ((target × 128 + unit) × 2 + kind). -/
  sigs   : List (Nat × Word)
deriving DecidableEq, Repr

end Sys2Proof.Machine
end

