-- ==== Sys2Proof/Machine/State.lean ====
section
/-! DEFINITION. The state of the whole package, its reset value, and the reasons a step can stop. -/

namespace Sys2Proof.Machine

/-- What the last command returned to its sender (the model's own field). -/
inductive Answer where
  | none
  /-- A register or queue word read. -/
  | word (v : Word)
  /-- Bytes returned: a load's bytes, a completion with data, a TAP or I3C register. -/
  | bytes (l : List Byte)
  /-- Bytes returned with a poison indication. -/
  | poison (l : List Byte)
  /-- An error completion or a refused request. -/
  | error
  /-- The status of a dictionary entry or command and its result (Table 14.8). -/
  | status (code : Nat) (value : List Byte)
  /-- The statuses of a multi-entry request, in request order. -/
  | multi (l : List (Nat × List Byte))
deriving DecidableEq, Repr

/-- The state of the block. -/
structure State where
  pkg    : Pkg
  pins   : Pins
  fab    : Fab
  pwr    : Pwr
  lace   : Lace
  thm    : Thm
  tobj   : ThmObj
  pkt    : Pkt
  harts  : List (Nat × Hart)
  cores  : List (Nat × Core)
  slvs   : List (Nat × Slv)
  /-- SLV[s].TMR.MTIMECMP by hart; unlisted: all ones (R57). -/
  mtimecmp : List (Nat × Word)
  /-- Merge buffers of the 16 Vest SRAM banks (R126). -/
  vmerge : List (Nat × List MergeEnt)
  /-- Merge buffers of the banks of the store-queue SRAM, by bank. -/
  qmerge : List (Nat × List MergeEnt)
  coh    : Coh
  cloak  : Cloak
  dram   : Dram
  stor   : Stor
  ftl    : Ftl
  hold   : Hold
  pls    : Pls
  belt   : Belt
  adp    : Adp
  boot   : Boot
  own    : Own
  pcie   : Pcie
  dbg    : Dbg
  /-- The package timebase, in counts of 10 ns (R56). -/
  time   : Nat
  /-- The model's own: the index of the next free value. -/
  free   : Nat
  /-- The model's own: what the last command returned. -/
  answer : Answer
  /-- The commands that wait, first in, first out. -/
  pending : List Instr
deriving DecidableEq, Repr

/-- Why a step stops with a fault. -/
inductive Fault where
deriving DecidableEq, Repr

/-- Why a step is refused. -/
inductive Refusal where
  /-- Raised by the arm of a command that has no meaning yet, with its mnemonic. Safe: nothing can be concluded. -/
  | notModelled (mnemonic : String)
deriving DecidableEq, Repr

/-- The outcome of a meaning. -/
abbrev Out := Host.Outcome State Fault Refusal

/-- Package registers after reset (Tables 1.3 to 1.6, 1.11, 1.12). -/
def Pkg.reset : Pkg where
  dieFuse := []
  fuseRead := false
  vestBad := false
  excl := []
  cuffUp := 0
  cuffVer := []
  fuseDone := false
  waLock := 0
  wa := []
  waImp := []
  waInForce := []
  domLock := false
  cfgErr := 0
  dom := 0
  domMem := []
  slvHeld := BitVec.allOnes 12

/-- A link end after training (step 8 of Table 7.11): counters at zero. -/
def LinkEnd.reset : LinkEnd where
  nextSeq := 0
  expSeq := 0
  replay := []
  again := none
  lastAck := BitVec.allOnes 12
  nakSeen := none
  nak := none
  replays := 0
  sent := 0
  crd := 0
  freed := 0
  part := []
  verSeen := 0
  selSeen := 0

/-- A Cuff after reset (Table 7.15). -/
def Cuff.reset : Cuff where
  state := 0
  mods := 0
  repaired := 0
  vermap := 0
  retrain := 0
  repair := 0
  replay := 0
  ackTmo := 10
  retryLim := 8
  ackTmoF := 10
  retryLimF := 8
  step := 0
  attempt := 0
  isRetrain := false
  lpow := 0
  phyOn := false
  vest := LinkEnd.reset
  sleeve := LinkEnd.reset
  tbOff := 0
  tbMin := 0

/-- Fabric after reset (Table 7.8). -/
def Fab.reset : Fab where
  grant := 16
  grantF := 16
  uecnt := 0
  cecnt := 0
  ceBase := 0
  cuffs := []
  allow := []
  asked := []
  held := []
  passed := []
  mesh := ⟨[], 0, []⟩

/-- A Sleeve's power registers after reset (Table 13.2; CUR: the lower of REQ and LIM). -/
def SlvPwr.reset : SlvPwr where
  req := 4
  cur := 4
  busy := false
  target := 4
  pwc := 7
  hsc := 7
  hscLow := false
  hscTick := 0
  sl := 0
  slHeld := false
  hot := 0

/-- Power control after an AON power-on reset (Tables 13.2, 13.5, 13.7). -/
def Pwr.reset : Pwr where
  slv := []
  meas := 0
  limit := 750
  lowered := []
  belowCnt := 0
  guard_ := 20
  pkmax := 2
  slmax := 4
  pk := 0
  coreSl := []
  entering := []
  waking := []
  wakesrc := 0
  reqBusy := false
  reqTarget := 0
  reqOutcome := 0
  ops := []
  deferred := []
  blocks := []
  pk3 := false
  pk3Cause := 0
  offPending := none
  secHeld := 0

/-- The Lace port after reset. -/
def Lace.reset : Lace where
  staticLow := 0
  dyn := none
  index := 0
  cmdstat := 0
  wake := false
  lacepd := false

/-- Thermal control after reset (Table 13.12: statuses 0, TPL 7). -/
def Thm.reset : Thm where
  tj := 0
  sensors := []
  tin := 0
  tout := 0
  tinBad := false
  toutBad := false
  pulses := []
  lastPulse := 0
  tp := 0
  flowF := 0
  pHist := []
  setHist := []
  h1 := 0
  h10 := 0
  h60 := 0
  tpl := 7
  tplStill := 0
  fdem := 0
  duty := 0
  driven := false
  integ := 0
  shortFrom := none
  flowShort := false
  inLow := false
  noFlow := false
  shut := 0
  shutSens := 0

/-- Defaults of OD 0x3200 (Table 13.12). -/
def ThmObj.reset : ThmObj where
  cj := 40000
  rjp := 40
  cp := 1400000
  cpf := 69700
  tauf := 3000
  tdly := 500
  kf := 1000
  tjCtl := 100
  tjTgt := 85
  fmin := 20
  fmax := 300
  vmin := 100
  vmode := 0

/-- The Pocket after reset (Table 16.6). -/
def Pkt.reset : Pkt where
  ring := []
  back := []
  head := 0
  tail := 0
  written := 0
  overwr := 0
  hwm := 0
  queue := []
  drops := []
  ivCnt := []
  ivFirst := 0
  ivLast := 0
  rdOff := 0
  rdBuf := []
  rdLoaded := false
  mirState := 0
  mir0 := []
  mir1 := []
  mseq := 1
  rot := 0
  waitFrom := none
  waitFatal := none
  retained := none
  retPend := false
  fatal := 0
  ucs := 0
  defer := 0
  corr := 0
  sramUe := 0
  sramCe := 0
  sramBase := 0
  ceth := 64
  msiEn := false
  msiMask := 0b1100
  msiHart := 0
  msiEiid := 0
  msiLast := none
  msiDefer := false

/-- The straps with every land open (Table 19.3). -/
def Straps.openLands : Straps := ⟨.e, false, 0, 0⟩

/-- The lands after an AON power-on reset, with every supply and clock good: package reset is asserted and ends with
PACKAGE_RESET_END (R454). -/
def Pins.reset : Pins where
  resetNLow := false
  railBad := []
  oscStable := true
  refclkOk := true
  pwrfailLow := false
  vinLow := false
  inReset := true
  intReset := none
  evPor := true
  evWdt := false
  evThm := false
  evPf := false
  evPk3 := false
  evRstN := false
  straps := Straps.openLands

def ImsicFile.reset : ImsicFile := ⟨0, 0, 0, 0⟩

/-- A hart after reset: in reset until its Sleeve is released; it then starts in M-mode in the secure world (R70). -/
def Hart.reset : Hart where
  pc := 0
  x := []
  f := []
  priv := 3
  virt := false
  csr := []
  wfi := false
  halted := false
  stopped := false
  inReset := true
  sec := true
  scrubItb := true
  scrubL1 := false
  resv := none
  resHold := none
  imsic := []
  mtip := false
  fetchStop := false
  ras := []
  hist := 0
  indir := none
  wrong := 0
  wrongStop := false
  specPc := 0
  path := []
  specFill := []
  rest := []
  itlb := []
  dtlb := []
  haltPend := false
  resetHalt := false
  trigs := []
  heldAcc := false
  walkPaid := none
  io := none
  prog := false
  progExc := false

def CLine.empty : CLine := ⟨0, .I, 0, false⟩
def Cache.reset : Cache := ⟨[], []⟩

def Core.reset : Core where
  itb := []
  rr := 0
  l2tlb := []
  tlbPlru := []
  walk := []
  walkPlru := 0
  l1i := Cache.reset
  l1d := Cache.reset
  l2 := Cache.reset
  str1 := []
  str2 := []

/-- A Sleeve's cache control after reset (Table 5.6). -/
def Slv.reset : Slv where
  count := 0
  wayReq := 0
  off := 0
  scr := 0
  err := 0
  busy := false
  uecnt := 0
  cecnt := 0
  ceBase := 0
  convTo := none
  convStep := 0
  drain := 0
  powerUp := 0
  l3 := Cache.reset
  sf := []
  sfPlru := []
  merge := []

def FStop.reset : FStop := ⟨false, false, 0, 0, 0, false, false⟩

/-- Coherence after reset (Table 6.15). -/
def Coh.reset : Coh where
  dir := []
  dplru := []
  txns := []
  queue := []
  mshr := []
  late := []
  wbs := []
  fstop := []
  haTmo := 100
  slTmo := 20
  haTmoF := 100
  slTmoF := 20

/-- Secure-world registers after an AON power-on reset (Tables 3.3, 3.8, 3.10, 3.12): the Hem stands at 0x0601_0000_0000. -/
def Cloak.reset : Cloak where
  monLock := false
  monAddr := 0
  hemLock := false
  hemBusy := false
  hemErr := 0
  hemAddr := 0x300800
  hemOld := none
  wdtLock := false
  wdtEn := false
  wdtTmo := 1000#16
  wdtExp := false
  wdtDfail := false
  wdtFrom := 0
  wdtWarn := false
  wdtStep := 0
  wdtDrained := false
  wdtMirrored := false
  claim := 0
  bound := 100

def DimmSpd.none : DimmSpd := ⟨[], 0⟩

/-- A DRAM channel after reset (Tables 8.2, 8.8, 8.9): empty until bring-up. -/
def Chan.reset : Chan where
  state := 0
  cause := 0
  rate := 0
  temp := 0
  cap := 0
  dpc := 0
  lranks := 0
  width := 0
  dens := 0
  nref := 0
  rhMode := false
  blast := 1
  th := 2048
  thF := 2048
  uecnt := 0
  cecnt := 0
  ceBase := 0
  eaV := false
  eaUe := false
  eaLine := 0
  step := 0
  attempt := 0
  spd := DimmSpd.none
  acts := []
  openRow := []
  postp := []
  raa := []
  fast := false
  hotRec := false
  oscLim := 0
  updTil := 0
  reqs := []
  drainW := false
  served := []
  scrubPos := 0
  pz := []

def CxlDec.reset : CxlDec := ⟨false, 0, 0, 0, 0, 0, 0⟩

/-- DRAM and CXL memory after reset (Tables 8.4, 8.9, 8.11, 8.12). -/
def Dram.reset : Dram where
  chans := []
  scrubEn := true
  scrubPer := 24
  mapLock := false
  mapErr := 0
  chLoaded := false
  chmask := 0
  pwben := false
  ilen := true
  grain := 2
  order := 0
  top := 0x100000000
  mem := []
  poison := []
  decs := []
  recalls := []
  cxlIso := 0
  cxlRetr := 0
  cxlTmo := 40
  cxlTmoF := 40
  cxlOpen := []
  cxlDef := []

/-- A queue pair after reset (Tables 9.5, 12.2). -/
def QPair.reset : QPair where
  en := false
  err := 0
  tid := 0
  cls := 3
  sqsz := 4
  cqsz := 5
  xlate := false
  nsmask := 0
  state := 0
  sq := []
  sqG := []
  cqG := []
  sqHead := 0
  cqHead := 0
  ovf := false
  cq := []
  rp := 0
  mark := 0
  em := false
  rdone := false
  nsupp := 0
  nabort := 0
  ndrop := 0
  rstDis := false
  aborts := []
  intEn := false
  file := 0
  ihart := 0
  eiid := 0
  thr := 1
  tmo := 0
  pend := 0
  sent := 0
  disc := 0
  oldest := 0

/-- The storage interface after reset (Table 9.2). -/
def Stor.reset : Stor where
  en := false
  wt := false
  dref := false
  st := 0
  wh := 8
  wm := 4
  wl := 1
  credH := 0
  credM := 0
  credL := 0
  rr := []
  waits := 0
  hwm := 0
  pairs := []
  cmds := []
  nextId := 0

def SegEnt.reset : SegEnt := ⟨false, false, false, false, 0, 0, 0⟩
def LogSlot.reset : LogSlot := ⟨false, 0, 0, 0, 0, 0⟩
def Ns.reset : Ns := ⟨0, 0, 0, 0, 0⟩
def Geo.none : Geo := ⟨0, 0, false, 0, 0, 0, 0, 0, 0, 0, 0, 0, 0⟩
def LgSt.reset : LgSt := ⟨0, 0, Geo.none, false, 0, 0, 0, 0, 0, false⟩
def EBlk.reset : EBlk := ⟨0, false, 0, 0⟩
def Maps.reset : Maps := ⟨[], [], [], [], [], []⟩

/-- Defaults of Table 10.18. -/
def MediaObj.reset : MediaObj where
  maxopen := 16
  mres := 2
  logLow := 32
  freeBg := 64
  freeLow := 16
  fillIdle := 1000
  hotTh := 32
  hintW := 8
  decay := 1
  gcb := [4000, 16000, 64000]
  sparePct := 25
  wlGap := 200
  eolPe := 100
  retTh := [2160, 1080, 8760]
  rdTh := [200000, 60000, 2000000]
  thr := []

/-- The media engine after reset, on media that hold nothing. -/
def Ftl.reset : Ftl where
  lgs := []
  media := []
  deadDie := []
  dieRow := []
  maps := Maps.reset
  pm := []
  ops := []
  nextOp := 0
  seq := 1
  mtOff := 0
  temps := []
  tempSum := []
  rLock := false
  rErr := 0
  rBase := 0
  rSize := 0
  obj := MediaObj.reset
  maxopenF := 16
  offtime := 0
  progU := 0
  tenU := 0
  urg := 0
  nsCmd := none
  ageAt := 0
  decayAt := 0

/-- The holdup supervisor after reset (Table 11.2). -/
def Hold.reset : Hold where
  vchg := 0
  vlo := 0
  itst := 0
  phold := 0
  ttst := 20
  ereq := 100
  valid := false
  busy := false
  low := true
  terr := 0
  cap := 0
  esr := 0
  euse := 0
  lasttst := 0
  vnow := 0
  vok := false
  first := false
  waiting := false
  step := 0
  since := 0
  v1 := 0
  va := 0
  chgOut := false
  enOut := false
  tstOut := false

/-- Power-loss safety after reset (Table 11.2), with nothing on the media. -/
def Pls.reset : Pls where
  slots := []
  nextSlot := 0
  dlim := 0
  last := 0
  rcause := 0
  unrec := 0
  recAt := 0
  recTime := 0
  recRes := 0
  tail := []
  jrn := []
  jUnits := 0
  jnum := 1
  cks := []
  ckNum := 0
  snap := none
  ckAt := 0
  timeAt := 0
  mapChg := 0
  drain := none
  drainNum := 0
  step := 0
  cause := 0
  pf := false
  holdEn := false

/-- A Belt activity after reset (Table 12.4); entries 0 to 2 belong to the media engine (R311). -/
def Act.reset (a : Nat) : Act :=
  let mk (cls : BitVec 3) (budget : BitVec 32) (borrow : Bool) : Act :=
    ⟨true, borrow, true, cls, 0xF, 0, budget, true, borrow, budget, false, 0, 0, false, []⟩
  match a with
  | 0 => mk 5 6250 false
  | 1 => mk 2 400 true
  | 2 => mk 3 32 true
  | _ => ⟨false, false, false, 0, 0xF, 0, 0, false, false, 0, false, 0, 0, false, []⟩

/-- A resource class after reset (Table 12.5): PERIOD 10 µs for classes 0 and 1, else 100; CAPR of Table 12.3 (the values
the hardware sets for classes 1 and 2 follow the DRAM rates and the die counts, 0 until they are known). -/
def BCls.reset (c : Nat) : BCls :=
  let p : BitVec 14 := if c < 2 then 10 else 100
  let cap : List (Nat × BitVec 32) :=
    match c with
    | 0 => [(0, 84000)]
    | 3 => (List.range 8).map fun k => (k, 128)
    | 4 => [(0, 25)]
    | 5 => [(0, 7200)]
    | _ => []
  ⟨p, p, cap, cap, [], 0⟩

/-- The Belt and tenant registers after reset. -/
def Belt.reset : Belt where
  acts := []
  cls := []
  held := []
  passed := []
  errEnt := 0
  errCode := 0
  tBusy := false
  tDone := false
  tErr := 0
  tTid := 0
  tCur := 0
  tPairs := []
  tActs := 0
  tNdrop := 0
  tNsupp := 0
  tNqp := 0
  logq := []


/-- Communication objects at their defaults (Table 14.11; NODEID: 1 + strap T1S_NODE). -/
def NetCfg.reset (node : BitVec 3) : NetCfg := ⟨24817, true, 1 + node.setWidth 8, 8, 0, 32⟩

def KeyEnt.reset : KeyEnt := ⟨[], 0, false⟩

def Adp.reset (node : BitVec 3) : Adp where
  dad := 0
  cfg := NetCfg.reset node
  cfgF := NetCfg.reset node
  idletmo := 60
  authfail := 0
  keys := []
  enrolled := false
  hs := []
  sessions := []
  partials := []
  subs := []
  fails := []
  blocked := []
  pend := []
  out := []

def FwSlot.empty : FwSlot := ⟨0, 0, []⟩
/-- Boot and trust after reset (Table 15.5), with an empty boot flash and no fused counter raised. -/
def Boot.reset : Boot where
  step := 0
  romStop := false
  stage := 0
  res := []
  hartrel := 0
  monrdy := false
  flash := []
  svn := []
  epoch := 0
  imgs := []
  meas := []
  keys := false
  udsLock := false
  aliasCert := []
  chal := none
  dbgEver := false
  mediaFw := false

/-- The token logic after reset (Table 15.9): both controllers in reset. -/
def Own.reset : Own where
  holder := 0
  phase := 0
  claimE := false
  claimW := false
  aliveE := none
  aliveW := none
  absE := false
  absW := false
  svnE := 0xFF
  svnW := 0xFF
  takeovers := 0
  safestops := 0
  rstE := true
  rstW := true
  reload := false
  safe := false

def PLink.reset : PLink := ⟨false, false, false, false, 0, 0, 0⟩
def Port.reset : Port := ⟨50, 0, 0, 0, 0, 0, 0, 0, []⟩
/-- PCIe, CXL links and the IOMMU after reset (Tables 17.1, 17.6). -/
def Pcie.reset : Pcie := ⟨[], [], ⟨[], [], [], []⟩⟩
/-- A debug module after reset (Debug Specification: dmactive 0, cmderr 0; sbaccess 2). -/
def DbgMod.reset : DbgMod where
  active := false
  ndm := false
  hartsel := 0
  hasel := false
  hawsel := 0
  mask := 0
  data0 := 0
  data1 := 0
  cmd := 0
  progbuf := []
  cmderr := 0
  resumeAck := 0
  haveReset := 0
  grpRes := false
  sbBusy := false
  sbBusyErr := false
  sbRonA := false
  sbAcc := 2
  sbInc := false
  sbRonD := false
  sbErr := 0
  sbAddr := 0
  sbData := 0

def BistSt.reset : BistSt := ⟨0, 0, 0, 0, 0, false, none⟩
/-- Debug and self-test after reset (Table 18.9; IR holds IDCODE). -/
def Dbg.reset : Dbg where
  ir := 1
  bsrIn := 0
  bsrOut := 0
  bypass := false
  dmistat := 0
  dmiAddr := 0
  dmiData := 0
  tok := none
  tokDict := none
  tokRes := 0
  scope := 0
  mods := []
  haltGrp := []
  resGrp := []
  bTarget := 0
  bKind := 3
  bist := []
  sigs := []

/-- The block right after reset. -/
def State.reset : State where
  pkg := Pkg.reset
  pins := Pins.reset
  fab := Fab.reset
  pwr := Pwr.reset
  lace := Lace.reset
  thm := Thm.reset
  tobj := ThmObj.reset
  pkt := Pkt.reset
  harts := []
  cores := []
  slvs := []
  mtimecmp := []
  vmerge := []
  qmerge := []
  coh := Coh.reset
  cloak := Cloak.reset
  dram := Dram.reset
  stor := Stor.reset
  ftl := Ftl.reset
  hold := Hold.reset
  pls := Pls.reset
  belt := Belt.reset
  adp := Adp.reset 0
  boot := Boot.reset
  own := Own.reset
  pcie := Pcie.reset
  dbg := Dbg.reset
  time := 0
  free := 0
  answer := .none
  pending := []

end Sys2Proof.Machine
end

