-- ==== Sys2Proof/Machine/Ops.lean ====
section
/-! DEFINITION. The shared operations over the state: accessors of the indexed groups, free values, presence of Sleeves,
cores and harts, interrupt files, reports to the Pocket. -/

namespace Sys2Proof.Machine

/-- A command performed: the next state. -/
def done (s : State) : Out := .next s

/-- A meaning has no effect on the queue of waiting commands. -/
def keepQueue (s : State) (o : Out) : Out :=
  match o with
  | .next t => .next { t with pending := s.pending }
  | .fault f => .fault f
  | .refused r => .refused r

/-- The hart's state. -/
def State.hart (s : State) (h : Nat) : Hart := tabGet s.harts Hart.reset h
def State.setHart (s : State) (h : Nat) (v : Hart) : State := { s with harts := tabSet s.harts Hart.reset h v }
def State.modHart (s : State) (h : Nat) (f : Hart → Hart) : State := s.setHart h (f (s.hart h))

/-- The state of a core, 20 s + c. -/
def State.core (s : State) (c : Nat) : Core := tabGet s.cores Core.reset c
def State.setCore (s : State) (c : Nat) (v : Core) : State := { s with cores := tabSet s.cores Core.reset c v }
def State.modCore (s : State) (c : Nat) (f : Core → Core) : State := s.setCore c (f (s.core c))

/-- The cache control and arrays of a Sleeve. -/
def State.slv (s : State) (k : Nat) : Slv := tabGet s.slvs Slv.reset k
def State.setSlv (s : State) (k : Nat) (v : Slv) : State := { s with slvs := tabSet s.slvs Slv.reset k v }
def State.modSlv (s : State) (k : Nat) (f : Slv → Slv) : State := s.setSlv k (f (s.slv k))

/-- A Cuff. -/
def State.cuff (s : State) (k : Nat) : Cuff := tabGet s.fab.cuffs Cuff.reset k
def State.setCuff (s : State) (k : Nat) (v : Cuff) : State :=
  { s with fab := { s.fab with cuffs := tabSet s.fab.cuffs Cuff.reset k v } }
def State.modCuff (s : State) (k : Nat) (f : Cuff → Cuff) : State := s.setCuff k (f (s.cuff k))

/-- The power registers of a Sleeve. -/
def State.slvPwr (s : State) (k : Nat) : SlvPwr := tabGet s.pwr.slv SlvPwr.reset k
def State.setSlvPwr (s : State) (k : Nat) (v : SlvPwr) : State :=
  { s with pwr := { s.pwr with slv := tabSet s.pwr.slv SlvPwr.reset k v } }
def State.modSlvPwr (s : State) (k : Nat) (f : SlvPwr → SlvPwr) : State := s.setSlvPwr k (f (s.slvPwr k))

/-- A DRAM channel. -/
def State.chan (s : State) (n : Nat) : Chan := tabGet s.dram.chans Chan.reset n
def State.setChan (s : State) (n : Nat) (v : Chan) : State :=
  { s with dram := { s.dram with chans := tabSet s.dram.chans Chan.reset n v } }
def State.modChan (s : State) (n : Nat) (f : Chan → Chan) : State := s.setChan n (f (s.chan n))

/-- A root port. -/
def State.port (s : State) (p : Nat) : Port := tabGet s.pcie.ports Port.reset p
def State.modPort (s : State) (p : Nat) (f : Port → Port) : State :=
  { s with pcie := { s.pcie with ports := tabSet s.pcie.ports Port.reset p (f (tabGet s.pcie.ports Port.reset p)) } }

/-- VEST.COH.FSTOP[d]. -/
def State.fstop (s : State) (d : Nat) : FStop := tabGet s.coh.fstop FStop.reset d
def State.setFstop (s : State) (d : Nat) (v : FStop) : State :=
  { s with coh := { s.coh with fstop := tabSet s.coh.fstop FStop.reset d v } }

/-- Answer the sender of the command. -/
def State.answerW (s : State) (v : Word) : State := { s with answer := .word v }
def State.answerErr (s : State) : State := { s with answer := .error }

/-- Draw the next free value: its index. The counter is the model's own field. -/
def State.draw (s : State) : State := { s with free := s.free + 1 }

/-- A list that stands for `n` values: one of another length gives what it holds, and the values it lacks are free (log 130). -/
def fillFree {α : Type} (n : Nat) (f : Nat → α) (l : List α) (s : State) : State × List α :=
  if l.length = n then (s, l)
  else ({ s with free := s.free + n }, l.take n ++ (upto (n - l.length)).map fun i => f (Config.freeNat (s.free + i)))

/-- Parts of a hart ID (R27). -/
def hartSleeve (h : Nat) : Nat := h / 80
def hartCore (h : Nat) : Nat := h / 4
def hartThread (h : Nat) : Nat := h % 4

/-- VEST.SLVSTAT[s].EXCL; 0xF until decided (R18). -/
def exclOf (s : State) (k : Nat) : BitVec 4 := tabGet s.pkg.excl 0xF k

/-- Sleeve `k` has been admitted. -/
def slvPresent (s : State) (k : Nat) : Bool := decide (exclOf s k = 0)

/-- The identity block of a die as read (Table 1.1). -/
def fuseOf (s : State) (k : Nat) : BitVec 256 := tabGet s.pkg.dieFuse 0 k
def fuseCoreEn (b : BitVec 256) : BitVec 20 := b.extractLsb' 156 20
def fuseFeat (b : BitVec 256) : BitVec 32 := b.extractLsb' 124 32
def fuseIsa (b : BitVec 256) : BitVec 4 := b.extractLsb' 120 4
def fuseMaj (b : BitVec 256) : BitVec 8 := b.extractLsb' 112 8
def fuseMin (b : BitVec 256) : BitVec 8 := b.extractLsb' 104 8
def fusePos (b : BitVec 256) : BitVec 4 := b.extractLsb' 100 4
def fuseKind (b : BitVec 256) : BitVec 4 := b.extractLsb' 96 4
def fuseSlvMax (b : BitVec 256) : BitVec 8 := b.extractLsb' 88 8
def fuseSlvMin (b : BitVec 256) : BitVec 8 := b.extractLsb' 80 8
def fuseVmap (b : BitVec 256) : BitVec 8 := b.extractLsb' 72 8
def fuseUid (b : BitVec 256) : BitVec 64 := b.extractLsb' 176 64

/-- VEST.HARTMAP[s] (R28): zero until FUSE_DONE and for an excluded Sleeve. -/
def hartmapOf (s : State) (k : Nat) : BitVec 20 :=
  if s.pkg.fuseDone && slvPresent s k then fuseCoreEn (fuseOf s k) else 0

/-- A core of the hart map. -/
def corePresent (s : State) (c : Nat) : Bool := (hartmapOf s (c / 20)).getLsbD (c % 20)

/-- A hart is absent when its core's bit is 0 (R28). -/
def hartPresent (s : State) (h : Nat) : Bool := corePresent s (hartCore h)

/-- The harts of the hart map. -/
def presentHarts (s : State) : List Nat := (upto 960).filter (hartPresent s)

/-- VEST.PKGFEAT (R22): 0 until FUSE_DONE. -/
def pkgfeat (s : State) : BitVec 32 :=
  if s.pkg.fuseDone then
    (upto 12).foldl (fun a k => if slvPresent s k then a &&& fuseFeat (fuseOf s k) else a) (fuseFeat (fuseOf s 12))
  else 0

/-- A feature of Table 1.5 is available. -/
def featOn (s : State) (n : Nat) : Bool := (pkgfeat s).getLsbD n

/-- The coherent domain of Sleeve `k` (Table 1.11). -/
def domainOf (s : State) (k : Nat) : Nat := (s.pkg.dom.extractLsb' (2 * k) 2).toNat

/-- The Sleeves present in domain `d`. -/
def domSleeves (s : State) (d : Nat) : List Nat := (upto 12).filter fun k => slvPresent s k && domainOf s k == d

/-- More than one coherent domain is in use (R36); the Sleeves under a domain reset still count (log 132). -/
def multiDom (s : State) : Bool := (upto 12).any fun k => decide (exclOf s k = 0 ∨ exclOf s k = 0xF) && domainOf s k != 0

/-- The world of a hart's loads and stores (Table 3.1): secure in M-mode with SEC = 1, but not under MPRV with MPP below M. -/
def hartSecure (x : Hart) : Bool :=
  let st := tabGet x.csr 0 0x300
  x.sec && decide (x.priv = 3) && !(bit st 17 && decide (fld st 11 2 ≠ 3))

/-- The world of a request (Table 3.1). -/
def agentSecure (s : State) : Agent → Bool
  | .hart h => hartSecure (s.hart h)
  | .cloak | .media | .copy | .pocket | .belt | .power => true
  | .mc _ | .device .. | .iommu => false
  | .debug m => s.dbg.scope.getLsbD m.val

/-- A hart of the hart map issues instructions: released, not stopped, not halted but for the instructions of a program buffer, not
waiting, with no access outstanding, its Sleeve not in SL3 or SL4. -/
def hartRuns (s : State) (h : Nat) : Bool :=
  let x := s.hart h
  hartPresent s h && !x.inReset && (!x.halted || x.prog) && !x.stopped && !x.wfi && !x.heldAcc && x.io.isNone && !x.fetchStop &&
    decide ((s.slvPwr (hartSleeve h)).sl = 0)

/-- An agent can send a command: a hart only while it issues instructions and none of its predictions is outstanding (R28, R50). -/
def agentRuns (s : State) : Agent → Bool
  | .hart h => hartRuns s h && (s.hart h).indir.isNone
  | _ => true

/-- A command that an agent sends has its effect where the agent can send it. -/
def sentBy (who : Agent) (s : State) (o : Out) : Out := if agentRuns s who then o else done s

/-- The Belt holds the home agent's transaction for a line (R310). -/
def txnHeld (s : State) (n : Nat) : Bool := s.belt.held.any fun h => decide (h.what = .txn n)

/-- The TID of a requester's packets: a hart's VMID while V = 1, else its ubxtid (Table 2.12); the other agents that the model
names carry TID 0. -/
def agentTid (s : State) : Agent → BitVec 12
  | .hart h => if (s.hart h).virt then (tabGet (s.hart h).csr 0 0x680).extractLsb' 44 12 else (tabGet (s.hart h).csr 0 0x6C0).extractLsb' 0 12
  | _ => 0

/-! ### Nodes and packets (Tables 7.3, 7.4) -/

/-- The fields of a node ID. -/
def nodeDie (n : Nat) : Nat := n / 4096 % 16
def nodeX (n : Nat) : Nat := n / 256 % 16
def nodeY (n : Nat) : Nat := n / 16 % 16
def nodePort (n : Nat) : Nat := n % 16

/-- The fields of a packet's header. -/
def Packet.dst (p : Packet) : Nat := (fld p.hw0 48 16).toNat
def Packet.srcN (p : Packet) : Nat := (fld p.hw0 32 16).toNat
def Packet.cmd (p : Packet) : Nat := (fld p.hw0 24 8).toNat
def Packet.vc (p : Packet) : Nat := (fld p.hw0 21 3).toNat
def Packet.len (p : Packet) : Nat := (fld p.hw0 18 3).toNat
def Packet.line (p : Packet) : Nat := (fld p.hw1 0 46).toNat
/-- Units that a packet takes: its header and its data. -/
def Packet.size (p : Packet) : Nat := p.units.length + 1

/-- The die in whose mesh, or on whose Cuff, a packet stands. -/
def Flight.die (f : Flight) : Nat :=
  match f.loc with
  | .src => nodeDie f.pkt.srcN
  | .inq d .. => d
  | .tx k _ | .rx k _ => k
  | .dest => nodeDie f.pkt.dst

def State.setFlights (s : State) (l : List Flight) : State := { s with fab := { s.fab with mesh := { s.fab.mesh with flights := l } } }

/-- SRCCLS of a report. -/
def srcCls (r : Report) : Nat := (r.src.extractLsb' 12 4).toNat

/-- Bytes a record occupies in the ring (R400). -/
def recSize (r : Report) : Nat := (16 + r.payload.length + 15) / 16 * 16

/-- Count a report of CLASS 1 to 4 in VEST.ERR.CLS (R396). -/
def countCls (r : Report) (p : Pkt) : Pkt :=
  match r.cls.toNat with
  | 1 => { p with corr := satInc p.corr }
  | 2 => { p with defer := satInc p.defer }
  | 3 => { p with ucs := satInc p.ucs }
  | 4 => { p with fatal := satInc p.fatal }
  | _ => p

/-- The types the retained slot keeps: WDT, FAILSTOP, THERMSHUT, POWERFAIL (R411). -/
def retainedType (r : Report) : Bool :=
  r.type = 0x040 || r.type = 0x021 || r.type = 0x042 || r.type = 0x043

/-- Entries of the ingress queue in use (Table 16.6 OCC), and reserved ones (RSVUSE). -/
def pktOcc (p : Pkt) : Nat := p.queue.length
def pktRsv (p : Pkt) : Nat := (p.queue.filter (·.rsvd)).length

/-- Append an entry to the ingress queue, raising HWM. -/
def pktEnqueue (r : Report) (now n : Nat) (rsvd : Bool) (p : Pkt) : Pkt :=
  let q := p.queue ++ [⟨r, now, n, rsvd⟩]
  { p with queue := q, hwm := if p.hwm.toNat < q.length then BitVec.ofNat 8 q.length else p.hwm }

/-- Drop a report of class `k` (R407); a fatal one still reaches the retained slot (Table 16.8). -/
def pktDrop (r : Report) (now : Nat) (p : Pkt) : Pkt :=
  let k := srcCls r
  let none_ := p.ivCnt.isEmpty
  { p with
    drops := tabSet p.drops 0 k (satInc (tabGet p.drops 0 k))
    ivCnt := tabSet p.ivCnt 0 k (satInc (tabGet p.ivCnt 0 k))
    ivFirst := if none_ then now else p.ivFirst
    ivLast := now
    retained := if retainedType r then some ⟨0, now, 1, r, false, false⟩ else p.retained
    retPend := if retainedType r then false else p.retPend }

/-- Store a report that folds into nothing (R407): a shared entry, else the reserved entry of its class, else a drop. -/
def pktNew (r : Report) (now : Nat) (p : Pkt) : Pkt :=
  if pktOcc p - pktRsv p < 48 then pktEnqueue r now 1 false p
  else if (p.queue.any fun e => e.rsvd && srcCls e.rpt == srcCls r) then pktDrop r now p
  else pktEnqueue r now 1 true p

/-- Word 1 of a record's header (Table 16.3). -/
def recWord1 (r : Report) (rep : Nat) (valid : Bool) : Word :=
  cat [at_ 48 (BitVec.ofNat 16 rep), at_ 32 r.src, on 31 valid, on 30 r.sec, at_ 27 r.cls, at_ 12 r.type,
    at_ 0 (BitVec.ofNat 9 r.payload.length)]

/-- Bytes of a record as it stands in the ring (R400). -/
def recBytes (g : PktRec) : List Byte :=
  let b := leBytes 8 g.time ++ leBytes 8 (recWord1 g.rpt g.rep true).toNat ++ g.rpt.payload
  b ++ zeros (recSize g.rpt - b.length)

/-- Write bytes of the ring. -/
def backPut (o : Nat) (l : List Byte) (m : List (Nat × Byte)) : List (Nat × Byte) := l.zipIdx.foldl (fun m x => tabSet m 0 (o + x.2) x.1) m

/-- `n` more occurrences fold into the last record written: its word 1 alone is rewritten (R401, R406). -/
def foldLast (n : Nat) (g : PktRec) (p : Pkt) : Pkt :=
  { p with
    ring := p.ring.dropLast ++ [{ g with rep := g.rep + n, mirrored := false }]
    back := backPut (g.off + 8) (leBytes 8 (recWord1 g.rpt (g.rep + n) true).toNat) p.back }

/-- A report reaches the Pocket's ingress (R396, R405 to R407): it is counted, then folded, queued or dropped. -/
def pktIngress (r : Report) (now : Nat) (p0 : Pkt) : Pkt :=
  let p := countCls r p0
  match p.queue.getLast? with
  | some e =>
    if e.rpt = r ∧ e.count < 65535 then { p with queue := p.queue.dropLast ++ [{ e with count := e.count + 1 }] }
    else pktNew r now p
  | none =>
    match p.ring.getLast? with
    | some g =>
      if g.rpt = r ∧ g.rep < 65535 ∧ g.bad = false then
        foldLast 1 g p
      else pktNew r now p
    | none => pktNew r now p

/-- Report to the Pocket. -/
def report (r : Report) (s : State) : State := { s with pkt := pktIngress r s.time s.pkt }

/-- A record of CLASS 0 to 4 with the payload padded to a multiple of 8 bytes, at least `len`. -/
def mkReport (src : Nat) (cls : Nat) (type : Nat) (sec : Bool) (len : Nat) (payload : List Byte) : Report :=
  ⟨BitVec.ofNat 16 src, BitVec.ofNat 3 cls, sec, BitVec.ofNat 12 type, (payload ++ zeros len).take len⟩

/-- What a UCS record says of the refused access (Table 16.4, type 0x012). -/
inductive UcsKind where | load | amo | fetch | walk | device | reserved | world | domain
deriving DecidableEq, Repr

def UcsKind.code : UcsKind → Nat
  | .load => 0 | .amo => 1 | .fetch => 2 | .walk => 3 | .device => 4 | .reserved => 5 | .world => 6 | .domain => 7

/-- Node ID of a Vest agent at router (x, y), port p (Table 7.3). -/
def vestNode (x y p : Nat) : Nat := 0xF000 + x * 256 + y * 16 + p

/-- Node of core `c` (20 s + c): router of the core, port 0 (R153). -/
def coreNode (c : Nat) : Nat := (c / 20) * 4096 + (c % 20 / 4) * 256 + (c % 20 % 4) * 16

/-- Node of slice i of Sleeve s. -/
def sliceNode (k i : Nat) : Nat := k * 4096 + (i / 4) * 256 + (i % 4) * 16 + 1

/-- Node of home agent h (Table 7.1). -/
def haNode (h : Nat) : Nat := vestNode (1 + h % 8) (1 + h / 8) 0

/-- Node of DRAM channel n (Table 7.1). -/
def dramNode (n : Nat) : Nat :=
  if n < 3 then vestNode (1 + n) 0 2 else if n < 6 then vestNode (1 + (n - 3)) 9 3
  else if n < 9 then vestNode (6 + (n - 6)) 0 2 else vestNode (6 + (n - 9)) 9 3

/-- Node of flash lane group g. -/
def lgNode (g : Nat) : Nat :=
  match g with
  | 0 => vestNode 1 0 0 | 1 => vestNode 2 0 0 | 2 => vestNode 1 9 0 | 3 => vestNode 2 9 0
  | 4 => vestNode 7 0 0 | 5 => vestNode 8 0 0 | 6 => vestNode 7 9 0 | _ => vestNode 8 9 0

/-- Node of a root port. -/
def portNode (p : Nat) : Nat :=
  match p with
  | 0 => vestNode 3 0 0 | 1 => vestNode 4 0 0 | 2 => vestNode 3 9 0
  | 3 => vestNode 5 0 0 | 4 => vestNode 6 0 0 | _ => vestNode 6 9 0

/-- Node of secure SRAM bank b and of store-queue SRAM bank b (R467). -/
def sramNode (b : Nat) : Nat := vestNode (1 + (4 * b) % 8) (1 + (4 * b) / 8) 1
def sqSramNode (b : Nat) : Nat := vestNode (1 + (4 * b + 2) % 8) (1 + (4 * b + 2) / 8) 1

/-- Node ID of a requester (Table 7.1). -/
def agentNode : Agent → Nat
  | .hart h => coreNode (hartCore h)
  | .cloak => vestNode 0 0 0
  | .mc .w => vestNode 0 9 0
  | .mc .e => vestNode 9 9 0
  | .media => vestNode 4 9 0
  | .copy => vestNode 5 9 0
  | .pocket | .belt => vestNode 9 0 0
  | .power => vestNode 4 4 1
  | .device p _ _ => portNode p
  | .iommu => vestNode 4 4 1
  | .debug m => if m.val < 12 then m.val * 4096 + 0x433 else vestNode 4 4 1

/-- SRC of a UCS record: its requester (Table 16.2). -/
def agentSrc : Agent → Nat
  | .hart h => 0x1000 + h
  | .cloak => 0x9002
  | .mc .e => 0x9000
  | .mc .w => 0x9001
  | .media => 0x6800
  | .copy => 0x6801
  | .pocket | .power => 0x0000
  | .belt => 0x7FFF
  | .device p l _ => 0x5000 + 4 * p + l
  | .iommu => 0x5018
  | .debug m => 0xA000 + m

/-- Report a refused or failed access (R30, R125). -/
def reportUcs (who : Agent) (kind : UcsKind) (addr : Nat) (sec : Bool) (s : State) : State :=
  report (mkReport (agentSrc who) 3 0x012 sec 16 (leBytes 8 addr ++ leBytes 2 (agentNode who) ++ leBytes 1 kind.code)) s

/-- A CE record of counter `ctr` is raised when CECNT, counted from `base`, reaches a nonzero multiple of CETH (R397). -/
def reportCe (src ctr : Nat) (base cnt : BitVec 32) (addr : Nat) (s : State) : State :=
  if cnt.toNat > base.toNat ∧ (cnt.toNat - base.toNat) % s.pkt.ceth.toNat = 0 then
    report (mkReport src 1 0x010 false 24 (leBytes 8 ctr ++ leBytes 8 cnt.toNat ++ leBytes 8 addr)) s
  else s

/-- A corrected error of the Vest SRAM. -/
def countVestCe (a : Nat) (s : State) : State :=
  let s1 := { s with pkt := { s.pkt with sramCe := satInc s.pkt.sramCe } }
  reportCe 0x0002 0x30 s1.pkt.sramBase s1.pkt.sramCe a s1

/-- A corrected error of a Sleeve's arrays or mesh. -/
def countCe (k a : Nat) (s : State) : State :=
  let s1 := s.modSlv k fun v => { v with cecnt := satInc v.cecnt }
  reportCe (0x2000 + k) k (s1.slv k).ceBase (s1.slv k).cecnt a s1

/-- A corrected and an uncorrectable word of the Vest mesh or a Cuff buffer (R165, R397). -/
def countFabCe (s : State) : State :=
  let s1 := { s with fab := { s.fab with cecnt := satInc s.fab.cecnt } }
  reportCe 0x3060 0x10 s1.fab.ceBase s1.fab.cecnt 0 s1
def countFabUe (s : State) : State := { s with fab := { s.fab with uecnt := satInc s.fab.uecnt } }

/-- Mark identity `id` pending in interrupt file `file` of hart `h` (R466); identities 0 and above 255 have no effect. -/
def imsicSet (h file id : Nat) (s : State) : State :=
  if id = 0 ∨ id > 255 then s
  else s.modHart h fun t =>
    let g := tabGet t.imsic ImsicFile.reset file
    { t with imsic := tabSet t.imsic ImsicFile.reset file { g with pend := setBit g.pend id true } }

/-- The domain of hart `h` has fail-stopped. -/
def hartFailed (s : State) (h : Nat) : Bool := (s.fstop (domainOf s (hartSleeve h))).active

end Sys2Proof.Machine
end

