-- ==== Sys2Proof/Machine/BeltOps.lean ====
section
/-! DEFINITION. The Belt (12 R306 to R314): activities, charging, borrowing, holding and period boundaries. -/

namespace Sys2Proof.Machine

/-- An activity entry. -/
def State.act (s : State) (a : Nat) : Act := (tabFind a s.belt.acts).getD (Act.reset a)
def State.setAct (s : State) (a : Nat) (v : Act) : State :=
  { s with belt := { s.belt with acts := tabSet s.belt.acts (Act.reset a) a v } }
def State.modAct (s : State) (a : Nat) (f : Act → Act) : State := s.setAct a (f (s.act a))

/-- A resource class. -/
def State.bcls (s : State) (c : Nat) : BCls := (tabFind c s.belt.cls).getD (BCls.reset c)
def State.setBcls (s : State) (c : Nat) (v : BCls) : State :=
  { s with belt := { s.belt with cls := tabSet s.belt.cls (BCls.reset c) c v } }

/-- Scopes of a class (Table 12.3). -/
def scopesOf (c : Nat) : Nat := if c = 1 then 4 else if c = 2 ∨ c = 3 then 8 else 1

/-- An activity in one scope; an activity that has charged nothing has its whole budget in force. -/
def actSc (v : Act) (k : Nat) : ActSc := (tabFind k v.sc).getD ⟨0, v.budgetF.toNat, 0, 0, 0⟩
def setActSc (v : Act) (k : Nat) (x : ActSc) : Act := { v with sc := tabInsert k x v.sc }

/-- The activity covers scope `k`. -/
def actCovers (v : Act) (k : Nat) : Bool := decide (v.scope = 0xF) || decide (v.scope.toNat = k)

/-- The sum of the budgets in force of class `c` for scope `k`. -/
def budgetSum (s : State) (c k : Nat) : Nat :=
  (upto 256).foldl (fun a i =>
    let v := s.act i
    if v.active && decide (v.cls.toNat = c) && actCovers v k then a + v.budgetF.toNat else a) 0

/-- Programs in progress on borrowed units in scope `k` (class 3). -/
def borrowedNow (s : State) (k : Nat) : Nat :=
  (upto 256).foldl (fun a i =>
    let v := s.act i
    if v.cls = 3 then a + (actSc v k).bor else a) 0

/-- The size a borrow pool is refilled to (R309). -/
def poolSize (s : State) (c k : Nat) : Nat :=
  let v := s.bcls c
  let cap := (tabGet v.capF 0 k).toNat
  if c = 3 then cap - budgetSum s c k - borrowedNow s k else cap * v.periodF.toNat - budgetSum s c k

/-- The borrow pool of a class and scope: full size until the first boundary refills it. -/
def poolOf (s : State) (c k : Nat) : Nat := (tabFind k (s.bcls c).pool).getD (poolSize s c k)
def setPool (c k n : Nat) (s : State) : State :=
  let v := s.bcls c
  s.setBcls c { v with pool := tabInsert k n v.pool }

/-- The enabled activity in force that matches an item's owner, class and scope (R306, R308); the lowest entry. -/
def matchAct (s : State) (eng : Bool) (tid : BitVec 12) (c k : Nat) : Option Nat :=
  (upto 256).find? fun i =>
    let v := s.act i
    v.active && decide (v.cls.toNat = c) && actCovers v k && (v.eng == eng) && (eng || decide (v.tid = tid))

/-- Whether activity `a` can cover `cost` in scope `k` now (R306, R309). -/
def canCover (s : State) (a k cost : Nat) : Bool :=
  let v := s.act a
  let x := actSc v k
  let c := v.cls.toNat
  if c = 3 then decide (x.own < v.budgetF.toNat) || (v.borrowF && decide (1 ≤ poolOf s c k))
  else decide (cost ≤ x.left) || (v.borrowF && decide (cost ≤ x.left + poolOf s c k))

/-- Charge `cost` to activity `a` in scope `k`: own units first, then the pool. -/
def takeUnits (a k cost : Nat) (s : State) : State :=
  let v := s.act a
  let x := actSc v k
  let c := v.cls.toNat
  if c = 3 then
    if x.own < v.budgetF.toNat then s.setAct a (setActSc v k { x with own := x.own + 1, used := x.used + 1 })
    else setPool c k (poolOf s c k - 1) (s.setAct a (setActSc v k { x with bor := x.bor + 1, used := x.used + 1 }))
  else
    let own := min cost x.left
    let s1 := s.setAct a (setActSc v k { x with left := x.left - own, used := x.used + cost })
    if cost ≤ x.left then s1 else setPool c k (poolOf s c k - (cost - own)) s1

/-- An earlier item of the activity is held in the same scope: later items never pass it (R306). -/
def heldBefore (s : State) (a k : Nat) : Bool := s.belt.held.any fun h => h.act == a && h.scope == k

/-- Hold an item at its enforcement point (R306): HOLDS counts it. -/
def holdItem (a k cost : Nat) (w : HeldWhat) (s : State) : State :=
  let s1 := s.modAct a fun v => { v with holds := satInc v.holds }
  { s1 with belt := { s1.belt with held := s1.belt.held ++ [⟨a, k, cost, w, false⟩] } }

/-- An enforcement point charges an item (R306): true when it passes, charged or unmetered; else it is held. -/
def beltCharge (eng : Bool) (tid : BitVec 12) (c k cost : Nat) (w : HeldWhat) (s : State) : State × Bool :=
  match matchAct s eng tid c k with
  | none => (s, true)
  | some a =>
    if !heldBefore s a k && canCover s a k cost then (takeUnits a k cost s, true)
    else (holdItem a k cost w s, false)

/-- The next program of an activity takes a borrowed unit (R309): its programs on own units are as many as BUDGET. -/
def borrowsUnit (s : State) (a k : Nat) : Bool := decide ((s.act a).budgetF.toNat ≤ (actSc (s.act a) k).own)

/-- A program ends (R309): its own unit is free to the activity again, or its borrowed unit returns to the pool. -/
def programEnd (a k : Nat) (bor : Bool) (s : State) : State :=
  let v := s.act a
  let x := actSc v k
  if bor then setPool 3 k (poolOf s 3 k + 1) (s.setAct a (setActSc v k { x with bor := x.bor - 1, used := x.used - 1 }))
  else s.setAct a (setActSc v k { x with own := x.own - 1, used := x.used - 1 })

/-- USED (Table 12.4): summed over the scopes. -/
def actUsed (v : Act) : Nat := v.sc.foldl (fun a e => a + e.2.used) 0

/-- What a boundary does to one activity of its class (R309, R306): the written EN, BUDGET and BORROW come into force,
LAST takes USED, and the budget is refilled less the debt it pays. Programs in progress of class 3 stay counted. -/
def actBoundary (v : Act) : Act :=
  let b := v.budget.toNat
  let one (x : ActSc) : ActSc :=
    if v.cls = 3 then x
    else ⟨0, b - min x.debt b, x.debt - min x.debt b, 0, 0⟩
  { v with
    active := v.en
    borrowF := v.borrow
    budgetF := v.budget
    last := BitVec.ofNat 32 (min (actUsed v) 0xFFFFFFFF)
    sc := if v.en ∨ v.cls = 3 then v.sc.map fun e => (e.1, one e.2) else [] }

/-- The activities of class `c` that are in force or enabled. -/
def classActs (s : State) (c : Nat) : List Nat :=
  (upto 256).filter fun i => let v := s.act i
    decide (v.cls.toNat = c) && (v.active || v.en)

/-- An item costs more than the activity's full budget and the whole pool it may borrow: the debt rule of R306. -/
def oversize (s : State) (a k cost : Nat) : Bool :=
  let v := s.act a
  decide (v.cls ≠ 3) && decide (v.budgetF.toNat + (if v.borrowF then poolSize s v.cls.toNat k else 0) < cost)

/-- Pass an oversize item: the whole budget and what can be borrowed are taken, the rest becomes a debt. -/
def takeDebt (a k cost : Nat) (s : State) : State :=
  let v := s.act a
  let x := actSc v k
  let p := if v.borrowF then min (poolOf s v.cls.toNat k) (cost - x.left) else 0
  let s1 := setPool v.cls.toNat k (poolOf s v.cls.toNat k - p) s
  s1.setAct a (setActSc v k { x with left := 0, used := x.used + cost, debt := x.debt + (cost - x.left - p) })

/-- Release held items of class `c` in order (R306): items of activities no longer in force pass uncharged; `blocked`
lists the activity and scope pairs whose oldest item stays held. Answers the items that stay and those released. -/
def releaseItems (c : Nat) : List HeldItem → List (Nat × Nat) → State → State × List HeldItem × List HeldItem
  | [], _, s => (s, [], [])
  | h :: r, blocked, s =>
    let v := s.act h.act
    if v.cls.toNat ≠ c then
      let x := releaseItems c r blocked s
      (x.1, h :: x.2.1, x.2.2)
    else if !v.active then
      let x := releaseItems c r blocked s
      (x.1, x.2.1, h :: x.2.2)
    else if blocked.contains (h.act, h.scope) then
      let x := releaseItems c r blocked s
      (x.1, h :: x.2.1, x.2.2)
    else if canCover s h.act h.scope h.cost then
      let x := releaseItems c r blocked (takeUnits h.act h.scope h.cost s)
      (x.1, x.2.1, { h with bor := decide (c = 3) && borrowsUnit s h.act h.scope } :: x.2.2)
    else if oversize s h.act h.scope h.cost then
      let x := releaseItems c r ((h.act, h.scope) :: blocked) (takeDebt h.act h.scope h.cost s)
      (x.1, x.2.1, h :: x.2.2)
    else
      let x := releaseItems c r ((h.act, h.scope) :: blocked) s
      (x.1, h :: x.2.1, x.2.2)

/-- A period boundary of class `c` (R309): new values in force, budgets and pools refilled, held items released in order.
Answers the released items. For class 0 every local allowance of the regulators is cleared, and GRANT comes into force
(R168, Table 7.8). -/
def beltBoundary (c : Nat) (s : State) : State × List HeldItem :=
  let v := s.bcls c
  let s1 := (classActs s c).foldl (fun a i => a.modAct i actBoundary) s
  let s2 := s1.setBcls c { v with periodF := v.period, capF := v.cap, pool := [], lastB := s.time }
  let s3 := (upto (scopesOf c)).foldl (fun a k => setPool c k (poolSize s2 c k) a) s2
  let x := releaseItems c s3.belt.held [] s3
  let s4 := { x.1 with belt := { x.1.belt with held := x.2.1 } }
  (if c = 0 then { s4 with fab := { s4.fab with allow := [], grantF := s4.fab.grant } } else s4, x.2.2)

/-! ### Registers -/

/-- ACT[a].CFG (Table 12.4); zero after an uncorrectable error of the entry, until it is rewritten (Table 12.6). -/
def rdActCfg (s : State) (a : Nat) : Word :=
  let v := s.act a
  if v.bad then 0
  else cat [on 63 v.en, on 62 v.borrow, on 61 v.eng, at_ 58 v.cls, at_ 54 v.scope, at_ 32 v.tid, at_ 0 v.budget]

/-- HELD of an activity: an item of it is held at an enforcement point or a regulator. -/
def actHeld (s : State) (a : Nat) : Bool := (s.belt.held.any fun h => h.act == a) || s.fab.held.any fun h => h.act == a

/-- ACT[a].STAT and CNT (Table 12.4). -/
def rdActStat (s : State) (a : Nat) : Word :=
  let v := s.act a
  cat [on 63 v.active, on 62 (actHeld s a), on 61 v.remnant, at_ 0 (BitVec.ofNat 32 (actUsed v))]
def rdActCnt (s : State) (a : Nat) : Word := cat [at_ 32 (s.act a).last, at_ 0 (s.act a).holds]
def wrActCnt (a : Nat) (v : Word) (s : State) : State := s.modAct a fun x => { x with holds := fld v 0 32 }

/-- SCOPE is valid for a class (Table 12.4). -/
def scopeOk (c : BitVec 3) (k : BitVec 4) : Bool :=
  decide (k = 0xF) || (decide (c = 1) && decide (k.toNat < 4)) || ((decide (c = 2) || decide (c = 3)) && decide (k.toNat < 8))

/-- The fields a CFG write would leave, with reserved encodings left as they were (R7), and whether it carried one. -/
def actWritten (a : Nat) (v : Word) (x : Act) : Act × Bool :=
  let eng := bit v 61
  let engBad := decide (3 ≤ a) && eng
  let c := fld v 58 3
  let cBad := decide (6 ≤ c.toNat)
  let c1 := if cBad then x.cls else c
  let k := fld v 54 4
  let kBad := !scopeOk c1 k
  ({ x with en := bit v 63, borrow := bit v 62, eng := if engBad then x.eng else eng, cls := c1,
            scope := if kBad then x.scope else k, tid := fld v 32 12, budget := fld v 0 32 }, engBad || cBad || kBad)

/-- Two enabled entries would be one activity: the same ENG, TID and CLASS and overlapping scopes (R313). -/
def actClash (x y : Act) : Bool :=
  x.en && y.en && (x.eng == y.eng) && decide (x.tid = y.tid) && decide (x.cls = y.cls) &&
    (decide (x.scope = 0xF) || decide (y.scope = 0xF) || decide (x.scope = y.scope))

/-- The first of the four rejections of R313 that a write meets; 0 when none. -/
def actReject (s : State) (a : Nat) (x y : Act) : Nat :=
  if (upto 256).any fun i => i != a && actClash y (s.act i) then 1
  else if x.active && (decide (x.eng ≠ y.eng) || decide (x.cls ≠ y.cls) || decide (x.scope ≠ y.scope) || decide (x.tid ≠ y.tid)) then 2
  else if decide (a < 3) && (decide (x.eng ≠ y.eng) || decide (x.cls ≠ y.cls) || decide (x.scope ≠ y.scope) || !y.en) then 3
  else if y.en && !y.eng && s.belt.tBusy && decide (y.tid = s.belt.tCur) then 4
  else 0

/-- A write to ACT[a].CFG (R313): applied, or rejected as a whole; ERR records the entry and the code. -/
def wrAct (a : Nat) (v : Word) (s : State) : State :=
  let x := s.act a
  let y := actWritten a v x
  let code := actReject s a x y.1
  let s1 := { s with belt := { s.belt with
    errEnt := BitVec.ofNat 8 a, errCode := BitVec.ofNat 3 (if code ≠ 0 then code else if y.2 then 5 else 0) } }
  if code ≠ 0 then s1
  else s1.setAct a { y.1 with bad := false, sc := if x.cls ≠ y.1.cls then [] else y.1.sc }

/-- CLS[c].PERIOD, CAP[k] and ERR (Table 12.5). -/
def rdPeriod (s : State) (c : Nat) : Word := at_ 0 (s.bcls c).period
def wrPeriod (c : Nat) (v : Word) (s : State) : State :=
  let n := fld v 0 14
  if 1 ≤ n.toNat ∧ n.toNat ≤ 10000 then s.setBcls c { s.bcls c with period := n } else s
def rdCap (s : State) (c k : Nat) : Word := at_ 0 (tabGet (s.bcls c).cap 0 k)
def wrCap (c k : Nat) (v : Word) (s : State) : State :=
  if k < scopesOf c then s.setBcls c { s.bcls c with cap := tabSet (s.bcls c).cap 0 k (fld v 0 32) } else s
/-- The hardware sets CAPR of a scope in the reset sequence (Table 12.3, R9): both as it reads and in force. -/
def loadCap (c k n : Nat) (s : State) : State :=
  let v := s.bcls c
  s.setBcls c { v with cap := tabSet v.cap 0 k (BitVec.ofNat 32 n), capF := tabSet v.capF 0 k (BitVec.ofNat 32 n) }
def rdBeltErr (s : State) : Word := cat [at_ 8 s.belt.errEnt, at_ 0 s.belt.errCode]

/-- ACT_CFG_WRITE (R313). -/
def execActCfgWrite (who : Agent) (a : Fin 256) (v : BitVec 64) (s : State) : Out := keepQueue s <| sentBy who s <| done (wrAct a v s)

/-- What an item is: in class 1 the home agent's transaction for its line (Table 12.3, R310), if one is active. -/
def itemWhat (i : BeltItem) (s : State) : HeldWhat :=
  match i.line with
  | some n => if i.cls = 1 ∧ (s.coh.txns.any fun t => t.lvl == Level.vest && t.line == n.val) then .txn n else .item
  | none => .item

/-- Activities leave at once: their held items pass uncharged, and the regulators' allowances of them are cleared. -/
def dropActs (as : List Nat) (s : State) : State :=
  let s1 := as.foldl (fun a i => a.modAct i fun v => { v with en := false, active := false, remnant := false, sc := [] }) s
  { s1 with
    belt := { s1.belt with
      held := s1.belt.held.filter fun h => !as.contains h.act
      passed := s1.belt.passed ++ s1.belt.held.filter fun h => as.contains h.act }
    fab := { s1.fab with
      allow := s1.fab.allow.filter fun e => !as.contains (e.1 % 256)
      asked := s1.fab.asked.filter fun e => !as.contains (e % 256)
      held := s1.fab.held.filter fun e => !as.contains e.act
      passed := s1.fab.passed ++ (s1.fab.held.filter fun e => as.contains e.act).map (·.pkt) } }

/-- An uncorrectable error in an activity entry (Table 12.6): the BELTUE record names it. -/
def entryUe (a : Nat) (s : State) : State :=
  report (mkReport (0x7800 + a) 2 0x061 false 8 (leBytes 1 a)) ((dropActs [a] s).modAct a fun v => { v with bad := true })

/-- BELT_CHARGE (R306, R310): an item of an enforcement point of classes 0 to 5 passes (answer 1) or is held (answer 0). `ue`: the
entry that the Belt's look-up finds uncorrectable. -/
def execBeltCharge (i : BeltItem) (s0 : State) (ue : Option (Fin 256) := none) : Out := keepQueue s0 <|
  let s := match ue with
    | some a => entryUe a s0
    | none => s0
  let r := beltCharge i.eng i.tid i.cls (if i.scope.val < scopesOf i.cls then i.scope else 0) i.cost (itemWhat i s) s
  done (r.1.answerW (if r.2 then 1 else 0))

/-- The budget a SHARE gives (R322). -/
def shareBudget (s : State) (c pct : Nat) : Nat :=
  let v := s.bcls c
  let cap := (tabGet v.cap 0 0).toNat
  if c = 3 then cap * pct / 100 else cap * v.period.toNat * pct / 100

/-- VEST.TEN.LOGQ[i] (Table 12.8). -/
def logqOf (s : State) (i : Nat) : Word := tabGet s.belt.logq 1024 i

/-- A write to LOGQ[i] (R315): a MAX of 0 or above 1024 is a reserved encoding; a second enabled entry of one TID leaves
the entry unchanged. -/
def wrLogq (i : Nat) (v : Word) (s : State) : State :=
  let old := logqOf s i
  let m := fld v 0 11
  let m1 := if 1 ≤ m.toNat ∧ m.toNat ≤ 1024 then m else fld old 0 11
  let w := cat [on 63 (bit v 63), at_ 32 (fld v 32 12), at_ 0 m1]
  let dup := bit w 63 && (upto 64).any fun j => j != i && bit (logqOf s j) 63 && decide (fld (logqOf s j) 32 12 = fld w 32 12)
  if dup then s else { s with belt := { s.belt with logq := tabSet s.belt.logq 1024 i w } }

/-- VEST.TEN.RST and RSTSTAT (Table 12.8). -/
def rdTenRst (s : State) : Word :=
  cat [on 62 s.belt.tBusy, on 61 s.belt.tDone, at_ 58 s.belt.tErr, at_ 0 s.belt.tTid]
def rdTenRststat (s : State) : Word :=
  cat [at_ 48 s.belt.tActs, at_ 32 s.belt.tNdrop, at_ 16 s.belt.tNsupp, at_ 0 s.belt.tNqp]

end Sys2Proof.Machine
end

