-- ==== Sys2Proof/Machine/Dict.lean ====
section
/-! DEFINITION. The dictionary's transport and the frame of its commands (14): datagrams, sessions, responses and kept
responses, so that every dictionary command says only what it does. -/

namespace Sys2Proof.Machine

/-- Entry status codes (Table 14.8). -/
def stOK : Nat := 0x00
def stPending : Nat := 0x01
def stNoObject : Nat := 0x02
def stNotSupported : Nat := 0x03
def stAccessDenied : Nat := 0x04
def stLevelDenied : Nat := 0x05
def stTypeMismatch : Nat := 0x06
def stReserved : Nat := 0x07
def stNotQuiesced : Nat := 0x08
def stExhausted : Nat := 0x09
def stBusy : Nat := 0x0A
def stRefused : Nat := 0x0B
def stWithdrawn : Nat := 0x0C
def stNotPerformed : Nat := 0x0D
def stLocked : Nat := 0x0E
def stFailed : Nat := 0x0F
def stStale : Nat := 0x10
def stTooLarge : Nat := 0x11

/-- Customisation strings of R351 and R353. -/
def adpMsg : List Byte := [0x41, 0x44, 0x50, 0x20, 0x6D, 0x73, 0x67]
def adpKeys : List Byte := [0x41, 0x44, 0x50, 0x20, 0x6B, 0x65, 0x79, 0x73]

/-- The datagram header of Table 14.1. -/
def adpHeader (type : Nat) (sid : BitVec 32) (seq mlen fidx fcnt : Nat) : List Byte :=
  [0x44, 0x50, 0x01] ++ leBytes 1 type ++ leBytes 4 sid.toNat ++ leBytes 8 seq ++ leBytes 2 mlen ++
    leBytes 1 fidx ++ leBytes 1 fcnt ++ zeros 4

/-- Fragments of a message body: 1,396 B each, the last one the remainder (R349). The fuel bounds their number. -/
def fragments : Nat → List Byte → List (List Byte)
  | 0, _ => []
  | n + 1, b => if b.length ≤ 1396 then [b] else b.take 1396 :: fragments n (b.drop 1396)

/-- The datagrams of a message: numbered from `seq`, tagged when a key is given (R353). -/
def datagrams (key : Option (List Byte)) (type : Nat) (sid : BitVec 32) (seq : Nat) (body : List Byte) :
    List (List Byte) :=
  let fs := fragments 6 body
  fs.mapIdx fun i f =>
    let d := adpHeader type sid (if key.isSome then seq + i else 0) body.length i fs.length ++ f
    match key with
    | some k => d ++ Config.kmac256 k d 32 adpMsg
    | none => d

/-- Send an untagged message (handshake messages and ERROR). -/
def sendPlain (dst : NetAddr) (type : Nat) (sid : BitVec 32) (body : List Byte) (s : State) : State :=
  { s with adp := { s.adp with out := s.adp.out ++ (datagrams none type sid 0 body).map (Sent.mk dst) } }

/-- The session with an ID. -/
def findSession (s : State) (sid : BitVec 32) : Option Session := s.adp.sessions.find? (·.sid = sid)

/-- Change a session. -/
def modSession (sid : BitVec 32) (f : Session → Session) (s : State) : State :=
  { s with adp := { s.adp with sessions := s.adp.sessions.map fun w => if w.sid = sid then f w else w } }


/-- End a session: its subscriptions and pending notifications are dropped (R354). -/
def endSession (sid : BitVec 32) (s : State) : State :=
  { s with adp := { s.adp with
      sessions := s.adp.sessions.filter (·.sid ≠ sid)
      subs := s.adp.subs.filter (·.sid ≠ sid)
      pend := s.adp.pend.filter (·.sid ≠ sid) } }

/-- Send a tagged message in a session, to an address; the session ends after 2^32 datagrams (R354). -/
def sendIn (sid : BitVec 32) (dst : NetAddr) (type : Nat) (body : List Byte) (s : State) : State :=
  match findSession s sid with
  | none => s
  | some w =>
    let ds := datagrams (some w.kd2c) type sid (w.txSeq + 1) body
    let s1 := modSession sid (fun w => { w with txSeq := w.txSeq + ds.length }) s
    let s2 := { s1 with adp := { s1.adp with out := s1.adp.out ++ ds.map (Sent.mk dst) } }
    if 2 ^ 32 ≤ w.txSeq + ds.length then endSession sid s2 else s2

/-- End every session (R354, a reset of the management subsystem). -/
def endAllSessions (s : State) : State :=
  { s with adp := { s.adp with sessions := [], subs := [], pend := [], hs := [], partials := [] } }

/-- Pad to a multiple of 8 bytes (Table 14.6). -/
def pad8 (b : List Byte) : List Byte := b ++ zeros ((8 - b.length % 8) % 8)

/-- An entry of a response (Table 14.6). -/
def entryBytes (index : BitVec 16) (sub : BitVec 8) (pend : Bool) (status : Nat) (value : List Byte) : List Byte :=
  leBytes 2 index.toNat ++ leBytes 1 sub.toNat ++ leBytes 1 (if pend then 1 else 0) ++ leBytes 2 value.length ++
    leBytes 1 status ++ zeros 1 ++ pad8 value

/-- A response body (R358). -/
def respBody (reqid : BitVec 32) (entries : List (List Byte)) : List Byte :=
  leBytes 4 reqid.toNat ++ leBytes 1 entries.length ++ zeros 3 ++ entries.flatten

/-- Keep a response among the last 16 of a session (R362). -/
def keep16 (k : Kept) (l : List Kept) : List Kept :=
  let a := l.filter (fun j => j.reqid ≠ k.reqid) ++ [k]
  a.drop (a.length - 16)

/-- Send a RESPONSE to a session and keep it among its last 16 (R362). -/
def respond (x : DictCtx) (entries : List (List Byte)) (s : State) : State :=
  match findSession s x.sid with
  | none => s
  | some w =>
    let b := respBody x.reqid entries
    let s1 := sendIn x.sid w.src 0x20 b s
    modSession x.sid (fun w => { w with
      kept := keep16 ⟨x.reqid, b⟩ w.kept
      maxReq := max w.maxReq x.reqid.toNat
      last := s.time }) s1

/-- What a session's request meets before it is executed (R362): no session, a kept response, a stale REQID. -/
inductive ReqState where
  | noSession
  | kept (b : List Byte)
  | stale
  | fresh (w : Session)
deriving DecidableEq, Repr

def reqState (s : State) (x : DictCtx) : ReqState :=
  match findSession s x.sid with
  | none => .noSession
  | some w =>
    match w.kept.find? (·.reqid = x.reqid) with
    | some k => .kept k.body
    | none => if x.reqid.toNat ≤ w.maxReq then .stale else .fresh w

/-- Refuse or resend a request that is not executed (R362). A stale request is answered entry by entry with
STALE_REQUEST; it is not kept. -/
def reqNotRun (x : DictCtx) (es : List (BitVec 16 × BitVec 8)) (r : ReqState) (s : State) : State :=
  match r with
  | .noSession => { s with answer := .none }
  | .kept b =>
    match findSession s x.sid with
    | some w => { sendIn x.sid w.src 0x20 b s with answer := .bytes b }
    | none => s
  | .stale =>
    match findSession s x.sid with
    | some w =>
      { sendIn x.sid w.src 0x20 (respBody x.reqid (es.map fun e => entryBytes e.1 e.2 false stStale [])) s with
        answer := .status stStale [] }
    | none => s
  | .fresh _ => s

/-- A dictionary command (R361): the checks of Table 14.7 that apply to commands (feature, level), then its body, which
gives the state, the status and the result; the answer is sent and kept. A PENDING command is remembered for CMD_DONE. -/
def dictCommand (x : DictCtx) (index : BitVec 16) (sub : BitVec 8) (level : Nat) (feature : Bool)
    (body : State → State × Nat × List Byte) (s : State) : State :=
  match reqState s x with
  | .fresh w =>
    let r :=
      if feature = false then (s, stNotSupported, [])
      else if w.level.toNat < level then (s, stLevelDenied, [])
      else body s
    let s1 := r.1
    let s2 := if r.2.1 = stPending then
        { s1 with adp := { s1.adp with pend := s1.adp.pend ++ [⟨x.sid, x.reqid, index, sub⟩] } } else s1
    { respond x [entryBytes index sub false r.2.1 r.2.2] s2 with answer := .status r.2.1 r.2.2 }
  | r => reqNotRun x [(index, sub)] r s

/-- A pending command ends: CMD_DONE to the session that started it, if it is still in force (R361, R354); the kept
response shows the final status (R362). -/
def cmdDone (index : BitVec 16) (sub : BitVec 8) (status : Nat) (value : List Byte) (s : State) : State :=
  let ps := s.adp.pend.filter fun p => p.index = index ∧ p.sub = sub
  let s1 := { s with adp := { s.adp with pend := s.adp.pend.filter fun p => ¬ (p.index = index ∧ p.sub = sub) } }
  ps.foldl (fun a p =>
    let b := respBody p.reqid [entryBytes index sub false status value]
    match findSession a p.sid with
    | none => a
    | some w =>
      modSession p.sid (fun w => { w with kept := w.kept.map fun k => if k.reqid = p.reqid then { k with body := b } else k })
        (sendIn p.sid w.src 0x22 b a)) s1

/-- As `cmdDone`, for the one command with a given request. -/
def cmdDoneFor (x : DictCtx) (index : BitVec 16) (sub : BitVec 8) (status : Nat) (value : List Byte) (s : State) : State :=
  let hit := s.adp.pend.any fun p => p.sid = x.sid ∧ p.reqid = x.reqid
  let s1 := { s with adp := { s.adp with pend := s.adp.pend.filter fun p => ¬ (p.sid = x.sid ∧ p.reqid = x.reqid) } }
  if hit then
    let b := respBody x.reqid [entryBytes index sub false status value]
    match findSession s1 x.sid with
    | none => s1
    | some w =>
      modSession x.sid (fun w => { w with kept := w.kept.map fun k => if k.reqid = x.reqid then { k with body := b } else k })
        (sendIn x.sid w.src 0x22 b s1)
  else s

end Sys2Proof.Machine
end

