-- ==== Sys2Proof/Machine/FailStop.lean ====
section
/-! DEFINITION. Domain fail-stop and its directory scan (06 R148, R149), and the reset of a Sleeve. -/

namespace Sys2Proof.Machine

/-! ### Requests that a protective action ends (03 R82 to R84) -/

/-- Outcome codes (Table 3.13). -/
def ocDone : Nat := 0
def ocDeferred : Nat := 1
def ocRefused : Nat := 2
def ocBusy : Nat := 3
def ocWithdrawn : Nat := 4

/-- The status a dictionary command reports for an outcome (R361). -/
def outcomeStatus : Nat → Nat
  | 0 => stOK
  | 1 => stPending
  | 2 => stRefused
  | 3 => stBusy
  | _ => stWithdrawn

/-- Set REQSTAT (Table 13.7). -/
def setReqstat (busy : Bool) (b oc : Nat) (s : State) : State :=
  { s with pwr := { s.pwr with reqBusy := busy, reqTarget := BitVec.ofNat 6 b, reqOutcome := BitVec.ofNat 4 oc } }

/-- A request that was not final ends with an outcome: REQSTAT, if it shows that target, and CMD_DONE (R361). -/
def endReq (o : PwrOp) (oc : Nat) (s : State) : State :=
  let s1 := if s.pwr.reqTarget.toNat = o.block.val ∧ s.pwr.reqBusy then setReqstat false o.block.val oc s else s
  match o.ctx with
  | some x => cmdDoneFor x 0x3101 0 (outcomeStatus oc) [] s1
  | none => s1

/-- Withdraw the deferred request of block `b`, if any (Table 3.14). -/
def withdraw (b : Nat) (s : State) : State :=
  match s.pwr.deferred.find? fun o => o.block.val = b with
  | none => s
  | some o => endReq o ocWithdrawn { s with pwr := { s.pwr with deferred := s.pwr.deferred.filter fun o => o.block.val ≠ b } }

/-- Set the outcome a deferred package power-off ends with: Lace CMDSTAT, or CMD_DONE. -/
def endOff (o : PwrOp) (oc : Nat) (s : State) : State :=
  let s1 := match o.who with
    | .lace => { s with lace := { s.lace with cmdstat := BitVec.ofNat 8 oc } }
    | _ => s
  match o.ctx with
  | some x => cmdDoneFor x 0x3102 0 (outcomeStatus oc) [] s1
  | none => s1

/-- A protective action starts (R82): every deferred request ends WITHDRAWN, a deferred package power-off too (Table 3.14). -/
def withdrawAll (s : State) : State :=
  let s1 := (upto 40).foldl (fun a b => withdraw b a) s
  match s1.pwr.offPending with
  | some o => endOff o ocWithdrawn { s1 with pwr := { s1.pwr with offPending := none } }
  | none => s1

/-! ### Fail-stop -/

/-- VEST.COH.FSTOP[d] as a word (Table 6.14). -/
def fstopWord (f : FStop) : Word :=
  cat [on 63 f.active, on 62 f.linev, at_ 58 f.cause, at_ 50 f.src, at_ 0 f.line]

/-- An agent of a level lies in domain `d`: a Sleeve by its number at the Vest level, every core of a Sleeve at its level. -/
def agentInDom (s : State) (d : Nat) (l : Level) (a : Nat) : Bool :=
  match l with
  | .vest => decide (a < 12) && domainOf s a == d
  | .sleeve k => domainOf s k == d

/-- A transaction at a home agent on which a Sleeve of another domain still has to answer. -/
def awaitsOther (s : State) (d : Nat) (t : Txn) : Bool := t.lvl == Level.vest && t.wait.any fun k => decide (domainOf s k ≠ d)

/-- The accesses that wait for a completion at a port, without those of the harts of some Sleeves. -/
def dropWaits (inS : Nat → Bool) (s : State) : State :=
  (upto 6).foldl (fun a q => a.modPort q fun x => { x with wait := x.wait.filter fun w => match w.2.1 with
    | .hart h => !inS (hartSleeve h)
    | _ => true }) s

/-- The transactions that agents of a domain did not ask for. -/
def dropDomTxns (s : State) (d : Nat) (l : List Txn) : List Txn := l.filter fun t => !agentInDom s d t.lvl t.req

/-- Stop one Sleeve for a fail-stop (steps 2 to 4 of Table 6.13): harts stop, its Cuff main band is taken down. -/
def stopSleeve (s : State) (k : Nat) : State :=
  let s1 := { s with harts := (upto 80).foldl (fun a i =>
      let h := 80 * k + i
      tabSet a Hart.reset h { tabGet a Hart.reset h with stopped := true, heldAcc := false, walkPaid := none, io := none }) s.harts }
  let s2 := s1.modCuff k fun c => { c with state := 5, step := 0 }
  { s2 with pkg := { s2.pkg with cuffUp := setBit s2.pkg.cuffUp k false, cuffVer := tabSet s2.pkg.cuffVer 0 k 0 } }

/-- The hart whose packet a held command carries, if a hart's. -/
def heldHart : Held → Option Nat
  | h => if h.pt < 240 then some h.pt else none

/-- A held packet that is not of a hart of domain `d` (Table 7.9). -/
def heldOutside (s : State) (d : Nat) (h : Held) : Bool :=
  match heldHart h with
  | some c => !(domainOf s (c / 20) == d)
  | none => true

/-- A packet in flight that a fail-stop of domain `d` leaves (R149, step 4): it does not stand in a Sleeve of `d` or on its Cuff, goes
to none, and is no request of one. -/
def flightOutside (s : State) (d : Nat) (f : Flight) : Bool :=
  let inD (x : Nat) : Bool := decide (x < 12) && domainOf s x == d
  !(inD f.die || inD (nodeDie f.pkt.dst) || (inD (nodeDie f.pkt.srcN) && decide (f.pkt.vc = 0 ∨ f.pkt.vc = 4 ∨ f.pkt.vc = 5)))

/-- A domain fail-stop of `d` (R149): FSTOP[d] is set, the harts stop, requests are discarded, Cuffs go down, the scan
starts, deferred power requests end WITHDRAWN (R84), and one record is written. A domain that has already stopped keeps its first cause. -/
def failStop (d cause src : Nat) (line : Option Nat) (s : State) : State :=
  if (s.fstop d).active then s
  else
    let f : FStop := ⟨true, line.isSome, BitVec.ofNat 4 cause, BitVec.ofNat 8 src, BitVec.ofNat 46 (line.getD 0), true, false⟩
    let s1 := s.setFstop d f
    let s2 := dropWaits (fun k => domainOf s k == d) ((domSleeves s d).foldl stopSleeve s1)
    let c := s2.coh
    let inD (l : Level) (a : Nat) : Bool := agentInDom s d l a
    let coh := { c with
      txns := c.txns.filter fun t => !agentInDom s d t.lvl t.req || awaitsOther s d t
      queue := dropDomTxns s d c.queue
      mshr := c.mshr.filter (fun m => !inD m.lvl m.agent)
      late := c.late.filter (fun m => !inD m.lvl m.dest)
      wbs := c.wbs.filter (fun w => !inD w.lvl w.agent) }
    let s3 := { s2 with coh := coh, fab := { s2.fab with held := s2.fab.held.filter (heldOutside s d), mesh := { s2.fab.mesh with
      flights := s2.fab.mesh.flights.filter (flightOutside s d) } } }
    report (mkReport (0x2000 + src) 4 0x021 false 16 (leBytes 8 (fstopWord f).toNat ++ leBytes 1 d)) (withdrawAll s3)

/-- Fail-stop of the domain of Sleeve `k`. -/
def failStopSleeve (k cause src : Nat) (line : Option Nat) (s : State) : State :=
  failStop (domainOf s k) cause src line s

/-- Fail-stop of every domain that has a Sleeve present (cause 0x7). -/
def failStopAll (src : Nat) (line : Option Nat) (s : State) : State :=
  ((upto 4).filter fun d => domSleeves s d ≠ []).foldl (fun a d => failStop d 7 src line a) s

/-- The scan of one directory entry (step 5 of Table 6.13): pointers to Sleeves of `d` are removed; `none` when no
holder is left. -/
def scanEntry (inD : Nat → Bool) (e : DirEnt) : Option DirEnt :=
  match e.st with
  | .p l => let l' := l.filter fun k => !inD k
    if l' = [] then none else some { e with st := .p l' }
  | .b => some e
  | .x o => if inD o then none else some e

/-- Lines in X with an owner in the domain: their home copies are poisoned. -/
def scanPoison (inD : Nat → Bool) (l : List (Nat × DirEnt)) (p : List (Nat × Bool)) : List (Nat × Bool) :=
  l.foldl (fun a e => match e.2.st with
    | .x o => if inD o then tabSet a false e.2.line true else a
    | _ => a) p

/-- A scope lies within Sleeve `k`. -/
def inSleeve (k : Nat) : Scope → Bool
  | .core c => c.val / 20 == k
  | .sleeve j => j.val == k
  | .package => false

/-- A Sleeve returns to reset: its harts, cores, caches, cache control, timers and power state take their reset values,
and it is held in reset. A halt-on-reset request, which the debug module holds, stays. -/
def resetSleeve (k : Nat) (s : State) : State :=
  let keepHart (e : Nat × Hart) : Option (Nat × Hart) :=
    if e.1 / 80 = k then (if e.2.resetHalt then some (e.1, { Hart.reset with resetHalt := true }) else none) else some e
  { s with
    harts := s.harts.filterMap keepHart
    cores := s.cores.filter fun e => e.1 / 20 ≠ k
    slvs := tabErase k s.slvs
    mtimecmp := s.mtimecmp.filter fun e => e.1 / 80 ≠ k
    dram := { s.dram with mem := s.dram.mem.filter fun e => ¬ (0x20000000 + k * 0x4000000 ≤ e.1 ∧ e.1 < 0x20000000 + (k + 1) * 0x4000000) }
    pkg := { s.pkg with slvHeld := setBit s.pkg.slvHeld k true }
    pwr := { s.pwr with
      coreSl := s.pwr.coreSl.filter fun e => e.1 / 20 ≠ k
      entering := s.pwr.entering.filter fun o => !inSleeve k o.scope
      waking := s.pwr.waking.filter fun o => !inSleeve k o.scope
      blocks := tabSet s.pwr.blocks 0 k 0
      slv := tabSet s.pwr.slv SlvPwr.reset k { s.slvPwr k with sl := 0, slHeld := false } } }

end Sys2Proof.Machine
end

