-- ==== Sys2Proof/Machine/Cache.lean ====
section
/-! DEFINITION. Cache arrays (05): geometry, set index and home functions, tree pseudo-LRU, and the lines of memory. -/

namespace Sys2Proof.Machine

/-! ### Index functions (R103, R106, R118, R130, R135, R139). A line is named by its line number, address bits 51:6. -/

/-- The exclusive or of the 4-bit groups of L[29:0]. -/
def foldSlice (l : Nat) : Nat := (upto 8).foldl (fun a i => a ^^^ (l / 16 ^ i % 16)) 0

/-- SLICE, ROW, BANK and SET of a line (R106). -/
def hashSlice (n : Nat) : Nat := foldSlice (n % 2 ^ 30)
def hashRow (n : Nat) : Nat := (n / 2 ^ 4 % 1024) ^^^ (n / 2 ^ 14 % 1024) ^^^ (n / 2 ^ 24 % 64)
def hashBank (n : Nat) : Nat := n % 2 ^ 30 / 16 % 3
def hashSet (n : Nat) : Nat := hashBank n * 1024 + hashRow n

/-- HA(A): the home agent of a line (R130). -/
def homeAgent (n : Nat) : Nat :=
  (upto 6).foldl (fun a i => a ^^^ (n / 64 ^ (i + 1) % 64)) (n / 2 ^ 42 % 16)

/-- The Sleeve whose scratch window holds an address, with the way and the offset in the way (Table 1.8). -/
def scratchOf (a : Nat) : Option (Nat × Nat × Nat) :=
  if 0x20000000 ≤ a ∧ a < 0x50000000 then
    let k := (a - 0x20000000) / 0x4000000
    let o := (a - 0x20000000) % 0x4000000
    if 0x2000000 ≤ o ∧ o < 0x3800000 then some (k, (o - 0x2000000) / 0x300000, (o - 0x2000000) % 0x300000) else none
  else none

/-- Where a scratch way holds the byte at offset `o` (R118): the slice and the set. -/
def scratchPlace (o : Nat) : Nat × Nat := (o / 64 % 16, o / 1024)

/-- The Sleeve of a scratch-window line. -/
def scratchSlv (n : Nat) : Option Nat := (scratchOf (n * 64)).map (·.1)

/-- The slice of a line: by the hash, or for a scratch-window line the owning slice (R118, Table 6.1). -/
def lineSlice (n : Nat) : Nat :=
  match scratchOf (n * 64) with
  | some x => (scratchPlace x.2.2).1
  | none => hashSlice n

/-- The snoop-filter set of a line (R135): BANK[0] and ROW, in its slice. -/
def sfSetOf (n : Nat) : Nat := lineSlice n * 2048 + hashBank n % 2 * 1024 + hashRow n

/-- The directory set of a line (R139), in its home agent. -/
def dirSetOf (n : Nat) : Nat := homeAgent n * 16384 + ((n / 64 % 256) ^^^ (n / 2 ^ 14 % 256)) * 64 + n % 64

/-- Hops between two cores of a Sleeve (R153). -/
def coreHops (a b : Nat) : Nat :=
  let d (x y : Nat) : Nat := (x - y) + (y - x)
  d (a / 4) (b / 4) + d (a % 4) (b % 4)

/-! ### Tree pseudo-LRU (R107). Node 1 is the root; the bit of node `n` is bit `n`, and 1 selects the upper subtree. -/

def natSetBit (b n : Nat) (v : Bool) : Nat :=
  if b.testBit n then (if v then b else b - 2 ^ n) else (if v then b + 2 ^ n else b)

/-- Point the nodes above way `w` away from it. `d` levels remain below node `n`. -/
def plruTouch : Nat → Nat → Nat → Nat → Nat
  | 0, _, _, b => b
  | d + 1, n, w, b =>
    let r := w.testBit d
    plruTouch d (2 * n + (if r then 1 else 0)) w (natSetBit b n (!r))

/-- A subtree of 2^d ways from `base` has a permitted way. -/
def subPerm (perm : Nat → Bool) (d base : Nat) : Bool := (upto (2 ^ d)).any fun i => perm (base + i)

/-- The way that the tree selects among the permitted ones. -/
def plruPick (perm : Nat → Bool) : Nat → Nat → Nat → Nat → Nat
  | 0, _, base, _ => base
  | d + 1, n, base, b =>
    let up := base + 2 ^ d
    if (if b.testBit n then subPerm perm d up else !subPerm perm d base) then plruPick perm d (2 * n + 1) up b
    else plruPick perm d (2 * n) base b

/-- The way for a fill (R107): the lowest permitted way without an entry, else the tree's choice; nothing when no way is
permitted. -/
def pickWay (ways depth : Nat) (used perm : Nat → Bool) (bits : Nat) : Option Nat :=
  match (upto ways).find? fun w => perm w && !used w with
  | some w => some w
  | none => if (upto ways).any perm then some (plruPick (fun w => decide (w < ways) && perm w) depth 1 0 bits) else none

/-! ### Set-associative arrays. An entry of set `t` and way `w` has key t × ways + w. -/

/-- The way and entry that hold a line. -/
def cLook (c : Cache) (ways t n : Nat) : Option (Nat × CLine) :=
  (upto ways).findSome? fun w => match tabFind (t * ways + w) c.ents with
    | some e => if e.line = n then some (w, e) else none
    | none => none

def cPut (c : Cache) (ways t w : Nat) (e : CLine) : Cache := { c with ents := tabInsert (t * ways + w) e c.ents }
def cTouch (c : Cache) (depth t w : Nat) : Cache :=
  { c with plru := tabSet c.plru 0 t (plruTouch depth 1 w (tabGet c.plru 0 t)) }
def cDel (c : Cache) (ways t n : Nat) : Cache :=
  match cLook c ways t n with
  | some x => { c with ents := tabErase (t * ways + x.1) c.ents }
  | none => c
/-- Change the entry of a line. -/
def cMod (c : Cache) (ways t n : Nat) (f : CLine → CLine) : Cache :=
  match cLook c ways t n with
  | some x => cPut c ways t x.1 (f x.2)
  | none => c

/-- Where a fill goes: the way, and the entry it replaces. A shadow, a tag without valid data, counts as a line that the way holds.
DESIGN CHOICE (log 137). -/
def cVictim (c : Cache) (ways depth t : Nat) (perm : Nat → Bool) : Option (Nat × Option CLine) :=
  (pickWay ways depth (fun w => (tabFind (t * ways + w) c.ents).isSome) perm (tabGet c.plru 0 t)).map
    fun w => (w, tabFind (t * ways + w) c.ents)

/-! ### The core caches -/

def l1dT (n : Nat) : Nat := n % 64
def l1iT (n : Nat) : Nat := n % 128
def l2T (n : Nat) : Nat := n % 2048
def l1dLook (k : Core) (n : Nat) : Option CLine := (cLook k.l1d 8 (l1dT n) n).map (·.2)
def l1iLook (k : Core) (n : Nat) : Option CLine := (cLook k.l1i 4 (l1iT n) n).map (·.2)
def l2Look (k : Core) (n : Nat) : Option CLine := (cLook k.l2 8 (l2T n) n).map (·.2)

/-- What the core caches hold of a line (R131): the L1D's copy, else the L2's, else the L1I's. -/
def coreLook (k : Core) (n : Nat) : Option CLine := (l1dLook k n).or ((l2Look k n).or (l1iLook k n))

/-- The line leaves the core caches. -/
def coreErase (n : Nat) (k : Core) : Core :=
  { k with l1d := cDel k.l1d 8 (l1dT n) n, l1i := cDel k.l1i 4 (l1iT n) n, l2 := cDel k.l2 8 (l2T n) n }

/-- The core's state of a line changes: every array that holds it takes the state, and the newest data of the core. -/
def coreSetSt (n : Nat) (st : LState) (k : Core) : Core :=
  match coreLook k n with
  | none => k
  | some e =>
    let f (_ : CLine) : CLine := { e with st := st }
    { k with l1d := cMod k.l1d 8 (l1dT n) n f, l1i := cMod k.l1i 4 (l1iT n) n f, l2 := cMod k.l2 8 (l2T n) n f }

/-- Reservations on a line that the L1D of a core loses are cleared (R145). -/
def dropResv (core n : Nat) (s : State) : State :=
  (upto 4).foldl (fun a t =>
    let h := 4 * core + t
    if (a.hart h).resv = some n then a.modHart h fun x => { x with resv := none, resHold := none } else a) s

/-- A core gives up a line. -/
def coreDrop (core n : Nat) (s : State) : State := dropResv core n (s.modCore core (coreErase n))

/-! ### Memory lines: DRAM, CXL memory, Vest SRAM, boot ROM and scratch ways, with a poison mark per line. -/

/-- The merge buffer that holds the word of an address (R126): of the owning slice for a scratch-window word, of its bank for a
Vest secure SRAM word (R467). -/
def mergeBankOf (a : Nat) : Option MergeBank :=
  match scratchOf a with
  | some x => some (.slice (Fin.ofNat 12 x.1) (Fin.ofNat 16 (x.2.2 / 64)))
  | none => if 0x1000000 ≤ a ∧ a < 0x2000000 then some (.vest (Fin.ofNat 16 (a / 64))) else none

/-- The entries of a merge buffer, oldest first. -/
def mergeEnts (s : State) : MergeBank → List MergeEnt
  | .slice k i => tabGet (s.slv k).merge [] i
  | .vest i => tabGet s.vmerge [] i
  | .queue i => tabGet s.qmerge [] i
def setMerge (b : MergeBank) (l : List MergeEnt) (s : State) : State :=
  match b with
  | .slice k i => s.modSlv k fun v => { v with merge := tabSet v.merge [] i l }
  | .vest i => { s with vmerge := tabSet s.vmerge [] i l }
  | .queue i => { s with qmerge := tabSet s.qmerge [] i l }

/-- A byte that waits in a merge buffer. -/
def mergeByte (s : State) (a : Nat) : Option Byte :=
  (mergeBankOf a).bind fun b => ((mergeEnts s b).find? fun e => e.word == a / 8 && e.mask.getLsbD (a % 8)).map
    fun e => e.data.extractLsb' (8 * (a % 8)) 8

/-- The Pocket ring (Table 3.9), whose bytes the Pocket keeps. -/
def ringAddr (a : Nat) : Bool := decide (0x1800000 ≤ a ∧ a < 0x1C00000)

/-- The segment map (R249): one 8 B entry for each global segment. -/
def mapAddr (a : Nat) : Bool := decide (0x1C00000 ≤ a ∧ a < 0x1F80000)

/-- A segment map entry as a word (Table 10.5), and the entry that a word spells. -/
def segWord (e : SegEnt) : Word :=
  cat [on 63 e.v, on 62 e.log, on 61 e.hot, on 60 e.busy, at_ 52 (BitVec.ofNat 8 e.rwc), at_ 42 (BitVec.ofNat 10 e.idx),
    at_ 0 (BitVec.ofNat 19 e.band)]
def segOfWord (w : Word) : SegEnt :=
  ⟨bit w 63, bit w 62, bit w 61, bit w 60, (fld w 52 8).toNat, (fld w 42 10).toNat, (fld w 0 19).toNat⟩

/-- The bytes of the segment map from an address on. -/
def mapByte (s : State) (a : Nat) : Byte :=
  (segWord (tabGet s.ftl.maps.segs SegEnt.reset ((a - 0x1C00000) / 8))).extractLsb' (8 * (a % 8)) 8

/-- Store one byte of the segment map: the entry is what its word then spells. -/
def setMapByte (a : Nat) (b : Byte) (s : State) : State :=
  let g := (a - 0x1C00000) / 8
  let w := segWord (tabGet s.ftl.maps.segs SegEnt.reset g)
  let v := BitVec.ofNat 64 (leNat ((upto 8).map fun i => if i = a % 8 then b else w.extractLsb' (8 * i) 8))
  { s with ftl := { s.ftl with maps := { s.ftl.maps with segs := tabSet s.ftl.maps.segs SegEnt.reset g (segOfWord v) } } }

/-- A byte as a reader sees it: merged bytes over the stored word (R127). -/
def memByte (s : State) (a : Nat) : Byte :=
  if a < 0x40000 then Config.bootRom a
  else (mergeByte s a).getD
    (if ringAddr a then tabGet s.pkt.back 0 (a - 0x1800000) else if mapAddr a then mapByte s a else tabGet s.dram.mem 0 a)
def setByte (a : Nat) (b : Byte) (s : State) : State :=
  if ringAddr a then { s with pkt := { s.pkt with back := tabSet s.pkt.back 0 (a - 0x1800000) b } }
  else if mapAddr a then setMapByte a b s
  else { s with dram := { s.dram with mem := tabSet s.dram.mem 0 a b } }
def memBytes (s : State) (a n : Nat) : List Byte := (upto n).map fun i => memByte s (a + i)
/-- Store bytes into the arrays. -/
def setBytes (a : Nat) (l : List Byte) (s : State) : State :=
  if ringAddr a then { s with pkt := { s.pkt with back := backPut (a - 0x1800000) l s.pkt.back } }
  else if mapAddr a then (l.zipIdx).foldl (fun t x => setMapByte (a + x.2) x.1 t) s
  else { s with dram := { s.dram with mem := (l.zipIdx).foldl (fun m x => tabSet m 0 (a + x.2) x.1) s.dram.mem } }

/-- A line as bytes and as a word of 512 bits. -/
def lineOfBytes (l : List Byte) : LineData := BitVec.ofNat 512 (leNat l)
def bytesOfLine (d : LineData) : List Byte := (upto 64).map fun i => d.extractLsb' (8 * i) 8

def memLine (s : State) (n : Nat) : LineData := lineOfBytes (memBytes s (64 * n) 64)
def setPoison (n : Nat) (p : Bool) (s : State) : State := { s with dram := { s.dram with poison := tabSet s.dram.poison false n p } }

/-- An address lies in a decoder's range, and the target that the decoder gives it (R210). -/
def decHas (a : Nat) (d : CxlDec) : Bool := decide (d.base.toNat * 0x10000000 ≤ a ∧ a < (d.limit.toNat + 1) * 0x10000000)
def decTarget (a : Nat) (d : CxlDec) : Nat :=
  let t := (a - d.base.toNat * 0x10000000) / (256 * 2 ^ d.ig.toNat) % 2 ^ d.iw.toNat
  d.target.toNat / 32 ^ t % 32

/-- Target of a CXL address under the committed decoders (R210): root port × 4 + link. -/
def cxlTarget (s : State) (a : Nat) : Option Nat :=
  (s.dram.decs.find? fun e => e.2.commit && decHas a e.2).map fun e => decTarget a e.2

/-- Target of a write-back: the recall of a cleared decoder still writes to its device (R211). -/
def cxlBack (s : State) (a : Nat) : Option Nat := (cxlTarget s a).or ((s.dram.recalls.find? (decHas a)).map (decTarget a))

/-- A link is isolated (R213). -/
def linkIso (s : State) (t : Nat) : Bool := decide (t < 20) && s.dram.cxlIso.getLsbD t

/-- The target of a line is isolated. -/
def cxlIsolated (s : State) (n : Nat) : Bool :=
  match cxlTarget s (64 * n) with
  | some t => linkIso s t
  | none => false

/-- The poison mark of a line. Through an isolated port every read is poisoned (R213); after an isolation a line not yet
written is, by a free choice, as the device last held it or poisoned. -/
def linePoison (s : State) (n : Nat) : Bool :=
  cxlIsolated s n || tabGet s.dram.poison false n ||
    match cxlTarget s (64 * n) with
    | some t => match tabFind t s.dram.cxlOpen with
      | some i => !s.dram.cxlDef.contains (t, n) && decide (Config.freeNat (i + n) % 2 = 1)
      | none => false
    | none => false

/-- Full words replace their merge-buffer entries (R127). -/
def mergeClear (n : Nat) (s : State) : State :=
  match mergeBankOf (64 * n) with
  | some b => setMerge b ((mergeEnts s b).filter fun e => e.word / 8 ≠ n) s
  | none => s

/-- The device of a link keeps the poison of a line until a full-line write (R212). -/
def keepsPoison (s : State) (t : Nat) : Bool := !(tabGet s.pcie.links PLink.reset t).noPoison

/-- Write a line at its home. Through an isolated port the write-back is discarded and reported (R213). A device that cannot keep
poison answers a poisoned write with an error: reported, and the device keeps what it held (R212; log 144). -/
def memPut (n : Nat) (d : LineData) (p : Bool) (s : State) : State :=
  match cxlBack s (64 * n) with
  | some t =>
    if linkIso s t then
      report (mkReport (0x5000 + t) 2 0x011 false 16 (leBytes 8 (64 * n) ++ leBytes 2 (portNode (t / 4)))) s
    else if p && !keepsPoison s t then
      report (mkReport (0x5000 + t) 3 0x012 false 16 (leBytes 8 (64 * n) ++ leBytes 2 (haNode (homeAgent n)) ++ leBytes 1 4)) s
    else
      let s1 := setPoison n p (setBytes (64 * n) (bytesOfLine d) s)
      if (tabFind t s.dram.cxlOpen).isSome && !s.dram.cxlDef.contains (t, n) then
        { s1 with dram := { s1.dram with cxlDef := (t, n) :: s1.dram.cxlDef } } else s1
  | none => setPoison n p (setBytes (64 * n) (bytesOfLine d) (mergeClear n s))

/-- A merge entry drains (R127, R128): its bytes are written into the word; a poisoned line stays poisoned. -/
def drainEntry (b : MergeBank) (w : Nat) (s : State) : State :=
  match (mergeEnts s b).find? fun e => e.word == w with
  | none => s
  | some e =>
    let s1 := setMerge b ((mergeEnts s b).filter fun e => e.word ≠ w) s
    (upto 8).foldl (fun a i => if e.mask.getLsbD i then setByte (8 * w + i) (e.data.extractLsb' (8 * i) 8) a else a) s1

/-- One word of a write into an array with a merge buffer: a whole word is written and replaces the entry; a narrower one
merges, allocating an entry and draining the oldest of 16 when the buffer is full; an entry that is complete drains. -/
def arrayWord (b : MergeBank) (w : Nat) (mask : BitVec 8) (d : Word) (s : State) : State :=
  if mask = 0 then s
  else if mask = BitVec.allOnes 8 then
    setBytes (8 * w) (leBytes 8 d.toNat) (setMerge b ((mergeEnts s b).filter fun e => e.word ≠ w) s)
  else
    let l := mergeEnts s b
    let put (o : MergeEnt) : MergeEnt :=
      ⟨w, o.mask ||| mask, BitVec.ofNat 64 (leNat ((upto 8).map fun i =>
        if mask.getLsbD i then d.extractLsb' (8 * i) 8 else o.data.extractLsb' (8 * i) 8))⟩
    match l.find? fun e => e.word == w with
    | some o =>
      let e := put o
      let s1 := setMerge b (l.filter (fun e => e.word ≠ w) ++ [e]) s
      if e.mask = BitVec.allOnes 8 then drainEntry b w s1 else s1
    | none =>
      let s1 := if 16 ≤ l.length then match l with
        | o :: _ => drainEntry b o.word s
        | [] => s else s
      setMerge b (mergeEnts s1 b ++ [put ⟨w, 0, 0⟩]) s1

/-- Write the bytes of a mask into a line at its home: through the merge buffer where the array has one. -/
def putPart (n : Nat) (d : LineData) (mask : BitVec 64) (s : State) : State :=
  match mergeBankOf (64 * n) with
  | some b => (upto 8).foldl (fun a i => arrayWord b (8 * n + i) (mask.extractLsb' (8 * i) 8) (d.extractLsb' (64 * i) 64) a) s
  | none =>
    setBytes (64 * n) ((upto 64).map fun i => if mask.getLsbD i then d.extractLsb' (8 * i) 8 else memByte s (64 * n + i)) s

/-- A line with the bytes of a mask replaced. -/
def mergeLine (old new : LineData) (mask : BitVec 64) : LineData :=
  lineOfBytes ((upto 64).map fun i => if mask.getLsbD i then new.extractLsb' (8 * i) 8 else old.extractLsb' (8 * i) 8)

end Sys2Proof.Machine
end

