-- ==== Sys2Proof/Machine/Net.lean ====
section
/-! DEFINITION. The on-package network (07 R153 to R166): packets and their commands, node numbers of the ends of a message, the
check for malformed packets, routes, queues and credits, the order of arrival, and one round of the meshes. -/

namespace Sys2Proof.Machine

/-! ### Packets (R159 to R161) -/

/-- Table 7.5: the channel of a command, and the least and the most data units it has. -/
def cmdRow (c : Nat) : Option (Nat × Nat × Nat) :=
  if 0x01 ≤ c ∧ c ≤ 0x05 then some (0, 0, 0)
  else if c = 0x06 ∨ c = 0x07 then some (0, 2, 2)
  else if c = 0x08 ∨ c = 0x09 then some (0, 1, 1)
  else if 0x10 ≤ c ∧ c ≤ 0x13 then some (1, 0, 0)
  else if 0x20 ≤ c ∧ c ≤ 0x29 then some (2, 0, 0)
  else if c = 0x30 then some (3, 1, 2)
  else if 0x31 ≤ c ∧ c ≤ 0x34 then some (3, 2, 2)
  else if c = 0x35 then some (3, 1, 4)
  else if c = 0x40 then some (4, 1, 4)
  else if c = 0x41 then some (4, 1, 1)
  else if c = 0x48 then some (5, 0, 0)
  else if c = 0x49 then some (5, 1, 4)
  else if c = 0x4A then some (5, 1, 1)
  else none

/-- The commands whose HW2 holds an offset and a byte count: the I/O commands. -/
def ioCmd (c : Nat) : Bool := decide (c = 0x29 ∨ c = 0x35 ∨ c = 0x40 ∨ c = 0x41 ∨ c = 0x48 ∨ c = 0x49 ∨ c = 0x4A)

/-- The bits of HW2 and of HW3 that Table 7.4 reserves for a command. -/
def hw2Reserved (c : Nat) : Word :=
  if c = 0x07 then 0
  else if 0x10 ≤ c ∧ c ≤ 0x13 then 0xFFFFFFFFF0000000
  else if ioCmd c then 0xFFFFFFFFFFFF0000
  else BitVec.allOnes 64
def hw3Reserved (c : Nat) : Word :=
  if c = 0x29 ∨ c = 0x35 then 0xFFFFFFFFFFFF00FF
  else if c = 0x08 ∨ c = 0x09 ∨ c = 0x4A then 0xFFFFFFFFFFFFFFC0
  else if c = 0x30 then 0xFFFFFFFFFFFFFFF8
  else BitVec.allOnes 64

/-- A node ID with a reserved DIE or PORT (Table 7.3). -/
def nodeBad (n : Nat) : Bool :=
  if nodeDie n < 12 then decide (3 < nodePort n) else if nodeDie n = 15 then decide (5 < nodePort n) else true

/-- A malformed header (R161). -/
def malformed (p : Packet) : Bool :=
  match cmdRow p.cmd with
  | none => true
  | some (vc, lo, hi) =>
    decide (p.vc ≠ vc ∨ p.len < lo ∨ hi < p.len) || nodeBad p.dst || nodeBad p.srcN ||
      decide (p.hw0 &&& 0x1F ≠ 0 ∨ fld p.hw1 50 2 ≠ 0 ∨ p.hw2 &&& hw2Reserved p.cmd ≠ 0 ∨ p.hw3 &&& hw3Reserved p.cmd ≠ 0)

/-- A malformed packet is an error of the Sleeve that sent it, or of the Vest when a Vest agent did (R161). -/
def malformedError (sender : Nat) (s : State) : State :=
  if sender < 12 then failStopSleeve sender 3 sender none s else failStopAll 0x60 none s

/-- A packet of a command, of its data units' number and of the channel that Table 7.5 gives it. -/
def mkPacket (cmd dst src : Nat) (tid tag : BitVec 12) (sec fa : Bool) (poison : BitVec 2) (line : Nat) (hw2 hw3 : Word)
    (units : List (BitVec 256)) : Packet where
  hw0 := cat [at_ 48 (BitVec.ofNat 16 dst), at_ 32 (BitVec.ofNat 16 src), at_ 24 (BitVec.ofNat 8 cmd),
    at_ 21 (BitVec.ofNat 3 (((cmdRow cmd).map (·.1)).getD 0)), at_ 18 (BitVec.ofNat 3 units.length), at_ 6 tid]
  hw1 := cat [at_ 52 tag, on 49 sec, on 48 fa, at_ 46 poison, at_ 0 (BitVec.ofNat 46 line)]
  hw2 := hw2
  hw3 := hw3
  units := units

/-- The data units of a line. -/
def lineUnits (d : LineData) : List (BitVec 256) := [d.extractLsb' 0 256, d.extractLsb' 256 256]

/-- OP of a Data packet (Table 7.4). -/
def stCode : LState → BitVec 3
  | .I => 0
  | .S => 1
  | .F => 2
  | .E => 3
  | .M => 4

/-! ### Messages as packets -/

/-- The number that stands for a home among the ends of a message; an agent that caches nothing stands as `farEnd` + its node. -/
def homeEnd : Nat := 255
def farEnd : Nat := 1000

def mkMsg (l : Level) (cmd fr dest line : Nat) : Msg := ⟨l, cmd, fr, dest, line, .I, 0, 0, false⟩

/-- The node of an end of a message: a core and a slice of a Sleeve, or a slice and a home agent. -/
def endNode (l : Level) (e n : Nat) : Nat :=
  if farEnd ≤ e then e - farEnd
  else match l with
    | .vest => if e = homeEnd then haNode (homeAgent n) else sliceNode e (lineSlice n)
    | .sleeve k => if e = homeEnd then sliceNode k (lineSlice n) else coreNode (20 * k + e)

/-- The core for which an agent sends a request: itself, or the one whose request a slice serves. -/
def askingCore (s : State) (l : Level) (a n : Nat) : Option Nat :=
  match l with
  | .sleeve k => some (20 * k.val + a)
  | .vest => (s.coh.txns.find? fun t => t.lvl == Level.sleeve (Fin.ofNat 12 a) && t.line == n && t.home).map fun t => 20 * a + t.req

/-- The requester whose transaction a message belongs to. -/
def tagEnd (s : State) (m : Msg) : Nat :=
  if m.cmd = 0x26 ∨ m.cmd = 0x27 ∨ m.cmd = 0x28 ∨ m.cmd = 0x30 then m.dest
  else if 0x10 ≤ m.cmd ∧ m.cmd ≤ 0x13 then m.req
  else if m.cmd < 0x10 ∨ m.cmd = 0x25 ∨ 0x32 ≤ m.cmd then m.fr
  else ((s.coh.txns.find? fun t => t.lvl == m.lvl && t.line == m.line).map (·.req)).getD m.fr

/-- A message as its packet (Table 7.4). A request carries the TID and the world of thread 0 of the core that asks; the other
messages carry 0. -/
def msgPacket (s : State) (m : Msg) : Packet :=
  let n := m.line
  let req := endNode m.lvl (tagEnd s m) n
  let tag := Config.tagOf req n
  let core := if m.cmd < 0x10 then askingCore s m.lvl m.fr n else none
  let data := decide (0x30 ≤ m.cmd ∧ m.cmd ≤ 0x34)
  mkPacket m.cmd (endNode m.lvl m.dest n) (endNode m.lvl m.fr n)
    ((core.map fun c => agentTid s (.hart (Fin.ofNat 960 (4 * c)))).getD 0) tag
    ((core.map fun c => (s.hart (4 * c)).sec).getD false) false (if m.poison then 1 else 0) n
    (if 0x10 ≤ m.cmd ∧ m.cmd ≤ 0x13 then cat [at_ 16 tag, at_ 0 (BitVec.ofNat 16 req)] else 0)
    (if m.cmd = 0x30 then at_ 0 (stCode m.st) else 0)
    (if data then lineUnits m.data else [])

/-! ### Sending, and the order of arrival (R158, R163) -/

/-- A packet is sent: it stands at its source, behind those sent before it. -/
def sendPacket (p : Packet) (s : State) : State :=
  let m := s.fab.mesh
  { s with fab := { s.fab with mesh := { m with flights := m.flights ++ [⟨p, .src, m.seq⟩], seq := m.seq + 1 } } }
def sendMsg (m : Msg) (s : State) : State := sendPacket (msgPacket s m) s

/-- Two packets are one and the same, whatever their TID, world and tag: an SnpI whoever it names, and an I/O packet by its tag. -/
def pktLike (p q : Packet) : Bool :=
  p.dst == q.dst && p.srcN == q.srcN && p.cmd == q.cmd && p.line == q.line && fld p.hw1 46 2 == fld q.hw1 46 2 &&
    p.units == q.units && p.hw3 == q.hw3 &&
    (if p.cmd = 0x13 then true else if 0x10 ≤ p.cmd ∧ p.cmd ≤ 0x12 then fld p.hw2 0 16 == fld q.hw2 0 16 else p.hw2 == q.hw2) &&
    (!ioCmd p.cmd || fld p.hw1 52 12 == fld q.hw1 52 12)

/-- Packet `q`, if sent before `p`, must arrive before it: one source and destination and one channel (R158), or a posted packet
before a non-posted one (R163). -/
def before (q p : Packet) : Bool :=
  q.dst == p.dst && q.srcN == p.srcN && (q.vc == p.vc || (decide (q.vc = 4) && decide (p.vc = 5)))

/-- The packet in flight that a packet which arrives is. -/
def flightOf (s : State) (p : Packet) : Option Flight := s.fab.mesh.flights.find? fun f => pktLike f.pkt p

/-- Data from memory for a transaction that the Belt holds has not left the home agent (R310). -/
def beltStops (s : State) (f : Flight) : Bool :=
  decide (f.loc = .src ∧ f.pkt.cmd = 0x30 ∧ f.pkt.srcN = haNode (homeAgent f.pkt.line)) && txnHeld s f.pkt.line

/-- A packet can not arrive yet: one that must come first is in flight, or the Belt holds it. -/
def pktBlocked (s : State) (p : Packet) : Bool :=
  (match flightOf s p with
    | some f => beltStops s f
    | none => false) ||
  let q := ((flightOf s p).map (·.seq)).getD s.fab.mesh.seq
  s.fab.mesh.flights.any fun f => decide (f.seq < q) && before f.pkt p

/-- A packet arrives: it is no longer in flight. -/
def pktTake (p : Packet) (s : State) : State :=
  match flightOf s p with
  | some f => s.setFlights (s.fab.mesh.flights.filter fun g => decide (g.seq ≠ f.seq))
  | none => s

/-- A packet's arrival and what it does there; nothing happens while another must come first. -/
def onPacket (p : Packet) (s : State) (f : State → State) : State := if pktBlocked s p then s else f (pktTake p s)
def msgBlocked (m : Msg) (s : State) : Bool := pktBlocked s (msgPacket s m)
def takeMsg (m : Msg) (s : State) : State := pktTake (msgPacket s m) s
def onMsg (m : Msg) (s : State) (f : State → State) : State := if msgBlocked m s then s else f (takeMsg m s)

/-- A message that its destination may not serve yet stays in flight. -/
def holdMsg (m : Msg) (s : State) : State := if (flightOf s (msgPacket s m)).isSome then s else sendMsg m s

def sendData (l : Level) (fr dest line : Nat) (st : LState) (d : LineData × Bool) (s : State) : State :=
  sendMsg { mkMsg l 0x30 fr dest line with st := st, data := d.1, poison := d.2 } s

/-! ### I/O packets (Tables 7.4, 7.5) -/

/-- The node at which an I/O address is served: a root port, a core for its interrupt files, the control block of a Sleeve, or
the register blocks of the Vest. -/
def ioNode (a : Nat) : Nat :=
  if 0x14000000 ≤ a ∧ a < 0x1A000000 then portNode ((a - 0x14000000) / 0x1000000)
  else if 0x20000000 ≤ a ∧ a < 0x50000000 then (a - 0x20000000) / 0x4000000 * 4096 + 0x433
  else if 0x60000000 ≤ a ∧ a < 0x60400000 then coreNode ((a - 0x60000000) / 0x1000 / 4)
  else if 0x60400000 ≤ a ∧ a < 0x80000000 then coreNode ((a - 0x60400000) / 0x8000 / 4)
  else if 0x80000000 ≤ a ∧ a < 0x100000000 then portNode ((a - 0x80000000) / 0x10000000)
  else if 0xC0000000000 ≤ a then portNode ((a - 0xC0000000000) / 0x8000000000)
  else vestNode 4 4 1

/-- Bytes as data units, the first byte first. -/
def byteUnits (l : List Byte) : List (BitVec 256) :=
  (upto ((l.length + 31) / 32)).map fun i => BitVec.ofNat 256 (leNat ((l.drop (32 * i)).take 32))

/-- An I/O packet from an agent to an address, with `n` bytes; TID as its sender carries it. -/
def ioPacket (s : State) (cmd : Nat) (who : Agent) (a n : Nat) (tag : BitVec 12) (op : Word) (data : List Byte) : Packet :=
  mkPacket cmd (ioNode a) (agentNode who) (agentTid s who) tag (agentSecure s who) false 0 (a / 64)
    (cat [at_ 8 (BitVec.ofNat 8 (n - 1)), at_ 0 (BitVec.ofNat 8 (a % 64))]) op (byteUnits data)

/-- A completion from a node to its requester. -/
def cplPacket (fr : Nat) (dest : Agent) (tag : BitVec 12) (status : BitVec 8) (data : List Byte) : Packet :=
  mkPacket (if data = [] then 0x29 else 0x35) (agentNode dest) fr 0 tag false false 0 0 0 (at_ 8 status) (byteUnits data)

/-! ### Routes (R157) -/

/-- The port of a router that a node ID names. -/
def portOf (n : Nat) : RPort :=
  if nodeDie n < 12 then match nodePort n with
    | 0 => .core
    | 1 => .slice
    | 2 => .adapter
    | _ => .ctrl
  else match nodePort n with
    | 0 => .l0
    | 1 => .l1
    | 2 => .n
    | 3 => .s
    | 4 => .w
    | _ => .e

/-- The largest column and row of a mesh. -/
def meshX (die : Nat) : Nat := if die < 12 then 4 else 9
def meshY (die : Nat) : Nat := if die < 12 then 3 else 9

/-- Attach slot `k` of a Cuff's column: its router and port (Table 7.1). -/
def slotXY (c k : Nat) : Nat × Nat × RPort :=
  (if c < 6 then 0 else 9, k / 2, if k % 2 = 1 then .l1 else if c < 6 then .w else .e)

/-- The attach slot of Cuff `c` whose router row is nearest row `y`, the lower-numbered on a tie. -/
def nearSlot (c y : Nat) : Nat :=
  let d (k : Nat) : Nat := (k / 2 - y) + (y - k / 2)
  let b := 3 * (c % 6)
  if d b ≤ d (b + 1) then (if d b ≤ d (b + 2) then b else b + 2) else if d (b + 1) ≤ d (b + 2) then b + 1 else b + 2

/-- The row where a packet starts on the Vest: its source's, or that of the slot where it enters. -/
def startRow (p : Packet) : Nat :=
  if nodeDie p.srcN < 12 then nearSlot (nodeDie p.srcN) (nodeY p.dst) / 2 else nodeY p.srcN

/-- Where a packet leaves the mesh of a die, and through which port: at its destination, at the adapter in its source's row, or at
the attach slot of the destination's Cuff nearest the row where it started. -/
def target (die y : Nat) (p : Packet) : Nat × Nat × RPort :=
  if nodeDie p.dst = die then (min (nodeX p.dst) (meshX die), min (nodeY p.dst) (meshY die), portOf p.dst)
  else if die < 12 then (0, if nodeDie p.srcN = die then min (nodeY p.srcN) 3 else y, .adapter)
  else slotXY (nodeDie p.dst) (nearSlot (nodeDie p.dst) (startRow p))

/-- The output of a router that a packet takes: X first, then Y, then the port of the target (none: a mesh direction). -/
def outPort (die x y : Nat) (p : Packet) : RPort × Bool :=
  let t := target die y p
  if x < t.1 then (.e, true) else if t.1 < x then (.w, true)
  else if y < t.2.1 then (.s, true) else if t.2.1 < y then (.n, true)
  else (t.2.2, false)

/-- Where a packet stands after it has left a router by an output. -/
def afterRouter (die x y : Nat) (p : Packet) : NetPlace :=
  match outPort die x y p with
  | (.e, true) => .inq die (x + 1) y .w
  | (.w, true) => .inq die (x - 1) y .e
  | (.s, true) => .inq die x (y + 1) .n
  | (.n, true) => .inq die x (y - 1) .s
  | _ => if nodeDie p.dst = die then .dest else if die < 12 then .tx die true else .tx (nodeDie p.dst) false

/-- Where a packet enters a mesh: at its source, or from the Cuff: a Sleeve at the adapter in the destination's row, the Vest at
the attach slot nearest the destination's row. -/
def entry (p : Packet) : NetPlace → NetPlace
  | .rx k toVest =>
    if toVest then let t := slotXY k (nearSlot k (nodeY p.dst)); .inq 15 t.1 t.2.1 t.2.2
    else .inq k 0 (min (nodeY p.dst) 3) .adapter
  | _ => let n := p.srcN
    .inq (nodeDie n) (min (nodeX n) (meshX (nodeDie n))) (min (nodeY n) (meshY (nodeDie n))) (portOf n)

/-- The next place of a packet in flight; itself where it waits for a flit, or has arrived. -/
def nextPlace (f : Flight) : NetPlace :=
  match f.loc with
  | .src => entry f.pkt .src
  | .rx k v => entry f.pkt (.rx k v)
  | .inq d x y _ => afterRouter d x y f.pkt
  | p => p

/-! ### Queues and credits (R162, R164) -/

/-- Depth in units of a channel's input queue in a Vest router, in a Sleeve router, and of the Cuff's receive buffer
(Table 7.6). -/
def queueDepth (die vc : Nat) : Nat :=
  if die < 12 then (if vc = 3 then 12 else 8) else if vc = 3 then 48 else 24
def rxDepth (vc : Nat) : Nat := if vc = 3 then 128 else if vc = 5 then 32 else 64

/-- Units of a channel that a place holds. -/
def unitsAt (s : State) (pl : NetPlace) (vc : Nat) : Nat :=
  s.fab.mesh.flights.foldl (fun a f => if f.loc = pl ∧ f.pkt.vc = vc then a + f.pkt.size else a) 0

/-- A cumulative counter of a channel, in one of the six-counter words of a link end. -/
def ctr (c : BitVec 48) (vc : Nat) : BitVec 8 := c.extractLsb' (8 * vc) 8
def ctrAdd (c : BitVec 48) (vc n : Nat) : BitVec 48 :=
  (upto 6).foldr (fun i a => (a <<< 8) ||| (if i = vc then ctr c i + BitVec.ofNat 8 n else ctr c i).setWidth 48) 0

/-- The end of a Cuff: the Vest's or the Sleeve's. -/
def endOf (c : Cuff) (vestSide : Bool) : LinkEnd := if vestSide then c.vest else c.sleeve
def setEnd (c : Cuff) (vestSide : Bool) (e : LinkEnd) : Cuff := if vestSide then { c with vest := e } else { c with sleeve := e }

/-- Units that a sender may still send on a channel: the depth of the receive buffer less the units sent and not yet freed. -/
def linkCredit (e : LinkEnd) (vc : Nat) : Nat := rxDepth vc - (ctr e.sent vc - ctr e.crd vc).toNat

/-- The next place has credits for the whole packet. -/
def hasRoom (s : State) (p : Packet) : NetPlace → Bool
  | .inq d x y q => decide (unitsAt s (.inq d x y q) p.vc + p.size ≤ queueDepth d p.vc)
  | .tx k v => decide ((s.cuff k).state = 2 ∧ unitsAt s (.tx k v) p.vc + p.size ≤ linkCredit (endOf (s.cuff k) (!v)) p.vc)
  | _ => true

/-! ### One round of the meshes (R164 to R166) -/

/-- The packets at the heads of their queues: of each place and channel the first; at the sources, of each source. -/
def heads (l : List Flight) : List Flight := go l []
where
  /-- The list below, past queues already seen. -/
  go : List Flight → List (NetPlace × Nat × Nat) → List Flight
    | [], _ => []
    | f :: r, seen =>
      let k := (f.loc, f.pkt.vc, if f.loc = .src then f.pkt.srcN else 0)
      if seen.contains k then go r seen else f :: go r (k :: seen)

def portNo : RPort → Nat
  | .n => 0 | .s => 1 | .w => 2 | .e => 3 | .l0 => 4 | .l1 => 5 | .core => 6 | .slice => 7 | .adapter => 8 | .ctrl => 9

/-- The output of a router that a head packet asks for, and the number of the queue where it stands. -/
def asks (f : Flight) : Option (Nat × Nat) :=
  match f.loc with
  | .inq d x y p => let o := outPort d x y f.pkt
    some ((((d * 10 + x) * 10 + y) * 10 + portNo o.1) * 2 + (if o.2 then 1 else 0), 6 * portNo p + f.pkt.vc)
  | _ => none

/-- A non-posted packet waits behind a posted one of its source and destination in the same place. -/
def behindPosted (s : State) (f : Flight) : Bool :=
  decide (f.pkt.vc = 5) && s.fab.mesh.flights.any fun g => g.loc == f.loc && decide (g.seq < f.seq) && before g.pkt f.pkt

def canMove (s : State) (f : Flight) : Bool := !beltStops s f && !behindPosted s f && hasRoom s f.pkt (nextPlace f)

/-- A packet moves to the end of the next queue. A word that leaves a router queue or a link may hold an error, by a free choice:
a corrected one is counted; an uncorrectable one loses the packet and is cause 0x3 of the Sleeve, or 0x7 (R165). -/
def moveFlight (f : Flight) (s : State) : State :=
  let rest := s.fab.mesh.flights.filter fun g => decide (g.seq ≠ f.seq)
  let gone := s.setFlights rest
  let s1 := gone.setFlights (rest ++ [{ f with loc := nextPlace f }])
  let s2 (t : State) : State := { t with free := t.free + 1 }
  match Config.freeNat s.free % 3 with
  | 1 => if f.die < 12 then countCe f.die 0 (s2 s1) else countFabCe (s2 s1)
  | 2 => if f.die < 12 then failStopSleeve f.die 3 f.die none (s2 gone) else failStopAll 0x60 none (countFabUe (s2 gone))
  | _ => s2 s1

/-- A packet still in flight moves when it can. -/
def tryMove (s : State) (f : Flight) : State :=
  if s.fab.mesh.flights.contains f && canMove s f then moveFlight f s else s

/-- One output of a router serves one of the head packets that ask for it, round-robin over the input queues and channels. -/
def serveOut (hs : List Flight) (s : State) (o : Nat) : State :=
  let last := tabGet s.fab.mesh.rr 0 o
  let cand := hs.filter fun f => (asks f).any fun a => a.1 == o && s.fab.mesh.flights.contains f && canMove s f
  let turn (f : Flight) : Nat := (((asks f).map (·.2)).getD 0 + 60 - last) % 60
  match cand.foldl (fun (b : Option Flight) f => match b with
    | none => some f
    | some g => if turn f < turn g then some f else some g) none with
  | none => s
  | some f =>
    let s1 := moveFlight f s
    let m := s1.fab.mesh
    { s1 with fab := { s1.fab with mesh := { m with rr := tabSet m.rr 0 o ((((asks f).map (·.2)).getD 0 + 1) % 60) } } }

/-- Units that leave a Cuff's receive buffer are credited to the other end. -/
def freeUnits (f : Flight) (s : State) : State :=
  match f.loc with
  | .rx k v => s.modCuff k fun c => let e := endOf c v; setEnd c v { e with freed := ctrAdd e.freed f.pkt.vc f.pkt.size }
  | _ => s

/-- One round: each output of each router sends at most one packet on, and packets enter the meshes from their sources and from
the Cuffs. -/
def meshTick (s : State) : State :=
  let hs := heads s.fab.mesh.flights
  let outs := hs.foldl (fun (l : List Nat) f => match asks f with
    | some a => if l.contains a.1 then l else l ++ [a.1]
    | none => l) []
  let s1 := outs.foldl (serveOut hs) s
  hs.foldl (fun a f => match f.loc with
    | .src => tryMove a f
    | .rx .. => if a.fab.mesh.flights.contains f && canMove a f then freeUnits f (moveFlight f a) else a
    | _ => a) s1

end Sys2Proof.Machine
end

