-- ==== Sys2Proof/Machine/Package.lean ====
section
/-! DEFINITION. Dies and identity (01): the fuse read, admission, exclusion, the package information registers, the
distance table, coherent domains; and the Cuffs (07): training, loss, timebase, registers. -/

namespace Sys2Proof.Machine

/-- One bit of the CRC-16 of R17 (polynomial 0x1021). -/
def crc16Step (c : BitVec 16) (b : Bool) : BitVec 16 :=
  if c.getMsbD 0 != b then (c <<< 1) ^^^ 0x1021#16 else c <<< 1

/-- CRC-16 over bits 239:0 of an identity block, from bit 0 upward (R17). -/
def fuseCrc (b : BitVec 256) : BitVec 16 := (upto 240).foldl (fun c i => crc16Step c (b.getLsbD i)) 0xFFFF#16

/-- The CRC field of a block matches. -/
def fuseCrcOk (b : BitVec 256) : Bool := decide (b.extractLsb' 240 16 = fuseCrc b)

/-- The Vest's own block is good (R19). -/
def vestFuseOk (b : BitVec 256) : Bool := fuseCrcOk b && decide (fuseKind b = 1)

/-- Checks 1 to 4 of Table 1.2 for Sleeve `k`, in order: the cause code of the first that fails, 0 when all pass. -/
def admissionCheck (vest b : BitVec 256) (k : Nat) : Nat :=
  if !fuseCrcOk b then 2
  else if ¬ (fuseKind b = 2 ∧ (fusePos b).toNat = k) then 3
  else if ¬ (fuseSlvMin vest ≤ fuseMaj b ∧ fuseMaj b ≤ fuseSlvMax vest) then 1
  else if fuseCoreEn b = 0 then 4
  else 0

/-- Every Sleeve's admission is decided: FUSE_DONE is set (R18). -/
def settleFuse (s : State) : State :=
  if s.pkg.fuseRead && !s.pkg.vestBad && (upto 12).all (fun k => decide (exclOf s k ≠ 0xF)) then
    { s with pkg := { s.pkg with fuseDone := true } }
  else s

/-- Every Sleeve of a domain being reset is decided: FSTOP[d] returns to zero (R150). -/
def settleDomReset (s : State) : State :=
  (upto 4).foldl (fun a d =>
    let f := a.fstop d
    if f.rst && (upto 12).all (fun k => domainOf a k != d || decide (exclOf a k ≠ 0xF)) then a.setFstop d FStop.reset
    else a) s

/-- The release conditions of a Sleeve's harts (R380); not while it is excluded, fail-stopped, being reset, under a
self-test run, or under ndmreset. -/
def releaseOk (s : State) (k : Nat) : Bool :=
  s.pkg.slvHeld.getLsbD k && s.pkg.fuseDone && slvPresent s k && s.pkg.domLock && s.pkg.waLock.getLsbD k && s.boot.monrdy &&
    s.boot.hartrel.getLsbD k && !(s.fstop (domainOf s k)).active && (tabGet s.dbg.bist BistSt.reset k).state != 2 &&
    !(tabGet s.dbg.mods DbgMod.reset k).ndm

/-- One hart leaves reset (R70, R380): M-mode, SEC = 1, at the first byte of the monitor partition. A halt request at reset takes
effect at once while secure debug is unlocked, else when the hart leaves the secure world (R433). -/
def startHart (unlocked : Bool) (x : Hart) : Hart :=
  let y := { x with inReset := false, pc := 0x1200000, priv := 3, virt := false, sec := true }
  if x.resetHalt = false then y
  else if unlocked then { y with halted := true, csr := tabSet (tabSet y.csr 0x40000003 0x7B0 0x40000143) 0 0x7B1 0x1200000 }
  else { y with haltPend := true }

/-- A debug module notes which harts have been reset (havereset). -/
def noteReset (k : Nat) (m : BitVec 80) (d : Dbg) : Dbg :=
  { d with mods := tabSet d.mods DbgMod.reset k { tabGet d.mods DbgMod.reset k with haveReset := m } }

/-- The harts of a Sleeve leave reset (R380): the workaround bits are transferred (R26), and the debug module notes the reset. -/
def releaseSleeve (k : Nat) (s : State) : State :=
  let hs := ((upto 80).map (80 * k + ·)).filter (hartPresent s)
  let u := s.dbg.scope.getLsbD k
  { s with
    harts := hs.foldl (fun a h => tabSet a Hart.reset h (startHart u (tabGet a Hart.reset h))) s.harts
    pkg := { s.pkg with
      slvHeld := setBit s.pkg.slvHeld k false
      waInForce := tabSet s.pkg.waInForce 0 k (tabGet s.pkg.wa 0 k) }
    dbg := noteReset k (maskOf 80 fun i => hs.contains (80 * k + i)) s.dbg
    boot := { s.boot with stage := 3 } }

/-- Release every Sleeve whose conditions hold (R380: the conditions may become 1 in any order). -/
def settleRelease (s : State) : State := (upto 12).foldl (fun a k => if releaseOk a k then releaseSleeve k a else a) s

/-- Set the EXCL code of a Sleeve. -/
def setExcl (k : Nat) (c : BitVec 4) (s : State) : State :=
  { s with pkg := { s.pkg with excl := tabSet s.pkg.excl 0xF k c } }

/-- Exclude Sleeve `k` with a cause (R20): one Pocket record; its Cuff is not trained; it stays in reset. -/
def exclude (k cause : Nat) (s : State) : State :=
  let s1 := setExcl k (BitVec.ofNat 4 cause) s
  let s2 := s1.modCuff k fun c => { c with state := 0, step := 0, phyOn := false, mods := 0 }
  let s3 := { s2 with pkg := { s2.pkg with
    cuffUp := setBit s2.pkg.cuffUp k false, cuffVer := tabSet s2.pkg.cuffVer 0 k 0, slvHeld := setBit s2.pkg.slvHeld k true } }
  settleRelease <| settleDomReset (settleFuse (report (mkReport 0x0003 0 0x020 false 8 (leBytes 1 k ++ leBytes 1 cause)) s3))

/-- Start a training attempt of Cuff `k` at a step (R172, R173, R364: the Static values come into force). -/
def trainStart (k step attempt : Nat) (retrain : Bool) (s : State) : State :=
  s.modCuff k fun c => { c with
    state := if retrain then 4 else 1
    step := step
    attempt := attempt
    isRetrain := retrain
    phyOn := true
    lpow := 0
    ackTmoF := c.ackTmo
    retryLimF := c.retryLim }

/-- Decide checks 1 to 4 for Sleeve `k`: exclusion, or the start of training (R18). -/
def admitSleeve (k : Nat) (s : State) : State :=
  match admissionCheck (fuseOf s 12) (fuseOf s k) k with
  | 0 => trainStart k 2 1 false s
  | c => exclude k c s

/-- A block as the Vest reads it: a Sleeve whose rail is out of tolerance reads all ones (R457). -/
def blockRead (s : State) (k : Nat) (b : BitVec 256) : BitVec 256 :=
  if s.pins.railBad.any fun r => match r with
    | .vinSlv j => j.val == k
    | _ => false
  then BitVec.allOnes 256 else b

/-- FUSE_READ (R18, R19): the thirteen identity blocks as fused, and the workaround bits each Sleeve's revision
implements. -/
def execFuseRead (blocks : List (BitVec 256)) (waImp : List (BitVec 63)) (s : State) : Out := keepQueue s <|
  if s.pkg.fuseRead then done s
  else
    let bl := fillFree 13 (BitVec.ofNat 256) blocks s
    let wl := fillFree 12 (BitVec.ofNat 63) waImp bl.1
    let s := wl.1
    let v := bl.2.getD 12 0
    if vestFuseOk v then
      let imgs := (upto 12).foldl (fun a k => tabSet a 0 k (blockRead s k (bl.2.getD k 0))) (tabSet [] 0 12 v)
      let imps := (upto 12).foldl (fun a k => tabSet a 0 k (wl.2.getD k 0)) []
      let s1 := { s with pkg := { s.pkg with dieFuse := imgs, fuseRead := true, waImp := imps } }
      done ((upto 12).foldl (fun a k => admitSleeve k a) s1)
    else
      done { s with pkg := { s.pkg with dieFuse := tabSet [] 0 12 v, fuseRead := true, vestBad := true } }

/-- Physical end of installed DRAM: VEST.DRAM.TOP. -/
def dramTopOf (s : State) : Nat := s.dram.top.toNat

/-- A committed CXL decoder covers address `a`: the end of its range. -/
def cxlCover (s : State) (a : Nat) : Option Nat :=
  (s.dram.decs.find? fun e => e.2.commit && decide (e.2.base.toNat * 0x10000000 ≤ a ∧ a < (e.2.limit.toNat + 1) * 0x10000000)).map
    fun e => (e.2.limit.toNat + 1) * 0x10000000

/-- Mapped CXL memory covers the whole range [a, b]. -/
def cxlCovers (s : State) : Nat → Nat → Nat → Bool
  | 0, _, _ => false
  | n + 1, a, b => match cxlCover s a with
    | none => false
    | some e => if b < e then true else cxlCovers s n e b

/-- Fields of VEST.DOMMEM[d][k] (Table 1.12). -/
def domMemOf (s : State) (d k : Nat) : Word := tabGet s.pkg.domMem 0 (4 * d + k)
def domEn (v : Word) : Bool := bit v 63
def domLo (v : Word) : Nat := (fld v 0 22).toNat * 0x40000000
def domHi (v : Word) : Nat := (fld v 40 22).toNat * 0x40000000 + 0x3FFFFFFF

/-- One enabled range is good (condition 4 of Table 1.13): it lies wholly in installed DRAM or mapped CXL memory. -/
def domRangeOk (s : State) (v : Word) : Bool :=
  decide ((fld v 0 22).toNat ≤ (fld v 40 22).toNat) &&
    (decide (0x100000000 ≤ domLo v ∧ domHi v < dramTopOf s) || cxlCovers s 17 (domLo v) (domHi v))

/-- No two ranges of a list overlap. -/
def noOverlap : List Word → Bool
  | [] => true
  | v :: r => r.all (fun w => decide (domHi v < domLo w ∨ domHi w < domLo v)) && noOverlap r

/-- The domains that present Sleeves use under a DOM value. -/
def domainsUsed (s : State) (dom : BitVec 24) : List Nat :=
  (upto 4).filter fun d => (upto 12).any fun k => slvPresent s k && (dom.extractLsb' (2 * k) 2).toNat == d

/-- The enabled ranges. -/
def domRanges (s : State) : List Word := ((upto 16).map fun i => tabGet s.pkg.domMem 0 i).filter domEn

/-- Table 1.13 on the DOM value a write carries: the code of the first condition that fails, 0 when all hold. -/
def domValidate (s : State) (dom : BitVec 24) : Nat :=
  let used := domainsUsed s dom
  if !s.pkg.fuseDone then 1
  else if used = [] ∨ used ≠ upto used.length then 2
  else if used.length ≠ 1 ∧ featOn s 9 = false then 3
  else if used.length > 1 ∧ ¬ ((domRanges s).all (domRangeOk s) && noOverlap (domRanges s)) then 4
  else 0

/-- A write to VEST.DOMCFG (R34, Table 1.11). The accepted lock also puts VEST.COH.TMO in force (R364). -/
def wrDomcfg (v : Word) (s : State) : State :=
  let p := s.pkg
  if p.domLock then s
  else if bit v 63 then
    match domValidate s (fld v 0 24) with
    | 0 => settleRelease { s with
        pkg := { p with domLock := true, cfgErr := 0, dom := fld v 0 24 }
        coh := { s.coh with haTmoF := s.coh.haTmo, slTmoF := s.coh.slTmo } }
    | c => { s with pkg := { p with cfgErr := BitVec.ofNat 3 c } }
  else { s with pkg := { p with dom := fld v 0 24 } }

/-- DOMCFG_LOCK (R34): a write to VEST.DOMCFG. -/
def execDomcfgLock (who : Agent) (v : BitVec 64) (s : State) : Out := keepQueue s <| sentBy who s <| done (wrDomcfg v s)

/-- A write to VEST.SLVWA[s] (R26): bits not implemented read 0; LOCK freezes the register until package reset. -/
def wrSlvwa (k : Nat) (v : Word) (s : State) : State :=
  let p := s.pkg
  if p.waLock.getLsbD k then s
  else settleRelease { s with pkg := { p with
    wa := tabSet p.wa 0 k (fld v 0 63 &&& tabGet p.waImp 0 k)
    waLock := setBit p.waLock k (bit v 63) } }

/-- SLVWA_LOCK (R26): a write to VEST.SLVWA[s]. -/
def execSlvwaLock (who : Agent) (k : SleeveId) (v : BitVec 64) (s : State) : Out := keepQueue s <| sentBy who s <| done (wrSlvwa k v s)

/-- A write to VEST.DOMMEM[d][k] (Table 1.12): locked by VEST.DOMCFG.LOCK; reserved bits read zero. -/
def wrDommem (d k : Nat) (v : Word) (s : State) : State :=
  if s.pkg.domLock then s
  else
    let w := cat [on 63 (bit v 63), at_ 40 (fld v 40 22), at_ 0 (fld v 0 22)]
    { s with pkg := { s.pkg with domMem := tabSet s.pkg.domMem 0 (4 * d + k) w } }

/-- Register reads of 01. -/
def rdSlvwa (s : State) (k : Nat) : Word := cat [on 63 (s.pkg.waLock.getLsbD k), at_ 0 (tabGet s.pkg.wa 0 k)]
def rdSlvwaImp (s : State) (k : Nat) : Word := at_ 0 (tabGet s.pkg.waImp 0 k)
def rdSlvstat (s : State) (k : Nat) : Word :=
  cat [at_ 12 (tabGet s.pkg.cuffVer 0 k), on 11 (s.pkg.cuffUp.getLsbD k), at_ 0 (exclOf s k)]
def rdHartmap (s : State) (k : Nat) : Word := at_ 0 (hartmapOf s k)
def rdDiefuse (s : State) (k w : Nat) : Word := (fuseOf s k).extractLsb' (64 * w) 64
def rdPkgfeat (s : State) : Word := at_ 0 (pkgfeat s)
def rdDomcfg (s : State) : Word := cat [on 63 s.pkg.domLock, at_ 60 s.pkg.cfgErr, at_ 0 s.pkg.dom]

/-- PRESENT, NCORES and ISA_LVL of VEST.PKGINFO (Table 1.4): 0 until FUSE_DONE (R18). DESIGN CHOICE (log 132): a Sleeve under a domain
reset is not present in them; with no Sleeve present ISA_LVL reads 0 (log 133). -/
def presentMask (s : State) : BitVec 12 := if s.pkg.fuseDone then maskOf 12 (slvPresent s) else 0
def ncores (s : State) : Nat := ((upto 240).filter (corePresent s)).length
def isaLvl (s : State) : Nat :=
  if s.pkg.fuseDone then
    match (upto 12).filter (slvPresent s) with
    | [] => 0
    | l => l.foldl (fun a k => min a (fuseIsa (fuseOf s k)).toNat) 15
  else 0

def rdPkginfo (s : State) : Word :=
  cat [at_ 32 (presentMask s), at_ 24 (fuseSlvMax (fuseOf s 12)), at_ 16 (fuseSlvMin (fuseOf s 12)),
    at_ 8 (BitVec.ofNat 8 (ncores s)), on 4 s.pkg.fuseDone, at_ 0 (BitVec.ofNat 4 (isaLvl s))]

/-- The I/O group of a Sleeve's quadrant: 12 northwest, 13 southwest, 14 northeast, 15 southeast. -/
def quadrant (k : Nat) : Nat := 12 + k / 3

/-- Distance between nodes i and j before exclusion (Table 1.10). -/
def distBase (i j : Nat) : Nat :=
  if i = j then 10
  else if i < 12 ∧ j < 12 then
    if i / 6 = j / 6 then (if i + 1 = j ∨ j + 1 = i then 14 else 16)
    else if i + 6 = j ∨ j + 6 = i then 16 else 18
  else if 12 ≤ i ∧ 12 ≤ j then
    if (i - 12) / 2 = (j - 12) / 2 then 12 else if (i - 12) % 2 = (j - 12) % 2 then 13 else 14
  else
    let q := quadrant (min i j) - 12
    let g := max i j - 12
    if q = g then 12 else if q / 2 = g / 2 then 14 else if q % 2 = g % 2 then 15 else 17

/-- A node is an excluded Sleeve. -/
def nodeExcluded (s : State) (i : Nat) : Bool := decide (i < 12) && decide (exclOf s i ≠ 0) && decide (exclOf s i ≠ 0xF)

/-- The distance table (R33): 255 for any pair that involves an excluded Sleeve. -/
def distance (s : State) (i j : Nat) : Nat := if nodeExcluded s i || nodeExcluded s j then 255 else distBase i j

/-- VEST.DISTLO[i] (base 0) and DISTHI[i] (base 8): entry j in byte j mod 8. -/
def rdDist (s : State) (i base : Nat) : Word :=
  cat ((upto 8).map fun j => at_ (8 * j) (BitVec.ofNat 8 (distance s i (base + j))))

/-! ### Cuffs (07) -/

/-- A module direction with `n` failed lanes works (R177): up to four are remapped while VEST.PKGFEAT.CUFFREP is 1; PKGFEAT reads
0 until FUSE_DONE (R22). -/
def laneOk (s : State) (n : Nat) : Bool := if featOn s 6 then decide (n ≤ 4) else decide (n = 0)

/-- Lane repair (R177): the modules in use and the lanes remapped. -/
def laneRepair (s : State) (f : LaneFails) : BitVec 2 × BitVec 16 :=
  let m0 := laneOk s f.m0up && laneOk s f.m0dn
  let m1 := laneOk s f.m1up && laneOk s f.m1dn
  let n (ok : Bool) (x : Nat) : BitVec 16 := if ok then BitVec.ofNat 16 x else 0
  (setBit (setBit 0 0 m0) 1 m1, n m0 f.m0up ||| n m0 f.m0dn <<< 4 ||| n m1 f.m1up <<< 8 ||| n m1 f.m1dn <<< 12)

/-- The highest version present in both maps (R179); 0 when none. -/
def versionSel (a b : BitVec 8) : Nat := (upto 8).foldl (fun m i => if (a &&& b).getLsbD i then i + 1 else m) 0

/-- The main band of Cuff `k` is lost (R180): fail-stop cause 0x6. -/
def cuffLost (k : Nat) (s : State) : State :=
  let s1 := s.modCuff k fun c => { c with state := 5, step := 0 }
  let s2 := { s1 with pkg := { s1.pkg with cuffUp := setBit s1.pkg.cuffUp k false, cuffVer := tabSet s1.pkg.cuffVer 0 k 0 } }
  failStopSleeve k 6 (0x50 + k) none s2

/-- An attempt ends without success (R173): the next attempt from step 2, or exclusion, or loss of the main band. -/
def attemptFails (k : Nat) (s : State) : State :=
  let c := s.cuff k
  if c.attempt < 3 then (trainStart k 2 (c.attempt + 1) c.isRetrain s).modCuff k fun x => { x with state := c.state }
  else if c.isRetrain then cuffLost k s
  else exclude k 5 s

/-- Both ends resume by replaying from the NAKSEQ that the other end last sent (R178 step 4, R181); each replay is counted. -/
def resumeEnds (c : Cuff) : Cuff :=
  let go (e p : LinkEnd) : LinkEnd :=
    { e with replays := 0, nakSeen := none, again := if e.replay = [] then none else some (e.nakSeen.getD p.expSeq) }
  let n (e : LinkEnd) (r : BitVec 32) : BitVec 32 := if e.replay = [] then r else satInc r
  { c with vest := go c.vest c.sleeve, sleeve := go c.sleeve c.vest, replay := n c.vest (n c.sleeve c.replay) }

/-- The Vest loads the copy of the timebase (R185); what the harts read never decreases (R56). -/
def loadTime (now : Nat) (c : Cuff) : Cuff := { c with tbOff := 0, tbMin := max c.tbMin (now + c.tbOff) }

/-- Step 8 completes (Table 7.11, R18, R181): credits and timebase loaded, CUFF_UP and CUFF_VER set; at admission the
link counters start at zero, after a retrain the replay buffers are kept. -/
def trainDone (k : Nat) (s : State) : State :=
  let c := s.cuff k
  let v := versionSel (fuseVmap (fuseOf s 12)) (fuseVmap (fuseOf s k))
  let c1 := if c.isRetrain then resumeEnds c else { c with vest := LinkEnd.reset, sleeve := LinkEnd.reset }
  let s1 := s.setCuff k { loadTime s.time c1 with state := 2, step := 0 }
  let s2 := { s1 with pkg := { s1.pkg with
    cuffUp := setBit s1.pkg.cuffUp k true, cuffVer := tabSet s1.pkg.cuffVer 0 k (BitVec.ofNat 4 v) } }
  if c.isRetrain then s2 else settleRelease (settleDomReset (settleFuse (setExcl k 0 s2)))

/-- CUFF_TRAIN_STEP_DONE (R172): the running step completes. `lanes` is what the lane test of step 4 found. -/
def execCuffTrainStepDone (k : SleeveId) (lanes : LaneFails) (s : State) : Out := keepQueue s <|
  let c := s.cuff k
  if c.step = 0 then done s
  else if c.step = 5 then
    let r := laneRepair s lanes
    if r.1 = 0 then done (attemptFails k s)
    else done (s.setCuff k { c with mods := r.1, repaired := r.2, step := 6 })
  else if c.step = 7 then
    let s1 := s.setCuff k { c with vermap := fuseVmap (fuseOf s k), step := 8 }
    if versionSel (fuseVmap (fuseOf s 12)) (fuseVmap (fuseOf s k)) = 0 then done (attemptFails k s1) else done s1
  else if c.step = 8 then done (trainDone k s)
  else done (s.setCuff k { c with step := c.step + 1 })

/-- CUFF_TRAIN_TIMEOUT (R173): the running step overran its bound. -/
def execCuffTrainTimeout (k : SleeveId) (s : State) : Out := keepQueue s <|
  if (s.cuff k).step = 0 then done s else done (attemptFails k s)

/-- The kind byte of a CUFF record (Table 16.4), and the lanes remapped. -/
def reportCuff (k kind lanes : Nat) (s : State) : State :=
  report (mkReport (0x3000 + k) 0 0x022 false 8 (leBytes 1 k ++ leBytes 1 kind ++ leBytes 1 lanes)) s

/-- Number of lanes remapped in a REPAIRED field. -/
def repairedCount (r : BitVec 16) : Nat :=
  (r.extractLsb' 0 4).toNat + (r.extractLsb' 4 4).toNat + (r.extractLsb' 8 4).toNat + (r.extractLsb' 12 4).toNat

/-- SLEEVE_SUPPLY_LOSS (R180, R457): after admission, the Sleeve reports loss of its supply. -/
def execSleeveSupplyLoss (k : SleeveId) (s : State) : Out := keepQueue s <|
  if slvPresent s k then done (cuffLost k s) else done s

/-- TIMEBASE_CHECK (R185): the 1 ms check of a Sleeve's copy; `slip` is what its counter gained or lost since the last
check. A difference of more than one count reloads the copy and writes a record. -/
def execTimebaseCheck (k : SleeveId) (slip : Int) (s : State) : Out := keepQueue s <|
  let c := s.cuff k
  let o := c.tbOff + slip
  let c := { c with tbMin := max c.tbMin (s.time + c.tbOff) }
  if slvPresent s k = false then done s
  else if 1 < o ∨ o < -1 then done (reportCuff k 2 0 (s.setCuff k (loadTime s.time c)))
  else done (s.setCuff k { c with tbOff := o })

/-- VEST.CUFF[s] reads and writes (Table 7.15). -/
def rdCuffStat (s : State) (k : Nat) : Word :=
  let c := s.cuff k
  cat [at_ 44 c.state, at_ 40 c.mods, at_ 24 c.repaired, at_ 0 c.vermap]
def rdCuffCnt (s : State) (k : Nat) : Word :=
  let c := s.cuff k
  cat [at_ 48 c.retrain, at_ 32 c.repair, at_ 0 c.replay]
def wrCuffCnt (k : Nat) (v : Word) (s : State) : State :=
  s.modCuff k fun c => { c with retrain := fld v 48 16, repair := fld v 32 16, replay := fld v 0 32 }
def rdCuffCfg (s : State) (k : Nat) : Word :=
  let c := s.cuff k
  cat [at_ 8 c.ackTmo, at_ 0 c.retryLim]
def wrCuffCfg (k : Nat) (v : Word) (s : State) : State :=
  let a := fld v 8 8
  let r := fld v 0 8
  s.modCuff k fun c => { c with
    ackTmo := if 1 ≤ a.toNat ∧ a.toNat ≤ 100 then a else c.ackTmo
    retryLim := if 1 ≤ r.toNat ∧ r.toNat ≤ 64 then r else c.retryLim }

/-- VEST.FAB registers (Table 7.8). -/
def rdFabEcc (s : State) : Word := cat [at_ 32 s.fab.uecnt, at_ 0 s.fab.cecnt]
def wrFabEcc (v : Word) (s : State) : State :=
  { s with fab := { s.fab with uecnt := fld v 32 32, cecnt := fld v 0 32, ceBase := fld v 0 32 } }

/-- A write to VEST.COH.DOMRST (R150): from the management controllers and secure requests. While a Sleeve of the domain is under a
self-test run, the reset waits for the run's end (R445). -/
def domReset (mask : BitVec 4) (s : State) : State :=
  (upto 4).foldl (fun a d =>
    let f := a.fstop d
    let run (k : Nat) : Bool := domainOf a k == d && (tabGet a.dbg.bist BistSt.reset k).state == 2
    if mask.getLsbD d && f.active && !f.rst && (upto 12).any run then
      { a with dbg := { a.dbg with bist := a.dbg.bist.map fun e => if run e.1 then (e.1, { e.2 with rst := true }) else e } }
    else if mask.getLsbD d && f.active && !f.rst then
      let ks := (upto 12).filter fun k => domainOf a k == d && slvPresent a k
      let a1 := a.setFstop d { f with rst := true }
      let a2 := { a1 with coh := { a1.coh with haTmoF := a1.coh.haTmo, slTmoF := a1.coh.slTmo } }
      let a3 := ks.foldl (fun b k =>
        let b1 := resetSleeve k (setExcl k 0xF b)
        { b1 with pkg := { b1.pkg with cuffUp := setBit b1.pkg.cuffUp k false, cuffVer := tabSet b1.pkg.cuffVer 0 k 0 } }) a2
      settleRelease (settleDomReset (ks.foldl (fun b k => admitSleeve k b) a3))
    else a) s

/-- Who may write VEST.COH.DOMRST (R150). -/
def domrstAllowed (s : State) (who : Agent) : Bool :=
  match who with
  | .mc _ => true
  | a => agentSecure s a

/-- DOMAIN_RESET (R150): a write to VEST.COH.DOMRST. -/
def execDomainReset (who : Agent) (v : BitVec 64) (s : State) : Out := keepQueue s <| sentBy who s <|
  if domrstAllowed s who then done (domReset (fld v 0 4) s) else done s

/-- DOMRST (OD 0x2007.05): as VEST.COH.DOMRST. -/
def execDomrst (x : DictCtx) (mask : BitVec 8) (s : State) : Out := keepQueue s <|
  done (dictCommand x 0x2007 5 1 true (fun t => (domReset (mask.extractLsb' 0 4) t, stOK, [])) s)

end Sys2Proof.Machine
end

