-- ==== Sys2Proof/Machine/Coh.lean ====
section
/-! DEFINITION. Coherence (06) as whole transactions: what the homes and the Sleeves do with a line, with no other transaction
active for it. The message commands (Machine/CohMsg.lean) use the same parts. -/

namespace Sys2Proof.Machine

/-! ### Snoop filter and sleeve cache of a Sleeve -/

/-- The snoop-filter entry of a line. -/
def sfFind (s : State) (k n : Nat) : Option (Nat × SfEnt) :=
  (upto 12).findSome? fun w => match tabFind (sfSetOf n * 12 + w) (s.slv k).sf with
    | some e => if e.line = n then some (sfSetOf n * 12 + w, e) else none
    | none => none

/-- Write a snoop-filter entry at a key; a line that no core holds needs none. -/
def sfWrite (k key : Nat) (e : SfEnt) (s : State) : State :=
  s.modSlv k fun v => { v with sf := if e.pres = 0 then tabErase key v.sf else tabInsert key e v.sf }

/-- The cores of a Sleeve that hold a line. -/
def sfCores (s : State) (k n : Nat) : List Nat :=
  match sfFind s k n with
  | some x => (upto 20).filter fun c => x.2.pres.getLsbD c
  | none => []

def l3T (n : Nat) : Nat := hashSlice n * 3072 + hashSet n
/-- The sleeve-cache entry of a line: state I marks a shadow; F, E and M say that it holds the data, and the Sleeve level. -/
def l3Look (s : State) (k n : Nat) : Option CLine := (cLook (s.slv k).l3 16 (l3T n) n).map (·.2)
def l3Mod (k n : Nat) (f : CLine → CLine) (s : State) : State := s.modSlv k fun v => { v with l3 := cMod v.l3 16 (l3T n) n f }
def l3Erase (k n : Nat) (s : State) : State := s.modSlv k fun v => { v with l3 := cDel v.l3 16 (l3T n) n }
/-- The sleeve cache's valid data for a line. -/
def l3Data (s : State) (k n : Nat) : Option CLine := (l3Look s k n).filter fun e => e.st ≠ .I

/-- The Sleeve-level state of a line (R135). -/
def slvLevel (s : State) (k n : Nat) : LState :=
  match sfFind s k n with
  | some x => x.2.st
  | none => match l3Data s k n with
    | some e => e.st
    | none => .I

/-- Core `c` of Sleeve `k`. -/
def coreId (k c : Nat) : Nat := 20 * k + c

/-- The core of Sleeve `k` that holds the line in E or M. -/
def ownerCore (s : State) (k n : Nat) : Option (Nat × CLine) :=
  (sfCores s k n).findSome? fun c => match coreLook (s.core (coreId k c)) n with
    | some e => if e.st = .E ∨ e.st = .M then some (c, e) else none
    | none => none

/-- The nearest of some cores to core `c`; the lower number on a tie (R136). -/
def nearestCore (c : Nat) (l : List Nat) : Option Nat := pickMin l
where
  /-- The first core of the list with the fewest hops. -/
  pickMin : List Nat → Option Nat
    | [] => none
    | a :: r => match pickMin r with
      | none => some a
      | some b => if coreHops c b < coreHops c a then some b else some a

/-- The current data that a Sleeve holds for a line: an owning core's, else the sleeve cache's, else the F holder's. -/
def slvData (s : State) (k n : Nat) : Option (LineData × Bool) :=
  match ownerCore s k n with
  | some x => some (x.2.data, x.2.poison)
  | none =>
    match l3Data s k n with
    | some e => some (e.data, e.poison)
    | none => (sfCores s k n).findSome? fun c => (coreLook (s.core (coreId k c)) n).map fun e => (e.data, e.poison)

/-- Every copy in the Sleeve is invalidated. -/
def slvDrop (k n : Nat) (s : State) : State :=
  let s1 := (sfCores s k n).foldl (fun a c => coreDrop (coreId k c) n a) s
  let s2 := match sfFind s1 k n with
    | some x => sfWrite k x.1 { x.2 with pres := 0 } s1
    | none => s1
  l3Erase k n s2

/-- After a SnpFwdS (Table 6.5): the Sleeve keeps the line in F; a core that owned it becomes F when the sleeve cache holds no
data. -/
def slvShare (k n : Nat) (s : State) : State :=
  let hasData := (l3Data s k n).isSome
  let own := ownerCore s k n
  let s1 := match own with
    | some x => s.modCore (coreId k x.1) (coreSetSt n (if hasData then .S else .F))
    | none => s
  let s2 := l3Mod k n (fun e => { e with st := if e.st = .I then .I else .F }) s1
  match sfFind s2 k n with
  | some x => sfWrite k x.1 { x.2 with st := .F, fhold := if hasData then none else (own.map (·.1)).or x.2.fhold } s2
  | none => s2

/-! ### The directory (R139 to R141) -/

/-- The directory entry of a line and its key. -/
def dirFind (s : State) (n : Nat) : Option (Nat × DirSt) :=
  (upto 16).findSome? fun w => match tabFind (dirSetOf n * 16 + w) s.coh.dir with
    | some e => if e.line = n then some (dirSetOf n * 16 + w, e.st) else none
    | none => none

def dirWrite (key n : Nat) (st : DirSt) (s : State) : State := { s with coh := { s.coh with dir := tabInsert key ⟨n, st⟩ s.coh.dir } }
def dirErase (n : Nat) (s : State) : State :=
  match dirFind s n with
  | some x => { s with coh := { s.coh with dir := tabErase x.1 s.coh.dir } }
  | none => s

/-- The domain whose enabled VEST.DOMMEM range holds an address (R36). -/
def memDomain (s : State) (a : Nat) : Option Nat :=
  (upto 16).findSome? fun i =>
    let v := tabGet s.pkg.domMem 0 i
    if domEn v && decide (domLo v ≤ a ∧ a ≤ domHi v) then some (i / 4) else none

/-- The permitted set of a line (R139), less the Sleeves of fail-stopped domains (R149). -/
def permitted (s : State) (n : Nat) : List Nat :=
  let all := (upto 12).filter fun k => slvPresent s k && !(s.fstop (domainOf s k)).active
  if multiDom s then
    match memDomain s (64 * n) with
    | some d => all.filter fun k => domainOf s k == d
    | none => all
  else all

/-- The Sleeves that hold, or may hold, a line, except one. -/
def dirHolders (s : State) (n except : Nat) : List Nat :=
  match dirFind s n with
  | none => []
  | some (_, .p l) => l.filter (· ≠ except)
  | some (_, .b) => (permitted s n).filter (· ≠ except)
  | some (_, .x o) => if o = except then [] else [o]

/-- The nearest Sleeve of a list (R140), the lower number on a tie. -/
def nearestSlv (s : State) (k : Nat) : List Nat → Option Nat
  | [] => none
  | a :: r => match nearestSlv s k r with
    | none => some a
    | some b => if distance s k b < distance s k a then some b else some a

/-- SnpI to a Sleeve (Table 6.5): dirty data returns to memory, every copy is invalidated. -/
def snoopInval (n : Nat) (s : State) (k : Nat) : State :=
  let dirty := decide (slvLevel s k n = .M)
  let s1 := match slvData s k n with
    | some d => if dirty then memPut n d.1 d.2 s else s
    | none => s
  slvDrop k n s1

/-- SnpI to every holder but one. -/
def invalAll (n except : Nat) (s : State) : State := (dirHolders s n except).foldl (snoopInval n) s

/-- A transaction is active for the line at the home agents. -/
def vestBusy (s : State) (n : Nat) : Bool := s.coh.txns.any fun t => t.lvl == Level.vest && t.line == n

/-- An LR holds the line in an L1D (R145). -/
def lrHeld (s : State) (n : Nat) : Bool := s.harts.any fun e => decide (e.2.resv = some n) && e.2.resHold.isSome

/-- A Data message for the line is in flight. -/
def dataMoves (s : State) (n : Nat) : Bool := s.fab.mesh.flights.any fun f => decide (f.pkt.cmd = 0x30 ∧ f.pkt.line = n)

/-- The line of a directory entry can not be its set's victim (R141, R145): a transaction is active for it, a forward is in
flight, or an LR holds back what would remove it. -/
def dirPinned (s : State) (n : Nat) : Bool := vestBusy s n || dataMoves s n || lrHeld s n

/-- Evict the line of a directory entry (Table 6.7). -/
def dirEvict (v : Nat) (s : State) : State := dirErase v (invalAll v 12 s)

/-- A way of a directory set that a new entry may take. -/
def dirWay (s : State) (t w : Nat) : Bool :=
  match tabFind (t * 16 + w) s.coh.dir with
  | some e => !dirPinned s e.line
  | none => true

/-- A line has, or can have, a directory entry; otherwise its allocation waits (R141). -/
def dirRoom (s : State) (n : Nat) : Bool := (dirFind s n).isSome || (upto 16).any (dirWay s (dirSetOf n))

/-- Give a line a directory entry (R141): a free way, or the pseudo-LRU victim among the lines that are not busy. -/
def dirSet (n : Nat) (st : DirSt) (s : State) : State :=
  let t := dirSetOf n
  let touch (w : Nat) (s : State) : State :=
    { s with coh := { s.coh with dplru := tabSet s.coh.dplru 0 t (plruTouch 4 1 w (tabGet s.coh.dplru 0 t)) } }
  match dirFind s n with
  | some x => touch (x.1 % 16) (dirWrite x.1 n st s)
  | none =>
    let ent (w : Nat) : Option DirEnt := tabFind (t * 16 + w) s.coh.dir
    match pickWay 16 4 (fun w => (ent w).isSome) (dirWay s t) (tabGet s.coh.dplru 0 t) with
    | none => s
    | some w =>
      let s1 := match ent w with
        | some e => dirEvict e.line s
        | none => s
      touch w (dirWrite (t * 16 + w) n st s1)

/-- The state of a line at its home agent; none is I. -/
def dirSt (s : State) (n : Nat) : Option DirSt := (dirFind s n).map (·.2)

/-- What a home agent grants: the state, and the data with its poison mark; no data when the requester's copy serves. -/
structure Grant where
  st   : LState
  data : Option (LineData × Bool)
deriving DecidableEq, Repr

/-- RdS or RdC from Sleeve `k` (Table 6.6). -/
def homeRead (k n : Nat) (code : Bool) (s : State) : State × Grant :=
  let mem (s : State) : Option (LineData × Bool) := some (memLine s n, linePoison s n)
  let fresh (s : State) : State × Grant :=
    let s1 := dirSet n (if code then .p [k] else .x k) s
    (s1, ⟨if code then .F else .E, mem s1⟩)
  match dirSt s n with
  | none => fresh s
  | some (.p l) =>
    match nearestSlv s k (l.filter (· ≠ k)) with
    | none => fresh s
    | some o =>
      let d := (slvData s o n).or (mem s)
      let l' := if l.contains k then l else l ++ [k]
      (dirSet n (if l'.length ≤ 4 then .p l' else .b) (slvShare o n s), ⟨.F, d⟩)
  | some .b => (s, ⟨.F, mem s⟩)
  | some (.x o) =>
    if o = k then fresh s
    else
      let d := (slvData s o n).or (mem s)
      let s1 := match slvLevel s o n, d with
        | .M, some v => memPut n v.1 v.2 s
        | _, _ => s
      (dirSet n (.p [o, k]) (slvShare o n s1), ⟨.F, d⟩)

/-- RdO or Upg from Sleeve `k` (Table 6.6): every other copy is invalidated; `upg` when the Sleeve holds the line. -/
def homeOwn (k n : Nat) (upg : Bool) (s : State) : State × Grant :=
  let mem : Option (LineData × Bool) := some (memLine s n, linePoison s n)
  match dirSt s n with
  | none => (dirSet n (.x k) s, ⟨.M, mem⟩)
  | some (.p l) =>
    let others := l.filter (· ≠ k)
    let keep := upg && l.contains k
    let d := if keep then none else ((nearestSlv s k others).bind fun o => slvData s o n).or mem
    (dirSet n (.x k) (others.foldl (fun a o => slvDrop o n a) s), ⟨.M, d⟩)
  | some .b => (dirSet n (.x k) (((permitted s n).filter (· ≠ k)).foldl (fun a o => slvDrop o n a) s), ⟨.M, mem⟩)
  | some (.x o) =>
    if o = k then (s, ⟨.M, mem⟩)
    else (dirSet n (.x k) (slvDrop o n s), ⟨.M, (slvData s o n).or mem⟩)

/-- WbM, WbK and EvC from a Sleeve at the home agent (Table 6.6). -/
def homeWbM (k n : Nat) (d : LineData) (p : Bool) (s : State) : State :=
  if dirSt s n = some (.x k) then dirErase n (memPut n d p s) else s
def homeWbK (k n : Nat) (d : LineData) (p : Bool) (s : State) : State :=
  if dirSt s n = some (.x k) then memPut n d p s else s
def homeEvC (k n : Nat) (s : State) : State :=
  match dirSt s n with
  | some (.p l) => let l' := l.filter (· ≠ k)
    if l' = [] then dirErase n s else dirSet n (.p l') s
  | some (.x o) => if o = k then dirErase n s else s
  | _ => s

/-! ### Evictions in a Sleeve -/

/-- Move the F role of a line to the nearest remaining core. -/
def passF (k n near : Nat) (s : State) : State :=
  match sfFind s k n with
  | none => s
  | some x =>
    match nearestCore near ((upto 20).filter fun c => x.2.pres.getLsbD c) with
    | some c => sfWrite k x.1 { x.2 with fhold := some c } (s.modCore (coreId k c) (coreSetSt n .F))
    | none => s

/-- A sleeve-cache victim (R136): a shadow is dropped; data that no core holds goes home; data that cores hold leaves F to the
nearest of them, with a WbK when dirty. -/
def l3Evict (k : Nat) (e : CLine) (s : State) : State :=
  let n := e.line
  let s1 := l3Erase k n s
  if e.st = .I then s1
  else
    match sfFind s1 k n with
    | none => if e.st = .M then homeWbM k n e.data e.poison s1 else homeEvC k n s1
    | some x =>
      let s2 := if e.st = .M then homeWbK k n e.data e.poison (sfWrite k x.1 { x.2 with st := .E } s1) else s1
      passF k n (lineSlice n) s2

/-- The ways of the sleeve cache that take fills under a mask (R107, R116, R119): not converted, not off, not leaving. -/
def l3Perm (s : State) (k : Nat) (mask : BitVec 16) (w : Nat) : Bool :=
  let v := s.slv k
  mask.getLsbD w && !v.scr.getLsbD w && !v.off.getLsbD w && !v.drain.getLsbD w && !v.powerUp.getLsbD w

/-- A new line must not enter a way that is leaving; a line already there may be overwritten. Put a line into the sleeve cache;
false when no way is permitted. -/
def l3Put (k : Nat) (mask : BitVec 16) (e : CLine) (s : State) : State × Bool :=
  let t := l3T e.line
  let c := (s.slv k).l3
  match cLook c 16 t e.line with
  | some x =>
    if (s.slv k).drain.getLsbD x.1 then (s, false)
    else (s.modSlv k fun v => { v with l3 := cTouch (cPut v.l3 16 t x.1 e) 4 t x.1 }, true)
  | none =>
    match cVictim c 16 4 t (l3Perm s k mask) with
    | none => (s, false)
    | some (w, o) =>
      let s1 := match o with
        | some v => l3Evict k v s
        | none => s
      (s1.modSlv k fun v => { v with l3 := cTouch (cPut v.l3 16 t w e) 4 t w }, true)

/-- A core no longer holds a line: its presence bit is cleared; answers the entry left, if any core still holds it. -/
def sfRemove (k c n : Nat) (s : State) : State :=
  match sfFind s k n with
  | some x => sfWrite k x.1 { x.2 with pres := setBit x.2.pres c false, fhold := if x.2.fhold = some c then none else x.2.fhold } s
  | none => s

/-- When no copy remains in the Sleeve, an EvC goes home (Table 6.4). A copy that a core has just forwarded to another, whose
transaction is still active, remains: the Sleeve level `lvl` is kept with the transaction. -/
def goneCheck (k n : Nat) (lvl : LState) (s : State) : State :=
  if slvLevel s k n = .I && (scratchSlv n).isNone then
    let moved (t : Txn) : Bool := t.lvl == Level.sleeve (Fin.ofNat 12 k) && t.line == n && t.fwd.isSome && !t.home
    if s.coh.txns.any moved then { s with coh := { s.coh with txns := s.coh.txns.map fun t => if moved t then { t with gst := lvl } else t } }
    else homeEvC k n (l3Erase k n s)
  else s

/-- The sleeve cache has taken the data of a line: it is the F holder, and a core that was keeps the line in S (R132). -/
def toCacheF (k n : Nat) (s : State) : State :=
  match sfFind s k n with
  | some x => sfWrite k x.1 { x.2 with fhold := none } (match x.2.fhold with
      | some f => s.modCore (coreId k f) (coreSetSt n .S)
      | none => s)
  | none => s

/-- WbM, WbC or EvC from core `c` (Table 6.4): `e` is what the core gave up, `data` whether it came with its data. The core's
caches no longer hold the line. -/
def slvGiveUp (k c : Nat) (mask : BitVec 16) (e : CLine) (data : Bool) (s : State) : State :=
  let n := e.line
  let lvl := slvLevel s k n
  let wasF := match sfFind s k n with
    | some x => decide (x.2.fhold = some c)
    | none => false
  let s1 := sfRemove k c n s
  if (scratchSlv n).isSome then (if e.st = .M then memPut n e.data e.poison s1 else s1)
  else if e.st = .M then
    let r := l3Put k mask { e with st := .M } s1
    if r.2 then r.1 else homeWbM k n e.data e.poison (l3Erase k n s1)
  else if (l3Data s1 k n).isSome then s1
  else
    let r := if data then l3Put k mask { e with st := if lvl = .I then e.st else lvl } s1 else (s1, false)
    if r.2 then toCacheF k n r.1
    else goneCheck k n lvl (if wasF || e.st = .E then passF k n c s1 else s1)

/-- The snoop-filter entry at a key is replaced (R137): every core gives the line up. -/
def sfEvict (k key : Nat) (mask : BitVec 16) (s : State) : State :=
  match tabFind key (s.slv k).sf with
  | none => s
  | some e => ((upto 20).filter fun c => e.pres.getLsbD c).foldl (fun a c =>
      match coreLook (a.core (coreId k c)) e.line with
      | some l => slvGiveUp k c mask l true (coreDrop (coreId k c) e.line a)
      | none => sfRemove k c e.line a) s

/-- The line of a snoop-filter entry can not be replaced yet (R143, R145): a transaction for it is active at the slice or a core
awaits its Data, or an LR holds back what would remove it. -/
def sfPinned (s : State) (k n : Nat) : Bool :=
  let l := Level.sleeve (Fin.ofNat 12 k)
  (s.coh.txns.any fun t => t.lvl == l && t.line == n) || (s.coh.mshr.any fun m => m.lvl == l && m.line == n) || lrHeld s n

/-- A way of a snoop-filter set that a new entry may take. -/
def sfWay (s : State) (k t w : Nat) : Bool :=
  decide (w < 12) && match tabFind (t * 12 + w) (s.slv k).sf with
    | some e => !sfPinned s k e.line
    | none => true

/-- A line has, or can have, a snoop-filter entry. -/
def sfRoom (s : State) (k n : Nat) : Bool := (sfFind s k n).isSome || (upto 12).any (sfWay s k (sfSetOf n))

/-- Record that core `c` holds a line (R135): its entry is made, with a replacement when the set is full. -/
def sfAdd (k c n : Nat) (st : LState) (fh : Option Nat) (mask : BitVec 16) (s : State) : State :=
  let t := sfSetOf n
  let touch (w : Nat) (s : State) : State :=
    s.modSlv k fun v => { v with sfPlru := tabSet v.sfPlru 0 t (plruTouch 4 1 w (tabGet v.sfPlru 0 t)) }
  match sfFind s k n with
  | some x => touch (x.1 % 12) (sfWrite k x.1 { x.2 with st := st, pres := setBit x.2.pres c true, fhold := fh } s)
  | none =>
    match pickWay 12 4 (fun w => (tabFind (t * 12 + w) (s.slv k).sf).isSome) (sfWay s k t) (tabGet (s.slv k).sfPlru 0 t) with
    | none => s
    | some w =>
      let s1 := sfEvict k (t * 12 + w) mask s
      touch w (sfWrite k (t * 12 + w) ⟨n, st, setBit 0 c true, fh⟩ s1)

/-- A committed access hits the L2, or the sleeve cache (R107). -/
def hitL2 (core n : Nat) (s : State) : State :=
  s.modCore core fun k => match cLook k.l2 8 (l2T n) n with
    | some x => { k with l2 := cTouch k.l2 3 (l2T n) x.1 }
    | none => k
def hitL3 (k n : Nat) (s : State) : State :=
  s.modSlv k fun v => match cLook v.l3 16 (l3T n) n with
    | some x => { v with l3 := cTouch v.l3 4 (l3T n) x.1 }
    | none => v

/-! ### Core requests at a slice (Table 6.4) -/

/-- The state of a cacheable line that no caching agent but the Sleeve's own home serves: a converted scratch way. -/
def scratchRead (k c n : Nat) (code : Bool) (mask : BitVec 16) (s : State) : State × CLine :=
  let s1 := match ownerCore s k n with
    | some (h, e) =>
      let a := if e.st = .M then memPut n e.data e.poison s else s
      a.modCore (coreId k h) (coreSetSt n .S)
    | none => s
  let alone := sfCores s1 k n = [] && !code
  let st := if alone then LState.E else .S
  (sfAdd k c n (if alone then .E else .F) none mask s1, ⟨n, st, memLine s1 n, linePoison s1 n⟩)

/-- RdS or RdC from core `c` of Sleeve `k`: the line as granted to the core. -/
def slvRead (k c n : Nat) (code : Bool) (mask : BitVec 16) (s : State) : State × CLine :=
  if (scratchSlv n).isSome then scratchRead k c n code mask s
  else
    match slvLevel s k n with
    | .I =>
      let r := homeRead k n code s
      let d := r.2.data.getD (memLine r.1 n, linePoison r.1 n)
      if r.2.st = .E then
        let p := l3Put k mask ⟨n, .I, 0, false⟩ r.1
        (sfAdd k c n .E none mask p.1, ⟨n, .E, d.1, d.2⟩)
      else
        let p := l3Put k mask ⟨n, .F, d.1, d.2⟩ r.1
        if p.2 then (sfAdd k c n .F none mask p.1, ⟨n, .S, d.1, d.2⟩)
        else (sfAdd k c n .F (some c) mask p.1, ⟨n, .F, d.1, d.2⟩)
    | lvl =>
      match ownerCore s k n with
      | some (h, e) =>
        let s1 := s.modCore (coreId k h) (coreSetSt n .S)
        let p := l3Put k mask { e with st := e.st } s1
        if p.2 then (sfAdd k c n lvl none mask p.1, { e with st := .S })
        else
          let s2 := if e.st = .M then homeWbK k n e.data e.poison p.1 else p.1
          (sfAdd k c n .E (some c) mask s2, { e with st := .F })
      | none =>
        match l3Data s k n with
        | some e => (sfAdd k c n lvl none mask (hitL3 k n s), { e with st := .S })
        | none =>
          let d := (slvData s k n).getD (memLine s n, linePoison s n)
          let f := (sfFind s k n).bind fun x => x.2.fhold
          (sfAdd k c n lvl f mask s, ⟨n, .S, d.1, d.2⟩)

/-- Every core of the Sleeve but `c` loses the line. -/
def dropOthers (k c n : Nat) (s : State) : State :=
  ((sfCores s k n).filter (· ≠ c)).foldl (fun a h => sfRemove k h n (coreDrop (coreId k h) n a)) s

/-- RdO or Upg from core `c`: the line as granted, in M. -/
def slvOwn (k c n : Nat) (mask : BitVec 16) (s : State) : State × CLine :=
  let mine := coreLook (s.core (coreId k c)) n
  if (scratchSlv n).isSome then
    let s1 := match ownerCore s k n with
      | some (h, e) => if h ≠ c ∧ e.st = .M then memPut n e.data e.poison s else s
      | none => s
    let s2 := dropOthers k c n s1
    (sfAdd k c n .M none mask s2, (mine.map fun e => { e with st := .M }).getD ⟨n, .M, memLine s2 n, linePoison s2 n⟩)
  else
    let lvl := slvLevel s k n
    let r := if lvl = .E ∨ lvl = .M then (s, (⟨.M, none⟩ : Grant)) else homeOwn k n (decide (lvl = .F)) s
    let near := (slvData s k n).or r.2.data
    let d := match mine with
      | some e => (e.data, e.poison)
      | none => near.getD (memLine s n, linePoison s n)
    let hit := if (l3Data s k n).isSome then hitL3 k n r.1 else r.1
    let s1 := l3Mod k n (fun _ => ⟨n, .I, 0, false⟩) (dropOthers k c n hit)
    let s2 := if lvl = .I then (l3Put k mask ⟨n, .I, 0, false⟩ s1).1 else s1
    (sfAdd k c n .M none mask s2, ⟨n, .M, d.1, d.2⟩)

/-! ### Fills of the core caches (R104) -/

/-- An L2 victim whose line stays in an L1 is allocated in the sleeve cache unless the line is already there (R104): as a shadow
where the core owns it (R132), else with its data, and the sleeve cache is then the F holder. -/
def victimCopy (k : Nat) (mask : BitVec 16) (e : CLine) (owned : Bool) (s : State) : State :=
  if (scratchSlv e.line).isSome || (l3Data s k e.line).isSome then s
  else if owned then (if (l3Look s k e.line).isSome then s else (l3Put k mask ⟨e.line, .I, 0, false⟩ s).1)
  else
    let lvl := slvLevel s k e.line
    let r := l3Put k mask { e with st := if lvl = .I then e.st else lvl } s
    if r.2 then toCacheF k e.line r.1 else r.1

/-- An L2 victim: the copy goes when the L1D, or for a shared line an L1, still holds it; else the line leaves the core with
its data. -/
def l2Evict (core : Nat) (mask : BitVec 16) (e : CLine) (s : State) : State :=
  let s1 := s.modCore core fun k => { k with l2 := cDel k.l2 8 (l2T e.line) e.line }
  let owned := decide (e.st = .E ∨ e.st = .M)
  if (l1dLook (s1.core core) e.line).isSome || (!owned && (l1iLook (s1.core core) e.line).isSome) then victimCopy (core / 20) mask e owned s1
  else slvGiveUp (core / 20) (core % 20) mask e true (coreDrop core e.line s1)

/-- Put a line into the L2 under a way mask. -/
def l2Put (core : Nat) (ways : BitVec 8) (mask : BitVec 16) (e : CLine) (s : State) : State :=
  let t := l2T e.line
  match cLook (s.core core).l2 8 t e.line with
  | some x => s.modCore core fun k => { k with l2 := cTouch (cPut k.l2 8 t x.1 e) 3 t x.1 }
  | none =>
    match cVictim (s.core core).l2 8 3 t (fun w => ways.getLsbD w) with
    | none => s
    | some (w, o) =>
      let s1 := match o with
        | some v => l2Evict core mask v s
        | none => s
      s1.modCore core fun k => { k with l2 := cTouch (cPut k.l2 8 t w e) 3 t w }

/-- A clean line that has left an L1: an EvC when no other cache of the core holds it. -/
def l1Gone (core : Nat) (mask : BitVec 16) (e : CLine) (s : State) : State :=
  match coreLook (s.core core) e.line with
  | some _ => s
  | none => slvGiveUp (core / 20) (core % 20) mask e false s

/-- An L1D victim: dirty data goes to the L2, a clean line is dropped. -/
def l1dEvict (core : Nat) (ways : BitVec 8) (mask : BitVec 16) (e : CLine) (s : State) : State :=
  let s1 := dropResv core e.line (s.modCore core fun k => { k with l1d := cDel k.l1d 8 (l1dT e.line) e.line })
  if e.st = .M then l2Put core ways mask e s1 else l1Gone core mask e s1

/-- Fill the L1D or the L1I. -/
def l1dPut (core : Nat) (ways : BitVec 8) (mask : BitVec 16) (e : CLine) (s : State) : State :=
  let t := l1dT e.line
  match cLook (s.core core).l1d 8 t e.line with
  | some x => s.modCore core fun k => { k with l1d := cTouch (cPut k.l1d 8 t x.1 e) 3 t x.1 }
  | none =>
    match cVictim (s.core core).l1d 8 3 t (fun _ => true) with
    | none => s
    | some (w, o) =>
      let s1 := match o with
        | some v => l1dEvict core ways mask v s
        | none => s
      s1.modCore core fun k => { k with l1d := cTouch (cPut k.l1d 8 t w e) 3 t w }
def l1iPut (core : Nat) (mask : BitVec 16) (e : CLine) (s : State) : State :=
  let t := l1iT e.line
  match cVictim (s.core core).l1i 4 2 t (fun _ => true) with
  | none => s
  | some (w, o) =>
    let s1 := match o with
      | some v => l1Gone core mask v (s.modCore core fun k => { k with l1i := cDel k.l1i 4 t v.line })
      | none => s
    s1.modCore core fun k => { k with l1i := cTouch (cPut k.l1i 4 t w e) 2 t w }

/-- The allocation masks of a hart's ubxcctl (Table 5.3). -/
def ubxcctlOf (s : State) (h : Nat) : Word := tabGet (s.hart h).csr 0xFFFFFF0C 0x7C0
def l3Mask (s : State) (h : Nat) : BitVec 16 := fld (ubxcctlOf s h) 16 16
def l2Ways (s : State) (h : Nat) : BitVec 8 := fld (ubxcctlOf s h) 8 8

/-- A copy of a line of the Pocket ring or of the segment map is always what the SRAM holds: the writes of the Pocket and of the
media engine reach every copy at once (log 116). -/
def ringNow (s : State) (e : CLine) : CLine :=
  if ringAddr (64 * e.line) || mapAddr (64 * e.line) then { e with data := memLine s e.line, poison := linePoison s e.line } else e

/-- Fill the L1D for a read (R104): the line as the core's caches or the slice hold it. -/
def readFill (h n : Nat) (s : State) : State × CLine :=
  let core := hartCore h
  let k := s.core core
  match cLook k.l1d 8 (l1dT n) n with
  | some x => (s.modCore core fun k => { k with l1d := cTouch k.l1d 3 (l1dT n) x.1 }, x.2)
  | none =>
    match coreLook k n with
    | some e => (l1dPut core (l2Ways s h) (l3Mask s h) e (hitL2 core n s), e)
    | none =>
      let r := slvRead (core / 20) (core % 20) n false (l3Mask s h) s
      (l1dPut core (l2Ways s h) (l3Mask s h) r.2 (l2Put core (l2Ways s h) (l3Mask s h) r.2 r.1), r.2)

/-- Fill the L1I for a fetch. -/
def fetchFill (h n : Nat) (s : State) : State × CLine :=
  let core := hartCore h
  let k := s.core core
  match cLook k.l1i 4 (l1iT n) n with
  | some x => (s.modCore core fun k => { k with l1i := cTouch k.l1i 2 (l1iT n) x.1 }, x.2)
  | none =>
    match coreLook k n with
    | some e => (l1iPut core (l3Mask s h) e (hitL2 core n s), e)
    | none =>
      let r := slvRead (core / 20) (core % 20) n true (l3Mask s h) s
      (l1iPut core (l3Mask s h) r.2 (l2Put core (l2Ways s h) (l3Mask s h) r.2 r.1), r.2)

/-- A hart reads a cacheable line for data: the line, filled into the L1D. -/
def readLine (h n : Nat) (s : State) : State × CLine :=
  let r := readFill h n s
  (r.1, ringNow r.1 r.2)

/-- A hart fetches a cacheable line: the line, filled into the L1I. -/
def fetchLine (h n : Nat) (s : State) : State × CLine :=
  let r := fetchFill h n s
  (r.1, ringNow r.1 r.2)

/-- A hart gains ownership of a line: the line, in M in the L1D. -/
def ownLine (h n : Nat) (s : State) : State × CLine :=
  let core := hartCore h
  match coreLook (s.core core) n with
  | some e =>
    let s0 := if (l1dLook (s.core core) n).isSome then s else hitL2 core n s
    let r := if e.st = .E ∨ e.st = .M then (s0, { e with st := .M }) else slvOwn (core / 20) (core % 20) n (l3Mask s h) s0
    let s1 := match sfFind r.1 (core / 20) n with
      | some x => sfWrite (core / 20) x.1 { x.2 with st := .M } r.1
      | none => r.1
    let s2 := s1.modCore core (coreSetSt n .M)
    (l1dPut core (l2Ways s h) (l3Mask s h) r.2 s2, r.2)
  | none =>
    let r := slvOwn (core / 20) (core % 20) n (l3Mask s h) s
    (l1dPut core (l2Ways s h) (l3Mask s h) r.2 (l2Put core (l2Ways s h) (l3Mask s h) r.2 r.1), r.2)

/-- Write an owned line; the L1I is snooped for the store (Table 2.3). -/
def putOwned (h : Nat) (e : CLine) (s : State) : State :=
  let core := hartCore h
  s.modCore core fun k => { k with
    l1d := cMod k.l1d 8 (l1dT e.line) e.line fun _ => { e with st := .M }
    l1i := cDel k.l1i 4 (l1iT e.line) e.line }

/-- Stores and AMOs by one hart clear the other harts' reservations on the line (R145). -/
def clearResv (n : Nat) (except : Option Nat) (s : State) : State :=
  s.harts.foldl (fun a e => if e.2.resv = some n ∧ some e.1 ≠ except then
    a.modHart e.1 fun x => { x with resv := none, resHold := none } else a) s

/-! ### Agents that cache nothing (Table 6.6) -/

/-- RdCur: the current data; no state changes anywhere. -/
def readCur (s : State) (n : Nat) : LineData × Bool :=
  match dirSt s n with
  | some (.x o) => (slvData s o n).getD (memLine s n, linePoison s n)
  | _ => (memLine s n, linePoison s n)

/-- The write of WrFull or WrPart at the home (R124): a full line clears poison unless it arrives poisoned; a narrower write
keeps it. Writes into arrays with merge buffers pass through them (R126). -/
def writeAt (n : Nat) (mask : BitVec 64) (d : LineData) (p : Bool) (s : State) : State :=
  if mask = BitVec.allOnes 64 then memPut n d p s
  else if (mergeBankOf (64 * n)).isSome then setPoison n (linePoison s n || p) (putPart n d mask s)
  else memPut n (mergeLine (memLine s n) d mask) (linePoison s n || p) s

/-- WrFull or WrPart as a whole transaction: every copy is invalidated, dirty data returns first, then the bytes are written. -/
def writeHome (n : Nat) (mask : BitVec 64) (d : LineData) (p : Bool) (s : State) : State :=
  writeAt n mask d p (clearResv n none (dirErase n (invalAll n 12 s)))

end Sys2Proof.Machine
end

