-- ==== Sys2Proof/Machine/Dram.lean ====
section
/-! DEFINITION. DRAM channels and CXL memory (08): bring-up, the address map, scheduling, refresh, row disturbance, line
protection, the CXL decoders and isolation. -/

namespace Sys2Proof.Machine

def State.modDram (s : State) (f : Dram → Dram) : State := { s with dram := f s.dram }

/-! ### Bring-up (R186 to R190) -/

/-- The channels that are still training or zero-filling. -/
def chBusy (s : State) : Bool := (upto 12).any fun n => let c := s.chan n
  decide (c.state = 1) || decide (c.state = 2)

/-- CAPR of class 1 of a channel's group: the sum of its channels' peaks in units of 64 B per µs (Table 12.3); a channel at R × 100 MT/s
moves R × 12.5 of them. -/
def chCapr (n : Nat) (s : State) : State :=
  let g := n / 3
  loadCap 1 g ((upto 3).foldl (fun a i => a + 25 * (s.chan (3 * g + i)).rate.toNat / 2) 0) s

/-- When the last channel leaves STATE 1 or 2, CHMASK is loaded with the channels in STATE 3 (Table 8.4). -/
def chLoad (s : State) : State :=
  if chBusy s || s.dram.chLoaded then s
  else s.modDram fun d => { d with chLoaded := true, chmask := maskOf 12 fun n => decide ((s.chan n).state = 3) }

/-- A channel whose bring-up has not run since the package reset: none is repeated, and a failed one stays unused (R189). -/
def chFresh (s : State) (n : Nat) : Bool := decide ((s.chan n).state = 0) && decide (tabGet s.pwr.blocks 0 (12 + n) = 0)

/-- DRAM_BRINGUP_START (R188): every channel with at least one DIMM enters step 2. -/
def execDramBringupStart (dpc : List (Fin 3)) (s : State) : Out := keepQueue s <|
  let l := fillFree 12 (Fin.ofNat 3) dpc s
  let s1 := ((upto 12).filter (chFresh s)).foldl (fun a n =>
    let k := (l.2.getD n 0).val
    if k = 0 then a.modChan n fun c => { c with state := 0, dpc := 0, step := 0 }
    else a.modChan n fun c => { c with state := 1, step := 2, attempt := 1, dpc := BitVec.ofNat 2 k }) l.1
  done (chLoad s1)

/-- A DIMM lies within Table 8.1 and R186. -/
def dimmOk (d : Dimm) : Bool :=
  d.rdimm && (d.width == 4 || d.width == 8) && (d.dens == 16 || d.dens == 24 || d.dens == 32) &&
  (d.ranks == 1 || d.ranks == 2) && (d.stack == 1 || d.stack == 2) && decide (d.ranks * d.stack ≤ 4) &&
  decide (16 ≤ d.gib ∧ d.gib ≤ 256) && decide (48 ≤ d.rate)

/-- CAUSE at step 3: 2 outside Table 8.1, 3 DIMMs differ, 0 accepted. -/
def configCause (l : List Dimm) : Nat :=
  if !(l.all dimmOk) || decide (512 < l.foldl (fun a d => a + d.gib) 0) then 2
  else match l with
    | [a, b] => if a.ident = b.ident then 0 else 3
    | _ => 0

/-- The channel's rate ÷ 100 (R187): the highest of Table 8.1 within the SPD's maximum and the limit for its DIMM count. -/
def chRate (l : List Dimm) : Nat :=
  let m := l.foldl (fun a d => min a d.rate) (if l.length = 2 then 64 else 88)
  ([88, 80, 72, 64, 56, 48].find? fun r => decide (r ≤ m)).getD 48

/-- A channel fails for good (R189): STATE 4, one record. -/
def chFail (n cause : Nat) (s : State) : State :=
  let s1 := s.modChan n fun c => { c with state := 4, cause := BitVec.ofNat 4 cause, step := 0, rate := 0, cap := 0 }
  chLoad (report (mkReport (0x4000 + n) 0 0x030 false 8 (leBytes 1 n ++ leBytes 1 cause)) s1)

/-- DRAM_STEP_DONE (Table 8.3). Step 2 reads the SPD of each of the channel's DIMMs; one that yields none is unreadable (DESIGN CHOICE,
log 130). -/
def execDramStepDone (n : ChanId) (spd : DimmSpd) (s : State) : Out := keepQueue s <|
  let c := s.chan n
  match c.step with
  | 2 =>
    if spd.dimms.length < c.dpc.toNat then done (chFail n 1 s)
    else done (s.modChan n fun c => { c with spd := ⟨spd.dimms.take c.dpc.toNat, 0⟩, step := 3 })
  | 3 =>
    let l := c.spd.dimms
    let k := configCause l
    if k ≠ 0 then done (chFail n k s)
    else
      let d := l.headD ⟨true, 4, 16, 1, 1, 16, 48, false, 0, 0⟩
      done (s.modChan n fun c => { c with
        step := 4
        cap := BitVec.ofNat 10 (l.foldl (fun a d => a + d.gib) 0)
        lranks := BitVec.ofNat 4 (l.foldl (fun a d => a + d.ranks * d.stack) 0)
        width := if d.width = 8 then 1 else 0
        dens := if d.dens = 24 then 1 else if d.dens = 32 then 2 else 0 })
  | 4 => done (s.modChan n fun c => { c with step := 5 })
  | 5 => done (s.modChan n fun c => { c with step := 6 })
  | 6 => done (s.modChan n fun c => { c with step := 7 })
  | 7 => done (chCapr n (s.modChan n fun c => { c with step := 8, state := 2, rate := BitVec.ofNat 8 (chRate c.spd.dimms), oscLim := spd.oscLim }))
  | 8 => done (chLoad (s.modChan n fun c => { c with step := 0, state := 3, pz := [] }))
  | _ => done s

/-- DRAM_STEP_TIMEOUT (R189): steps 2 to 4 end the channel; a later step is retried from step 5, three attempts in all. -/
def execDramStepTimeout (n : ChanId) (_why : DramFail) (s : State) : Out := keepQueue s <|
  let c := s.chan n
  if c.step = 0 then done s
  else if c.step = 2 then done (chFail n 1 s)
  else if c.step = 3 then done (chFail n (if configCause c.spd.dimms = 3 then 3 else 2) s)
  else if c.step = 4 then done (chFail n 5 s)
  else if c.attempt < 3 then done (s.modChan n fun c => { c with step := 5, attempt := c.attempt + 1, state := 1, rate := 0 })
  else done (chFail n 4 s)

/-- DQS_OSC_CHECK (R190): a drift above the limit starts a write-centering update, which issues no request for 2 µs. -/
def execDqsOscCheck (n : ChanId) (drift : Nat) (s : State) : Out := keepQueue s <|
  let c := s.chan n
  if c.state = 3 ∧ c.oscLim < drift then done (s.modChan n fun c => { c with updTil := s.time + 200 }) else done s

/-! ### The address map (R191 to R195) -/

/-- The included channels, in ascending order. -/
def mapList (d : Dram) : List Nat := (upto 12).filter fun n => d.chmask.getLsbD n
def pwbSize : Nat := 0x8000000
/-- U(n) in bytes (R191). -/
def usable (s : State) (n : Nat) : Nat :=
  (s.chan n).cap.toNat * 0x40000000 - (if s.dram.pwben && decide (n < 2) then pwbSize else 0)
def minUsable (s : State) : Nat := match (mapList s.dram).map (usable s) with
  | [] => 0
  | a :: r => r.foldl min a
/-- The interleave grain in bytes. -/
def grainOf (s : State) : Nat := 256 * 2 ^ s.dram.grain.toNat
def pwbPart (s : State) : Nat := if s.dram.pwben then 2 * pwbSize else 0

/-- Channel and channel-local address at an offset of an interleaved part (R192). -/
def interleave (g : Nat) (l : List Nat) (off : Nat) : Nat × Nat :=
  let k := off / g
  (l.getD (k % l.length) 0, k / l.length * g + off % g)

/-- Walk parts that are not interleaved: the channel and its local address, each channel giving `size n` bytes from `base n`. -/
def linear (size base : Nat → Nat) : List Nat → Nat → Option (Nat × Nat)
  | [], _ => none
  | n :: r, off => if off < size n then some (n, base n + off) else linear size base r (off - size n)

/-- The channel and channel-local address of a DRAM address (Table 8.5). -/
def dramLoc (s : State) (a : Nat) : Option (Nat × Nat) :=
  let off := a - 0x100000000
  let l := mapList s.dram
  let m := minUsable s
  if a < 0x100000000 ∨ s.dram.top.toNat ≤ a then none
  else if off < pwbPart s then
    let x := interleave (grainOf s) [0, 1] off
    some (x.1, usable s x.1 + x.2)
  else
    let o := off - pwbPart s
    if s.dram.ilen then
      if o < l.length * m then some (interleave (grainOf s) l o)
      else linear (fun n => usable s n - m) (fun _ => m) l (o - l.length * m)
    else linear (usable s) (fun _ => 0) l o

/-- The offset at which an interleaved part holds a channel-local address. -/
def unleave (g : Nat) (l : List Nat) (n loc : Nat) : Nat := (loc / g * l.length + (l.takeWhile (· ≠ n)).length) * g + loc % g

/-- The physical address of a channel-local address, while the map is locked. -/
def dramPhys (s : State) (n loc : Nat) : Option Nat :=
  let l := mapList s.dram
  let m := minUsable s
  let before (f : Nat → Nat) : Nat := ((l.takeWhile (· ≠ n)).map f).foldl (· + ·) 0
  if s.dram.mapLock = false ∨ l.contains n = false ∨ (s.chan n).cap.toNat * 0x40000000 ≤ loc then none
  else if usable s n ≤ loc then some (0x100000000 + unleave (grainOf s) [0, 1] n (loc - usable s n))
  else if s.dram.ilen then
    if loc < m then some (0x100000000 + pwbPart s + unleave (grainOf s) l n loc)
    else some (0x100000000 + pwbPart s + l.length * m + before (fun k => usable s k - m) + (loc - m))
  else some (0x100000000 + pwbPart s + before (usable s) + loc)

/-- The lines that a scrub poisoned before the map was locked take their addresses (R205, R207). -/
def addressPoison (s : State) : State := (upto 12).foldl (fun a n =>
    ((s.chan n).pz.foldl (fun b k => match dramPhys b n (64 * k) with
      | some x => (memPut (x / 64) (Config.freeLine b.free) true b).draw
      | none => b) a)) s

/-- Validation of MAP.LOCK (Table 8.7): 0 when every condition holds. -/
def mapValidate (s : State) (mask : BitVec 12) (pwb : Bool) : Nat :=
  if chBusy s then 1
  else if mask = 0 ∨ ((upto 12).any fun n => mask.getLsbD n && decide ((s.chan n).state ≠ 3)) then 2
  else if pwb && !(mask.getLsbD 0 && mask.getLsbD 1) then 3
  else 0

/-- VEST.DRAM.MAP (Table 8.4, R194). -/
def rdDramMap (s : State) : Word :=
  let d := s.dram
  cat [on 63 d.mapLock, at_ 60 d.mapErr, at_ 28 d.chmask, on 9 d.pwben, on 8 d.ilen, at_ 2 d.grain, at_ 0 d.order]
def wrDramMap (v : Word) (s : State) : State :=
  let d := s.dram
  if d.mapLock then s
  else
    let g := fld v 2 3
    let mask := if d.chLoaded then fld v 28 12 else d.chmask
    let d1 := { d with
      chmask := mask, pwben := bit v 9, ilen := bit v 8, grain := if g.toNat < 5 then g else d.grain, order := fld v 0 2 }
    if bit v 63 then
      let e := mapValidate s (fld v 28 12) (bit v 9)
      if e ≠ 0 then { s with dram := { d with mapErr := BitVec.ofNat 3 e } }
      else if 5 ≤ g.toNat then s
      else
        let cap := (mapList d1).foldl (fun a n => a + (s.chan n).cap.toNat * 0x40000000) 0
        addressPoison { s with dram := { d1 with mapLock := true, mapErr := 0, top := BitVec.ofNat 52 (0x100000000 + cap) } }
    else { s with dram := d1 }

/-- DRAM_MAP_LOCK (R194): a write of VEST.DRAM.MAP. -/
def execDramMapLock (who : Agent) (v : BitVec 64) (s : State) : Out := keepQueue s <| sentBy who s <| done (wrDramMap v s)

/-! ### Bank, row and column (R193) -/

/-- Take `w` bits from a number: the field and the rest. -/
def takeBits (w n : Nat) : Nat × Nat := (n % 2 ^ w, n / 2 ^ w)

/-- log2 of the logical ranks, rounded up. -/
def rankBits (c : Chan) : Nat := if c.lranks.toNat ≤ 1 then 0 else if c.lranks.toNat ≤ 2 then 1 else if c.lranks.toNat ≤ 4 then 2 else 3

/-- Where a channel-local line lies: subchannel, logical rank, bank group and bank as sent to the DRAM, row, column line. -/
structure Place where
  sc   : Nat
  rk   : Nat
  bg   : Nat
  ba   : Nat
  row  : Nat
  col  : Nat
deriving DecidableEq, Repr

/-- The split of Table 8.6. -/
def placeOf (order : Nat) (c : Chan) (n : Nat) : Place :=
  let cw := if c.width = 1 then 6 else 7
  let rb := rankBits c
  let p : Place := match order with
    | 0 =>
      let a := takeBits 1 n; let b := takeBits 3 a.2; let x := takeBits 2 b.2; let d := takeBits 2 x.2
      let e := takeBits (cw - 2) d.2; let f := takeBits rb e.2
      ⟨a.1, f.1, b.1, d.1, f.2, x.1 + 4 * e.1⟩
    | 1 =>
      let a := takeBits 1 n; let x := takeBits cw a.2; let b := takeBits 3 x.2; let d := takeBits 2 b.2
      let f := takeBits rb d.2
      ⟨a.1, f.1, b.1, d.1, f.2, x.1⟩
    | 2 =>
      let a := takeBits 1 n; let b := takeBits 3 a.2; let f := takeBits rb b.2; let d := takeBits 2 f.2
      let x := takeBits cw d.2
      ⟨a.1, f.1, b.1, d.1, x.2, x.1⟩
    | _ =>
      let x := takeBits cw n; let a := takeBits 1 x.2; let d := takeBits 2 a.2; let b := takeBits 3 d.2
      let f := takeBits rb b.2
      ⟨a.1, f.1, b.1, d.1, f.2, x.1⟩
  if order = 3 then p else { p with bg := p.bg ^^^ (p.row % 8), ba := p.ba ^^^ (p.row / 8 % 4) }

/-- The order in force: 0 while the map interleaves. -/
def orderOf (s : State) : Nat := if s.dram.ilen then 0 else s.dram.order.toNat
/-- The key of a bank. -/
def bankKey (p : Place) : Nat := ((p.sc * 8 + p.rk) * 8 + p.bg) * 4 + p.ba

/-! ### Row disturbance (R201 to R203) -/

/-- The table entry that an ACT takes away: the smallest count, the lowest-numbered on a tie. -/
def minEntry : List (Nat × Nat) → Nat
  | [] => 0
  | [_] => 0
  | a :: r =>
    let m := minEntry r
    if a.2 ≤ (r.getD m (0, 0)).2 then 0 else m + 1

/-- The table after an ACT to row `r`, and the row's count. -/
def actTable (r : Nat) (l : List (Nat × Nat)) : List (Nat × Nat) × Nat :=
  match firstIdx (fun e => e.1 == r) l with
  | some i => let k := (l.getD i (0, 0)).2 + 1
    (setAt l i (r, k), k)
  | none =>
    if l.length < 32 then (l ++ [(r, 1)], 1)
    else
      let i := minEntry l
      let k := (l.getD i (0, 0)).2 + 1
      (setAt l i (r, k), k)

/-- Rows of a bank: the lines of the channel over its 64 banks of each rank and the lines of a row (R193). -/
def rowsOf (c : Chan) : Nat := c.cap.toNat * 0x1000000 / (64 * max 1 c.lranks.toNat * 2 ^ (if c.width = 1 then 6 else 7))

/-- The neighbours of row `r` at the distance BLAST (R202). -/
def neighbours (c : Chan) (r : Nat) : List Nat :=
  (((upto c.blast.toNat).map fun i => [r - (i + 1), r + i + 1]).flatten).filter fun q => q ≠ r && decide (q < rowsOf c) &&
    decide (r ≤ q + c.blast.toNat)

/-- The refresh-management threshold of the DIMM that holds a logical rank (R203): the first DIMM's ranks come first. -/
def raaOf (c : Chan) (rk : Nat) : Nat := match c.spd.dimms with
  | [] => 0
  | [a] => a.raa
  | a :: b :: _ => if rk < a.ranks * a.stack then a.raa else b.raa

/-- An ACT to row `r` of a bank is counted: in its table, which yields the row's count, and in its rolling count, with an RFM command at
the DIMM's threshold (R201, R203). -/
def countAct (key r : Nat) (c : Chan) : Chan × Nat :=
  let x := actTable r (tabGet c.acts [] key)
  let c1 := { c with acts := tabSet c.acts [] key x.1 }
  let t := raaOf c1 (key / 32 % 8)
  let n := tabGet c1.raa 0 key + 1
  (if t = 0 then c1 else { c1 with raa := tabSet c1.raa 0 key (if t ≤ n then n - t else n) }, x.2)

/-- The neighbour refresh of row `r` (R202), which closes the bank's open row: the row's count returns to 0; with MODE = 0 each
neighbour row is activated by `act` and precharged, with MODE = 1 a DRFM command leaves the rows to the DRAM. -/
def nearRefresh (act : Nat → Chan → Chan) (key r : Nat) (c : Chan) : Chan :=
  let c1 := { c with
    nref := satInc c.nref
    acts := tabSet c.acts [] key ((tabGet c.acts [] key).map fun e => if e.1 = r then (r, 0) else e) }
  let c2 := if c.rhMode then c1 else (neighbours c r).foldl (fun a q => act q a) c1
  { c2 with openRow := tabErase key c2.openRow }

/-- An ACT to row `r` of a bank, which opens the row; a count that reaches TH triggers the neighbour refresh, whose own ACTs count
too (R201). The fuel bounds a chain of refreshes: each one takes one of 32 counts from TH to 0. -/
def activateN : Nat → Nat → Nat → Chan → Chan
  | 0, key, r, c => { (countAct key r c).1 with openRow := tabInsert key r c.openRow }
  | f + 1, key, r, c =>
    let x := countAct key r c
    let c1 := { x.1 with openRow := tabInsert key r c.openRow }
    if c1.thF.toNat ≤ x.2 then nearRefresh (fun q a => activateN f key q a) key r c1 else c1

def activate (key r : Nat) (c : Chan) : Chan := activateN 64 key r c
def neighbour (key r : Nat) (c : Chan) : Chan := nearRefresh (activate key) key r c

/-- Access a row (R198): it stays open, but for a neighbour refresh that its ACT triggers; another row of the bank is closed first. -/
def openFor (p : Place) (c : Chan) : Chan :=
  if tabFind (bankKey p) c.openRow = some p.row then c else activate (bankKey p) p.row c

/-! ### Line protection (R204 to R207) -/

/-- The Hem: the lowest non-secure DRAM address. -/
def hemOf (s : State) : Nat := s.cloak.hemAddr.toNat * 0x200000

/-- What the code makes of a codeword's errors (R204): an error confined to one device of an x4 channel, or to four DQ pins of an x8
channel, is corrected; every other error is detected (log 145). -/
def eccOf (c : Chan) (l : List SymErr) : EccResult :=
  let flips (i : Nat) : BitVec 8 := (l.filter fun e => e.sym.val == i).foldl (fun a e => a ^^^ e.bits) 0
  let bad := (upto 80).filter fun i => flips i ≠ 0
  let units := (bad.map fun i => if c.width = 1 then i / 2 else i / 8).eraseDups
  if bad = [] then .ok else if units.length ≤ (if c.width = 1 then 4 else 1) then .ce else .ue

/-- ERRADDR (Table 8.9): an uncorrectable error overwrites a corrected one, not the reverse while VALID. -/
def noteErr (ue : Bool) (line : BitVec 46) (c : Chan) : Chan :=
  if c.eaV && c.eaUe && !ue then c else { c with eaV := true, eaUe := ue, eaLine := line }

/-- A corrected error of a channel, at a line with an address or at one without. -/
def chanCe (n : Nat) (line : BitVec 46) (addr : Nat) (s : State) : State :=
  let s1 := s.modChan n fun c => noteErr false line { c with cecnt := satInc c.cecnt }
  reportCe (0x4000 + n) (0x20 + n) (s1.chan n).ceBase (s1.chan n).cecnt addr s1
def chanUe (n : Nat) (line : BitVec 46) (s : State) : State := s.modChan n fun c => noteErr true line { c with uecnt := satInc c.uecnt }

/-- Poison is created in DRAM: a deferred error (R206). -/
def reportDramUe (n addr : Nat) (s : State) : State :=
  report (mkReport (0x4000 + n) 2 0x011 (decide (addr < hemOf s)) 16 (leBytes 8 addr ++ leBytes 2 (dramNode n))) s

/-- A read of a line meets an error of the array (R206): counted, rewritten, and for an uncorrectable error poisoned and
reported once. A line stored poisoned is not altered by an uncorrectable error. -/
def eccRead (n : Nat) (line : Nat) (e : EccResult) (s : State) : State :=
  match e with
  | .ok => s
  | .ce => chanCe n (BitVec.ofNat 46 line) (64 * line) s
  | .ue =>
    let s1 := chanUe n (BitVec.ofNat 46 line) s
    if linePoison s1 line then s1
    else reportDramUe n (64 * line) (memPut line (Config.freeLine s1.free) true s1.draw)

/-- The same for a channel-local line without an address: before MAP.LOCK, or of a channel outside the map. What ERRADDR.LINE and a
record's ADDR then hold is open (DESIGN CHOICE, log 146). -/
def eccLocal (n : Nat) (k : Nat) (e : EccResult) (s : State) : State :=
  let v := (Config.freeWord s.free).toNat
  let line := BitVec.ofNat 46 v
  match e with
  | .ok => s
  | .ce => chanCe n line 0 s.draw
  | .ue =>
    let s1 := chanUe n line s.draw
    if (s.chan n).pz.contains k then s1
    else report (mkReport (0x4000 + n) 2 0x011 false 16 (leBytes 8 v ++ leBytes 2 (dramNode n))) (s1.modChan n fun c => { c with pz := k :: c.pz })

/-! ### Scheduling (R197) -/

def isRead (e : DQEnt) : Bool := e.rq.wr.isNone

/-- The read queue and the write queue. -/
def Chan.rq (c : Chan) : List DQEnt := c.reqs.filter isRead
def Chan.wq (c : Chan) : List DQEnt := c.reqs.filter fun e => !isRead e

/-- The writes of a read's line that arrived before it, at place `i`. -/
def olderWrites (c : Chan) (i : Nat) (e : DQEnt) : List DQEnt := (c.reqs.take i).filter fun x => !isRead x && x.rq.loc == e.rq.loc

/-- A line's data and poison after a write (R206). -/
def mergeWrite (w : BitVec 64 × BitVec 512 × Bool) (x : LineData × Bool) : LineData × Bool :=
  if w.1 = BitVec.allOnes 64 then (w.2.1, w.2.2) else (mergeLine x.1 w.2.1 w.1, x.2 || w.2.2)

def fullWrite (e : DQEnt) : Bool := match e.rq.wr with
  | some w => decide (w.1 = BitVec.allOnes 64)
  | none => false

/-- A request's place in the array, and the access itself: the row is opened. -/
def openReq (n : Nat) (e : DQEnt) (s : State) : State := s.modChan n (openFor (placeOf (orderOf s) (s.chan n) e.rq.loc))

/-- Serve the read at place `i`. Queued writes of its line that arrived before it supply what they write (R197); only what they leave
is read from the array. Poisoned data is answered with its mark (R205). -/
def serveRead (n i : Nat) (e : DQEnt) (s : State) : State :=
  let ws := olderWrites (s.chan n) i e
  let s0 := s.modChan n fun c => { c with reqs := c.reqs.eraseIdx i }
  let s1 := if ws.any fullWrite then s0 else openReq n e s0
  match dramPhys s1 n (64 * e.rq.loc) with
  | none => { s1 with answer := .error }
  | some a =>
    let s2 := if ws.any fullWrite then s1 else eccRead n (a / 64) (eccOf (s1.chan n) e.rq.err) s1
    let x := (ws.filterMap (·.rq.wr)).foldl (fun x w => mergeWrite w x) (memLine s2 (a / 64), linePoison s2 (a / 64))
    let b := bytesOfLine x.1
    let s3 := s2.modChan n fun c => { c with served := c.served ++ [(e.rq.loc, b, x.2)] }
    { s3 with answer := if x.2 then .poison b else .bytes b }

/-- Perform the write at place `i`. -/
def performWrite (n i : Nat) (e : DQEnt) (w : BitVec 64 × BitVec 512 × Bool) (s : State) : State :=
  let s1 := openReq n e (s.modChan n fun c => { c with reqs := c.reqs.eraseIdx i })
  match dramPhys s1 n (64 * e.rq.loc) with
  | none => { s1 with answer := .error }
  | some a =>
    let s2 := if fullWrite e then s1 else eccRead n (a / 64) (eccOf (s1.chan n) e.rq.err) s1
    let x := mergeWrite w (memLine s2 (a / 64), linePoison s2 (a / 64))
    memPut (a / 64) x.1 x.2 s2

/-- Serve the request at place `i`: requests for its line that arrived before it are served before a write (R197). The fuel bounds
their number. -/
def serveAt (n : Nat) : Nat → Nat → State → State
  | 0, _, s => s
  | f + 1, i, s =>
    match (s.chan n).reqs[i]? with
    | none => s
    | some e =>
      match e.rq.wr with
      | none => serveRead n i e s
      | some w =>
        match firstIdx (fun x : DQEnt => x.rq.loc == e.rq.loc) ((s.chan n).reqs.take i) with
        | some j => serveAt n f (i - 1) (serveAt n f j s)
        | none => performWrite n i e w s

/-- A row hit of a queued request. -/
def rowHit (s : State) (n : Nat) (q : DQEnt) : Bool :=
  let p := placeOf (orderOf s) (s.chan n) q.rq.loc
  decide (tabFind (bankKey p) (s.chan n).openRow = some p.row)

/-- The oldest read has waited 2 µs. -/
def readAged (s : State) (n : Nat) : Bool := match (s.chan n).rq with
  | e :: _ => decide (e.at_ + 200 ≤ s.time)
  | [] => false

/-- The place of the read served next: the oldest when it has waited 2 µs, else the oldest row hit, else the oldest. -/
def nextRead (s : State) (n : Nat) : Option Nat :=
  let l := (s.chan n).reqs
  let oldest := firstIdx isRead l
  if readAged s n then oldest else (firstIdx (fun e => isRead e && rowHit s n e) l).or oldest

/-- Channel `n` is in self-refresh: by a clock stop, when its accesses wait (Table 13.8), or in PK2 (Table 13.3). -/
def selfRefresh (s : State) (n : Nat) : Bool := decide (tabGet s.pwr.blocks 0 (12 + n) = 1) || decide (s.pwr.pk = 2)

/-- A write-centering update runs (R190). -/
def updating (s : State) (n : Nat) : Bool := decide (s.time < (s.chan n).updTil)

/-- The channel issues requests: it is ready, not in self-refresh, and no update runs. -/
def issues (s : State) (n : Nat) : Bool := decide ((s.chan n).state = 3) && !selfRefresh s n && !updating s n

/-- Writes are drained (R197): 48 wait, or no read does, and on until 16 remain or a read has waited 2 µs. -/
def drains (s : State) (n : Nat) : Bool :=
  let c := s.chan n
  !readAged s n && c.wq ≠ [] && (decide (48 ≤ c.wq.length) || decide (c.rq = []) || (c.drainW && decide (16 < c.wq.length)))

/-- Serve queued requests by the rules until none may be issued. The fuel bounds their number. -/
def serveAll (n : Nat) : Nat → State → State
  | 0, s => s
  | f + 1, s =>
    if issues s n = false then s
    else
      let drain := drains s n
      match (if drain then firstIdx (fun e => !isRead e) (s.chan n).reqs else nextRead s n) with
      | some i => serveAll n f (serveAt n 128 i (s.modChan n fun c => { c with drainW := drain }))
      | none => s

/-- Service starts anew: no read has been answered. -/
def startService (n : Nat) (s : State) : State := s.modChan n fun c => { c with served := [] }

/-- A read that arrives behind a queued write of its line is served from that write at once. -/
def forward (n : Nat) (s : State) : State :=
  let l := (s.chan n).reqs
  match l.getLast? with
  | some e => if issues s n && isRead e && olderWrites (s.chan n) (l.length - 1) e ≠ [] then serveAt n 1 (l.length - 1) s else s
  | none => s

/-- DRAM_REQUEST (R197): accepted into the read or the write queue, then scheduled; a full queue does not accept it. -/
def execDramRequest (n : ChanId) (rq : DramReq) (s : State) : Out := keepQueue s <|
  let c := s.chan n
  if c.state ≠ 3 then done { s with answer := .error }
  else if 64 ≤ (if rq.wr.isNone then c.rq else c.wq).length then done s
  else done (serveAll n 128 (forward n (startService n (s.modChan n fun c => { c with reqs := c.reqs ++ [⟨rq, s.time⟩] }))))

/-- DRAM_READ_AGE_EXPIRE (R197): the oldest waiting read has waited 2 µs and is served before every younger request. -/
def execDramReadAgeExpire (n : ChanId) (s : State) : Out := keepQueue s <|
  match (if issues s n then firstIdx isRead (s.chan n).reqs else none) with
  | some i => done (serveAll n 128 (serveAt n 128 i (startService n s)))
  | none => done s

/-! ### Refresh (R200) -/

/-- A bank key lies in bank index `b` of rank `r`. -/
def keyIn (r b key : Nat) : Bool := decide (key % 4 = b) && decide (key / 32 % 8 = r)

/-- A queued request needs a row that is open in bank index `b` of rank `r`. -/
def hitsWait (s : State) (n r b : Nat) : Bool :=
  let c := s.chan n
  c.reqs.any fun q => keyIn r b (bankKey (placeOf (orderOf s) c q.rq.loc)) && rowHit s n q

/-- At a tREFI boundary TH comes into force, and entries at or above it trigger their neighbour refresh (Table 8.8). -/
def applyTh (c : Chan) : Chan :=
  let overs := c.acts.flatMap fun e => (e.2.filter fun x => decide (c.th.toNat ≤ x.2)).map fun x => (e.1, x.1)
  overs.foldl (fun a x => neighbour x.1 x.2 a) { c with thF := c.th }

/-- REFSB_DUE (R200): issued when every bank of the index is idle or without a waiting hit; else postponed, up to four times. -/
def execRefsbDue (n : ChanId) (rank : Fin 8) (bank : Fin 4) (s : State) : Out := keepQueue s <|
  if (s.chan n).state ≠ 3 ∨ selfRefresh s n = true then done s
  else
    let s1 := s.modChan n applyTh
    let k := 4 * rank.val + bank.val
    let p := tabGet (s1.chan n).postp 0 k
    if hitsWait s1 n rank bank && decide (p < 4) then done (s1.modChan n fun c => { c with postp := tabSet c.postp 0 k (p + 1) })
    else done (s1.modChan n fun c => { c with
      postp := tabSet c.postp 0 k 0
      openRow := c.openRow.filter fun e => !keyIn rank bank e.1
      raa := (c.raa.map fun e => if keyIn rank bank e.1 then (e.1, e.2 - raaOf c rank) else e).filter fun e => e.2 ≠ 0 })

/-- DIMM_TEMP_SAMPLE (R200, Tables 8.2, 8.10): every 16 ms; nothing answers: TEMP reads 0 and tREFI stays short. -/
def execDimmTempSample (n : ChanId) (t : Option (BitVec 8)) (s : State) : Out := keepQueue s <|
  match t with
  | none => done (s.modChan n fun c => { c with temp := 0, fast := true })
  | some v =>
    let hot := decide (95 < v.toNat)
    let c := s.chan n
    let s1 := s.modChan n fun c => { c with temp := v, fast := decide (85 < v.toNat), hotRec := hot }
    if hot && !c.hotRec then done (report (mkReport (0x4000 + n) 0 0x031 false 8 (leBytes 1 n ++ leBytes 1 v.toNat)) s1) else done s1

/-- ACT_TABLE_CLEAR (R201): every 32 ms all entries of every table are cleared. -/
def execActTableClear (s : State) : Out := keepQueue s <|
  done ((upto 12).foldl (fun a n => a.modChan n fun c => { c with acts := [] }) s)

/-- PATROL_SCRUB_READ (R207): the next line of the pass, read as R206 describes; not during a power-fail drain, nor an update of the
channel (R190). -/
def execPatrolScrubRead (n : ChanId) (err : List SymErr) (s : State) : Out := keepQueue s <|
  let c := s.chan n
  if !s.dram.scrubEn || !issues s n || s.pls.pf then done s
  else
    let lines := c.cap.toNat * 0x1000000
    let s0 := s.modChan n (openFor (placeOf (orderOf s) c c.scrubPos))
    let s1 := match dramPhys s n (64 * c.scrubPos) with
      | some a => eccRead n (a / 64) (eccOf c err) s0
      | none => eccLocal n c.scrubPos (eccOf c err) s0
    done (s1.modChan n fun c => { c with scrubPos := if lines ≤ c.scrubPos + 1 then 0 else c.scrubPos + 1 })

/-! ### Registers (Tables 8.2, 8.4, 8.8, 8.9) -/

def rdChStat (s : State) (n : Nat) : Word :=
  let c := s.chan n
  let rate := if c.state = 2 ∨ c.state = 3 then c.rate else 0
  cat [at_ 60 c.state, at_ 56 c.cause, at_ 48 rate, at_ 40 c.temp, at_ 30 c.cap, at_ 24 c.dpc, at_ 20 c.lranks, at_ 18 c.width, at_ 16 c.dens]
def rdChRh (s : State) (n : Nat) : Word :=
  let c := s.chan n
  cat [at_ 32 c.nref, on 18 c.rhMode, at_ 16 c.blast, at_ 0 c.th]
/-- Every DIMM of the channel reports DRFM support. -/
def drfmOk (c : Chan) : Bool := c.spd.dimms ≠ [] && c.spd.dimms.all (·.drfm)
def wrChRh (n : Nat) (v : Word) (s : State) : State :=
  s.modChan n fun c =>
    let b := fld v 16 2
    let t := fld v 0 16
    { c with
      nref := fld v 32 32
      rhMode := if bit v 18 && !drfmOk c then c.rhMode else bit v 18
      blast := if b = 1 ∨ b = 2 then b else c.blast
      th := if 256 ≤ t.toNat ∧ t.toNat ≤ 16384 then t else c.th }
def rdChEcc (s : State) (n : Nat) : Word := cat [at_ 32 (s.chan n).uecnt, at_ 0 (s.chan n).cecnt]
def wrChEcc (n : Nat) (v : Word) (s : State) : State :=
  s.modChan n fun c => { c with uecnt := fld v 32 32, cecnt := fld v 0 32, ceBase := fld v 0 32 }
def rdChErraddr (s : State) (n : Nat) : Word := cat [on 63 (s.chan n).eaV, on 62 (s.chan n).eaUe, at_ 0 (s.chan n).eaLine]
def wrChErraddr (n : Nat) (v : Word) (s : State) : State :=
  s.modChan n fun c => { c with eaV := c.eaV && !bit v 63 }
def rdScrub (s : State) : Word := cat [on 63 s.dram.scrubEn, at_ 0 s.dram.scrubPer]
def wrScrub (v : Word) (s : State) : State :=
  let p := fld v 0 8
  let ok := decide (1 ≤ p.toNat ∧ p.toNat ≤ 168)
  let s1 := s.modDram fun d => { d with scrubEn := bit v 63, scrubPer := if ok then p else d.scrubPer }
  if ok ∧ p ≠ s.dram.scrubPer then (upto 12).foldl (fun a n => a.modChan n fun c => { c with scrubPos := 0 }) s1 else s1
def rdDramTop (s : State) : Word := at_ 0 s.dram.top

/-! ### CXL memory (R209 to R213) -/

def State.link (s : State) (t : Nat) : PLink := tabGet s.pcie.links PLink.reset t
def State.modLink (s : State) (t : Nat) (f : PLink → PLink) : State :=
  { s with pcie := { s.pcie with links := tabSet s.pcie.links PLink.reset t (f (tabGet s.pcie.links PLink.reset t)) } }
def State.dec (s : State) (k : Nat) : CxlDec := tabGet s.dram.decs CxlDec.reset k
def State.setDec (s : State) (k : Nat) (v : CxlDec) : State := s.modDram fun d => { d with decs := tabSet d.decs CxlDec.reset k v }

/-- The targets that a decoder uses. -/
def decTargets (d : CxlDec) : List Nat := (upto (2 ^ d.iw.toNat)).map fun i => d.target.toNat / 32 ^ i % 32
/-- A root port that supports CXL. -/
def cxlPort (t : Nat) : Bool := let p := t / 4
  p == 0 || p == 1 || p == 3 || p == 4

/-- A commit is accepted (R211). -/
def commitOk (s : State) (k : Nat) (d : CxlDec) : Bool :=
  let lo := d.base.toNat
  let hi := d.limit.toNat
  decide (0x8000 ≤ lo ∧ hi < 0xC000 ∧ lo ≤ hi) && decide ((hi + 1 - lo) % 2 ^ d.iw.toNat = 0) &&
  !(s.dram.decs.any fun e => e.1 != k && e.2.commit && decide (e.2.base.toNat ≤ hi ∧ lo ≤ e.2.limit.toNat)) &&
  (decTargets d).all (fun t => cxlPort t && (s.link t).up && (s.link t).cxl) && featOn s 7

/-- Isolation of a link ends when it has been retrained and no committed decoder targets its port; what its lines hold is then
open (R213). -/
def endIsoOne (t : Nat) (s : State) : State :=
  let used := s.dram.decs.any fun e => e.2.commit && (decTargets e.2).any fun u => u / 4 == t / 4
  if s.dram.cxlIso.getLsbD t && s.dram.cxlRetr.getLsbD t && !used then
    (s.modDram fun d => { d with
      cxlIso := setBit d.cxlIso t false, cxlRetr := setBit d.cxlRetr t false, cxlOpen := tabInsert t s.free d.cxlOpen
      cxlDef := d.cxlDef.filter fun x => x.1 ≠ t }).draw
  else s
def endIsolation (s : State) : State := (upto 20).foldl (fun a t => endIsoOne t a) s

/-- VEST.CXL.DEC[k].RANGE (Table 8.11, R211). -/
def rdCxlRange (s : State) (k : Nat) : Word :=
  let d := s.dec k
  cat [on 63 d.commit, at_ 60 d.iw, at_ 57 d.ig, on 56 (d.err ≠ 0), at_ 32 d.limit, at_ 0 d.base]
def wrCxlRange (k : Nat) (v : Word) (s : State) : State :=
  let d := s.dec k
  if d.commit then
    if bit v 63 then s
    else endIsolation ((s.setDec k { d with commit := false }).modDram fun r => { r with recalls := r.recalls ++ [d] })
  else
    let iw := fld v 60 3
    let ig := fld v 57 3
    let d1 := { d with
      iw := if iw.toNat < 4 then iw else d.iw, ig := if ig = 7 then d.ig else ig, limit := fld v 32 24, base := fld v 0 24 }
    if bit v 63 then
      if iw.toNat < 4 && decide (ig ≠ 7) && commitOk s k d1 then s.setDec k { d1 with commit := true, err := 0 }
      else s.setDec k { d with err := 1 }
    else s.setDec k d1
/-- VEST.CXL.DEC[k].TGT. -/
def rdCxlTgt (s : State) (k : Nat) : Word := at_ 0 (s.dec k).target
def wrCxlTgt (k : Nat) (v : Word) (s : State) : State :=
  let d := s.dec k
  if d.commit || !((upto 8).all fun i => cxlPort ((fld v 0 40).toNat / 32 ^ i % 32)) then s else s.setDec k { d with target := fld v 0 40 }

/-- CXL_DEC_COMMIT and CXL_DEC_DECOMMIT (R211): a write of RANGE with COMMIT set, or clear. -/
def execCxlDecCommit (who : Agent) (k : Fin 16) (v : BitVec 64) (s : State) : Out := keepQueue s <| sentBy who s <| done (wrCxlRange k v s)
def execCxlDecDecommit (who : Agent) (k : Fin 16) (v : BitVec 64) (s : State) : Out := keepQueue s <| sentBy who s <| done (wrCxlRange k (v &&& 0x7FFFFFFFFFFFFFFF) s)

/-- Recall every cached line that passes `f` from every cache, writing dirty data to its home or device. -/
def recallLines (f : Nat → Bool) (s : State) : State := ((s.coh.dir.map fun e => e.2.line).filter f).foldl (fun a n => dirEvict n a) s

/-- Recall the lines of an address range, and those of a decoder. -/
def recallRange (lo hi : Nat) (s : State) : State := recallLines (fun n => decide (lo ≤ 64 * n ∧ 64 * n < hi)) s
def recallDec (d : CxlDec) (s : State) : State := recallLines (fun n => decHas (64 * n) d) s

/-- CXL_RECALL_DONE (R211): the recalls of the cleared decoders end, and BUSY returns to 0. -/
def execCxlRecallDone (s : State) : Out := keepQueue s <|
  let s1 := s.dram.recalls.foldl (fun a d => recallDec d a) s
  done (s1.modDram fun d => { d with recalls := [] })

/-- A port enters CXL.mem isolation on a link (R213), with one record. -/
def isolate (t kind : Nat) (s : State) : State :=
  if s.dram.cxlIso.getLsbD t then s
  else
    report (mkReport (0x5000 + t) 3 0x032 false 8 (leBytes 1 (t / 4) ++ leBytes 1 (t % 4) ++ leBytes 1 kind))
      (s.modDram fun d => { d with cxlIso := setBit d.cxlIso t true, cxlRetr := setBit d.cxlRetr t false })

/-- A link that carries CXL memory. -/
def cxlLink (s : State) (t : Nat) : Bool := cxlPort t && decide (t < 20) && ((s.link t).cxl || s.dram.decs.any fun e => e.2.commit && (decTargets e.2).contains t)

/-- CXL_MEM_TIMEOUT: a CXL.mem request through the link is not answered within CXL_TMO. -/
def execCxlMemTimeout (p : PortId) (l : LinkId) (s : State) : Out := keepQueue s <|
  let t := 4 * p.val + l.val
  if cxlLink s t then done (isolate t 0 s) else done s

/-- CXL_LINK_DOWN (R213). -/
def execCxlLinkDown (p : PortId) (l : LinkId) (s : State) : Out := keepQueue s <|
  let t := 4 * p.val + l.val
  let s1 := s.modLink t fun k => { k with up := false }
  if cxlLink s t then done (isolate t 1 s1) else done s1

/-- An isolated link has been retrained (R213). -/
def cxlRetrained (t : Nat) (s : State) : State :=
  if s.dram.cxlIso.getLsbD t then endIsolation (s.modDram fun d => { d with cxlRetr := setBit d.cxlRetr t true }) else s

/-- VEST.CXL.CFG (Table 8.12). ISO has a bit for each link 4p + l of ports 0, 1 and 3; port 4's links lie above the field. -/
def rdCxlCfg (s : State) : Word := cat [on 63 (s.dram.recalls ≠ []), at_ 32 (s.dram.cxlIso.setWidth 16), at_ 0 s.dram.cxlTmo]
def wrCxlCfg (v : Word) (s : State) : State :=
  let t := fld v 0 10
  if 1 ≤ t.toNat ∧ t.toNat ≤ 1000 then s.modDram fun d => { d with cxlTmo := t } else s

end Sys2Proof.Machine
end

