-- ==== Sys2Proof/Machine/Access.lean ====
section
/-! DEFINITION. The physical address map (01 R29 to R32), and the world and domain checks of a request (03 R73, R77; 01 R36). -/

namespace Sys2Proof.Machine

/-- What an address reaches (Tables 1.7, 1.8, R31, Table 17.2). -/
inductive Region where
  | bootRom
  | sram
  /-- Vest MMIO by offset from 0x0800_0000. -/
  | vestMmio (off : Nat)
  /-- ECAM of a root port, by offset in its 16 MiB. -/
  | ecam (p off : Nat)
  | slvMmio (k off : Nat)
  | scratch (k way off : Nat)
  /-- An interrupt file of a hart (0 machine, 1 supervisor, 1 + g guest) and the offset in its page. -/
  | imsic (h file off : Nat)
  | pcie (p : Nat)
  | dram
  | cxl
  | reserved
deriving DecidableEq, Repr

/-- The IMSIC file at an offset from 0x6000_0000 (R31). -/
def imsicAt (o : Nat) : Option (Nat × Nat × Nat) :=
  if o < 0x3C0000 then some (o / 0x1000, 0, o % 0x1000)
  else if 0x400000 ≤ o ∧ o < 0x2200000 then
    let x := o - 0x400000
    some (x / 0x8000, 1 + x % 0x8000 / 0x1000, x % 0x1000)
  else none

/-- The region of an address, with R30's reserved cases: DRAM above TOP, unmapped CXL, the window of a Sleeve that is not
present, a way that is not converted, the file pages of an absent hart. -/
def regionOf (s : State) (a : Nat) : Region :=
  if a < 0x40000 then .bootRom
  else if a < 0x1000000 then .reserved
  else if a < 0x2000000 then .sram
  else if a < 0x8000000 then .reserved
  else if a < 0x20000000 then
    if 0x14000000 ≤ a ∧ a < 0x1A000000 then .ecam ((a - 0x14000000) / 0x1000000) ((a - 0x14000000) % 0x1000000)
    else .vestMmio (a - 0x8000000)
  else if a < 0x50000000 then
    let k := (a - 0x20000000) / 0x4000000
    let o := (a - 0x20000000) % 0x4000000
    if slvPresent s k = false then .reserved
    else if o < 0x1000000 then .slvMmio k o
    else match scratchOf a with
      | some x => if (s.slv k).scr.getLsbD (15 - x.2.1) && decide (x.2.1 < (s.slv k).count.toNat) then .scratch k x.2.1 x.2.2 else .reserved
      | none => .reserved
  else if a < 0x60000000 then .reserved
  else if a < 0x80000000 then
    match imsicAt (a - 0x60000000) with
    | some x => if hartPresent s x.1 then .imsic x.1 x.2.1 x.2.2 else .reserved
    | none => .reserved
  else if a < 0x100000000 then
    if (a - 0x80000000) / 0x10000000 < 6 then .pcie ((a - 0x80000000) / 0x10000000) else .reserved
  else if a < 0x60100000000 then (if s.dram.mapLock && decide (a < s.dram.top.toNat) then .dram else .reserved)
  else if a < 0x80000000000 then .reserved
  else if a < 0xC0000000000 then (if (cxlTarget s a).isSome then .cxl else .reserved)
  else if a < 0x100000000000 then
    if (a - 0xC0000000000) / 0x8000000000 < 6 then .pcie ((a - 0xC0000000000) / 0x8000000000) else .reserved
  else .reserved

/-- Cacheable main memory in Tables 1.7 and 1.8. -/
def cacheable : Region → Bool
  | .bootRom | .sram | .scratch .. | .dram | .cxl => true
  | _ => false

/-- A page-table walk may read the region (Table 1.7, Walk). -/
def walkable : Region → Bool
  | .scratch .. | .dram | .cxl => true
  | _ => false

/-- The Walk column of Tables 1.7 and 1.8: the DRAM and CXL regions and the scratch windows, whatever is installed, mapped or
converted there. -/
def walkColumn (a : Nat) : Bool :=
  decide (0x100000000 ≤ a ∧ a < 0x60100000000) || decide (0x80000000000 ≤ a ∧ a < 0xC0000000000) || (scratchOf a).isSome

/-- Secure addresses: the boot ROM, the secure SRAM, the secure page, and DRAM below the Hem (Table 3.7). -/
def secureAddr (s : State) (a : Nat) : Bool :=
  match regionOf s a with
  | .bootRom | .sram => true
  | .vestMmio o => decide (o < 0x100000)
  | .dram => decide (a < hemOf s)
  | _ => false

/-- A secure agent that Table 3.9 lists for the partition of a secure SRAM address. Once the monitor is ready its partition is
write-protected against the Cloak processor (15 R379, step 5). -/
def sramAgent (s : State) (who : Agent) (a : Nat) (write : Bool) : Bool :=
  let o := a - 0x1000000
  match who with
  | .cloak => !(write && s.boot.monrdy && decide (0x200000 ≤ o ∧ o < 0x800000))
  | .hart _ => decide (0x200000 ≤ o ∧ o < 0x800000) || (decide (0x800000 ≤ o ∧ o < 0xC00000) && !write)
  | .pocket => decide (0x800000 ≤ o ∧ o < 0xC00000)
  | .media => decide (0xC00000 ≤ o)
  | _ => false

/-- The domain check of R36, for a request of a hart in domain `d`. -/
def domainOk (s : State) (d a : Nat) : Bool :=
  if multiDom s then
    match regionOf s a with
    | .dram => decide (a < hemOf s) || memDomain s a == some d
    | .cxl => memDomain s a == some d
    | .slvMmio k _ | .scratch k _ _ => domainOf s k == d
    | _ => true
  else true

/-- The domain that checks a requester (R36): a hart's; other agents are not checked. -/
def agentDomain (s : State) : Agent → Option Nat
  | .hart h => some (domainOf s (hartSleeve h))
  | _ => none

/-- Whether a request is refused, and with which kind (Table 16.4, UCS): a reserved region, the world, the domain. -/
def refusal (s : State) (who : Agent) (sec write : Bool) (a : Nat) : Option UcsKind :=
  let r := regionOf s a
  if r = .reserved then some .reserved
  else if r = .bootRom ∧ write = true then some .reserved
  else if secureAddr s a && !sec then some .world
  else if decide (r = .sram) && !sramAgent s who a write then some .world
  else match agentDomain s who with
    | some d => if domainOk s d a then none else some .domain
    | none => none

/-! ### Coherent accesses of agents that cache nothing -/

/-- The current contents of a line of main memory: from its owner, or from memory (RdCur; a scratch-window line at its slice). -/
def curLine (s : State) (n : Nat) : LineData × Bool :=
  match scratchSlv n with
  | some k => (match ownerCore s k n with
    | some x => (x.2.data, x.2.poison)
    | none => (memLine s n, linePoison s n))
  | none => readCur s n

/-- Write bytes of a line at its home: every cached copy goes first, dirty data having returned. A slice gains ownership of a
scratch-window line from its own cores (R126). -/
def putLine (n : Nat) (mask : BitVec 64) (d : LineData) (p : Bool) (s : State) : State :=
  match scratchSlv n with
  | some k =>
    let s1 := match ownerCore s k n with
      | some x => if x.2.st = .M then memPut n x.2.data x.2.poison s else s
      | none => s
    writeAt n mask d p (clearResv n none (slvDrop k n s1))
  | none => writeHome n mask d p s

/-- The lines that `len` bytes from address `a` touch. -/
def linesOf (a len : Nat) : List Nat := if len = 0 then [] else (upto ((a + len - 1) / 64 - a / 64 + 1)).map (a / 64 + ·)

/-- Read bytes coherently, with whether any line is poisoned. -/
def cohRead (s : State) (a len : Nat) : List Byte × Bool :=
  ((upto len).map fun i => (curLine s ((a + i) / 64)).1.extractLsb' (8 * ((a + i) % 64)) 8, (linesOf a len).any fun n => (curLine s n).2)

/-- Write bytes coherently, poisoned or not. -/
def cohWrite (a : Nat) (l : List Byte) (p : Bool) (s : State) : State :=
  (linesOf a l.length).foldl (fun st n =>
    let inL (i : Nat) : Bool := decide (a ≤ 64 * n + i ∧ 64 * n + i < a + l.length)
    putLine n (maskOf 64 inL) (lineOfBytes ((upto 64).map fun i => if inL i then l.getD (64 * n + i - a) 0 else 0)) p st) s

/-- A refused request of an agent that is no hart: an error completion and a record (R30, R73). -/
def refuse (who : Agent) (k : UcsKind) (a : Nat) (s : State) : State :=
  { reportUcs who k a (secureAddr s a) s with answer := .error }

end Sys2Proof.Machine
end

