-- ==== Sys2Proof/Machine/HartCsr.lean ====
section
/-! DEFINITION. The control and status registers of a hart (02 R41, R42, R55 to R59; 03 Table 3.2; 04 R86 to R88, R98; 05 R108),
its interrupts, traps and returns (03 R66 to R70). The registers of the RISC-V specifications follow those specifications. -/

namespace Sys2Proof.Machine

/-! ### Storage of CSRs -/

/-- What a CSR number reads as before it is written: mstatus, hstatus and vsstatus with 64-bit lower modes; ubxcctl (Table 5.3);
dcsr with debug version 4; zero otherwise. -/
def csrReset (n : Nat) : Word :=
  if n = 0x300 then 0xA00000000
  else if n = 0x600 ∨ n = 0x200 then 0x200000000
  else if n = 0x7C0 then 0xFFFFFF0C
  else if n = 0x7B0 then 0x40000003
  else 0

/-- A stored CSR of a hart. -/
def Hart.c (x : Hart) (n : Nat) : Word := tabGet x.csr (csrReset n) n
def Hart.setC (x : Hart) (n : Nat) (v : Word) : Hart := { x with csr := tabSet x.csr (csrReset n) n v }
/-- Replace the bits of a mask. -/
def Hart.maskC (x : Hart) (n : Nat) (m v : Word) : Hart := x.setC n ((x.c n &&& ~~~m) ||| (v &&& m))

/-- A general register; x0 reads as zero and discards writes. -/
def Hart.gx (x : Hart) (r : XReg) : Word := if r.val = 0 then 0 else tabGet x.x 0 r.val
def Hart.setX (x : Hart) (r : XReg) (v : Word) : Hart := if r.val = 0 then x else { x with x := tabSet x.x 0 r.val v }
/-- A floating-point register. -/
def Hart.fx (x : Hart) (r : XReg) : Word := tabGet x.f 0 r.val
def Hart.setF (x : Hart) (r : XReg) (v : Word) : Hart := { x with f := tabSet x.f 0 r.val v }

/-! ### Interrupt files and pending interrupts (R31, R42) -/

/-- The lowest pending and enabled identity of a file within its threshold, 0 for none: what the top-of-file registers report,
whether or not the file delivers. -/
def imsicBest (x : Hart) (file : Nat) : Nat :=
  let g := tabGet x.imsic ImsicFile.reset file
  (((upto 256).drop 1).find? fun i => (g.pend &&& g.en).getLsbD i && (g.thresh == 0 || decide (i < g.thresh.toNat))).getD 0

/-- The identity that a file delivers to its hart. -/
def imsicTop (x : Hart) (file : Nat) : Nat := if (tabGet x.imsic ImsicFile.reset file).deliv = 1 then imsicBest x file else 0

/-- hstatus.VGEIN: the guest file of the current guest, 0 for none. -/
def vgein (x : Hart) : Nat := (fld (x.c 0x600) 12 6).toNat

/-- hgeip: the guest files with an interrupt. -/
def hgeip (x : Hart) : Word := cat ((upto 7).map fun g => on (g + 1) (imsicTop x (2 + g) ≠ 0))

/-- mip. -/
def mipOf (x : Hart) : Word :=
  let soft := x.c 0x344
  let hv := x.c 0x645
  cat [on 1 (bit soft 1), on 2 (bit hv 2), on 5 (bit soft 5), on 6 (bit hv 6), on 7 x.mtip,
    on 9 (bit soft 9 || decide (imsicTop x 1 ≠ 0)),
    on 10 (bit hv 10 || (decide (vgein x ≠ 0) && decide (imsicTop x (1 + vgein x) ≠ 0))),
    on 11 (decide (imsicTop x 0 ≠ 0)), on 12 (decide (hgeip x &&& x.c 0x607 ≠ 0))]

/-- mideleg: the VS-level interrupts and SGEI are always delegated. -/
def midelegOf (x : Hart) : Word := (x.c 0x303 &&& 0x222) ||| 0x1444
def hidelegOf (x : Hart) : Word := x.c 0x603 &&& 0x444

/-- The default priority order of interrupts. -/
def irqOrder : List Nat := [11, 3, 7, 9, 1, 5, 12, 10, 2, 6]
def firstIrq (w : Word) : Option Nat := irqOrder.find? fun i => bit w i

/-- mstatus.MIE, SIE of a status word, and the two-bit MPP. -/
def mppOf (x : Hart) : BitVec 2 := fld (x.c 0x300) 11 2

/-- The interrupt that the hart takes now, with the mode that takes it: 3 M, 1 HS, 0 VS. While SEC = 1 only those of M-mode
are taken (R68). -/
def takeable (x : Hart) : Option (Nat × Nat) :=
  let p := mipOf x &&& x.c 0x304
  let dm := midelegOf x
  let dh := hidelegOf x
  let m := if x.priv ≠ 3 ∨ bit (x.c 0x300) 3 = true then firstIrq (p &&& ~~~dm) else none
  let h := if x.priv ≠ 3 ∧ x.sec = false ∧ (x.virt = true ∨ x.priv = 0 ∨ bit (x.c 0x300) 1 = true) then firstIrq (p &&& dm &&& ~~~dh) else none
  let v := if x.virt = true ∧ (x.priv = 0 ∨ bit (x.c 0x200) 1 = true) then firstIrq (p &&& dm &&& dh) else none
  match m, h, v with
  | some i, _, _ => some (i, 3)
  | none, some i, _ => some (i, 1)
  | none, none, some i => some (i, 0)
  | none, none, none => none

/-- The value of a top-interrupt CSR (mtopi, stopi, vstopi): identity in bits 27:16, priority 1. -/
def topi (w : Word) (shift : Nat) : Word :=
  match firstIrq w with
  | some i => cat [at_ 16 (BitVec.ofNat 12 (i - shift)), 1]
  | none => 0

/-! ### Reads -/

/-- A status word with SD. -/
def withSd (w : Word) : Word := w ||| on 63 (fld w 13 2 = 3)
def sstatusMask : Word := 0x00000003000DE762

/-- The core number of a hart's CSR ubxcore (Table 2.13). -/
def ubxcore (s : State) (h : Nat) : Word :=
  let b := fuseOf s (hartSleeve h)
  cat [at_ 32 (fuseMaj b), at_ 24 (fuseMin b), at_ 20 (BitVec.ofNat 4 (isaLvl s)), at_ 16 (fuseIsa b), at_ 12 (BitVec.ofNat 4 (hartSleeve h)),
    at_ 7 (BitVec.ofNat 5 (hartCore h % 20)), at_ 5 (BitVec.ofNat 2 (hartThread h))]

/-- The timebase as a hart of a Sleeve reads it (R56, R184). -/
def timeOf (s : State) (h : Nat) : Word :=
  let c := s.cuff (hartSleeve h)
  BitVec.ofInt 64 (max (s.time + c.tbOff) c.tbMin)

/-- pmpaddr i as it reads: with a granularity of 4 KiB (Table 2.3). -/
def pmpCfg (x : Hart) (i : Nat) : BitVec 8 := fld (x.c (0x3A0 + i / 8 * 2)) (8 * (i % 8)) 8
def pmpA (x : Hart) (i : Nat) : BitVec 2 := (pmpCfg x i).extractLsb' 3 2
def pmpaddr (x : Hart) (i : Nat) : Word :=
  if pmpA x i = 3 then x.c (0x3B0 + i) ||| 0x1FF else x.c (0x3B0 + i) &&& ~~~(0x3FF : Word)

/-- A register of an interrupt file by indirect number (miselect, siselect, vsiselect). -/
def imsicRead (x : Hart) (file sel : Nat) : Word :=
  let g := tabGet x.imsic ImsicFile.reset file
  if sel = 0x70 then g.deliv
  else if sel = 0x72 then g.thresh
  else if 0x80 ≤ sel ∧ sel ≤ 0xBF then g.pend.extractLsb' (32 * (sel - 0x80)) 64
  else if 0xC0 ≤ sel ∧ sel ≤ 0xFF then g.en.extractLsb' (32 * (sel - 0xC0)) 64
  else 0

/-- A CSR number as an access from V = 1 reaches it (R59): the supervisor registers and the redirected vendor rows. -/
def redirect (virt : Bool) (n : Nat) : Nat :=
  if virt = false then n
  else if n = 0x5C4 then 0x6C4
  else if 0x5D0 ≤ n ∧ n ≤ 0x5DF then n + 0x110
  else if n = 0x100 ∨ n = 0x104 ∨ n = 0x105 ∨ (0x140 ≤ n ∧ n ≤ 0x144) ∨ n = 0x150 ∨ n = 0x151 ∨ n = 0x15C ∨ n = 0x180 then n + 0x100
  else if n = 0xDB0 then 0xEB0
  else n

/-- A trigger of a hart; type 0 before it is written. -/
def Hart.trig (x : Hart) (i : Nat) : Trig := tabGet x.trigs ⟨0, 0, 0⟩ i

/-- The value a CSR reads as, by its number after redirection. -/
def csrRead (s : State) (h n : Nat) : Word :=
  let x := s.hart h
  if n = 0x001 then at_ 0 (fld (x.c 3) 0 5)
  else if n = 0x002 then at_ 0 (fld (x.c 3) 5 3)
  else if n = 0x100 then withSd (x.c 0x300 &&& sstatusMask)
  else if n = 0x200 then withSd (x.c 0x200)
  else if n = 0x300 then withSd (x.c 0x300)
  else if n = 0x301 then 0x80000000009411AD
  else if n = 0x303 then midelegOf x
  else if n = 0x104 then x.c 0x304 &&& midelegOf x &&& 0x222
  else if n = 0x144 then mipOf x &&& midelegOf x &&& 0x222
  else if n = 0x344 then mipOf x
  else if n = 0x309 then x.c 0x344 &&& 0x222
  else if n = 0x604 then x.c 0x304 &&& 0x1444
  else if n = 0x644 then mipOf x &&& 0x1444
  else if n = 0x603 then hidelegOf x
  else if n = 0x204 then (x.c 0x304 &&& hidelegOf x) >>> 1
  else if n = 0x244 then (mipOf x &&& hidelegOf x) >>> 1
  else if n = 0x60A then (if bit (x.c 0x30A) 62 then x.c n else x.c n &&& ~~~(on 62 true))
  else if n = 0xC00 then x.c 0xB00
  else if n = 0xC01 then (if x.virt then timeOf s h + x.c 0x605 else timeOf s h)
  else if 0xC02 ≤ n ∧ n ≤ 0xC1F then x.c (n - 0x100)
  else if n = 0xE12 then hgeip x
  else if n = 0xF12 then 0x8000000000000A20
  else if n = 0xF13 then BitVec.ofNat 64 (isaLvl s)
  else if n = 0xF14 then BitVec.ofNat 64 h
  else if n = 0xFC0 then ubxcore s h
  else if n = 0x5C1 then 0
  else if n = 0x7C3 then cat [on 5 x.scrubL1, on 4 x.scrubItb, on 0 x.sec]
  else if 0x3B0 ≤ n ∧ n ≤ 0x3BF then pmpaddr x (n - 0x3B0)
  else if n = 0x351 then imsicRead x 0 (x.c 0x350).toNat
  else if n = 0x151 then imsicRead x 1 (x.c 0x150).toNat
  else if n = 0x251 then (if vgein x = 0 then 0 else imsicRead x (1 + vgein x) (x.c 0x250).toNat)
  else if n = 0x35C then BitVec.ofNat 64 (imsicBest x 0 * 0x10001)
  else if n = 0x15C then BitVec.ofNat 64 (imsicBest x 1 * 0x10001)
  else if n = 0x25C then (if vgein x = 0 then 0 else BitVec.ofNat 64 (imsicBest x (1 + vgein x) * 0x10001))
  else if n = 0xFB0 then topi (mipOf x &&& x.c 0x304 &&& ~~~(midelegOf x)) 0
  else if n = 0xDB0 then topi (mipOf x &&& x.c 0x304 &&& midelegOf x &&& ~~~(hidelegOf x)) 0
  else if n = 0xEB0 then topi (mipOf x &&& x.c 0x304 &&& hidelegOf x) 1
  else if n = 0x7A1 then (x.trig (x.c 0x7A0).toNat).data1
  else if n = 0x7A2 then (x.trig (x.c 0x7A0).toNat).data2
  else if n = 0x7A3 then (x.trig (x.c 0x7A0).toNat).data3
  else if n = 0x7A4 then 0x0000000001000078
  else x.c n

/-! ### Existence and access checks (R41, R59) -/

/-- The CSRs of the profile (Table 2.2, Table 2.9), by number after redirection. -/
def csrExists (n : Nat) : Bool :=
  [0x001, 0x002, 0x003, 0x100, 0x104, 0x105, 0x106, 0x10A, 0x140, 0x141, 0x142, 0x143, 0x144, 0x150, 0x151, 0x15C, 0x180,
    0xDB0].contains n ||
  [0x200, 0x204, 0x205, 0x240, 0x241, 0x242, 0x243, 0x244, 0x250, 0x251, 0x25C, 0x280, 0xEB0].contains n ||
  [0x600, 0x602, 0x603, 0x604, 0x605, 0x606, 0x607, 0x608, 0x609, 0x60A, 0x643, 0x644, 0x645, 0x646, 0x647, 0x64A, 0x680,
    0xE12].contains n ||
  [0x300, 0x301, 0x302, 0x303, 0x304, 0x305, 0x306, 0x308, 0x309, 0x30A, 0x320, 0x340, 0x341, 0x342, 0x343, 0x344, 0x34A,
    0x34B, 0x350, 0x351, 0x35C, 0xFB0].contains n ||
  [0xF11, 0xF12, 0xF13, 0xF14, 0xF15, 0x3A0, 0x3A2, 0x7A0, 0x7A1, 0x7A2, 0x7A3, 0x7A4, 0x7B0, 0x7B1, 0x7B2, 0x7B3].contains n ||
  [0x5C0, 0x5C1, 0x5C4, 0x6C0, 0x6C4, 0x7C0, 0x7C3, 0x7C4, 0xFC0].contains n ||
  decide (0x3B0 ≤ n ∧ n ≤ 0x3BF) || decide (0x323 ≤ n ∧ n ≤ 0x33F) || decide (0xC00 ≤ n ∧ n ≤ 0xC1F) ||
  decide (0xB02 ≤ n ∧ n ≤ 0xB1F) || n == 0xB00 || decide (0x5D0 ≤ n ∧ n ≤ 0x5DF) || decide (0x6D0 ≤ n ∧ n ≤ 0x6EF)

/-- Why a CSR access does not go ahead. -/
inductive CsrErr where | illegal | virtualInstr
deriving DecidableEq, Repr

/-- An indirect number that reaches a register of the interrupt file (R466): in RV64 the odd numbers of the pending and enable
arrays do not, and 0x71 and 0x73 to 0x7F are reserved registers that read as zero. -/
def selInFile (sel : Nat) : Bool := decide (0x70 ≤ sel ∧ sel ≤ 0xFF) && (decide (sel < 0x80) || sel % 2 == 0)

/-- An indirect number of the major interrupt priorities: those of the even numbers read as zero. -/
def selPrio (sel : Nat) : Bool := decide (0x30 ≤ sel ∧ sel ≤ 0x3F) && sel % 2 == 0

/-- Why an access to an indirect register of a file, by the CSR that the instruction names, does not go ahead: a number that
reaches none; a guest file while VGEIN names none. -/
def fileCheck (x : Hart) (n : Nat) : Option CsrErr :=
  let r := redirect x.virt n
  let bad : Option CsrErr := some (if x.virt then .virtualInstr else .illegal)
  let sel (c : Nat) : Nat := (x.c c).toNat
  if r = 0x351 then (if selInFile (sel 0x350) || selPrio (sel 0x350) then none else some .illegal)
  else if r = 0x151 then (if selInFile (sel 0x150) || selPrio (sel 0x150) then none else some .illegal)
  else if r = 0x251 then (if selInFile (sel 0x250) && decide (vgein x ≠ 0) then none else bad)
  else if r = 0x25C then (if vgein x = 0 then bad else none)
  else none

/-- The check of an access to CSR `n` (as the instruction names it) under the privileged specification and R59; the
debug CSRs are reached in debug mode only. -/
def csrPriv (x : Hart) (n : Nat) (write : Bool) : Option CsrErr :=
  let need := n / 256 % 4
  if csrExists n = false then some .illegal
  else if 0x7B0 ≤ n ∧ n ≤ 0x7B3 ∧ x.halted = false then some .illegal
  else if write && decide (0xC00 ≤ n) then some .illegal
  else if decide (n ≤ 3) && (fld (x.c 0x300) 13 2 == 0 || (x.virt && fld (x.c 0x200) 13 2 == 0)) then some .illegal
  else if 0xC00 ≤ n ∧ n ≤ 0xC1F then
    let i := n - 0xC00
    if x.priv = 3 then none
    else if bit (x.c 0x306) i = false then some .illegal
    else if x.virt = true ∧ bit (x.c 0x606) i = false then some .virtualInstr
    else if x.priv = 0 ∧ bit (x.c 0x106) i = false then some (if x.virt then .virtualInstr else .illegal)
    else none
  else if need = 3 then (if x.priv = 3 then none else some .illegal)
  else if need = 2 then
    if x.virt then some .virtualInstr
    else if x.priv = 0 ∨ (n = 0x680 ∧ x.priv = 1 ∧ bit (x.c 0x300) 20 = true) then some .illegal else none
  else if need = 1 then
    if x.virt then
      (if x.priv = 0 then some .virtualInstr
      else if n = 0x5C0 ∨ n = 0x5C1 then some .virtualInstr
      else if n = 0x180 ∧ bit (x.c 0x600) 20 = true then some .virtualInstr
      else none)
    else if x.priv = 0 then some .illegal
    else if n = 0x180 ∧ x.priv = 1 ∧ bit (x.c 0x300) 20 = true then some .illegal
    else none
  else none

/-- The check of an access to CSR `n`: its privilege, then the file that it reaches. -/
def csrCheck (x : Hart) (n : Nat) (write : Bool) : Option CsrErr := (csrPriv x n write).or (fileCheck x n)

/-! ### Writes -/

/-- A satp, vsatp or hgatp value whose MODE is Bare or the 4-level scheme (R86). -/
def atpOk (v : Word) : Bool := fld v 60 4 == 0 || fld v 60 4 == 9

/-- tvec: MODE 0 or 1. -/
def wrTvec (x : Hart) (n : Nat) (v : Word) : Hart := if (fld v 0 2).toNat ≤ 1 then x.setC n v else x.setC n ((v &&& ~~~3) ||| (x.c n &&& 3))

/-- The hart forgets its L1 translations and fetched bytes (R91). -/
def flushL1Tlb (x : Hart) : Hart := { x with itlb := [], dtlb := [] }

/-- envcfg: FIOM, CBIE (2 is reserved), CBCFE, CBZE, and PBMTE where there is one. A new PBMTE governs the blocks at once (Table
4.2): what the first-level TLBs hold of them goes. -/
def wrEnvcfg (x : Hart) (n : Nat) (pbmte : Bool) (v : Word) : Hart :=
  let m : Word := cat [0xC1, if fld v 4 2 = 2 then 0 else 0x30, on 62 pbmte]
  let y := x.maskC n m v
  if bit (y.c n) 62 = bit (x.c n) 62 then y else flushL1Tlb y

/-- mstatus: MPP 2 is no mode. -/
def wrMstatus (x : Hart) (v : Word) : Hart :=
  x.maskC 0x300 (cat [0x000000C0007E61AA, if fld v 11 2 = 2 then 0 else 0x1800]) v

/-- One byte of pmpcfg (Table 2.3): a locked entry, A = NA4, and W without R leave it unchanged. Table 2.3 says that writing NA4
"leaves pmpcfg unchanged"; the model leaves the entry's byte unchanged and writes the other bytes. DESIGN CHOICE (log 134). -/
def pmpByte (old v : BitVec 8) : BitVec 8 :=
  let v := v &&& 0x9F
  if old.getLsbD 7 then old else if v.extractLsb' 3 2 = 2 then old else if v.getLsbD 1 && !v.getLsbD 0 then old else v
def wrPmpcfg (x : Hart) (n : Nat) (v : Word) : Hart :=
  x.setC n (cat ((upto 8).map fun i => at_ (8 * i) (pmpByte (fld (x.c n) (8 * i) 8) (fld v (8 * i) 8))))
def wrPmpaddr (x : Hart) (i : Nat) (v : Word) : Hart :=
  if (pmpCfg x i).getLsbD 7 then x
  else if decide (i < 15) && (pmpCfg x (i + 1)).getLsbD 7 && pmpA x (i + 1) == 1 then x
  else x.setC (0x3B0 + i) (v &&& 0x003FFFFFFFFFFFFF)

/-- A register of an interrupt file written by indirect number. -/
def imsicWrite (x : Hart) (file sel : Nat) (v : Word) : Hart :=
  let g := tabGet x.imsic ImsicFile.reset file
  let put (g : ImsicFile) : Hart := { x with imsic := tabSet x.imsic ImsicFile.reset file g }
  let half (w : BitVec 256) (k : Nat) : BitVec 256 :=
    maskOf 256 fun i => decide (i ≠ 0) && (if 32 * k ≤ i ∧ i < 32 * k + 64 then v.getLsbD (i - 32 * k) else w.getLsbD i)
  if sel = 0x70 then (if v.toNat ≤ 1 then put { g with deliv := v } else x)
  else if sel = 0x72 then (if v.toNat ≤ 255 then put { g with thresh := v } else x)
  else if 0x80 ≤ sel ∧ sel ≤ 0xBF then put { g with pend := half g.pend (sel - 0x80) }
  else if 0xC0 ≤ sel ∧ sel ≤ 0xFF then put { g with en := half g.en (sel - 0xC0) }
  else x

/-- A write to a top-of-file CSR claims the identity that it reports. -/
def imsicClaim (x : Hart) (file : Nat) : Hart :=
  let g := tabGet x.imsic ImsicFile.reset file
  if imsicBest x file = 0 then x
  else { x with imsic := tabSet x.imsic ImsicFile.reset file { g with pend := setBit g.pend (imsicBest x file) false } }

/-- A block attribute register (Table 4.2): PBMT 3, FA while the feature is absent, and W without R are reserved (R88). -/
def wrBlk (s : State) (g : Bool) (x : Hart) (n : Nat) (v : Word) : Hart :=
  let m : Word := cat [0x0000FFFFFFFF0001, if g then 0x0003000000000000 else 0x10,
    if fld v 61 2 = 3 then 0 else 0x6000000000000000, if featOn s 0 || !bit v 60 then on 60 true else 0,
    if bit v 2 && !bit v 1 then 0 else 0xE]
  x.maskC n m v

/-- A block output register (Table 4.3): bits 35:34 are reserved in the VS stage. -/
def wrBlkpa (vs : Bool) (x : Hart) (n : Nat) (v : Word) : Hart :=
  x.maskC n (if vs then 0xFFFFFF03FFFFFFFF else 0xFFFFFF0FFFFFFFFF) v

/-- A walk-fault register (Table 4.5): STAGE 3 is a reserved encoding. -/
def wrWalk (x : Hart) (n : Nat) (v : Word) : Hart :=
  x.maskC n (cat [0xCFF9FFFFFFFFFFFF, if fld v 60 2 = 3 then 0 else 0x3000000000000000]) v

/-- mcontrol6 and the other types of Table 18.5: a tdata1 of an unsupported type disables the trigger (type 15). A trigger that debug
mode has taken (dmode) is written in debug mode alone. -/
def wrTrig (x : Hart) (k : Nat) (v : Word) : Hart :=
  let i := (x.c 0x7A0).toNat
  let o := x.trig i
  let t := (fld v 60 4).toNat
  let w : Word := if x.halted then v else v &&& ~~~(on 59 true)
  let d1 : Word := if t = 6 ∨ t = 3 ∨ t = 4 ∨ t = 5 then w else 0xF000000000000000
  let n : Trig := if k = 1 then { o with data1 := d1 } else if k = 2 then { o with data2 := v } else { o with data3 := v }
  if bit o.data1 59 && !x.halted then x else { x with trigs := tabSet x.trigs ⟨0, 0, 0⟩ i n }

/-- Writes of the harts' registers with no effect outside the hart, by number after redirection. ubxbpc and ubxbpkey are
written through `wrBpc` and `wrBpkey`. -/
def csrWrite (s : State) (x : Hart) (n : Nat) (v : Word) : Hart :=
  if n = 0x001 then x.maskC 3 0x1F v
  else if n = 0x002 then x.maskC 3 0xE0 (v <<< 5)
  else if n = 0x003 then x.maskC 3 0xFF v
  else if n = 0x100 then x.maskC 0x300 0x00000000000C6122 v
  else if n = 0x200 then x.maskC 0x200 0x00000000000C6122 v
  else if n = 0x300 then wrMstatus x v
  else if n = 0x302 then x.maskC n 0xF0B7FF v
  else if n = 0x602 then x.maskC n 0xB1FF v
  else if n = 0x303 then x.maskC n 0x222 v
  else if n = 0x603 then x.maskC n 0x444 v
  else if n = 0x304 then x.maskC n 0x1EE6 v
  else if n = 0x104 then x.maskC 0x304 (midelegOf x &&& 0x222) v
  else if n = 0x604 then x.maskC 0x304 0x1444 v
  else if n = 0x204 then x.maskC 0x304 (hidelegOf x) (v <<< 1)
  else if n = 0x344 then (x.maskC 0x344 0x222 v).maskC 0x645 0x4 v
  else if n = 0x309 then x.maskC 0x344 0x222 v
  else if n = 0x144 then x.maskC 0x344 (midelegOf x &&& 0x2) v
  else if n = 0x644 then x.maskC 0x645 0x4 v
  else if n = 0x645 then x.maskC 0x645 0x444 v
  else if n = 0x244 then x.maskC 0x645 (hidelegOf x &&& 0x4) (v <<< 1)
  else if n = 0x607 then x.maskC n 0xFE v
  else if n = 0x600 then x.maskC n (cat [0x7003C0, if (fld v 12 6).toNat ≤ 7 then 0x3F000 else 0]) v
  else if n = 0x305 ∨ n = 0x105 ∨ n = 0x205 then wrTvec x n v
  else if n = 0x341 ∨ n = 0x141 ∨ n = 0x241 then x.setC n (v &&& ~~~1)
  else if n = 0x306 ∨ n = 0x106 ∨ n = 0x606 then x.maskC n 0x7FF v
  else if n = 0x320 then x.maskC n 0x7FD v
  else if 0x323 ≤ n ∧ n ≤ 0x32A then (if (fld v 0 8).toNat ≤ 0xB then x.setC n (v &&& 0xFF) else x)
  else if 0x32B ≤ n ∧ n ≤ 0x33F then x
  else if 0xB0B ≤ n ∧ n ≤ 0xB1F then x
  else if n = 0x30A then wrEnvcfg x n true v
  else if n = 0x10A then wrEnvcfg x n false v
  else if n = 0x60A then wrEnvcfg x n (bit (x.c 0x30A) 62) v
  else if n = 0x180 ∨ n = 0x280 then (if atpOk v then x.setC n v else x)
  else if n = 0x680 then (if atpOk v then x.setC n (v &&& 0xF0FFFFFFFFFFFFFC) else x)
  else if n = 0x3A0 ∨ n = 0x3A2 then wrPmpcfg x n v
  else if 0x3B0 ≤ n ∧ n ≤ 0x3BF then wrPmpaddr x (n - 0x3B0) v
  else if n = 0x350 ∨ n = 0x150 ∨ n = 0x250 then x.setC n (v &&& 0xFFF)
  else if n = 0x351 then imsicWrite x 0 (x.c 0x350).toNat v
  else if n = 0x151 then imsicWrite x 1 (x.c 0x150).toNat v
  else if n = 0x251 then (if vgein x = 0 then x else imsicWrite x (1 + vgein x) (x.c 0x250).toNat v)
  else if n = 0x35C then imsicClaim x 0
  else if n = 0x15C then imsicClaim x 1
  else if n = 0x25C then (if vgein x = 0 then x else imsicClaim x (1 + vgein x))
  else if n = 0x6C0 then x.setC n (v &&& 0xFFF)
  else if n = 0x7C0 then x.maskC n (cat [0xFFFF000C, if fld v 8 8 = 0 then 0 else 0xFF00]) v
  else if n = 0x7C3 then (if x.sec then { x with scrubL1 := bit v 5, scrubItb := bit v 4 } else x)
  else if n = 0x5C4 ∨ n = 0x6C4 ∨ n = 0x7C4 then wrWalk x n v
  else if (0x5D0 ≤ n ∧ n ≤ 0x5D7) ∨ (0x6E0 ≤ n ∧ n ≤ 0x6E7) then flushL1Tlb (wrBlk s false x n v)
  else if 0x6D0 ≤ n ∧ n ≤ 0x6D7 then flushL1Tlb (wrBlk s true x n v)
  else if (0x5D8 ≤ n ∧ n ≤ 0x5DF) ∨ (0x6D8 ≤ n ∧ n ≤ 0x6DF) then flushL1Tlb (wrBlkpa false x n v)
  else if 0x6E8 ≤ n ∧ n ≤ 0x6EF then flushL1Tlb (wrBlkpa true x n v)
  else if n = 0x7A0 then (if v.toNat < 4 then x.setC n v else x)
  else if 0x7A1 ≤ n ∧ n ≤ 0x7A3 then wrTrig x (n - 0x7A0) v
  else if n = 0x7A4 ∨ n = 0x301 ∨ n = 0x308 ∨ (0x608 ≤ n ∧ n ≤ 0x609) ∨ n = 0x646 ∨ n = 0x647 then x
  else if n = 0x7B0 then x.maskC n 0x0003BE17 v
  else if 0xC00 ≤ n then x
  else x.setC n v

/-! ### Counters (R55, R58, R65) -/

/-- Count `n` occurrences of a performance event: not while SEC = 1, nor in an inhibited counter. -/
def countEvent (h code n : Nat) (s : State) : State :=
  let x := s.hart h
  if x.sec ∨ n = 0 then s
  else s.setHart h ((upto 8).foldl (fun (a : Hart) i =>
    if (x.c (0x323 + i)).toNat = code ∧ bit (x.c 0x320) (3 + i) = false then a.setC (0xB03 + i) (a.c (0xB03 + i) + BitVec.ofNat 64 n) else a) x)

/-- Instructions retire (R55): minstret counts them, not while SEC = 1 (R65) nor while inhibited. -/
def countInst (n : Nat) (x : Hart) : Hart :=
  if x.sec || bit (x.c 0x320) 2 then x else x.setC 0xB02 (x.c 0xB02 + BitVec.ofNat 64 n)

/-- The mode bits of a trigger word that a mode needs: VS, VU, M, S, U at the given places. -/
def trigMode (w : Word) (vs vu m sm u : Nat) (virt : Bool) (priv : BitVec 2) : Bool :=
  if virt then bit w (if priv = 0 then vu else vs) else if priv = 3 then bit w m else if priv = 0 then bit w u else bit w sm

/-- The icount triggers of a hart count one instruction (Table 18.5): the last count sets the pending bit. -/
def icountStep (x : Hart) : Hart :=
  { x with trigs := x.trigs.map fun e =>
      let d := e.2.data1
      let n := fld d 10 14
      if fld d 60 4 = 3 ∧ n ≠ 0 ∧ bit d 8 = false ∧ trigMode d 26 25 9 7 6 x.virt x.priv = true then
        (e.1, { e.2 with data1 := (d &&& ~~~(0xFFFC00 : Word)) ||| at_ 10 (n - 1) ||| on 8 (n = 1) })
      else e }

/-- The hart's instruction retires: the program counter passes it. -/
def retire (h len : Nat) (s : State) : State :=
  s.modHart h fun x =>
    let y := countInst 1 { x with pc := x.pc + BitVec.ofNat 64 len, walkPaid := none, rest := x.rest.drop 1 }
    if x.sec && !s.dbg.scope.getLsbD (hartSleeve h) then y else icountStep y

/-! ### Branch state -/

/-- The return stack is emptied and the path history cleared. -/
def clearPaths (x : Hart) : Hart := { x with ras := [], hist := 0 }

/-- An outstanding prediction is abandoned: history and return stack return to the checkpoint, and nothing of the predicted
path remains (R50, R53). Nor do instructions that have issued and not retired. -/
def squashPath (y : Hart) : Hart :=
  let x := { y with rest := [] }
  match x.indir with
  | some c => { x with
      hist := c.hist
      ras := c.ras
      indir := none
      wrong := 0
      wrongStop := false
      specFill := []
      specPc := 0
      path := []
      fetchStop := false }
  | none => { x with fetchStop := false }

/-! ### Traps (R66 to R68) -/

/-- A trap to be taken: its cause, trap value, guest physical address shifted right by 2, whether the trap value is a guest
virtual address, whether it arose in an implicit access, and the contents of the walk-fault register when it arises from
translation (R99). -/
structure Trap where
  cause : Nat
  tval  : Word
  tval2 : Word
  gva   : Bool
  impl  : Bool
  walk  : Option Word
deriving DecidableEq, Repr

/-- A trap with no part in translation. -/
def plainTrap (cause : Nat) (tval : Word) (gva : Bool) : Trap := ⟨cause, tval, 0, gva, false, none⟩

/-- The mode that takes an exception: 3 M, 1 HS or S, 0 VS. -/
def excMode (x : Hart) (cause : Nat) : Nat :=
  if x.priv = 3 ∨ bit (x.c 0x302) cause = false then 3
  else if x.virt ∧ bit (x.c 0x602) cause = true then 0
  else 1

/-- The vector of a trap: interrupts use their own entry in vectored mode. -/
def vectorOf (tvec : Word) (intr : Bool) (cause : Nat) : Word :=
  let base := tvec &&& ~~~3
  if intr && fld tvec 0 2 == 1 then base + BitVec.ofNat 64 (4 * cause) else base

/-- E: the byte address of the secure entry page (R67). -/
def monEntry (s : State) : Word := s.cloak.monAddr.setWidth 64 <<< 12

/-- An exception whose instruction register value is open: the accesses to memory. -/
def memExc (cause : Nat) : Bool := [1, 4, 5, 6, 7, 12, 13, 15, 20, 21, 23].contains cause

/-- A command that a held packet carries on behalf of a hart. -/
def heldOf (h : Nat) (e : Held) : Bool :=
  match e.pkt with
  | .cmd (.load a ..) => a.val == h
  | .cmd (.store a ..) => a.val == h
  | .cmd (.amo a ..) => a.val == h
  | .cmd (.lr a ..) => a.val == h
  | .cmd (.sc a ..) => a.val == h
  | .cmd (.cboZero a ..) => a.val == h
  | .cmd (.prefetch a ..) => a.val == h
  | .walk a _ => a == h
  | _ => false

/-- Enter a trap in a mode (3 M, 1 HS, 0 VS) under the privileged specification. While SEC = 1 the machine-mode vector is
E + 0x100 (R68). The hart's reservation, its held access and an outstanding prediction end. -/
def enterTrap (h mode : Nat) (intr : Bool) (t : Trap) (s : State) : State :=
  let x := squashPath { s.hart h with resv := none, resHold := none, heldAcc := false, walkPaid := none, wfi := false, io := none }
  let inst : Word := if intr then 0 else if t.impl then 0x3000 else if memExc t.cause then Config.freeWord s.free else 0
  let code : Word := BitVec.ofNat 64 t.cause ||| on 63 intr
  let y : Hart :=
    if mode = 3 then
      let st := x.c 0x300
      let st' := (st &&& ~~~(0x000000C000001888 : Word)) ||| cat [on 38 t.gva, on 39 x.virt, at_ 11 x.priv, on 7 (bit st 3)]
      let z := ((((((x.setC 0x341 x.pc).setC 0x342 code).setC 0x343 t.tval).setC 0x34B t.tval2).setC 0x34A inst).setC 0x300 st')
      let z := match t.walk with
        | some w => z.setC 0x7C4 w
        | none => z
      { z with priv := 3, virt := false, pc := if x.sec then monEntry s + 0x100 else vectorOf (x.c 0x305) intr t.cause }
    else if mode = 1 then
      let st := x.c 0x300
      let st' := (st &&& ~~~(0x122 : Word)) ||| cat [on 8 (x.priv.getLsbD 0), on 5 (bit st 1)]
      let hs := x.c 0x600
      let hs' := (hs &&& ~~~(if x.virt then (0x1C0 : Word) else 0xC0)) ||| cat [on 6 t.gva, on 7 x.virt, on 8 (x.virt && x.priv.getLsbD 0)]
      let z := (((((((x.setC 0x141 x.pc).setC 0x142 code).setC 0x143 t.tval).setC 0x643 t.tval2).setC 0x64A inst).setC 0x300 st').setC 0x600 hs')
      let z := match t.walk with
        | some w => z.setC 0x5C4 w
        | none => z
      { z with priv := 1, virt := false, pc := vectorOf (x.c 0x105) intr t.cause }
    else
      let st := x.c 0x200
      let st' := (st &&& ~~~(0x122 : Word)) ||| cat [on 8 (x.priv.getLsbD 0), on 5 (bit st 1)]
      let cz := if intr then t.cause - 1 else t.cause
      let z := ((((x.setC 0x241 x.pc).setC 0x242 (BitVec.ofNat 64 cz ||| on 63 intr)).setC 0x243 t.tval).setC 0x200 st')
      let z := match t.walk with
        | some w => z.setC 0x6C4 w
        | none => z
      { z with priv := 1, virt := true, pc := vectorOf (x.c 0x205) intr cz }
  { s.setHart h y with
    free := s.free + 1
    fab := { s.fab with held := s.fab.held.filter fun e => !heldOf h e } }

/-- The end of a program buffer: by its EBREAK, or by an exception (`exc`). -/
def endProgram (exc : Bool) (x : Hart) : Hart :=
  { squashPath x with prog := false, progExc := x.progExc || exc, heldAcc := false, walkPaid := none, io := none }

/-- An exception of an instruction in the program buffer: debug mode takes no trap; the program ends (cmderr 3). -/
def programTrap (h : Nat) (s : State) : State :=
  let s1 := s.modHart h (endProgram true)
  { s1 with fab := { s1.fab with held := s1.fab.held.filter fun e => !heldOf h e } }

/-- A hart takes an exception. -/
def takeTrap (h : Nat) (t : Trap) (s : State) : State :=
  if (s.hart h).prog then programTrap h s else enterTrap h (excMode (s.hart h) t.cause) false t s

/-- The sender of a refused access learns of it: a hart takes an access fault (its virtual address is not the command's), another
agent receives an error completion (R30). -/
def faultAgent (who : Agent) (write : Bool) (s : State) : State :=
  match who with
  | .hart h => takeTrap h (plainTrap (if write then 7 else 5) (Config.freeWord s.free) false) s.draw
  | _ => s.answerErr

/-- An illegal-instruction exception; the trap value is the instruction (Table 2.3). -/
def illegalInstr (h : Nat) (inst : Word) (s : State) : State := takeTrap h (plainTrap 2 inst false) s

/-- A virtual-instruction exception. -/
def virtInstr (h : Nat) (inst : Word) (s : State) : State := takeTrap h (plainTrap 22 inst false) s

/-- The bits of an instruction of which its command carries those of a mask: the others are open. -/
def openInst (s : State) (mask val : Word) : Word := (val &&& mask) ||| (Config.freeWord s.free &&& 0xFFFFFFFF &&& ~~~mask)

/-- A CSR instruction: its register number and opcode are known. -/
def csrInst (s : State) (n : Nat) : Word := openInst s 0xFFF0007F (BitVec.ofNat 64 (n * 2 ^ 20 + 0x73))

/-- RASFLUSH and ITBFLUSH set one bit of ubxbpc (CSRRSI or CSRRS). -/
def csrSetInst (s : State) (n : Nat) : Word := openInst s 0xFFF0307F (BitVec.ofNat 64 (n * 2 ^ 20 + 0x2073))

/-- How a debug module reports a hart (Table 18.4): 0 nonexistent, 1 unavailable, 2 running or halted. The Vest's harts are
numbered from 960. -/
def dbgAvail (s : State) (h : Nat) : Nat :=
  if h < 960 then
    if hartPresent s h = false then 0
    else if s.pkg.slvHeld.getLsbD (hartSleeve h) || hartFailed s h || (tabGet s.dbg.bist BistSt.reset (hartSleeve h)).state == 2 then 1
    else 2
  else if h < 962 then 2
  else if h < 979 then (if s.dbg.scope.getLsbD 12 then 2 else 1)
  else 0

/-- Secure debug of a hart's Sleeve is unlocked (R438). -/
def dbgUnlocked (s : State) (h : Nat) : Bool := s.dbg.scope.getLsbD (hartSleeve h)

/-- The secure world holds a halt of the hart back (R433). -/
def dbgHold (s : State) (h : Nat) : Bool := decide (h < 960) && (s.hart h).sec && !dbgUnlocked s h

/-- One hart enters debug mode with a dcsr cause. -/
def haltHart (h cause : Nat) (s : State) : State :=
  s.modHart h fun y =>
    let x := squashPath y
    let d := (x.c 0x7B0 &&& ~~~(0x1E3 : Word)) ||| cat [at_ 6 (BitVec.ofNat 3 cause), on 5 x.virt, at_ 0 x.priv]
    { (x.setC 0x7B1 x.pc).setC 0x7B0 d with halted := true, haltPend := false, wfi := false }

/-- A hart enters debug mode, and with it every available member of its halt group (R434); a member that R433 holds, or whose scope
sleeps, halts later. -/
def enterDebug (h cause : Nat) (s : State) : State :=
  let s1 := haltHart h cause s
  let g := tabGet s.dbg.haltGrp 0 h
  if g = 0 then s1
  else s1.dbg.haltGrp.foldl (fun a e =>
    if e.2 ≠ g ∨ e.1 = h ∨ dbgAvail a e.1 ≠ 2 ∨ (a.hart e.1).halted = true then a
    else if dbgHold a e.1 || decide ((a.slvPwr (hartSleeve e.1)).sl ≠ 0) || decide (tabGet a.pwr.coreSl 0 (hartCore e.1) = 2) then
      a.modHart e.1 fun x => { x with haltPend := true }
    else haltHart e.1 6 a) s1

/-- A halt request that waited for the hart to leave the secure world takes effect (R433). -/
def haltIfPending (h : Nat) (s : State) : State :=
  let x := s.hart h
  if x.haltPend && !dbgHold s h then enterDebug h (if x.resetHalt then 5 else if bit (x.c 0x7B0) 2 then 4 else 3) s else s

/-- A hart has performed an instruction: while it steps it halts, or at the first instruction after the secure interval that it
entered (R433). -/
def stepDone (h : Nat) (x0 : Hart) (s : State) : State :=
  if bit (x0.c 0x7B0) 2 && !(s.hart h).halted then
    if dbgHold s h then s.modHart h fun y => { y with haltPend := true } else enterDebug h 4 s
  else s

/-- A hart's CSRs other than its counters. -/
def ctlCsrs (x : Hart) : List (Nat × Word) := x.csr.filter fun e => decide (e.1 < 0xB00 ∨ 0xB20 ≤ e.1)

/-- After the meaning of an instruction: one that only waits leaves the program counter, the mode and the CSRs other than counters. -/
def stepHalt (h : Nat) (x0 : Hart) (s : State) : State :=
  let x := s.hart h
  if x.pc != x0.pc || x.priv != x0.priv || ctlCsrs x != ctlCsrs x0 then stepDone h x0 s else s

/-- An instruction of the program buffer runs with the rights of M-mode; the mode and the program counter that the hart resumes
with are not those of the buffer. -/
def inProgram (h : Nat) (f : State → State) (s : State) : State :=
  let x := s.hart h
  (f (s.setHart h { x with priv := 3, virt := false })).modHart h fun y => { y with priv := x.priv, virt := x.virt, pc := x.pc }

/-- A hart performs an instruction. -/
def actHart (h : Nat) (f : State → State) (s : State) : State :=
  if (s.hart h).prog then inProgram h f s else stepHalt h (s.hart h) (f s)

/-- Run the meaning of an instruction of a hart that issues; a hart that does not issue performs nothing. A committed
instruction comes after no unresolved prediction (R49, R52), and after every instruction that has issued. -/
def byHart (h : Nat) (f : State → State) (s : State) : State :=
  if hartRuns s h && (s.hart h).indir.isNone && ((s.hart h).rest == [] || (s.hart h).rest == [.alone]) then actHart h f s else s

/-! ### The commands: environment calls, breakpoints, returns and interrupts -/

/-- A monitor call (R66): an ECALL in HS-mode, or in S-mode with V = 0, with a7 in the vendor range. -/
def isMonCall (x : Hart) : Bool :=
  x.priv == 1 && !x.virt && decide (0x09000000 ≤ (x.gx 17).toNat ∧ (x.gx 17).toNat ≤ 0x09FFFFFF)

/-- Entry to the secure world (R67). -/
def monitorEntry (h : Nat) (s : State) : State :=
  let s1 := enterTrap h 3 false (plainTrap 9 0 false) s
  s1.modHart h fun x => { clearPaths x with sec := true, pc := monEntry s }

/-- An ordinary environment call: cause 8, 9, 10 or 11 by the mode. -/
def envCall (h : Nat) (s : State) : State :=
  let x := s.hart h
  let c := if x.priv = 3 then 11 else if x.priv = 1 then (if x.virt then 10 else 9) else 8
  takeTrap h (plainTrap c 0 false) s

/-- ECALL (R66): an ordinary environment call, or a monitor call. -/
def execEcall (h : HartId) (s : State) : Out := keepQueue s <|
  done (byHart h (fun s => if isMonCall (s.hart h) then monitorEntry h s else envCall h s) s)

/-- MONITOR_CALL (R67). An ECALL that is no monitor call is an ordinary environment call. -/
def execMonitorCall (h : HartId) (s : State) : Out := keepQueue s <|
  done (byHart h (fun s => if isMonCall (s.hart h) then monitorEntry h s else envCall h s) s)

/-- SECURE_TRAP (R68): a hart takes an exception; while SEC = 1 it goes to E + 0x100. -/
def execSecureTrap (h : HartId) (t : TrapInfo) (s : State) : Out := keepQueue s <|
  done (byHart h (takeTrap h ⟨t.cause, t.tval, t.tval2, (s.hart h).virt && memExc t.cause, false, none⟩) s)

/-- EBREAK: ends the program buffer that it stands in or, implicitly, behind (impebreak); enters debug mode where dcsr says so, else a breakpoint exception with the instruction's address (Table 2.3). -/
def execEbreak (h : HartId) (_compressed : Bool) (s : State) : Out := keepQueue s <|
  done (byHart h (fun s =>
    let x := s.hart h
    let d := x.c 0x7B0
    let dbg := if x.virt then (if x.priv = 1 then bit d 17 else bit d 16) else
      (if x.priv = 3 then bit d 15 else if x.priv = 1 then bit d 13 else bit d 12)
    if x.prog then s.modHart h (endProgram false)
    else if dbg && !dbgHold s h then enterDebug h 1 s else takeTrap h (plainTrap 3 x.pc x.virt) s) s)

/-- The state changes of MRET (R69 step 6): after a return from mode M, MPRV stays. -/
def mretState (x : Hart) : Hart :=
  let st := x.c 0x300
  let mpp := mppOf x
  let keep := decide (mpp = 3)
  let st' := (st &&& ~~~(0x0000008000001888 : Word)) ||| cat [on 3 (bit st 7), on 7 true]
  let st'' := if keep then st' else st' &&& ~~~(on 17 true)
  { x.setC 0x300 st'' with pc := x.c 0x341, priv := mpp, virt := !keep && bit st 39, resv := none, resHold := none, rest := [] }

/-- MRET, illegal below M-mode and while SEC = 1 (R68). -/
def mret (h : Nat) (s : State) : State :=
  let x := s.hart h
  if x.priv ≠ 3 ∨ x.sec = true then illegalInstr h 0x30200073 s
  else s.setHart h (mretState (countInst 1 x))

/-- SRET with V = 0: to the mode that hstatus.SPV and SPP name. -/
def sretHs (x : Hart) : Hart :=
  let st := x.c 0x300
  let st' := (st &&& ~~~(0x20122 : Word)) ||| cat [on 1 (bit st 5), on 5 true]
  let z := (x.setC 0x300 st').maskC 0x600 0x80 0
  { z with pc := x.c 0x141, priv := at2 (bit st 8), virt := bit (x.c 0x600) 7, resv := none, resHold := none, rest := [] }
where
  /-- S or U. -/
  at2 (b : Bool) : BitVec 2 := if b then 1 else 0

/-- SRET with V = 1. -/
def sretVs (x : Hart) : Hart :=
  let st := x.c 0x200
  let st' := (st &&& ~~~(0x122 : Word)) ||| cat [on 1 (bit st 5), on 5 true]
  { x.setC 0x200 st' with pc := x.c 0x241, priv := if bit st 8 then 1 else 0, resv := none, resHold := none, rest := [] }

/-- SRET. While SEC = 1 it is illegal, as no lower mode is secure (03). DEDUCED (log 31). -/
def sret (h : Nat) (s : State) : State :=
  let x := s.hart h
  let i : Word := 0x10200073
  if x.sec then illegalInstr h i s
  else if x.virt then
    if x.priv = 0 ∨ bit (x.c 0x600) 22 = true then virtInstr h i s else s.setHart h (sretVs (countInst 1 x))
  else if x.priv = 0 ∨ (x.priv = 1 ∧ bit (x.c 0x300) 22 = true) then illegalInstr h i s
  else s.setHart h (sretHs (countInst 1 x))

/-- XRET: MRET or SRET; debug mode has no return of its own, and there it is illegal. -/
def execXret (h : HartId) (isS : Bool) (s : State) : Out := keepQueue s <|
  done (byHart h (fun s =>
    if (s.hart h).prog then illegalInstr h (if isS then 0x10200073 else 0x30200073) s
    else haltIfPending h (if isS then sret h s else mret h s)) s)

/-- INTERRUPT_TAKE (R68): the interrupt that the hart takes now. A hart in WFI goes on when an enabled interrupt is pending. A
held access is abandoned (Table 7.9). -/
def execInterruptTake (h : HartId) (s : State) : Out := keepQueue s <|
  let x := s.hart h
  if hartPresent s h = false ∨ x.inReset = true ∨ x.halted = true ∨ x.stopped = true ∨ (s.slvPwr (hartSleeve h)).sl ≠ 0 then done s
  else
    match takeable x with
    | some (i, mode) => done (enterTrap h mode true (plainTrap i 0 false) s)
    | none => if mipOf x &&& x.c 0x304 = 0 then done s else done (s.modHart h fun y => { y with wfi := false })

/-- WFI (R42): waits without timeout for an interrupt that is pending and enabled, subject to TW and VTW. -/
def execWfi (h : HartId) (s : State) : Out := keepQueue s <|
  done (byHart h (fun s =>
    let x := s.hart h
    let i : Word := 0x10500073
    if x.priv ≠ 3 ∧ bit (x.c 0x300) 21 = true then illegalInstr h i s
    else if x.virt ∧ (x.priv = 0 ∨ bit (x.c 0x600) 21 = true) then virtInstr h i s
    else if x.priv = 0 then illegalInstr h i s
    else
      let s1 := retire h 4 s
      if x.prog = false ∧ mipOf x &&& x.c 0x304 = 0 then s1.modHart h fun y => { y with wfi := true } else s1) s)

/-- MTIMECMP_MATCH (R57): mip.MTIP follows the comparison of time with MTIMECMP. -/
def mtipUpdate (h : Nat) (s : State) : State :=
  s.modHart h fun x => { x with mtip := decide ((tabGet s.mtimecmp (BitVec.allOnes 64) h).toNat ≤ (timeOf s h).toNat) }
def execMtimecmpMatch (h : HartId) (s : State) : Out := keepQueue s <| done (mtipUpdate h s)

/-- SLV[s].TMR.MTIMECMP[n] (R57). -/
def wrMtimecmp (h : Nat) (v : Word) (s : State) : State :=
  mtipUpdate h { s with mtimecmp := tabSet s.mtimecmp (BitVec.allOnes 64) h v }
def rdMtimecmp (s : State) (h : Nat) : Word := tabGet s.mtimecmp (BitVec.allOnes 64) h

/-! ### ubxbpc and ubxbpkey (R47, R51, Table 2.10) -/

/-- ubxbpc: a write retires only when no prediction is outstanding; it empties the return stack and clears the history. HS
writes leave MLOCK, and while MLOCK = 1 also MODE, unchanged. -/
def wrBpc (h : Nat) (v : Word) (s : State) : State :=
  let x := s.hart h
  let m := decide (x.priv = 3)
  let lock := bit (x.c 0x5C0) 7
  let free := m || !lock
  let mode := fld v 0 2
  let mOk := free && decide (mode ≠ 3) && (decide (mode ≠ 1) || featOn s 1)
  let y := x.maskC 0x5C0 (cat [if m then 0x80 else 0, if mOk then 3 else 0]) v
  let y := if free then clearPaths y else y
  let s1 := s.setHart h y
  if free && bit v 2 then s1.modCore (hartCore h) fun k => { k with itb := [] } else s1

/-- The value of a Hart's ubxbpkey is stored; reads return zero (Table 2.11). -/
def wrBpkey (h : Nat) (v : Word) (s : State) : State := s.modHart h fun x => x.setC 0x5C1 v

/-- A CSR write instruction of a hart (CSRRW with the given value), with its checks and side effects. -/
def csrInstr (h n : Nat) (v : Word) (s : State) : State :=
  let x := s.hart h
  match csrCheck x n true with
  | some .illegal => illegalInstr h (csrInst s n) s
  | some .virtualInstr => virtInstr h (csrInst s n) s
  | none =>
    let r := redirect x.virt n
    let s1 := if r = 0x5C0 then wrBpc h v s else if r = 0x5C1 then wrBpkey h v s else s.setHart h (csrWrite s x r v)
    retire h 4 s1

/-- BPC_MODE_WRITE, RASFLUSH, ITBFLUSH, BPKEY_WRITE (R47, R51): CSR instructions of the hart; while a prediction is outstanding
the write waits. The flush forms set their bit alone (CSRRS), and leave MODE; ITBFLUSH alone leaves the return stack and the history.
A direct write empties them whether or not it changes MODE. DESIGN CHOICE (log 136). -/
def execBpcModeWrite (h : HartId) (v : BitVec 64) (s : State) : Out := keepQueue s <| done (byHart h (csrInstr h 0x5C0 v) s)
def bpcFlush (h : Nat) (itb : Bool) (s : State) : State :=
  let x := s.hart h
  match csrCheck x 0x5C0 true with
  | some .illegal => illegalInstr h (csrSetInst s 0x5C0) s
  | some .virtualInstr => virtInstr h (csrSetInst s 0x5C0) s
  | none =>
    let s1 := if x.priv = 3 ∨ bit (x.c 0x5C0) 7 = false then
        (if itb then s.modCore (hartCore h) fun k => { k with itb := [] } else s.modHart h clearPaths)
      else s
    retire h 4 s1
def execRasflush (h : HartId) (s : State) : Out := keepQueue s <| done (byHart h (bpcFlush h false) s)
def execItbflush (h : HartId) (s : State) : Out := keepQueue s <| done (byHart h (bpcFlush h true) s)
def execBpkeyWrite (h : HartId) (v : BitVec 64) (s : State) : Out := keepQueue s <| done (byHart h (csrInstr h 0x5C1 v) s)

/-- The CSR number of a block register (Table 2.9). -/
def blkCsr : BlkReg → Nat
  | .blk k => 0x5D0 + k | .blkpa k => 0x5D8 + k | .hblk k => 0x6D0 + k | .hblkpa k => 0x6D8 + k
  | .vsblk k => 0x6E0 + k | .vsblkpa k => 0x6E8 + k

/-- BLOCK_REG_WRITE (R91): a block translation register; the L1 TLBs of the hart are emptied at once. -/
def execBlockRegWrite (h : HartId) (b : BlkReg) (v : BitVec 64) (s : State) : Out := keepQueue s <| done (byHart h (csrInstr h (blkCsr b) v) s)

end Sys2Proof.Machine
end

