-- ==== Sys2Proof/Machine/Queues.lean ====
section
/-! DEFINITION. Store queues (09): words and packets, completions and their interrupts (12 R302, R303), admission and
arbitration, range locks, queue reset, and tenant reset (12 R316 to R321). -/

namespace Sys2Proof.Machine

/-- A queue pair. -/
def State.qp (s : State) (q : Nat) : QPair := tabGet s.stor.pairs QPair.reset q
def State.setQp (s : State) (q : Nat) (v : QPair) : State :=
  { s with stor := { s.stor with pairs := tabSet s.stor.pairs QPair.reset q v } }
def State.modQp (s : State) (q : Nat) (f : QPair → QPair) : State := s.setQp q (f (s.qp q))

/-- Status codes (Table 9.11). -/
def scSuccess : Nat := 0x00
def scInvalidOpcode : Nat := 0x01
def scInvalidField : Nat := 0x02
def scMalformed : Nat := 0x03
def scNsInvalid : Nat := 0x04
def scLbaRange : Nat := 0x05
def scTransfer : Nat := 0x06
def scUnrecovered : Nat := 0x07
def scWriteProt : Nat := 0x08
def scAborted : Nat := 0x09
def scInternal : Nat := 0x0B

/-- Granules of store-queue SRAM a pair of these sizes takes (Table 9.4). -/
def granules (sqsz cqsz : BitVec 4) : Nat := (2 ^ sqsz.toNat * 64 + 4095) / 4096 + (2 ^ cqsz.toNat * 16 + 4095) / 4096

/-- VEST.STOR.POOL.FREE: granules that no enabled pair holds. -/
def poolFree (s : State) : Nat :=
  2048 - s.stor.pairs.foldl (fun a e => if e.2.en then a + granules e.2.sqsz e.2.cqsz else a) 0

/-- Granules that no enabled pair holds, lowest first. A pair takes the lowest ones, its SQ before its CQ (DESIGN CHOICE, log 143). -/
def freeGranules (s : State) : List Nat :=
  let used := (s.stor.pairs.map fun e => if e.2.en then e.2.sqG ++ e.2.cqG else []).flatten
  (upto 2048).filter fun g => !used.contains g

/-- Enabled pairs of a TID. -/
def tidPairs (s : State) (t : BitVec 12) : List Nat := (s.stor.pairs.filter fun e => e.2.en && decide (e.2.tid = t)).map (·.1)

/-- SQ words and CQ words of a pair's depth (Table 9.4). -/
def sqWords (p : QPair) : Nat := 8 * 2 ^ p.sqsz.toNat
def cqWords (p : QPair) : Nat := 2 * 2 ^ p.cqsz.toNat

/-- Byte offset in the store-queue SRAM of word `w` of a queue that holds granules `g` (R467). -/
def queueOffset (g : List Nat) (w : Nat) : Nat := 4096 * g.getD (8 * w / 4096) 0 + 8 * w % 4096

/-- Byte offsets of place `i` of the SQ and of the CQ: each is a ring of its depth. -/
def sqOffset (p : QPair) (i : Nat) : Nat := queueOffset p.sqG ((p.sqHead + i) % sqWords p)
def cqOffset (p : QPair) (i : Nat) : Nat := queueOffset p.cqG ((p.cqHead + i) % cqWords p)

/-- An uncorrectable word of the store-queue SRAM at offset `o`: counted, and reported with its bank's node (R125, R396, R467). The
word has no address: what ADDR holds is open (DESIGN CHOICE, log 146). -/
def queueUe (o : Nat) (s : State) : State :=
  report (mkReport 0x0002 2 0x011 false 16 (leBytes 8 (Config.freeWord s.free).toNat ++ leBytes 2 (sqSramNode (o / 64 % 16))))
    { s.draw with pkt := { s.pkt with sramUe := satInc s.pkt.sramUe } }

/-- `n` words leave a queue at its head. -/
def takeSq (n : Nat) (p : QPair) : QPair := { p with sq := p.sq.drop n, sqHead := (p.sqHead + n) % sqWords p }
def takeCq (n : Nat) (p : QPair) : QPair := { p with cq := p.cq.drop n, cqHead := (p.cqHead + n) % cqWords p }

/-- Whole packets in a list of words. -/
def packets (l : List (Word × Bool)) : Nat := (l.filter (·.2)).length

/-- The first packet of a list of words and what follows it; nothing when no word has the end mark. -/
def firstPacket : List (Word × Bool) → Option (List Word × List (Word × Bool))
  | [] => none
  | w :: r => if w.2 then some ([w.1], r) else (firstPacket r).map fun x => (w.1 :: x.1, x.2)

/-- All whole packets of an SQ, in order. The fuel is the number of words. -/
def allPackets : Nat → List (Word × Bool) → List (List Word)
  | 0, _ => []
  | n + 1, l => match firstPacket l with
    | none => []
    | some x => x.1 :: allPackets n x.2

/-- CID of a packet (R225): W0[15:0], or 0xFFFF when bit 63 of the first word is set. -/
def packetCid (ws : List Word) : BitVec 16 :=
  let w0 := ws.headD 0
  if bit w0 63 then 0xFFFF else fld w0 0 16

/-- Commands of pair `q` admitted and not complete; each reserves two CQ words (Table 9.12). -/
def cmdsOf (s : State) (q : Nat) : List Cmd := s.stor.cmds.filter (·.q = q)

/-- CQ words neither occupied nor reserved. -/
def cqFree (s : State) (q : Nat) : Nat := cqWords (s.qp q) - (s.qp q).cq.length - 2 * (cmdsOf s q).length

/-- The MSI of a pair (R302, R303): sent to the file that INTCFG names, or discarded and counted when the hart is absent or
its domain has fail-stopped; PEND is cleared either way. -/
def sendQpMsi (q : Nat) (s : State) : State :=
  let p := s.qp q
  let h := p.ihart.toNat
  if hartPresent s h && !hartFailed s h then
    imsicSet h p.file.toNat p.eiid.toNat (s.setQp q { p with pend := 0, sent := satInc p.sent })
  else
    report (mkReport (0x7000 + q) 0 0x060 false 8 (leBytes 2 q ++ leBytes 2 h)) (s.setQp q { p with pend := 0, disc := satInc p.disc })

/-- The conditions of R302 hold now: EN, PEND at THR, or a timeout of zero. -/
def qpMsiDue (p : QPair) : Bool := p.intEn && decide (1 ≤ p.pend.toNat) && (decide (p.thr.toNat ≤ p.pend.toNat) || decide (p.tmo = 0))

def qpMsiCheck (q : Nat) (s : State) : State := if qpMsiDue (s.qp q) then sendQpMsi q s else s

/-- A completion becomes visible (R222, R227, R302): both words are appended, PEND rises, and the pair's MSI may be due. -/
def writeCompletion (q : Nat) (cid : BitVec 16) (status elba : Nat) (s : State) : State :=
  let p := s.qp q
  let w0 := cat [at_ 40 (BitVec.ofNat 8 status), at_ 0 cid]
  let w1 := at_ 0 (BitVec.ofNat 48 elba)
  qpMsiCheck q (s.setQp q { p with
    cq := p.cq ++ [(w0, false), (w1, true)]
    oldest := if p.pend = 0 then s.time else p.oldest
    pend := satInc p.pend })

/-- Two commands overlap and are ordered by the range lock (R232): one namespace, overlapping LBAs, not both READs. -/
def lockClash (a b : Cmd) : Bool :=
  a.lock && b.lock && a.nsid == b.nsid && decide (a.slba ≤ b.slba + b.nlb ∧ b.slba ≤ a.slba + a.nlb) && !(a.opc == 1 && b.opc == 1)

/-- Start every admitted command that no earlier-admitted one holds back (R232); `seen` are the earlier commands. A WRITE
starts only once its flash locations are reserved (10 R253). -/
def startReady : List Cmd → List Cmd → List Cmd
  | _, [] => []
  | seen, c :: r =>
    let c1 := if !c.started && c.opc != 2 && !(seen.any fun e => lockClash e c) then { c with started := true } else c
    c1 :: startReady (seen ++ [c]) r

def startWaiting (s : State) : State := { s with stor := { s.stor with cmds := startReady [] s.stor.cmds } }

/-- Write the pending ABORTED_QUEUE_RESET completions while two CQ words are free (Table 9.13, step 3). -/
def writeAborts (q : Nat) : Nat → State → State
  | 0, s => s
  | n + 1, s =>
    match (s.qp q).aborts with
    | [] => s
    | c :: r =>
      if 2 ≤ cqFree s q then
        let s1 := s.modQp q fun p => { p with aborts := r, nabort := p.nabort + 1 }
        writeAborts q n (writeCompletion q c scAborted 0 s1)
      else s

/-- Sum over the pairs of a tenant reset. -/
def sumPairs (s : State) (f : QPair → Nat) : Nat := s.belt.tPairs.foldl (fun a q => a + f (s.qp q)) 0

/-- Withdraw the activities of TID `t` whose class passes `f` (Table 12.9, steps 3 and 5): EN = 0 at once; held items pass
uncharged, the regulators' allowances of these activities are cleared. -/
def withdrawActs (t : BitVec 12) (f : Nat → Bool) (s : State) : State :=
  let as := (upto 256).filter fun i => let v := s.act i
    (v.active || v.en) && !v.eng && decide (v.tid = t) && f v.cls.toNat
  let s1 := dropActs as s
  { s1 with belt := { s1.belt with tActs := BitVec.ofNat 8 (s1.belt.tActs.toNat + as.length) } }

/-- A tenant reset finishes when every pair's reset is done and none of its commands runs (Table 12.9, steps 5 to 7). -/
def settleTenant (s : State) : State :=
  if s.belt.tBusy && s.belt.tPairs.all (fun q => decide ((s.qp q).state = 0)) then
    let s1 := withdrawActs s.belt.tCur (fun c => c == 2 || c == 3) s
    { s1 with belt := { s1.belt with
      tBusy := false, tDone := true
      tNdrop := BitVec.ofNat 16 (sumPairs s1 fun p => p.ndrop.toNat)
      tNsupp := BitVec.ofNat 16 (sumPairs s1 fun p => p.nsupp.toNat)
      tNqp := BitVec.ofNat 5 s1.belt.tPairs.length } }
  else s

/-- Step 4 of a queue reset, with the end of step 3: the SQ is empty (Table 9.13). -/
def emptySq (p : QPair) : QPair := if p.state = 2 ∧ p.aborts = [] then takeSq p.sq.length p else p

/-- Steps 4 and 6 of a queue reset (Table 9.13): every completion written or dropped, every started command complete. -/
def settleReset (q : Nat) (s0 : State) : State :=
  let s := s0.modQp q emptySq
  let p := s.qp q
  if p.state = 2 ∧ p.aborts = [] ∧ cmdsOf s q = [] then
    settleTenant (s.setQp q { p with
      rdone := true
      state := if p.rstDis then 0 else 1
      en := if p.rstDis then false else p.en
      rstDis := false })
  else s

/-- Empty the CQ of a pair: unread and unreleased completions, and PEND with them (R302). -/
def emptyCq (p : QPair) : QPair := { takeCq p.cq.length p with rp := 0, mark := 0, pend := 0 }

/-- Start a queue reset of pair `q` (R233): the SQ leaves arbitration, commands not started are withdrawn. The SQ keeps
its words until the completions of step 3 are written. In the drop form the CQ is emptied too and every withdrawn or queued command counts in NDROP. -/
def startReset (q : Nat) (drop disable : Bool) (s : State) : State :=
  let p := s.qp q
  let wd := (cmdsOf s q).filter fun c => !c.started
  let queued := (allPackets p.sq.length p.sq).map packetCid
  let cids := wd.map (·.cid) ++ queued
  let p1 := { p with state := 2, rdone := false, rstDis := disable, nsupp := 0, nabort := 0, ndrop := 0, aborts := [] }
  let p2 := if drop then { emptyCq p1 with ndrop := BitVec.ofNat 16 cids.length } else { p1 with aborts := cids }
  let s1 := { s with stor := { s.stor with cmds := s.stor.cmds.filter fun c => !(c.q == q && !c.started) } }
  settleReset q (writeAborts q cids.length (startWaiting (s1.setQp q p2)))

/-- EN = 0 during a normal-form reset (R235): the rest of step 3 takes the drop form, and the pair ends disabled. -/
def convertReset (q : Nat) (s : State) : State :=
  settleReset q (s.modQp q fun p =>
    { emptyCq p with aborts := [], ndrop := p.ndrop + BitVec.ofNat 16 p.aborts.length, rstDis := true })

/-- A write to Q.RESET (R235): no effect while STATE = 2, nor on a pair that is not enabled. -/
def wrQReset (q : Nat) (drop : Bool) (s : State) : State :=
  if (s.qp q).state = 1 then startReset q drop false s else s

/-- Quiesce fields of a CFG write (Table 9.5) with reserved encodings left as they were (R7). -/
def cfgFields (v : Word) (p : QPair) : QPair :=
  let sz := fld v 40 4
  let cz := fld v 36 4
  { p with
    tid := fld v 48 12
    cls := fld v 46 2
    sqsz := if 4 ≤ sz.toNat ∧ sz.toNat ≤ 10 then sz else p.sqsz
    cqsz := if 5 ≤ cz.toNat ∧ cz.toNat ≤ 11 then cz else p.cqsz
    xlate := bit v 35 }

/-- A write that carries a Quiesce field different from the held one. -/
def cfgDiffers (v : Word) (p : QPair) : Bool :=
  decide (fld v 48 12 ≠ p.tid) || decide (fld v 46 2 ≠ p.cls) || decide (fld v 40 4 ≠ p.sqsz) || decide (fld v 36 4 ≠ p.cqsz) ||
    (bit v 35 != p.xlate)

/-- Validation of an enable (Table 9.5, ERR), in order; 0 when accepted. -/
def enableCheck (q : Nat) (v : Word) (s : State) : Nat :=
  let p := s.qp q
  let sz := fld v 40 4
  let cz := fld v 36 4
  if p.en || decide (p.state ≠ 0) then 5
  else if s.stor.st ≠ 2 then 1
  else if ¬ (4 ≤ sz.toNat ∧ sz.toNat ≤ 10 ∧ 5 ≤ cz.toNat ∧ cz.toNat ≤ 11) then 2
  else if 16 ≤ (tidPairs s (fld v 48 12)).length then 3
  else if poolFree s < granules sz cz then 4
  else if s.belt.tBusy && decide (fld v 48 12 = s.belt.tCur) then 5
  else 0

/-- A write to VEST.SQC[q].CFG (R218). -/
def wrSqcCfg (q : Nat) (v : Word) (s : State) : State :=
  let p := s.qp q
  if bit v 63 then
    match enableCheck q v s with
    | 0 =>
      let p1 := cfgFields v p
      let n := (2 ^ p1.sqsz.toNat * 64 + 4095) / 4096
      let g := freeGranules s
      s.setQp q { p1 with
        sqG := g.take n, cqG := (g.drop n).take (granules p1.sqsz p1.cqsz - n), sqHead := 0, cqHead := 0
        en := true, err := 0, state := 1, sq := [], cq := [], rp := 0, mark := 0, em := false, ovf := false, pend := 0 }
    | e => s.setQp q { p with err := BitVec.ofNat 3 e }
  else if p.en then
    let s1 := if cfgDiffers v p then s.setQp q { p with err := 5 } else s
    if p.state = 2 then convertReset q s1 else startReset q true true s1
  else s.setQp q (cfgFields v p)

/-- SQC_ENABLE and SQC_DISABLE (R218). -/
def execSqcEnable (who : Agent) (q : QId) (v : BitVec 64) (s : State) : Out := keepQueue s <| sentBy who s <| done (wrSqcCfg q v s)
def execSqcDisable (who : Agent) (q : QId) (v : BitVec 64) (s : State) : Out := keepQueue s <| sentBy who s <| done (wrSqcCfg q v s)

/-- R219: a non-secure access whose TID differs from CFG.TID is refused as a reserved-region access. -/
def pageRefused (s : State) (who : Agent) (q : Nat) : Bool := !agentSecure s who && decide (agentTid s who ≠ (s.qp q).tid)

/-- A refused access to the data page of pair `q`. -/
def refusePage (who : Agent) (q off : Nat) (s : State) : State :=
  faultAgent who (decide (off ≠ 0x40)) (reportUcs who .reserved (0x10000000 + q * 0x1000 + off) false s)

/-- A push (R219, R221): appended at the SQ tail; discarded with OVF when the SQ is full or the pair resets; discarded
while EN = 0. -/
def sqPush (q : Nat) (w : Word) (e : Bool) (s : State) : State :=
  let p := s.qp q
  if p.en = false then s
  else if p.state = 2 ∨ sqWords p ≤ p.sq.length then s.setQp q { p with ovf := true }
  else s.setQp q { p with sq := p.sq ++ [(w, e)] }

def execSqPush (who : Agent) (q : QId) (w : BitVec 64) (s : State) : Out := keepQueue s <| sentBy who s <|
  if pageRefused s who q then done (refusePage who q 0 s) else done (sqPush q w false s)
def execSqPushend (who : Agent) (q : QId) (w : BitVec 64) (s : State) : Out := keepQueue s <| sentBy who s <|
  if pageRefused s who q then done (refusePage who q 8 s) else done (sqPush q w true s)

/-- The idle item (R220). -/
def idleItem : Word := BitVec.allOnes 64

/-- CQ.POP (R219, R222). -/
def cqPop (q : Nat) (s : State) : State × Word :=
  let p := s.qp q
  match (if p.en then p.cq[p.rp]? else none) with
  | some w => (s.setQp q { p with rp := p.rp + 1, em := w.2 }, w.1)
  | none => (if p.en then s.setQp q { p with em := true } else s, idleItem)

/-- CQ.PEEK: as CQ.POP, without advancing. -/
def cqPeek (q : Nat) (s : State) : Word :=
  let p := s.qp q
  match (if p.en then p.cq[p.rp]? else none) with
  | some w => w.1
  | none => idleItem

/-- A word that CQ.POP reads is in the CQ. -/
def cqHas (s : State) (q : Nat) : Bool := (s.qp q).en && decide ((s.qp q).rp < (s.qp q).cq.length)

/-- CQ_POP (R222), with what the SRAM yields for the word. An uncorrectable word is an access error: the read pointer passes it,
and a CQPOISON record is written (R241). -/
def execCqPop (who : Agent) (q : QId) (ecc : EccResult) (s : State) : Out := keepQueue s <| sentBy who s <|
  if pageRefused s who q then done (refusePage who q 0x40 s)
  else
    let o := cqOffset (s.qp q) (s.qp q).rp
    let r := cqPop q s
    match (if cqHas s q then ecc else .ok) with
    | .ok => done (r.1.answerW r.2)
    | .ce => done ((countVestCe 0 r.1).answerW r.2)
    | .ue => done (faultAgent who false (report (mkReport (0x7000 + q) 3 0x054 false 8 (leBytes 2 q)) (queueUe o r.1)))

/-- CQ.MARK, CQ.REWIND, CQ.RELEASE (R223). -/
def cqMark (q : Nat) (s : State) : State := s.modQp q fun p => if p.en then { p with mark := p.rp } else p
def cqRewind (q : Nat) (s : State) : State := s.modQp q fun p => if p.en then { p with rp := p.mark } else p
def cqRelease (q : Nat) (s : State) : State :=
  if (s.qp q).en then
    let s1 := s.modQp q fun p => { takeCq p.rp p with mark := p.mark - p.rp, rp := 0 }
    settleReset q (writeAborts q (s1.qp q).aborts.length s1)
  else s

def execCqMark (who : Agent) (q : QId) (s : State) : Out := keepQueue s <| sentBy who s <|
  if pageRefused s who q then done (refusePage who q 0x58 s) else done (cqMark q s)
def execCqRewind (who : Agent) (q : QId) (s : State) : Out := keepQueue s <| sentBy who s <|
  if pageRefused s who q then done (refusePage who q 0x60 s) else done (cqRewind q s)
def execCqRelease (who : Agent) (q : QId) (s : State) : Out := keepQueue s <| sentBy who s <|
  if pageRefused s who q then done (refusePage who q 0x68 s) else done (cqRelease q s)

/-- QUEUE_RESET and QUEUE_RESET_DROP (R233). -/
def execQueueReset (who : Agent) (q : QId) (s : State) : Out := keepQueue s <| sentBy who s <|
  if pageRefused s who q then done (refusePage who q 0x100 s) else done (wrQReset q false s)
def execQueueResetDrop (who : Agent) (q : QId) (s : State) : Out := keepQueue s <| sentBy who s <|
  if pageRefused s who q then done (refusePage who q 0x100 s) else done (wrQReset q true s)

/-- Register reads of a pair (Tables 9.5, 9.6, 12.2). -/
def rdSqcCfg (p : QPair) : Word :=
  cat [on 63 p.en, at_ 60 p.err, at_ 48 p.tid, at_ 46 p.cls, at_ 40 p.sqsz, at_ 36 p.cqsz, on 35 p.xlate]
def rdSqcStat (s : State) (q : Nat) : Word :=
  let l := cmdsOf s q
  cat [at_ 62 (s.qp q).state, at_ 16 (BitVec.ofNat 11 (l.filter (·.started)).length),
    at_ 0 (BitVec.ofNat 11 (l.filter fun c => !c.started).length)]
def sqPart (p : QPair) : Bool := match p.sq.getLast? with
  | some w => !w.2
  | none => false
def rdSqStat (p : QPair) : Word :=
  if p.en then
    cat [on 63 p.ovf, on 62 (sqPart p), at_ 60 p.state, at_ 16 (BitVec.ofNat 14 (sqWords p - p.sq.length)),
      at_ 0 (BitVec.ofNat 11 (packets p.sq))]
  else 0
def rdCqStat (p : QPair) : Word :=
  if p.en then
    cat [on 63 p.em, at_ 32 (BitVec.ofNat 13 p.rp), at_ 16 (BitVec.ofNat 13 (p.cq.length - p.rp)),
      at_ 0 (BitVec.ofNat 12 (packets (p.cq.drop p.rp)))]
  else 0
def rdRststat (p : QPair) : Word := if p.en = false then 0 else cat [on 63 p.rdone, at_ 32 p.nsupp, at_ 16 p.nabort, at_ 0 p.ndrop]
def rdIntcfg (p : QPair) : Word := cat [on 63 p.intEn, at_ 56 p.file, at_ 36 p.ihart, at_ 0 p.eiid]
def rdIntcoal (p : QPair) : Word := cat [at_ 16 p.thr, at_ 0 p.tmo]
def rdIntstat (p : QPair) : Word := cat [at_ 32 p.pend, at_ 0 p.sent]

/-- Register writes of a pair (Tables 9.5, 9.6, 12.2). A write of INTCFG applies R302 from that moment. -/
def wrSqStat (q : Nat) (v : Word) (s : State) : State :=
  s.modQp q fun p => if p.en && bit v 63 then { p with ovf := false } else p
def wrNsmask (q : Nat) (v : Word) (s : State) : State := s.modQp q fun p => { p with nsmask := v }
def wrIntcfg (q : Nat) (v : Word) (s : State) : State :=
  qpMsiCheck q (s.modQp q fun p => { p with
    intEn := bit v 63
    file := if (fld v 56 4).toNat ≤ 8 then fld v 56 4 else p.file
    ihart := if (fld v 36 10).toNat < 960 then fld v 36 10 else p.ihart
    eiid := if fld v 0 8 = 0 then p.eiid else fld v 0 8 })
def wrIntcoal (q : Nat) (v : Word) (s : State) : State :=
  qpMsiCheck q (s.modQp q fun p => { p with
    thr := if fld v 16 8 = 0 then p.thr else fld v 16 8
    tmo := if (fld v 0 16).toNat ≤ 10000 then fld v 0 16 else p.tmo })

/-- MSI_COALESCE_TIMEOUT (R302): TMO has passed since the oldest pending completion became visible. -/
def execMsiCoalesceTimeout (q : QId) (s : State) : Out := keepQueue s <|
  if (s.qp q).intEn ∧ (s.qp q).pend ≠ 0 then done (sendQpMsi q s) else done s

/-- VEST.STOR reads and writes (Table 9.2). -/
def rdStorCtl (s : State) : Word := cat [on 63 s.stor.en, on 62 s.stor.wt, on 61 s.stor.dref, at_ 0 s.stor.st]
def rdArb (s : State) : Word := cat [at_ 16 s.stor.wh, at_ 8 s.stor.wm, at_ 0 s.stor.wl]
def wrArb (v : Word) (s : State) : State :=
  let t := s.stor
  { s with stor := { t with
    wh := if fld v 16 8 = 0 then t.wh else fld v 16 8
    wm := if fld v 8 8 = 0 then t.wm else fld v 8 8
    wl := if fld v 0 8 = 0 then t.wl else fld v 0 8 } }
def rlInuse (s : State) : Nat := (s.stor.cmds.filter (·.lock)).length
def rdRl (s : State) : Word := cat [at_ 32 s.stor.waits, at_ 16 s.stor.hwm, at_ 0 (BitVec.ofNat 13 (rlInuse s))]
def wrRl (v : Word) (s : State) : State := { s with stor := { s.stor with waits := fld v 32 32, hwm := fld v 16 13 } }
def rdPool (s : State) : Word := at_ 0 (BitVec.ofNat 12 (poolFree s))

/-- A command completes (R228, Table 9.12): its lock and reservation are freed, the completion is written, or suppressed
and counted while its pair resets; commands that waited on it start. -/
def completeCmd (c : Cmd) (status elba : Nat) (s : State) : State :=
  let s1 := { s with stor := { s.stor with cmds := s.stor.cmds.filter fun d => d.id ≠ c.id } }
  let s2 :=
    if (s1.qp c.q).state = 2 then
      let s3 := s1.modQp c.q fun p => { p with nsupp := p.nsupp + 1 }
      settleReset c.q (writeAborts c.q (s3.qp c.q).aborts.length s3)
    else writeCompletion c.q c.cid status elba s1
  startWaiting s2

/-! ### Tenant reset (12 R316 to R321) -/

/-- Step 1 on one pair: the drop form, or conversion of a running reset (Table 12.9). -/
def tenantPair (q : Nat) (s : State) : State :=
  if (s.qp q).state = 2 then convertReset q s else startReset q true true s

/-- Start a tenant reset of TID `t` (R317, steps 1 to 3; the rest follows when its started commands complete). -/
def tenantReset (t : BitVec 12) (s : State) : State :=
  let qs := tidPairs s t
  let s1 := { s with belt := { s.belt with
    tBusy := true, tDone := false, tErr := 0, tCur := t, tPairs := qs, tActs := 0, tNdrop := 0, tNsupp := 0, tNqp := 0 } }
  let s2 := qs.foldl (fun a q => tenantPair q a) s1
  let s3 := withdrawActs t (fun c => c == 0 || c == 1 || c == 4) s2
  let s4 := (upto 256).foldl (fun a i =>
    let v := a.act i
    if v.active && !v.eng && decide (v.tid = t) && (decide (v.cls = 2) || decide (v.cls = 3)) then a.setAct i { v with remnant := true }
    else a) s3
  settleTenant s4

/-- SHARE (R322, OD 0x5001.00): an activity of the TID and class with SCOPE 0xF, BORROW 1 and a percentage budget, in the
entry that matches or the lowest free entry. -/
def execShare (x : DictCtx) (tid : BitVec 16) (cls pct : BitVec 8) (s : State) : Out := keepQueue s <|
  done (dictCommand x 0x5001 0 0 true (fun t =>
    if 4096 ≤ tid.toNat ∨ 6 ≤ cls.toNat ∨ pct = 0 ∨ 100 < pct.toNat then (t, stReserved, [])
    else
      let td : BitVec 12 := tid.setWidth 12
      let hit (i : Nat) : Bool := let v := t.act i
        v.en && !v.eng && decide (v.tid = td) && decide (v.cls.toNat = cls.toNat)
      let slot := match (upto 256).find? hit with
        | some i => some i
        | none => (upto 256).find? fun i => let v := t.act i
          !v.en && !v.active
      match slot with
      | none => (t, stExhausted, [])
      | some a =>
        let w := cat [on 63 true, on 62 true, at_ 58 (cls.setWidth 3), at_ 54 (0xF : BitVec 4), at_ 32 td,
          at_ 0 (BitVec.ofNat 32 (shareBudget t cls.toNat pct.toNat))]
        let t1 := wrAct a w t
        if t1.belt.errCode = 0 then (t1, stOK, []) else (t1, stNotQuiesced, leBytes 1 t1.belt.errCode.toNat)) s)

end Sys2Proof.Machine
end

