-- ==== Sys2Proof/Machine/Regul.lean ====
section
/-! DEFINITION. The injection regulators (07 R167 to R170): allowances, grants, and the packets held at an injection point. -/

namespace Sys2Proof.Machine

/-- The number of an injection point: cores, then root ports, then the media engine's port. -/
def pointNo : InjPoint → Nat
  | .core c => c
  | .rootPort p => 240 + p
  | .store => 246

/-- The allowance of an activity at a point. -/
def allowKey (pt a : Nat) : Nat := 256 * pt + a
def allowOf (s : State) (pt a : Nat) : Nat := tabGet s.fab.allow 0 (allowKey pt a)
def setAllow (pt a n : Nat) (s : State) : State := { s with fab := { s.fab with allow := tabSet s.fab.allow 0 (allowKey pt a) n } }

/-- The regulator asks the Belt for a grant. -/
def askGrant (pt a : Nat) (s : State) : State :=
  if s.fab.asked.contains (allowKey pt a) then s else { s with fab := { s.fab with asked := s.fab.asked ++ [allowKey pt a] } }

/-- A metered packet reaches its injection point: it passes (none), or its activity has no allowance for it (R168). -/
def injTake (pt : Nat) (tid : BitVec 12) (cost : Nat) (s : State) : State × Option Nat :=
  match matchAct s false tid 0 0 with
  | none => (s, none)
  | some a =>
    let n := allowOf s pt a
    if (s.fab.held.any fun e => e.pt == pt && e.act == a) || decide (n < cost) then (s, some a)
    else
      let s1 := setAllow pt a (n - cost) s
      (if n = cost then askGrant pt a s1 else s1, none)

/-- Hold a packet, or `k` packets that go one after the other, at an injection point (R169). -/
def holdPackets (pt a cost k : Nat) (p : HeldPkt) (s : State) : State :=
  let s1 := s.modAct a fun v => { v with holds := BitVec.ofNat 32 (min (v.holds.toNat + k) 0xFFFFFFFF) }
  askGrant pt a { s1 with fab := { s1.fab with held := s1.fab.held ++ [⟨pt, a, cost, p⟩] } }
def holdPacket (pt a cost : Nat) (c : Instr) (s : State) : State := holdPackets pt a cost 1 (.cmd c) s

/-- The media engine's port. -/
def storePt : Nat := 246

/-- Packets of 1 unit each reach the media engine's port: those that the allowance covers pass, the others are held. True when all
have passed. -/
def portTake (tid : BitVec 12) (cost : Nat) (p : HeldPkt) (s : State) : State × Bool :=
  match matchAct s false tid 0 0 with
  | none => (s, true)
  | some a =>
    if (s.fab.held.any fun e => e.pt == storePt && e.act == a) then (holdPackets storePt a cost cost p s, false)
    else
      let n := allowOf s storePt a
      let s1 := setAllow storePt a (n - cost) s
      if n < cost then (holdPackets storePt a (cost - n) (cost - n) p s1, false)
      else (if n = cost then askGrant storePt a s1 else s1, true)

/-- The packets of an activity at a point that its allowance now covers, oldest first. Those of one entry at the media engine's port
pass one by one. -/
def passHeld (pt a : Nat) : List Held → Nat → List Held × List HeldPkt × Nat
  | [], n => ([], [], n)
  | e :: r, n =>
    if e.pt = pt ∧ e.act = a then
      if e.cost ≤ n then
        let x := passHeld pt a r (n - e.cost)
        (x.1, e.pkt :: x.2.1, x.2.2)
      else if pt = storePt then ({ e with cost := e.cost - n } :: r, [], 0)
      else (e :: r, [], n)
    else
      let x := passHeld pt a r n
      (e :: x.1, x.2.1, x.2.2)

/-- A grant arrives (R168): GRANT units or what remains of the budget, else what can be borrowed. Answers the packets that pass. A
packet of an activity that is no longer in force passes uncharged. -/
def grantUnits (pt a : Nat) (s : State) : State × List HeldPkt :=
  if s.fab.asked.contains (allowKey pt a) = false then (s, [])
  else
    let s0 := { s with fab := { s.fab with asked := s.fab.asked.filter (· ≠ allowKey pt a) } }
    let v := s0.act a
    if v.active = false then
      let l := s0.fab.held.filter fun e => e.pt == pt && e.act == a
      ({ s0 with fab := { s0.fab with held := s0.fab.held.filter fun e => !(e.pt == pt && e.act == a) } }, l.map (·.pkt))
    else
      let left := (actSc v 0).left
      let g := s0.fab.grantF.toNat
      let n := if 0 < left then min g left else if v.borrowF then min g (poolOf s0 0 0) else 0
      let s1 := takeUnits a 0 n s0
      let x := passHeld pt a s1.fab.held (allowOf s1 pt a + n)
      let s2 := setAllow pt a x.2.2 { s1 with fab := { s1.fab with held := x.1 } }
      let more := x.1.any fun e => e.pt == pt && e.act == a
      (if more ∧ 0 < n then askGrant pt a s2 else s2, x.2.1)

/-- The cost of the packet that an entry's next one is. -/
def nextCost (e : Held) : Nat := if e.pt = storePt then 1 else e.cost

/-- The held packets at a boundary of class 0 (R168, R306): those of activities no longer in force pass uncharged, the oldest of
an activity passes in debt when its cost exceeds all that a period provides; the others ask again. -/
def boundaryHeld : List Held → List Nat → State → State × List Held × List HeldPkt
  | [], _, s => (s, [], [])
  | e :: r, seen, s =>
    if (s.act e.act).active = false then
      let x := boundaryHeld r seen s
      (x.1, x.2.1, e.pkt :: x.2.2)
    else if seen.contains e.act = false ∧ oversize s e.act 0 (nextCost e) = true then
      let s1 := takeDebt e.act 0 (nextCost e) s
      if nextCost e < e.cost then
        let x := boundaryHeld r (e.act :: seen) (askGrant e.pt e.act s1)
        (x.1, { e with cost := e.cost - nextCost e } :: x.2.1, x.2.2)
      else
        let x := boundaryHeld r (e.act :: seen) s1
        (x.1, x.2.1, e.pkt :: x.2.2)
    else
      let x := boundaryHeld r (e.act :: seen) (askGrant e.pt e.act s)
      (x.1, e :: x.2.1, x.2.2)

/-- The regulators at a boundary of class 0. -/
def regulBoundary (s : State) : State × List HeldPkt :=
  let x := boundaryHeld s.fab.held [] s
  ({ x.1 with fab := { x.1.fab with held := x.2.1 } }, x.2.2)

/-- VEST.FAB.REGCFG (Table 7.8). -/
def rdRegcfg (s : State) : Word := at_ 0 s.fab.grant
def wrRegcfg (v : Word) (s : State) : State :=
  let g := fld v 0 8
  if 1 ≤ g.toNat ∧ g.toNat ≤ 64 then { s with fab := { s.fab with grant := g } } else s

end Sys2Proof.Machine
end

