-- ==== Sys2Proof/Machine/Branch.lean ====
section
/-! DEFINITION. Indirect target prediction (02 R45 to R51). -/

namespace Sys2Proof.Machine

/-! ### The predictor (R45 to R48) -/

/-- The mode in effect: Off while SEC = 1 (R65). -/
def bpMode (x : Hart) : Nat := if x.sec then 2 else (fld (x.c 0x5C0) 0 2).toNat

/-- K, as the A100-compatible mode applies it; zero in the other modes. -/
def bpK (x : Hart) : Word := if bpMode x = 1 then x.c 0x5C1 else 0

/-- The context tag (R47): the ASID is vsatp's while V = 1 and satp's otherwise; the VMID is hgatp's in either case. DESIGN CHOICE
(log 135). -/
def bpTag (x : Hart) : BitVec 12 :=
  let asid := fld (x.c (if x.virt then 0x280 else 0x180)) 44 16
  let w : Word := cat [on 30 x.virt, at_ 28 x.priv, at_ 16 (fld (x.c 0x680) 44 12), at_ 0 asid]
  fld w 0 12 ^^^ fld w 12 12 ^^^ (fld w 24 8).setWidth 12

/-- The index of an indirect at `pc` under a path history (R46, Table 2.4). -/
def itbIdx (x : Hart) (hist : BitVec 9) (pc : Word) : Nat := (fld pc 1 9 ^^^ hist ^^^ fld (bpK x) 0 9).toNat

/-- The target that the buffer holds for an indirect. -/
def itbLook (s : State) (h : Nat) (pc : Word) : Option Word :=
  let x := s.hart h
  match tabFind (itbIdx x x.hist pc) (s.core (hartCore h)).itb with
  | none => none
  | some e =>
    if bpMode x = 0 ∧ e.compat = false then some e.target
    else if bpMode x = 1 ∧ e.compat = true ∧ e.tag = bpTag x then some (e.target ^^^ bpK x)
    else none

/-- A resolved indirect writes its entry when it was absent or held another target (R46). -/
def itbUpdate (h : Nat) (hist : BitVec 9) (pc target : Word) (s : State) : State :=
  let x := s.hart h
  if bpMode x = 2 then s
  else
    let e : ItbEnt := if bpMode x = 1 then ⟨true, bpTag x, target ^^^ bpK x⟩ else ⟨false, 0, target⟩
    s.modCore (hartCore h) fun k => { k with itb := tabInsert (itbIdx x hist pc) e k.itb }

/-- Pops and pushes of the return stack: 16 entries, stored XORed with K; not used in mode Off. -/
def rasPush (x : Hart) (l : List Word) (w : Word) : List Word := if bpMode x = 2 then [] else ((w ^^^ bpK x) :: l).take 16
def rasPop (x : Hart) (pop : Bool) (l : List Word) : List Word := if bpMode x = 2 then [] else if pop then l.drop 1 else l
def rasMove (x : Hart) (pop : Bool) (push : Option Word) (l : List Word) : List Word :=
  match push with
  | some w => rasPush x (rasPop x pop l) w
  | none => rasPop x pop l

/-- The path history after an indirect that went to `target` (R46). -/
def histNext (hist : BitVec 9) (target : Word) : BitVec 9 := (hist <<< 3) ^^^ fld target 1 9

/-- The predicted target: the return stack for a pop, else the buffer (R45). -/
def predict (s : State) (h : Nat) (pop : Bool) : Option Word :=
  let x := s.hart h
  if bpMode x = 2 then none
  else match pop, x.ras with
    | true, w :: _ => some (w ^^^ bpK x)
    | _, _ => itbLook s h x.pc

/-- The return-address hints of the RISC-V unprivileged specification (R45): the link registers are x1 and x5. -/
def isLink (r : XReg) : Bool := decide (r.val = 1 ∨ r.val = 5)
def hintPop (rd rs1 : XReg) : Bool := isLink rs1 && !(isLink rd && decide (rs1 = rd))
def hintPush (rd : XReg) (link : Word) : Option Word := if isLink rd then some link else none

/-- An indirect issues (R49): with a prediction the hart goes on along it; without one its fetch stalls. -/
def issueIndirect (h len : Nat) (rd rs1 : XReg) (s : State) : State :=
  let x := s.hart h
  let pop := hintPop rd rs1
  let push := hintPush rd (x.pc + BitVec.ofNat 64 len)
  let p := predict s h pop
  let y := { x with
    indir := some ⟨x.pc, p.isSome, p.getD 0, x.hist, x.ras, pop, push, len, rd⟩
    fetchStop := p.isNone
    ras := rasMove x pop push x.ras
    wrong := 0
    wrongStop := false
    specPc := p.getD 0
    path := []
    specFill := [] }
  let s1 := s.setHart h y
  if p.isSome then countEvent h 4 1 s1 else s1

end Sys2Proof.Machine
end

