-- ==== Sys2Proof/Machine/Pocket.lean ====
section
/-! DEFINITION. The Pocket event recorder and the error registers (16): writing records, the flash mirror, the read port,
clearing, error MSIs. -/

namespace Sys2Proof.Machine

/-- Size of the ring in bytes. -/
def ringSize : Nat := 0x400000

/-- The 64-bit words of a payload. -/
def payWords : Nat → List Byte → List Word
  | 0, _ => []
  | n + 1, l => BitVec.ofNat 64 (leNat (l.take 8)) :: payWords n (l.drop 8)

/-- A record as the read port delivers it (R403): a secure payload as zeros; a damaged record as CORRUPT. -/
def portWords (g : PktRec) : List Word :=
  let n := g.rpt.payload.length / 8
  if g.bad then
    [0, recWord1 ⟨0, 0, false, 0x004, zeros (g.rpt.payload.length)⟩ 1 true] ++ List.replicate n 0
  else
    [BitVec.ofNat 64 g.time, recWord1 g.rpt g.rep true] ++
      (if g.rpt.sec then List.replicate n 0 else payWords n g.rpt.payload)

/-- Send the error MSI if its target may receive it (R398), and start the 10 µs interval. -/
def sendErrMsi (s : State) : State :=
  let p := s.pkt
  let h := p.msiHart.toNat
  let s1 := { s with pkt := { p with msiLast := some s.time, msiDefer := false } }
  if hartPresent s h && !hartFailed s h then imsicSet h 0 p.msiEiid.toNat s1 else s1

/-- After a new record of class `cls` (R398): send, or cover it by the next MSI. -/
def errMsiFor (cls : BitVec 3) (s : State) : State :=
  let p := s.pkt
  if p.msiEn && decide (1 ≤ cls.toNat) && inMask p.msiMask (cls.toNat - 1) then
    match p.msiLast with
    | some t => if s.time < t + 1000 then { s with pkt := { p with msiDefer := true } } else sendErrMsi s
    | none => sendErrMsi s
  else s

/-- Records that occupy any of the bytes [a, b) of the ring. -/
def recHits (a b : Nat) (g : PktRec) : Bool := decide (g.off < b ∧ a < g.off + recSize g.rpt)

/-- Word 1 of a record that is no longer valid is zero in the ring (R401). -/
def unrecord (g : PktRec) (m : List (Nat × Byte)) : List (Nat × Byte) := backPut (g.off + 8) (zeros 8) m

/-- Advance TAIL past the records that hold any of the bytes [a, b), and count them in OVERWR (R401). -/
def evictRecs (a b : Nat) (p : Pkt) : Pkt :=
  let n := (p.ring.filter (recHits a b)).length
  let gone := p.ring.any fun g => recHits a b g && g.off == p.rdOff.toNat
  { p with
    rdLoaded := if gone then false else p.rdLoaded
    ring := p.ring.filter (fun g => !recHits a b g)
    back := (p.ring.filter (recHits a b)).foldl (fun m g => unrecord g m) p.back
    overwr := satAdd p.overwr n }

/-- Write one record at offset `o`. -/
def putRec (o time rep : Nat) (r : Report) (p : Pkt) : Pkt :=
  let p1 := evictRecs o (o + recSize r) p
  let g : PktRec := ⟨o, time, rep, r, false, false⟩
  let ring := p1.ring ++ [g]
  let hd := (o + recSize r) % ringSize
  { p1 with ring := ring, back := backPut o (recBytes g) p1.back, head := hd, tail := (ring.head?.map (·.off)).getD 0, written := satInc p1.written }

/-- Write a new record (R401): a PAD record fills the rest of the ring when the record does not fit before its end. -/
def newRec (time rep now : Nat) (r : Report) (p : Pkt) : Pkt :=
  let fits := decide (p.head + recSize r ≤ ringSize)
  let p1 := if fits then p
    else putRec p.head time 1 ⟨0, 0, false, 0, zeros (ringSize - p.head - 16)⟩ p
  let p2 := putRec (if fits then p.head else 0) time rep r p1
  let g : PktRec := ⟨if fits then p.head else 0, time, rep, r, false, false⟩
  { p2 with
    waitFrom := if p2.waitFrom.isSome then p2.waitFrom else some now
    waitFatal := if r.cls = 4 then (if p2.waitFatal.isSome then p2.waitFatal else some now) else p2.waitFatal
    retained := if retainedType r then some g else p2.retained
    retPend := if retainedType r then false else p2.retPend }

/-- Two records are the same by R411: TIME, SRC and TYPE. -/
def sameRec (g q : PktRec) : Bool := decide (q.time = g.time ∧ q.rpt.src = g.rpt.src ∧ q.rpt.type = g.rpt.type)

/-- Records that wait to be mirrored, oldest first; a retained record that was written again goes before them (R81, R410). -/
def waitRecs (p : Pkt) : List PktRec :=
  let w := p.ring.filter fun g => !g.mirrored && decide (g.rpt.type ≠ 0)
  match p.retained with
  | some g => if p.retPend then w.filter (sameRec g) ++ w.filter (fun q => !sameRec g q) else w
  | none => w

/-- Bytes of a list of records. -/
def recsBytes (l : List PktRec) : Nat := l.foldl (fun a g => a + recSize g.rpt) 0

/-- The records that fit in `room` bytes, oldest first. -/
def packRecs : Nat → List PktRec → List PktRec
  | _, [] => []
  | room, g :: r => if recSize g.rpt ≤ room then g :: packRecs (room - recSize g.rpt) r else []

/-- The lane groups that hold the mirror's copies (R286, R409): the journal home, which is the lowest-numbered usable lane group, and the
next usable one. -/
def mirLgs (s : State) : List Nat :=
  ((upto 8).filter fun g => let t := tabGet s.ftl.lgs LgSt.reset g
    decide (t.state = 2 ∨ t.state = 4)).take 2

/-- Units of an SLC system band of the journal home: the capacity of band 3 (R409). -/
def mirCap (s : State) : Nat :=
  match (mirLgs s).head? with
  | some g =>
    let t := (tabGet s.ftl.lgs LgSt.reset g).geo
    16 * (4 * t.planes * t.pages / (if t.qlc then 4 else 3) - 1)
  | none => 0

/-- The second copy exists. -/
def mirTwo (s : State) : Bool := decide ((mirLgs s).length = 2)

/-- The rotation starts when fewer than 16 units are left, which take what is appended meanwhile (DESIGN CHOICE, log 164). -/
def mirFull (cap : Nat) (p : Pkt) : Bool := decide (0 < cap ∧ cap ≤ p.mir0.length + 16)

/-- Program one mirror unit in the copies that are not being rotated (R409, R410): MAGIC, length and MSEQ, then up to 4,064 B of
records. `two`: the second copy exists. With no copy to append to, the records wait. -/
def mirProgram (cap : Nat) (two : Bool) (p : Pkt) : Pkt :=
  let w := packRecs 4064 (waitRecs p)
  if w = [] then p
  else
    let rot := if p.rot = 0 ∧ mirFull cap p = true then 1 else p.rot
    let p0 := { p with rot := rot, mirState := if rot = 0 then p.mirState else 2 }
    let to0 := decide (rot ≠ 1)
    let to1 := two && decide (rot ≠ 2 ∧ (cap = 0 ∨ p.mir1.length < cap))
    if !to0 && !to1 then p0
    else
      let u : MirUnit := ⟨p.mseq, w⟩
      let ring := p.ring.map fun g => if w.contains g then { g with mirrored := true } else g
      let left := ring.filter fun g => !g.mirrored && decide (g.rpt.type ≠ 0)
      { p0 with
        mir0 := if to0 then p.mir0 ++ [u] else p.mir0, mir1 := if to1 then p.mir1 ++ [u] else p.mir1
        mseq := p.mseq + 1, ring := ring, retPend := false
        waitFrom := if left = [] then none else p.waitFrom
        waitFatal := if left.any (fun g => g.rpt.cls = 4) then p.waitFatal else none }

/-- The escape band of the journal home keeps the mirror (R272, R286): its number is above those of the parity-scratch bands. -/
def mirEscape (s : State) : Bool :=
  match (mirLgs s).head? with
  | some g => s.ftl.maps.bands.any fun e => decide (e.1 / 65536 = g ∧ e.2.kind = 4 ∧ e.2.seg = 3) &&
      s.ftl.maps.bands.any fun x => decide (x.1 / 65536 = g ∧ x.2.kind = 3 ∧ x.1 < e.1)
  | none => false

/-- STATE of the mirror while it is available (Table 16.6). -/
def mirNow (s : State) : BitVec 2 := if s.pkt.rot ≠ 0 then 2 else if mirEscape s then 3 else 1

/-- Records as units of at most 4 KiB, MSEQ from `q`. The fuel bounds their number. -/
def packUnits : Nat → Nat → List PktRec → List MirUnit
  | 0, _, _ => []
  | n + 1, q, l =>
    let w := packRecs 4064 l
    if w = [] then [] else ⟨q, w⟩ :: packUnits n (q + 1) (l.drop w.length)

/-- An erased copy takes the ring's current contents (R410, step 2). -/
def mirRewrite (copy : Nat) (p : Pkt) : Pkt :=
  let u := packUnits 4096 p.mseq (p.ring.filter fun g => decide (g.rpt.type ≠ 0))
  { p with
    mir0 := if copy = 0 then u else p.mir0, mir1 := if copy = 1 then u else p.mir1
    mseq := p.mseq + u.length, ring := p.ring.map fun g => { g with mirrored := true }
    waitFrom := none, waitFatal := none, retPend := false }

/-- Program units while 4 KiB of records wait and the mirror is available (R409). -/
def mirFill : Nat → State → State
  | 0, s => s
  | n + 1, s =>
    if s.pkt.mirState ≠ 0 ∧ 4096 ≤ recsBytes (waitRecs s.pkt) then
      mirFill n { s with pkt := mirProgram (mirCap s) (mirTwo s) s.pkt }
    else s

/-- The retained record that the mirror lacks goes to the ring, unless it stands there, and is the first to be mirrored
(R81, R411). -/
def restoreRec (now : Nat) (p : Pkt) : Pkt :=
  match p.retained with
  | none => p
  | some g =>
    if ((p.mir0.map (·.recs)).flatten).any (sameRec g) then p
    else if p.ring.any (sameRec g) then { p with retPend := true }
    else { newRec g.time g.rep now g.rpt p with retPend := true }

/-- The mirror becomes available (R410, R411): MSEQ resumes, the retained record is restored, and the ring's records wait
to be mirrored. -/
def mirUp (s : State) : State :=
  let p := s.pkt
  let top := (p.mir0 ++ p.mir1).foldl (fun a u => max a u.mseq) 0
  let p1 := restoreRec s.time { p with mirState := mirNow s, mseq := top + 1 }
  mirFill 1024 { s with pkt := { p1 with waitFrom := if waitRecs p1 = [] then none else some s.time } }

/-- Place the LOST record when the queue has fallen to 32 entries and drops are counted (R408). -/
def placeLost (now : Nat) (p : Pkt) : Pkt :=
  if p.queue.length ≤ 32 ∧ p.ivCnt ≠ [] then
    let cnts := ((upto 16).map fun k => leBytes 4 (tabGet p.ivCnt 0 k).toNat).flatten
    let r := mkReport 0 0 0x002 false 80 (leBytes 8 p.ivFirst ++ leBytes 8 p.ivLast ++ cnts)
    { pktEnqueue r now 1 false p with ivCnt := [] }
  else p

/-- Lines of the ring that a new record is written into hold no uncorrectable word of an older one. -/
def cleanRing (o n : Nat) (s : State) : State :=
  let a := 0x1800000 + o % ringSize
  { s with dram := { s.dram with poison := s.dram.poison.filter fun e => ¬ (a < 64 * e.1 + 64 ∧ 64 * e.1 < a + n) } }

/-- Write the oldest queue entry (R405, R406): its count is added to an identical last record up to 65,535, and the
rest, or the whole, becomes a new record. -/
def writeEntry (e : PktEntry) (s : State) : State :=
  let p := { s.pkt with queue := s.pkt.queue.drop 1 }
  let fresh (n : Nat) (q : Pkt) : State :=
    let q1 := newRec e.time n s.time e.rpt q
    mirFill 4 (errMsiFor e.rpt.cls (cleanRing (ringSize + q1.head - recSize e.rpt) (recSize e.rpt) { s with pkt := placeLost s.time q1 }))
  match p.ring.getLast? with
  | some g =>
    if g.rpt = e.rpt ∧ g.bad = false ∧ g.rep < 65535 then
      let room := 65535 - g.rep
      let p1 := foldLast (min room e.count) g p
      if e.count ≤ room then { s with pkt := placeLost s.time p1 } else fresh (e.count - room) p1
    else fresh e.count p
  | none => fresh e.count p

/-- Clear the ring (R412): records invalidated, pointers and counts zero, then CLEARED as the first record. -/
def clearRing (agent : Nat) (s : State) : State :=
  let back := s.pkt.ring.foldl (fun m g => unrecord g m) s.pkt.back
  let p := { s.pkt with ring := [], back := back, head := 0, tail := 0, written := 0, overwr := 0, rdLoaded := false }
  let r := mkReport 0 0 0x003 false 8 (leBytes 1 agent)
  { s with pkt := newRec s.time 1 s.time r p }

/-- The permitted agents of CLEAR (R412): secure requests (0), MC-E (1), MC-W (2). -/
def clearAgent (s : State) (who : Agent) : Option Nat :=
  match who with
  | .mc .e => some 1
  | .mc .w => some 2
  | a => if agentSecure s a then some 0 else none

/-- Load record `g` into the read port. -/
def portLoad (g : PktRec) (p : Pkt) : Pkt :=
  { p with rdOff := BitVec.ofNat 22 g.off, rdBuf := portWords g, rdLoaded := true }

/-- The record that starts at offset `o`, or the one at TAIL (R403). -/
def portSelect (o : Nat) (p : Pkt) : Option PktRec :=
  match p.ring.find? (·.off = o) with
  | some g => some g
  | none => p.ring.head?

/-- The record that follows the one at offset `o`; the record at TAIL when that one is gone. -/
def portNext (o : Nat) : List PktRec → Option (Option PktRec)
  | [] => none
  | g :: r => if g.off = o then some r.head? else portNext o r

/-- A write of RDPTR (R403). -/
def rdptrWrite (o : Nat) (p : Pkt) : Pkt :=
  match portSelect o p with
  | some g => portLoad g p
  | none => { p with rdOff := BitVec.ofNat 22 o, rdBuf := [], rdLoaded := false }

/-- A read of RDDATA (R403): the next word; after the last word, the next record; at HEAD, the idle word. -/
def rddataRead (p : Pkt) : Pkt × Word :=
  match p.rdBuf with
  | w :: r => ({ p with rdBuf := r }, w)
  | [] =>
    let nxt :=
      if p.rdLoaded then
        match portNext p.rdOff.toNat p.ring with
        | some o => o
        | none => p.ring.head?
      else p.ring.head?
    match nxt with
    | some g =>
      match portWords g with
      | w :: r => ({ portLoad g p with rdBuf := r }, w)
      | [] => (p, BitVec.allOnes 64)
    | none => (p, BitVec.allOnes 64)

/-- Register reads of Table 16.6. -/
def rdPktPtr (p : Pkt) : Word := cat [at_ 32 (BitVec.ofNat 22 p.tail), at_ 0 (BitVec.ofNat 22 p.head)]
def rdPktCnt (p : Pkt) : Word := cat [at_ 32 p.written, at_ 0 p.overwr]
def rdPktQ (p : Pkt) : Word := cat [at_ 16 p.hwm, at_ 8 (BitVec.ofNat 8 (pktRsv p)), at_ 0 (BitVec.ofNat 7 (pktOcc p))]
def rdPktMir (p : Pkt) : Word := cat [at_ 62 p.mirState, at_ 0 (BitVec.ofNat 24 (recsBytes (waitRecs p)))]
def rdErrCls (p : Pkt) : Word := cat [at_ 48 p.fatal, at_ 32 p.ucs, at_ 16 p.defer, at_ 0 p.corr]
def rdSramEcc (p : Pkt) : Word := cat [at_ 32 p.sramUe, at_ 0 p.sramCe]
def rdErrMsi (p : Pkt) : Word := cat [on 63 p.msiEn, at_ 56 p.msiMask, at_ 36 p.msiHart, at_ 0 p.msiEiid]

/-- Register writes of Table 16.6; a reserved encoding leaves its field as it was (R7). -/
def wrPktQ (v : Word) (p : Pkt) : Pkt := { p with hwm := fld v 16 8 }
def wrDrop (k : Nat) (v : Word) (p : Pkt) : Pkt := { p with drops := tabSet p.drops 0 k (fld v 0 32) }
def wrErrCls (v : Word) (p : Pkt) : Pkt :=
  { p with fatal := fld v 48 16, ucs := fld v 32 16, defer := fld v 16 16, corr := fld v 0 16 }
def wrSramEcc (v : Word) (p : Pkt) : Pkt :=
  { p with sramUe := fld v 32 32, sramCe := fld v 0 32, sramBase := fld v 0 32 }
def wrErrCfg (v : Word) (p : Pkt) : Pkt := if fld v 0 16 = 0 then p else { p with ceth := fld v 0 16 }
def wrErrMsi (v : Word) (p : Pkt) : Pkt :=
  { p with
    msiEn := bit v 63
    msiMask := fld v 56 4
    msiHart := if (fld v 36 10).toNat < 960 then fld v 36 10 else p.msiHart
    msiEiid := if fld v 0 8 = 0 then p.msiEiid else fld v 0 8 }

/-- ERROR_REPORT (R406). -/
def execErrorReport (r : Report) (s : State) : Out := keepQueue s <| done (report r s)

/-- POCKET_RECORD_WRITE (R405): nothing happens on an empty queue. -/
def execPocketRecordWrite (s : State) : Out := keepQueue s <|
  match s.pkt.queue with
  | [] => done s
  | e :: _ => done (writeEntry e s)

/-- POCKET_MSI_HOLDOFF_EXPIRE (R398): the MSI that covers the records of the interval. -/
def execPocketMsiHoldoffExpire (s : State) : Out := keepQueue s <|
  if s.pkt.msiDefer && s.pkt.msiEn then done (sendErrMsi s)
  else done { s with pkt := { s.pkt with msiDefer := false } }

/-- POCKET_CLEAR (R412): a write of CLEAR = 1; from other agents it is discarded. -/
def execPocketClear (who : Agent) (s : State) : Out := keepQueue s <| sentBy who s <|
  match clearAgent s who with
  | some a => done (clearRing a s)
  | none => done s

/-- RDPTR_WRITE (R403). -/
def execRdptrWrite (who : Agent) (v : Word) (s : State) : Out := keepQueue s <| sentBy who s <|
  done { s with pkt := rdptrWrite (fld v 0 22).toNat s.pkt }

/-- RDDATA_READ (R403). -/
def execRddataRead (who : Agent) (s : State) : Out := keepQueue s <| sentBy who s <|
  let r := rddataRead s.pkt
  done { s with pkt := r.1, answer := .word r.2 }

/-- Bytes of words, least significant first. -/
def wordsBytes (l : List Word) : List Byte := (l.map fun w => leBytes 8 w.toNat).flatten

/-- Whole records from ring offset `o`, at most `mx` bytes, as the read port delivers them, padded as in the ring. -/
def recsFrom (o mx : Nat) (p : Pkt) : List Byte × Nat :=
  let start := p.ring.dropWhile fun g => g.off ≠ o
  let l := if start = [] then p.ring else start
  let take := packRecs mx l
  let one (g : PktRec) : List Byte := let b := wordsBytes (portWords g); b ++ zeros (recSize g.rpt - b.length)
  ((take.map one).flatten, match (l.drop take.length).head? with | some g => g.off | none => p.head)

/-- PKTREAD (R413, OD 0x6010.00): whole records from OFFSET, and the offset of the next record. -/
def execPktread (x : DictCtx) (off : BitVec 32) (mx : BitVec 16) (s : State) : Out := keepQueue s <|
  done (dictCommand x 0x6010 0 0 true (fun t =>
    if mx.toNat < 16 ∨ 8000 < mx.toNat then (t, stReserved, [])
    else
      let r := recsFrom off.toNat mx.toNat t.pkt
      (t, stOK, r.1 ++ leBytes 4 r.2)) s)

/-- The 4 KiB of a mirror unit (R409), secure payloads zeroed (R413). -/
def unitBytes (u : MirUnit) : List Byte :=
  let one (g : PktRec) : List Byte := let b := wordsBytes (portWords g); b ++ zeros (recSize g.rpt - b.length)
  let b := leBytes 4 0x4B504255 ++ leBytes 4 (recsBytes u.recs) ++ leBytes 8 u.mseq ++ zeros 16 ++ (u.recs.map one).flatten
  (b ++ zeros 4096).take 4096

/-- MIRREAD (R413, OD 0x6011.00): one mirror unit; FAILED when it is erased. -/
def execMirread (x : DictCtx) (copy : BitVec 8) (unit : BitVec 32) (s : State) : Out := keepQueue s <|
  done (dictCommand x 0x6011 0 1 true (fun t =>
    if 1 < copy.toNat ∨ unit = 0 then (t, stReserved, [])
    else
      match (if copy = 0 then t.pkt.mir0 else t.pkt.mir1)[unit.toNat - 1]? with
      | some u => (t, stOK, unitBytes u)
      | none => (t, stFailed, [])) s)

/-- PKTCLEAR (R412, OD 0x6012.00): as CLEAR, by the controller that serves the dictionary. -/
def execPktclear (x : DictCtx) (s : State) : Out := keepQueue s <|
  done (dictCommand x 0x6012 0 1 true (fun t => (clearRing (if t.own.holder = 2 then 2 else 1) t, stOK, [])) s)

end Sys2Proof.Machine
end

