-- ==== Sys2Proof/Machine/ArrErr.lean ====
section
/-! DEFINITION. Errors of the SRAM arrays (05 R122 to R125, 06 R148 cause 0x5). A command that reads arrays names the errors that its
reads find, in the array that serves it or in one that its snoops, its walk or its victims read. -/

namespace Sys2Proof.Machine

/-- UECNT of a Sleeve. -/
def countSlvUe (k : Nat) (s : State) : State := s.modSlv k fun v => { v with uecnt := satInc v.uecnt }

/-- Poison is created in a Sleeve's array: its counter, and a deferred error from `src` at `node`. -/
def countUe (k a src node : Nat) (s : State) : State :=
  report (mkReport src 2 0x011 (secureAddr s a) 16 (leBytes 8 a ++ leBytes 2 node)) (countSlvUe k s)

/-- An uncorrectable error in the L1D's or the L2's copy of a line: a copy that is not dirty at its level goes; a dirty line is
poisoned. -/
def coreUe (core : Nat) (e : CLine) (l1 : Bool) (s : State) : State :=
  let n := e.line
  let below : Bool := match l2Look (s.core core) n with
    | some b => l1 && decide (b.st = .M ∧ b.data = e.data ∧ b.poison = e.poison)
    | none => false
  if e.st = .M ∧ below = false then
    let f (c : CLine) : CLine := { c with poison := true }
    countUe (core / 20) (64 * n) (0x1000 + 4 * core) (coreNode core) (s.modCore core fun k =>
      if l1 then { k with l1d := cMod k.l1d 8 (l1dT n) n f } else { k with l2 := cMod k.l2 8 (l2T n) n f })
  else
    let s1 := if l1 then dropResv core n (s.modCore core fun k => { k with l1d := cDel k.l1d 8 (l1dT n) n })
      else s.modCore core fun k => { k with l2 := cDel k.l2 8 (l2T n) n }
    countCe (core / 20) (64 * n) (l1Gone core (BitVec.allOnes 16) e s1)

/-- An uncorrectable error in the sleeve cache's copy. -/
def l3Ue (k : Nat) (e : CLine) (s : State) : State :=
  if e.st = .M then countUe k (64 * e.line) (0x2000 + k) (sliceNode k (lineSlice e.line)) (l3Mod k e.line (fun c => { c with poison := true }) s)
  else countCe k (64 * e.line) (l3Evict k e s)

/-- An uncorrectable word in the ring damages the record that holds its line (Table 16.8). -/
def damage (a : Nat) (p : Pkt) : Pkt :=
  if ringAddr a then
    let o := (a - 0x1800000) / 64 * 64
    { p with ring := p.ring.map fun g => if recHits o (o + 64) g then { g with bad := true } else g }
  else p

/-- An uncorrectable word of a scratch way or of the Vest SRAM: its line is poisoned, counted and reported once (R125). -/
def homeUe (a : Nat) (s : State) : State :=
  match regionOf s a with
  | .scratch k _ _ => countUe k a (0x2000 + k) (sliceNode k (lineSlice (a / 64))) (setPoison (a / 64) true s)
  | .sram =>
    let s1 := { s with pkt := damage a { s.pkt with sramUe := satInc s.pkt.sramUe } }
    report (mkReport 0x0002 2 0x011 true 16 (leBytes 8 a ++ leBytes 2 (sramNode (a / 64 % 16)))) (setPoison (a / 64) true s1)
  | _ => s

/-- A corrected word there. -/
def homeCe (a : Nat) (s : State) : State :=
  match regionOf s a with
  | .scratch k _ _ => countCe k a s
  | .sram => countVestCe a s
  | _ => s

/-- An error in a data array, where it holds the line. -/
def dataErr (a : DataArr) (n : Nat) (ue : Bool) (s : State) : State :=
  match a with
  | .l1d c => (match l1dLook (s.core c) n with
    | some e => if ue then coreUe c e true s else countCe (c / 20) (64 * n) s
    | none => s)
  | .l2 c => (match l2Look (s.core c) n with
    | some e => if ue then coreUe c e false s else countCe (c / 20) (64 * n) s
    | none => s)
  | .l3 k => (match l3Data s k n with
    | some e => if ue then l3Ue k e s else countCe k (64 * n) s
    | none => s)
  | .home => if ue then homeUe (64 * n) s else homeCe (64 * n) s

/-- A parity error: the entry is treated as absent, the line is fetched again; corrected. -/
def parityErr (a : ParArr) (s : State) : State :=
  match a with
  | .l1i c n => (match l1iLook (s.core c) n with
    | some e => countCe (c / 20) (64 * n) (l1Gone c (BitVec.allOnes 16) e (s.modCore c fun k => { k with l1i := cDel k.l1i 4 (l1iT n) n }))
    | none => s)
  | .itlb h i => if i < (s.hart h).itlb.length then countCe (hartSleeve h) 0 (s.modHart h fun x => { x with itlb := x.itlb.eraseIdx i }) else s
  | .dtlb h i => if i < (s.hart h).dtlb.length then countCe (hartSleeve h) 0 (s.modHart h fun x => { x with dtlb := x.dtlb.eraseIdx i }) else s
  | .ras h i => if i < (s.hart h).ras.length then countCe (hartSleeve h) 0 (s.modHart h fun x => { x with ras := x.ras.eraseIdx i }) else s
  | .l2tlb c k => if (tabFind k (s.core c).l2tlb).isSome then countCe (c / 20) 0 (s.modCore c fun x => { x with l2tlb := tabErase k x.l2tlb }) else s
  | .walk c k => if (tabFind k (s.core c).walk).isSome then countCe (c / 20) 0 (s.modCore c fun x => { x with walk := tabErase k x.walk }) else s
  | .itb c k => if (tabFind k (s.core c).itb).isSome then countCe (c / 20) 0 (s.modCore c fun x => { x with itb := tabErase k x.itb }) else s

/-- The Sleeve of a tag array; none for the directory. -/
def tagSlv : TagArr → Option Nat
  | .l1d c | .l2 c => some (c / 20)
  | .l3 k | .sf k => some k
  | .dir => none

/-- An error in a tag: corrected; or fatal to the Sleeve's domain, and for a directory entry to the domains of the line's
permitted set (R148). -/
def tagErr (a : TagArr) (n : Nat) (ue : Bool) (s : State) : State :=
  match tagSlv a, ue with
  | some k, false => countCe k (64 * n) s
  | some k, true => failStopSleeve k 5 k (some n) (countSlvUe k s)
  | none, false => countFabCe s
  | none, true =>
    ((upto 4).filter fun d => (permitted s n).any fun k => domainOf s k == d).foldl (fun a d => failStop d 5 (0x10 + homeAgent n) (some n) a) (countFabUe s)

/-- A read of an array finds an error. -/
def meetErr (s : State) (e : ArrErr) : State :=
  match e with
  | .data a n ue => dataErr a n ue s
  | .parity a => parityErr a s
  | .tag a n ue => tagErr a n ue s
  | .copies (some k) n => countCe k (64 * n) s
  | .copies none n => countVestCe (64 * n) s
  | .device n => if regionOf s (64 * n) = .cxl then setPoison n true s else s

/-- The errors that a command's reads find. -/
def meet (l : List ArrErr) (s : State) : State := l.foldl meetErr s

end Sys2Proof.Machine
end

