-- ==== Sys2Proof/Machine/Link.lean ====
section
/-! DEFINITION. The Cuff protocol (07 R174 to R182): flits and their CRC, units and credits, acknowledgements, replay, the repair
pause, version messages; and one round of the fabric, which an idle step takes. -/

namespace Sys2Proof.Machine

/-! ### Flits (R174, R175, Table 7.12) -/

/-- The fields of a flit as it stands on the link. -/
def flitOf (f : BitVec 2048) : Flit where
  slots := (upto 7).map fun i => f.extractLsb' (256 * i) 256
  crd := f.extractLsb' 1968 48
  start := f.extractLsb' 1952 7
  slotVc := f.extractLsb' 1931 21
  msg := f.extractLsb' 1856 75
  seq := f.extractLsb' 1844 12
  ack := f.extractLsb' 1832 12
  nakSeq := f.extractLsb' 1820 12
  nak := f.getLsbD 1819
  ftype := f.extractLsb' 1816 3

/-- The CRC-32C of a flit, over its bytes 0 to 251, is the one it carries. -/
def flitCrcOk (f : BitVec 2048) : Bool := decide (f.extractLsb' 2016 32 = crc32c ((upto 252).map fun i => f.extractLsb' (8 * i) 8))

/-- The channel of slot `i`; 7 for an empty slot. -/
def Flit.chan (f : Flit) (i : Nat) : Nat := (f.slotVc.extractLsb' (3 * i) 3).toNat
/-- Units of a channel in a flit. -/
def Flit.units (f : Flit) (vc : Nat) : Nat := ((upto 7).filter fun i => f.chan i == vc).length

/-! ### Acknowledgements and replay (R175, R176) -/

/-- SEQ `a` lies in the window of sequence numbers acknowledged up to and including `ackSeq` (modulo 4096). -/
def ackedBy (ackSeq a : BitVec 12) : Bool := decide ((ackSeq - a).toNat < 2048)

/-- ACK and CRD of a good flit reach an end (R175, R176 rule 4): acknowledged flits leave the replay buffer; when ACK advances the
count of replays starts again. -/
def takeAck (f : Flit) (e : LinkEnd) : LinkEnd :=
  let left := e.replay.filter fun q => !ackedBy f.ack q.seq
  { e with
    replay := left
    lastAck := f.ack
    crd := f.crd
    replays := if left.length < e.replay.length then 0 else e.replays
    again := e.again.bind fun q => if left.any fun x => x.seq == q then some q else left.head?.map (·.seq) }

/-- RETRY_LIMIT is reached (R176 rule 5): a repair pause under version 2, in which both ends tell what they expect (R178 step 2), or
a retrain from step 3 under version 1. -/
def retryLimitHit (k : Nat) (s : State) : State :=
  let c := s.cuff k
  if (tabGet s.pkg.cuffVer 0 k).toNat ≥ 2 then
    reportCuff k 0 (repairedCount c.repaired) (s.setCuff k { c with state := 3, repair := satInc c.repair })
  else
    reportCuff k 1 (repairedCount c.repaired)
      (trainStart k 3 1 true (s.setCuff k { c with retrain := satInc c.retrain }))

/-- A replay of the sender at the given side from `q` on (R176 rules 3, 5): when RETRY_LIMIT replays in a row have passed without
ACK advancing, the pause or retrain starts instead, and the replay that follows it serves the request (Table 7.14). -/
def replayAt (k : Nat) (vestSide : Bool) (q : BitVec 12) (s : State) : State :=
  let c := s.cuff k
  let e := endOf c vestSide
  if e.replays ≥ c.retryLimF.toNat then retryLimitHit k (s.setCuff k (setEnd c vestSide { e with nakSeen := some q }))
  else
    let a := if e.replay.any fun x => x.seq == q then some q else none
    s.setCuff k { setEnd c vestSide { e with replays := e.replays + 1, again := a } with replay := satInc c.replay }

/-- ACK, CRD and NAK of a good flit that reaches a side (R176). -/
def takeControl (k : Nat) (toVest : Bool) (f : Flit) (s : State) : State :=
  let s1 := s.modCuff k fun c =>
    let c1 := setEnd c toVest (takeAck f (endOf c toVest))
    let o := endOf c1 (!toVest)
    setEnd c1 (!toVest) { o with nak := if f.nak then none else o.nak }
  if f.nak then replayAt k toVest f.nakSeq s1 else s1

/-- The flit of a SEQ carries the same units as another. -/
def sameUnits (a b : Flit) : Bool := a.seq == b.seq && a.slots == b.slots && a.start == b.start && a.slotVc == b.slotVc

/-- What sending a data flit makes of its sender (R164, R176): a new flit needs credits for its units and a place in the replay
buffer of 128, and takes the next SEQ; in a replay the buffered flits follow each other from the NAKSEQ on. Nothing else is sent. -/
def sendData? (f : Flit) (e : LinkEnd) : Option LinkEnd :=
  match e.again with
  | some q =>
    if f.seq = q ∧ (e.replay.any (sameUnits f)) = true then
      some { e with again := if e.replay.any fun x => x.seq == q + 1 then some (q + 1) else none }
    else none
  | none =>
    if f.seq = e.nextSeq ∧ e.replay.length < 128 ∧ ((upto 6).all fun v => decide (f.units v ≤ linkCredit e v)) = true then
      some { e with
        nextSeq := f.seq + 1
        replay := e.replay ++ [f]
        sent := (upto 6).foldl (fun a v => ctrAdd a v (f.units v)) e.sent }
    else none

/-! ### Units received (R164, R174) -/

/-- A unit arrives on a channel: the header of a new packet, or data of the one under way. Answers the packets still under way, a
packet that is complete, and a malformed header (R161). -/
def unitIn (vc : Nat) (start : Bool) (u : BitVec 256) (l : List (Nat × Packet)) : List (Nat × Packet) × Option Packet × Option Packet :=
  if start then
    let p : Packet := ⟨u.extractLsb' 0 64, u.extractLsb' 64 64, u.extractLsb' 128 64, u.extractLsb' 192 64, []⟩
    if malformed p || decide (p.vc ≠ vc) then (tabErase vc l, none, some p)
    else if p.len = 0 then (tabErase vc l, some p, none)
    else (tabInsert vc p l, none, none)
  else match tabFind vc l with
    | none => (l, none, none)
    | some p =>
      let q := { p with units := p.units ++ [u] }
      if q.units.length = q.len then (tabErase vc l, some q, none) else (tabInsert vc q l, none, none)

/-- A whole packet stands in the receive buffer of a Cuff: the one that waited at the sending adapter, or one that is new. -/
def landPacket (k : Nat) (toVest : Bool) (p : Packet) (s : State) : State :=
  let m := s.fab.mesh
  match m.flights.find? fun f => f.loc == NetPlace.tx k toVest && f.pkt == p with
  | some f => s.setFlights ((m.flights.filter fun g => decide (g.seq ≠ f.seq)) ++ [{ f with loc := .rx k toVest }])
  | none => { s with fab := { s.fab with mesh := { m with flights := m.flights ++ [⟨p, .rx k toVest, m.seq⟩], seq := m.seq + 1 } } }

/-- Slot `i` of an accepted flit. -/
def slotIn (k : Nat) (toVest : Bool) (f : Flit) (s : State) (i : Nat) : State :=
  if f.chan i = 7 then s
  else
    let x := unitIn (f.chan i) (f.start.getLsbD i) (f.slots.getD i 0) (endOf (s.cuff k) toVest).part
    let s1 := s.modCuff k fun c => setEnd c toVest { endOf c toVest with part := x.1 }
    match x.2 with
    | (some p, _) => landPacket k toVest p s1
    | (none, some p) => malformedError (if toVest then k else nodeDie p.srcN) s1
    | (none, none) => s1

/-- A data flit reaches a side (R176): with a good CRC and the SEQ expected it is accepted; any other is discarded, and NAK is set
with the SEQ expected next. -/
def recvData (k : Nat) (toVest : Bool) (f : Flit) (good : Bool) (s : State) : State :=
  let e := endOf (s.cuff k) toVest
  if good ∧ f.seq = e.expSeq then
    let s1 := s.modCuff k fun c => setEnd c toVest { endOf c toVest with expSeq := e.expSeq + 1, nak := none }
    takeControl k toVest f ((upto 7).foldl (slotIn k toVest f) s1)
  else s.modCuff k fun c => setEnd c toVest { endOf c toVest with nak := some e.expSeq }

/-- The main band carries flits: the Cuff is active and in no link power state. -/
def bandUp (s : State) (k : Nat) : Bool := decide ((s.cuff k).state = 2 ∧ (s.cuff k).lpow = 0)

/-- What reading a word of a Cuff buffer finds (R165). -/
def bufferEcc (r : EccResult) (s : State) : State :=
  match r with
  | .ok => s
  | .ce => countFabCe s
  | .ue => failStopAll 0x60 none (countFabUe s)

/-- CUFF_DATA_FLIT (R174, R176): a side sends a data flit, and the other receives it with the errors of the link. A flit that R176
does not let the sender send is none. -/
def execCuffDataFlit (k : SleeveId) (toVest : Bool) (f : BitVec 2048) (s : State) (err : BitVec 2048 := 0) (ecc : EccResult := .ok) : Out := keepQueue s <|
  let c := s.cuff k
  if bandUp s k && decide ((flitOf f).ftype = 0) && flitCrcOk f then
    match sendData? (flitOf f) (endOf c (!toVest)) with
    | some e => done (bufferEcc ecc (recvData k toVest (flitOf (f ^^^ err)) (flitCrcOk (f ^^^ err)) (s.setCuff k (setEnd c (!toVest) e))))
    | none => done s
  else done s

/-! ### Control, version and repair messages (R175, R178, R179) -/

/-- A version message reaches a side (R179): the other end's map and SEL. The Vest shows the Sleeve's map in VERMAP. -/
def versionIn (k : Nat) (toVest : Bool) (map sel : BitVec 8) (s : State) : State :=
  let c := s.cuff k
  let c1 := setEnd c toVest { endOf c toVest with verSeen := map, selSeen := sel }
  let s1 := s.setCuff k (if toVest then { c1 with vermap := map } else c1)
  let mine := if toVest then fuseVmap (fuseOf s 12) else fuseVmap (fuseOf s k)
  if c.step = 7 ∧ (map &&& mine = 0 ∨ (sel ≠ 0 ∧ sel.toNat ≠ versionSel map mine)) then attemptFails k s1 else s1

/-- A repair message reaches a side (R178): the other end pauses, and says from where it wants to be replayed. There is no repair
pause under version 1. -/
def repairIn (k : Nat) (toVest : Bool) (nakSeq : BitVec 12) (s : State) : State :=
  let c := s.cuff k
  if ¬ (c.state = 2 ∨ c.state = 3) ∨ (tabGet s.pkg.cuffVer 0 k).toNat < 2 then s
  else
    let c1 := setEnd c toVest { endOf c toVest with nakSeen := some nakSeq }
    if c.state = 3 then s.setCuff k c1
    else reportCuff k 0 (repairedCount c.repaired) (s.setCuff k { c1 with state := 3, repair := satInc c.repair })

/-- CUFF_CONTROL_FLIT (R175): a flit of FTYPE 1 to 3 reaches a side; one with a CRC error is discarded without a NAK. -/
def execCuffControlFlit (k : SleeveId) (toVest : Bool) (f : BitVec 2048) (s : State) (err : BitVec 2048 := 0) : Out := keepQueue s <|
  let g := flitOf (f ^^^ err)
  if flitCrcOk (f ^^^ err) = false then done s
  else match g.ftype.toNat with
    | 1 => if bandUp s k then done (takeControl k toVest g s) else done s
    | 2 => done (versionIn k toVest (g.msg.extractLsb' 0 8) (g.msg.extractLsb' 8 8) s)
    | 3 => done (repairIn k toVest g.nakSeq s)
    | _ => done s

/-- CUFF_VERSION_MSG (R179) and CUFF_REPAIR_MSG (R178): the messages by their contents. -/
def execCuffVersionMsg (k : SleeveId) (toVest : Bool) (crcOk : Bool) (map sel : BitVec 8) (s : State) : Out := keepQueue s <|
  if crcOk then done (versionIn k toVest map sel s) else done s
def execCuffRepairMsg (k : SleeveId) (toVest : Bool) (crcOk : Bool) (nakSeq : BitVec 12) (s : State) : Out := keepQueue s <|
  if crcOk then done (repairIn k toVest nakSeq s) else done s

/-- CUFF_ACK_TIMEOUT (R176 rule 3): no ACK advanced within ACK_TMO at a side that has unacknowledged flits; not counted
during a repair pause (Table 7.14). -/
def execCuffAckTimeout (k : SleeveId) (vestSide : Bool) (s : State) : Out := keepQueue s <|
  match (endOf (s.cuff k) vestSide).replay with
  | [] => done s
  | f :: _ => if bandUp s k then done (replayAt k vestSide f.seq s) else done s

/-- REPAIR_PAUSE_DONE (R178): lanes are remapped and both ends resume with a replay; when no module is usable a retrain follows,
from step 3 (log 119). -/
def execRepairPauseDone (k : SleeveId) (lanes : LaneFails) (s : State) : Out := keepQueue s <|
  let c := s.cuff k
  if c.state ≠ 3 then done s
  else
    let r := laneRepair s lanes
    let c1 := { c with mods := r.1, repaired := r.2 }
    if r.1 = 0 then
      done (reportCuff k 1 0 (trainStart k 3 1 true (s.setCuff k { c1 with retrain := satInc c.retrain })))
    else done (s.setCuff k { resumeEnds c1 with state := 2 })

/-! ### One round of the fabric -/

/-- The packets at an adapter that the next flit takes: whole packets in order, seven units in all. -/
def flitLoad : Nat → List Flight → List Packet
  | _, [] => []
  | n, f :: r => if f.pkt.size ≤ n then f.pkt :: flitLoad (n - f.pkt.size) r else []

/-- The header unit of a packet. -/
def Packet.header (p : Packet) : BitVec 256 := p.hw3 ++ p.hw2 ++ p.hw1 ++ p.hw0

/-- The slots of a flit that carries some packets: each unit with its channel and whether it is a header. -/
def loadSlots (l : List Packet) : List (BitVec 256 × Nat × Bool) :=
  l.flatMap fun p => (p.header, p.vc, true) :: p.units.map fun u => (u, p.vc, false)

/-- A flit of a side (R174 to R176): what it acknowledges, credits and asks for, and its units. -/
def buildFlit (e : LinkEnd) (ftype : BitVec 3) (seq : BitVec 12) (l : List (BitVec 256 × Nat × Bool)) : Flit where
  slots := (upto 7).map fun i => (l.getD i (0, 7, false)).1
  crd := e.freed
  start := maskOf 7 fun i => (l.getD i (0, 7, false)).2.2
  slotVc := (upto 7).foldr (fun i a => (a <<< 3) ||| BitVec.ofNat 21 (l.getD i (0, 7, false)).2.1) 0
  msg := 0
  seq := seq
  ack := e.expSeq - 1
  nakSeq := e.nak.getD 0
  nak := e.nak.isSome
  ftype := ftype

/-- The flit that a side sends next (R175, R176): of a replay under way, else of the packets that wait, else a control flit. -/
def nextFlit (s : State) (k : Nat) (toVest : Bool) : Flit :=
  let e := endOf (s.cuff k) (!toVest)
  let new (l : List Packet) : Flit :=
    if l = [] ∨ 128 ≤ e.replay.length then buildFlit e 1 0 [] else buildFlit e 0 e.nextSeq (loadSlots l)
  match e.again.bind fun q => e.replay.find? fun x => x.seq == q with
  | some f => { buildFlit e 0 f.seq [] with slots := f.slots, start := f.start, slotVc := f.slotVc }
  | none => new (flitLoad 7 (s.fab.mesh.flights.filter fun f => f.loc == NetPlace.tx k toVest))

/-- One flit of one direction of a Cuff, received without error. -/
def flitTick (toVest : Bool) (s : State) (k : Nat) : State :=
  if bandUp s k then
    let f := nextFlit s k toVest
    if f.ftype = 0 then
      match sendData? f (endOf (s.cuff k) (!toVest)) with
      | some e => recvData k toVest f true (s.setCuff k (setEnd (s.cuff k) (!toVest) e))
      | none => s
    else takeControl k toVest f s
  else s

/-- One round of the Cuffs. -/
def cuffTick (s : State) : State := (upto 12).foldl (flitTick false) ((upto 12).foldl (flitTick true) s)

end Sys2Proof.Machine
end

