-- ==== Sys2Proof/Machine/CohMsg.lean ====
section
/-! DEFINITION. The coherence messages one by one (06 R133 to R143, R148): requests, snoops, responses, data and write-backs as
they arrive, transactions at the homes, and their timeouts. -/

namespace Sys2Proof.Machine

/-! ### Transactions -/

/-- The active transaction for a line at a home. -/
def txnOf (s : State) (l : Level) (n : Nat) : Option Txn := s.coh.txns.find? fun t => t.lvl == l && t.line == n
def setTxn (l : Level) (n : Nat) (f : Txn → Txn) (s : State) : State :=
  { s with coh := { s.coh with txns := s.coh.txns.map fun t => if t.lvl = l ∧ t.line = n then f t else t } }
def dropTxn (l : Level) (n : Nat) (s : State) : State :=
  { s with coh := { s.coh with txns := s.coh.txns.filter fun t => ¬ (t.lvl = l ∧ t.line = n) } }

/-- Outstanding requests of agents (R134). -/
def mshrOf (s : State) (l : Level) (a n : Nat) : Option Mshr := s.coh.mshr.find? fun m => m.lvl == l && m.agent == a && m.line == n
def setMshr (l : Level) (a n : Nat) (f : Mshr → Mshr) (s : State) : State :=
  { s with coh := { s.coh with mshr := s.coh.mshr.map fun m => if m.lvl = l ∧ m.agent = a ∧ m.line = n then f m else m } }
def dropMshr (l : Level) (a n : Nat) (s : State) : State :=
  { s with coh := { s.coh with mshr := s.coh.mshr.filter fun m => ¬ (m.lvl = l ∧ m.agent = a ∧ m.line = n) } }

/-- Data that a home sends to a requester, which has it still to come. -/
def grantData (l : Level) (dest n : Nat) (st : LState) (d : LineData × Bool) (s : State) : State :=
  setMshr l dest n (fun m => { m with needData := true }) (sendData l homeEnd dest n st d s)

/-- Whether an agent holds a copy of a line. -/
def agentHolds (s : State) (l : Level) (a n : Nat) : Bool :=
  match l with
  | .vest => decide (slvLevel s a n ≠ .I)
  | .sleeve k => (coreLook (s.core (coreId k a)) n).isSome

/-- The memory copy of a line. -/
def memCopy (s : State) (n : Nat) : LineData × Bool := (memLine s n, linePoison s n)

/-- Snoops sent to holders. -/
def sendSnoops (l : Level) (cmd n req : Nat) (hs : List Nat) (s : State) : State :=
  hs.foldl (fun a h => sendMsg { mkMsg l cmd homeEnd h n with req := req } a) s

/-- The old value's replacement by an AMO (A extension), in 32 or 64 bits. -/
def amoNew (op : AmoOp) (dbl : Bool) (old v : Word) : Word :=
  let w : Nat := if dbl then 64 else 32
  let a := BitVec.ofNat w old.toNat
  let b := BitVec.ofNat w v.toNat
  let r := match op with
    | .swap => b
    | .add => a + b
    | .xor => a ^^^ b
    | .and => a &&& b
    | .or => a ||| b
    | .min => if a.slt b then a else b
    | .max => if a.slt b then b else a
    | .minu => if a.ult b then a else b
    | .maxu => if a.ult b then b else a
  r.setWidth 64

/-- An atomic performed on memory at a home or a DRAM controller: the old value, which answers. The bytes pass through the merge
buffer where the array has one (R126). -/
def atomAt (op : AmoOp) (dbl : Bool) (addr : Nat) (v : Word) (s : State) : State × Word :=
  let n := if dbl then 8 else 4
  let old := BitVec.ofNat 64 (leNat (memBytes s addr n))
  let o := addr % 64
  (putPart (addr / 64) ((amoNew op dbl old v).setWidth 512 <<< (8 * o)) (maskOf 64 fun i => decide (o ≤ i ∧ i < o + n)) s, old)

/-- An atomic reads a poisoned line: nothing is written, the requester receives an error (Table 5.13). -/
def performAtom (t : Txn) (s : State) : State :=
  match t.aop with
  | some (op, dbl, addr, v) =>
    if linePoison s (addr / 64) then
      match t.who with
      | some w => { reportUcs w .amo addr (secureAddr s addr) s with answer := .error }
      | none => s
    else
      let r := atomAt op dbl addr v (clearResv (addr / 64) none s)
      { r.1 with answer := .word r.2 }
  | none => s

/-! ### The Vest level (Table 6.6) -/

/-- Begin a transaction at a home agent: data and snoops are sent; `wait` lists the answers still to come. -/
def startVest (t : Txn) (s : State) : State :=
  let n := t.line
  let k := t.req
  let active (t : Txn) (s : State) : State := { s with coh := { s.coh with txns := s.coh.txns ++ [{ t with since := s.time }] } }
  match t.kind with
  | .rds | .rdc =>
    let code := decide (t.kind = .rdc)
    let fresh : State := active t (grantData .vest k n (if code then .F else .E) (memCopy s n) (dirSet n (if code then .p [k] else .x k) s))
    match dirSt s n with
    | none => fresh
    | some .b => active t (grantData .vest k n .F (memCopy s n) s)
    | some (.p l) =>
      match nearestSlv s k (l.filter (· ≠ k)) with
      | none => fresh
      | some o => active { t with wait := [o], fwd := some o } (sendSnoops .vest 0x10 n k [o] s)
    | some (.x o) =>
      if o = k then fresh else active { t with wait := [o], fwd := some o } (sendSnoops .vest 0x10 n k [o] s)
  | .rdo | .upg =>
    let mem : State := active t (grantData .vest k n .M (memCopy s n) s)
    match dirSt s n with
    | none => mem
    | some .b =>
      let hs := (permitted s n).filter (· ≠ k)
      active { t with wait := hs } (grantData .vest k n .M (memCopy s n) (sendSnoops .vest 0x13 n k hs s))
    | some (.p l) =>
      let hs := l.filter (· ≠ k)
      if t.kind = .upg ∧ l.contains k then active { t with wait := hs } (sendSnoops .vest 0x13 n k hs s)
      else
        match nearestSlv s k hs with
        | none => mem
        | some o =>
          active { t with wait := hs, fwd := some o }
            (sendSnoops .vest 0x13 n k (hs.filter (· ≠ o)) (sendSnoops .vest 0x11 n k [o] s))
    | some (.x o) => if o = k then mem else active { t with wait := [o], fwd := some o } (sendSnoops .vest 0x11 n k [o] s)
  | .rdcur =>
    match dirSt s n with
    | some (.x o) => active { t with wait := [o], fwd := some o } (sendSnoops .vest 0x12 n k [o] s)
    | _ => active { t with got := some (memCopy s n) } s
  | .wrfull | .wrpart | .atom =>
    let hs := dirHolders s n 12
    active { t with wait := hs } (sendSnoops .vest 0x13 n k hs s)

/-- RdCur is answered: data, or an error completion for poisoned data (Table 5.13). -/
def answerCur (t : Txn) (d : LineData × Bool) (s : State) : State :=
  match t.who with
  | some w =>
    if d.2 then { reportUcs w .device (64 * t.line) (secureAddr s (64 * t.line)) s with answer := .error }
    else { s with answer := .bytes (bytesOfLine d.1) }
  | none => s

/-- A transaction whose requester's domain has fail-stopped ends (R149): no copy is left with the requester; a line whose data went
to it is poisoned. -/
def finishDead (t : Txn) (s : State) : State :=
  let n := t.line
  match t.kind with
  | .rds | .rdc =>
    let s1 := match t.got with
      | some d => memPut n d.1 d.2 s
      | none => s
    match t.fwd, dirSt s1 n with
    | some o, some (.x p) => if o = p then dirSet n (.p [o]) s1 else s1
    | _, _ => s1
  | _ => dirErase n (if t.fwd.isSome then setPoison n true s else s)

/-- End a transaction at a home agent: every answer has come. -/
def finishVest (t : Txn) (s : State) : State :=
  let n := t.line
  let k := t.req
  if k < 12 ∧ (s.fstop (domainOf s k)).active = true then finishDead t s
  else match t.kind with
  | .rds | .rdc =>
    if t.fwd.isNone then s
    else
      let s1 := match t.got with
        | some d => memPut n d.1 d.2 s
        | none => s
      match dirSt s1 n with
      | none => dirSet n (.p [k]) s1
      | some .b => s1
      | some (.x o) => dirSet n (.p (if o = k then [k] else [o, k])) s1
      | some (.p l) =>
        let l' := if l.contains k then l else l ++ [k]
        dirSet n (if l'.length ≤ 4 then .p l' else .b) s1
  | .rdo | .upg => sendMsg (mkMsg .vest 0x26 homeEnd k n) (dirSet n (.x k) s)
  | .rdcur => match t.got with
    | some d => answerCur t d s
    | none => s
  | .wrfull | .wrpart | .atom =>
    let s1 := match t.got with
      | some d => memPut n d.1 d.2 s
      | none => s
    let s2 := dirErase n s1
    if t.kind = .atom then performAtom t s2
    else
      writeAt n t.mask t.val t.poison (clearResv n none s2)

/-! ### The Sleeve level (Table 6.4) -/

/-- A way of the sleeve cache can take the line. -/
def l3Room (s : State) (k n : Nat) (mask : BitVec 16) : Bool :=
  match cLook (s.slv k).l3 16 (l3T n) n with
  | some x => !(s.slv k).drain.getLsbD x.1
  | none => (upto 16).any (l3Perm s k mask)

/-- The allocation masks that a message's fill follows: the core's thread 0, since a message names no hart. -/
def coreL3 (s : State) (k c : Nat) : BitVec 16 := l3Mask s (4 * coreId k c)
def coreL2 (s : State) (k c : Nat) : BitVec 8 := l2Ways s (4 * coreId k c)

/-- A slice asks the home agent for a line. -/
def askHome (k n : Nat) (kind : ReqKind) (s : State) : State :=
  let cmd := match kind with
    | .rds => 1
    | .rdc => 2
    | .rdo => 3
    | _ => 4
  let own := decide (kind = .rdo ∨ kind = .upg)
  let m : Mshr := ⟨.vest, k, n, own, decide (kind = .rdc), decide (kind ≠ .upg), own, false, []⟩
  sendMsg (mkMsg .vest cmd k homeEnd n) { s with coh := { s.coh with mshr := s.coh.mshr ++ [m] } }

/-- Begin a transaction at a slice. -/
def startSlice (k : Nat) (t : Txn) (s : State) : State :=
  let n := t.line
  let c := t.req
  let l := Level.sleeve (Fin.ofNat 12 k)
  let lvl := slvLevel s k n
  let active (t : Txn) (s : State) : State := { s with coh := { s.coh with txns := s.coh.txns ++ [{ t with since := s.time }] } }
  let others := (sfCores s k n).filter (· ≠ c)
  if (scratchSlv n).isSome then active t s
  else
    match t.kind with
    | .rds | .rdc =>
      if lvl = .I then active { t with home := true } (askHome k n t.kind s)
      else
        match ownerCore s k n with
        | some (h, _) => if h = c then active t s else active { t with wait := [h], fwd := some h } (sendSnoops l 0x10 n c [h] s)
        | none =>
          if (l3Data s k n).isSome then active t s
          else match nearestCore c others with
            | some h => active { t with wait := [h], fwd := some h } (sendSnoops l 0x10 n c [h] s)
            | none => active t s
    | _ =>
      let home := decide (lvl = .I ∨ lvl = .F)
      let s1 := if lvl = .I then askHome k n .rdo s else if lvl = .F then askHome k n .upg s else s
      let mine := (coreLook (s.core (coreId k c)) n).isSome
      let f := if mine || (l3Data s k n).isSome then none else nearestCore c others
      match f with
      | some h => active { t with wait := others, fwd := some h, home := home }
          (sendSnoops l 0x13 n c (others.filter (· ≠ h)) (sendSnoops l 0x11 n c [h]
            (setMshr l c n (fun m => { m with needData := true }) s1)))
      | none => active { t with wait := others, home := home } (sendSnoops l 0x13 n c others s1)

/-- Core `c`, whose data another core has supplied, is recorded: it becomes the F holder when no cache of the Sleeve is
(R132, Table 6.4). -/
def addSharer (k c n : Nat) (lvl : LState) (mask : BitVec 16) (s : State) : State :=
  let l := Level.sleeve (Fin.ofNat 12 k)
  let f := (sfFind s k n).bind fun x => x.2.fhold
  if (l3Data s k n).isSome then sfAdd k c n lvl none mask s
  else if f.isSome then sfAdd k c n lvl f mask s
  else sfAdd k c n lvl (some c) mask (setMshr l c n (fun m => { m with asF := true }) (s.modCore (coreId k c) (coreSetSt n .F)))

/-- The sleeve cache takes the data that an owner has supplied to core `c`, and is the F holder; with no permitted way dirty data
goes home in a WbK and `c` is the F holder (Table 6.4). -/
def takeShared (k c n : Nat) (lvl : LState) (d : LineData × Bool) (mask : BitVec 16) (s : State) : State :=
  let p := l3Put k mask ⟨n, lvl, d.1, d.2⟩ s
  if p.2 then sfAdd k c n lvl none mask p.1
  else addSharer k c n .E mask (if lvl = .M then homeWbK k n d.1 d.2 p.1 else p.1)

/-- End of a transaction for sharing in which core `h` was asked to forward. -/
def finishShare (k c n h : Nat) (t : Txn) (mask : BitVec 16) (s : State) : State :=
  let lvl := if slvLevel s k n ≠ .I then slvLevel s k n else if t.gst ≠ .I then t.gst else .F
  match t.got, (coreLook (s.core (coreId k h)) n).map (fun e => (e.data, e.poison)) with
  | some d, _ => takeShared k c n .M d mask s
  | none, some d => if decide (lvl = .E ∨ lvl = .M) && (l3Data s k n).isNone then takeShared k c n lvl d mask s else addSharer k c n lvl mask s
  | none, none => addSharer k c n lvl mask s

/-- End a transaction at a slice: the sleeve cache and the snoop filter take their new states, and what the slice supplies is
sent to the core. -/
def finishSlice (k : Nat) (t : Txn) (s : State) : State :=
  let n := t.line
  let c := t.req
  let l := Level.sleeve (Fin.ofNat 12 k)
  let mask := coreL3 s k c
  match t.kind with
  | .rds | .rdc =>
    match t.fwd, t.got with
    | some h, _ => if (scratchSlv n).isSome then sfAdd k c n .F none mask s else finishShare k c n h t mask s
    | none, some d =>
      if t.gst = .E then
        let p := l3Put k mask ⟨n, .I, 0, false⟩ s
        sendData l homeEnd c n .E d (sfAdd k c n .E none mask p.1)
      else
        let p := l3Put k mask ⟨n, .F, d.1, d.2⟩ s
        if p.2 then sendData l homeEnd c n .S d (sfAdd k c n .F none mask p.1)
        else sendData l homeEnd c n .F d (sfAdd k c n .F (some c) mask p.1)
    | none, none =>
      let r := slvRead k c n (decide (t.kind = .rdc)) mask s
      sendData l homeEnd c n r.2.st (r.2.data, r.2.poison) r.1
  | _ =>
    let mine := (coreLook (s.core (coreId k c)) n).isSome
    let here := (l3Data s k n).map fun e => (e.data, e.poison)
    let r := if (scratchSlv n).isSome then slvOwn k c n mask s
      else
        let s1 := l3Mod k n (fun _ => ⟨n, .I, 0, false⟩) (dropOthers k c n s)
        let s2 := if t.home || t.got.isSome then (l3Put k mask ⟨n, .I, 0, false⟩ s1).1 else s1
        (sfAdd k c n .M none mask s2, ⟨n, .M, 0, false⟩)
    let s3 := if mine || t.fwd.isSome then r.1
      else if (scratchSlv n).isSome then grantData l c n .M (r.2.data, r.2.poison) r.1
      else grantData l c n .M ((here.or t.got).getD (memCopy s n)) r.1
    sendMsg (mkMsg l 0x26 homeEnd c n) s3

/-! ### Serving a line -/

/-- The home has, or can have, an entry for the line; otherwise the allocation waits (R137, R141). -/
def homeRoom (s : State) (l : Level) (n : Nat) : Bool :=
  match l with
  | .vest => dirRoom s n
  | .sleeve k => sfRoom s k n

/-- Begin or end the transactions of a line at a home, in arrival order (R140). The fuel bounds their number. -/
def runLine : Nat → Level → Nat → State → State
  | 0, _, _, s => s
  | f + 1, l, n, s =>
    match txnOf s l n with
    | some t =>
      if t.wait = [] ∧ t.home = false ∧ homeRoom s l n = true ∧ (l = .vest ∧ txnHeld s n = true) = false then
        let s1 := dropTxn l n s
        runLine f l n (match l with
          | .vest => finishVest t s1
          | .sleeve k => finishSlice k t s1)
      else s
    | none =>
      match s.coh.queue.find? fun t => t.lvl == l && t.line == n with
      | none => s
      | some t =>
        if homeRoom s l n then
          let i := (firstIdx (fun u => u.lvl == l && u.line == n) s.coh.queue).getD 0
          let s1 := { s with coh := { s.coh with queue := s.coh.queue.eraseIdx i } }
          runLine f l n (match l with
            | .vest => startVest t s1
            | .sleeve k => startSlice k t s1)
        else s

/-- Serve a line until it waits. -/
def serveLine (l : Level) (n : Nat) (s : State) : State := runLine (2 * s.coh.queue.length + 4) l n s

/-- A new transaction's record. -/
def mkTxn (l : Level) (kind : ReqKind) (req n : Nat) (who : Option Agent) (now : Nat) : Txn :=
  ⟨l, n, kind, req, who, [], none, [], [], false, none, .I, 0, 0, false, none, now⟩

/-- A request arrives at a home: it queues in arrival order. -/
def arrive (t : Txn) (s : State) : State := serveLine t.lvl t.line { s with coh := { s.coh with queue := s.coh.queue ++ [t] } }

/-- The domains of a protocol error (R143, Table 6.12): cause 0x3 at a slice; cause 0x4 at a home agent, for the Sleeves in the
transaction. -/
def protoError (l : Level) (a n : Nat) (s : State) : State :=
  match l with
  | .sleeve k => failStopSleeve k 3 k (some n) s
  | .vest =>
    let ks := a :: ((txnOf s .vest n).map fun t => t.req :: t.wait).getD []
    (ks.filter fun k => decide (k < 12)).foldl (fun b k => failStopSleeve k 4 (0x10 + homeAgent n) (some n) b) s

/-- A message of a Sleeve whose domain has fail-stopped is discarded (Table 6.13, step 4); numbers that name no agent send
nothing. -/
def agentOff (s : State) (l : Level) (a : Nat) : Bool :=
  match l with
  | .vest => decide (12 ≤ a) || !slvPresent s a || (s.fstop (domainOf s a)).active
  | .sleeve k => decide (20 ≤ a) || !corePresent s (coreId k a) || (s.fstop (domainOf s k)).active

/-- A write-back or notice of an agent for a line awaits its answer. -/
def wbOut (s : State) (l : Level) (a n : Nat) : Option WbOut := s.coh.wbs.find? fun w => w.lvl == l && w.agent == a && w.line == n

def reqCmd : ReqKind → Nat
  | .rds => 1
  | .rdc => 2
  | .rdo => 3
  | _ => 4

/-- An agent that has a request outstanding for a line, or a write-back or notice unanswered, sends no request for it (R134 rules 1
and 2). One that it has sent is in flight. -/
def mayAsk (s : State) (m : Msg) : Bool :=
  (flightOf s (msgPacket s m)).isSome || ((mshrOf s m.lvl m.fr m.line).isNone && (wbOut s m.lvl m.fr m.line).isNone)

/-- A caching agent's request reaches its home. -/
def takeReq (kind : ReqKind) (l : Level) (a n : Nat) (s : State) : State :=
  let addr := 64 * n
  let dom := match l with
    | .vest => domainOf s a
    | .sleeve k => domainOf s k
  if agentOff s l a then s
  else if !cacheable (regionOf s addr) || !domainOk s dom addr then { s with answer := .error }
  else
    let own := decide (kind = .rdo ∨ kind = .upg)
    let s1 := if (mshrOf s l a n).isSome then s
      else { s with coh := { s.coh with mshr := s.coh.mshr ++
        [⟨l, a, n, own, decide (kind = .rdc), decide (kind ≠ .upg) || !agentHolds s l a n, own, false, []⟩] } }
    arrive (mkTxn l kind a n none s1.time) s1

/-- A caching agent's request (R134). -/
def agentReq (kind : ReqKind) (l : Level) (a n : Nat) (s : State) : State :=
  let m := mkMsg l (reqCmd kind) a homeEnd n
  if mayAsk s m then onMsg m s (takeReq kind l a n) else s

def execRds (l : Level) (fr line : Nat) (s : State) : Out := keepQueue s <| done (agentReq .rds l fr line s)
def execRdc (l : Level) (fr line : Nat) (s : State) : Out := keepQueue s <| done (agentReq .rdc l fr line s)
def execRdo (l : Level) (fr line : Nat) (s : State) : Out := keepQueue s <| done (agentReq .rdo l fr line s)
def execUpg (l : Level) (fr line : Nat) (s : State) : Out := keepQueue s <| done (agentReq .upg l fr line s)

/-- The home of a request of an agent that caches nothing: refused by R30, R73 and R36, and homed only for main memory that
is no scratch window. -/
def plainReq (who : Agent) (addr : Nat) (write : Bool) (t : Txn) (s : State) : State :=
  match refusal s who (agentSecure s who) write addr with
  | some k => refuse who k addr s
  | none =>
    match regionOf s addr with
    | .bootRom | .sram | .dram | .cxl => arrive t s
    | _ => refuse who .device addr s

/-- RDCUR. -/
def execRdcur (who : Agent) (line : Nat) (s : State) (errs : List ArrErr := []) : Out := keepQueue s <| sentBy who s <|
  done (plainReq who (64 * line) false (mkTxn .vest .rdcur (farEnd + agentNode who) line (some who) s.time) (meet errs s))
/-- WRFULL and WRPART. -/
def execWrfull (who : Agent) (line : Nat) (data : BitVec 512) (poison : Bool) (s : State) : Out := keepQueue s <| sentBy who s <|
  done (plainReq who (64 * line) true
    { mkTxn .vest .wrfull (farEnd + agentNode who) line (some who) s.time with mask := BitVec.allOnes 64, val := data, poison := poison } s)
def execWrpart (who : Agent) (line : Nat) (mask : BitVec 64) (data : BitVec 512) (poison : Bool) (s : State) : Out := keepQueue s <| sentBy who s <|
  done (plainReq who (64 * line) true
    { mkTxn .vest .wrpart (farEnd + agentNode who) line (some who) s.time with mask := mask, val := data, poison := poison } s)
/-- ATOMH and ATOMF (R144): an atomic at the home agent, or at the DRAM controller; naturally aligned. -/
def atomReq (who : Agent) (op : AmoOp) (dbl : Bool) (addr : Nat) (v : Word) (s : State) : State :=
  if addr % (if dbl then 8 else 4) ≠ 0 then { s with answer := .error }
  else plainReq who addr true { mkTxn .vest .atom (farEnd + agentNode who) (addr / 64) (some who) s.time with aop := some (op, dbl, addr, v) } s
def execAtomh (who : Agent) (op : AmoOp) (dbl : Bool) (addr : Nat) (v : BitVec 64) (s : State) : Out := keepQueue s <| sentBy who s <|
  done (atomReq who op dbl addr v s)
def execAtomf (who : Agent) (op : AmoOp) (dbl : Bool) (addr : Nat) (v : BitVec 64) (s : State) : Out := keepQueue s <| sentBy who s <|
  done (atomReq who op dbl addr v s)

/-! ### Snoops (R138, Table 6.5) -/

/-- The current data that an agent holds, and whether it is dirty. -/
def agentData (s : State) (l : Level) (a n : Nat) : Option ((LineData × Bool) × Bool) :=
  match l with
  | .vest => if slvLevel s a n = .I then none else (slvData s a n).map fun d => (d, decide (slvLevel s a n = .M))
  | .sleeve k => (coreLook (s.core (coreId k a)) n).map fun e => ((e.data, e.poison), decide (e.st = .M))

/-- What a holder does to its copy: keep a shared copy, or give it up. -/
def agentShare (l : Level) (a n : Nat) (s : State) : State :=
  match l with
  | .vest => slvShare a n s
  | .sleeve k => match coreLook (s.core (coreId k a)) n with
    | some e => if e.st = .E ∨ e.st = .M then s.modCore (coreId k a) (coreSetSt n .S) else s
    | none => s
def agentDrop (l : Level) (a n : Nat) (s : State) : State :=
  match l with
  | .vest => slvDrop a n s
  | .sleeve k => coreDrop (coreId k a) n s

/-- The state in which a forward for sharing is granted: F between Sleeves; in a Sleeve S, or F when the sleeve cache can not
take the data of an owner. -/
def shareGrant (s : State) (l : Level) (a n req : Nat) : LState :=
  match l with
  | .vest => .F
  | .sleeve k =>
    let owned := match coreLook (s.core (coreId k a)) n with
      | some e => decide (e.st = .E ∨ e.st = .M)
      | none => false
    if owned && !l3Room s k n (coreL3 s k req) then .F else .S

/-- A forward between cores that a slice has ordered is void when the Sleeve loses the line: the requesting core has its data still
to come, and the home agent supplies it. -/
def voidForward (a n : Nat) (s : State) : State :=
  let sl := Level.sleeve (Fin.ofNat 12 a)
  match txnOf s sl n with
  | some t =>
    if t.home then
      let c := coreId a t.req
      let s1 := s.setFlights (s.fab.mesh.flights.filter fun f => ¬ (f.pkt.cmd = 0x30 ∧ f.pkt.line = n ∧ f.pkt.dst = coreNode c))
      setMshr sl t.req n (fun m => { m with needData := true }) (setTxn sl n (fun u => { u with fwd := none }) (coreDrop c n s1))
    else s
  | none => s

/-- An agent gives up its copy to a snoop: a request of its own for ownership that the home has not served yet has Data to come. -/
def snoopDrop (l : Level) (a n : Nat) (s : State) : State :=
  let s1 := setMshr l a n (fun m => { m with needData := true }) (agentDrop l a n s)
  match l with
  | .vest => voidForward a n s1
  | .sleeve _ => s1

/-- Answer a snoop from the state held (Table 6.5): RspWb while the line is in a WbM; a WbK is no crossing (R142). What an owner
forwards to SnpCur is the transaction's data. -/
def answerSnoop (m : Msg) (s : State) : State :=
  let l := m.lvl
  let a := m.dest
  let n := m.line
  let rsp (cmd : Nat) (s : State) : State := sendMsg (mkMsg l cmd a homeEnd n) s
  if (wbOut s l a n).any (·.left) then rsp 0x24 s
  else
    match agentData s l a n with
    | none => rsp 0x23 s
    | some (d, dirty) =>
      let home (s : State) : State := if dirty then sendMsg { mkMsg l 0x31 a homeEnd n with data := d.1, poison := d.2 } s else s
      match m.cmd with
      | 0x10 => rsp 0x20 (home (sendData l a m.req n (shareGrant s l a n m.req) d (agentShare l a n s)))
      | 0x11 => rsp 0x21 (sendData l a m.req n .M d (snoopDrop l a n s))
      | 0x12 => rsp 0x22 (sendData l a m.req n .I d (setTxn l n (fun u => { u with got := some d }) s))
      | _ => rsp 0x23 (home (snoopDrop l a n s))

/-- A snoop is held back: by an LR hold of the L1D, when it would take the line or its write permission (R145); and at a slice that
collects answers of its cores for the line, whose result alone answers for the Sleeve (R138). -/
def snoopHeld (s : State) (m : Msg) : Bool :=
  let a := m.dest
  let holds (h : Nat) : Bool := decide ((s.hart h).resv = some m.line) && (s.hart h).resHold.isSome
  match m.lvl with
  | .sleeve k => decide (m.cmd ≠ 0x12) && (upto 4).any fun t => holds (4 * coreId k a + t)
  | .vest => (decide (m.cmd ≠ 0x12) && s.harts.any fun e => e.1 / 80 == a && holds e.1) ||
    (txnOf s (.sleeve (Fin.ofNat 12 a)) m.line).any fun t => !t.home || decide (t.wait ≠ [])

/-- A snoop is served (R134 rule 3): held behind the agent's own request for the line once the home has served that request,
answered otherwise. -/
def serveSnoop (m : Msg) (s : State) : State :=
  let waits := s.coh.queue.any fun t => t.lvl == m.lvl && t.line == m.line && t.req == m.dest
  match mshrOf s m.lvl m.dest m.line with
  | some _ => if waits then answerSnoop m s else setMshr m.lvl m.dest m.line (fun r => { r with held := r.held ++ [m] }) s
  | none => answerSnoop m s

/-- A snoop arrives. -/
def snoopIn (l : Level) (cmd a req n : Nat) (s0 : State) : State :=
  let m : Msg := { mkMsg l cmd homeEnd a n with req := req }
  onMsg m s0 fun s =>
    if agentOff s l a then s
    else if snoopHeld s m then { s with coh := { s.coh with late := s.coh.late ++ [m] } }
    else serveSnoop m s

def execSnpfwds (l : Level) (holder req line : Nat) (s : State) (errs : List ArrErr := []) : Out := keepQueue s <| done (snoopIn l 0x10 holder req line (meet errs s))
def execSnpfwdo (l : Level) (holder req line : Nat) (s : State) (errs : List ArrErr := []) : Out := keepQueue s <| done (snoopIn l 0x11 holder req line (meet errs s))
def execSnpi (l : Level) (holder line : Nat) (s : State) (errs : List ArrErr := []) : Out := keepQueue s <| done (snoopIn l 0x13 holder 0 line (meet errs s))
/-- SNPCUR: the owner forwards current data and keeps its state. -/
def execSnpcur (holder : SleeveId) (req : Agent) (line : Nat) (s : State) (errs : List ArrErr := []) : Out := keepQueue s <|
  done (snoopIn .vest 0x12 holder (farEnd + agentNode req) line (meet errs s))

/-! ### Responses at the home -/

/-- The home no longer waits for a holder. -/
def answered (a : Nat) (t : Txn) : Txn := { t with wait := t.wait.filter (· ≠ a) }

/-- The holder keeps nothing: its pointer leaves the directory entry, or its presence bit the snoop filter. -/
def homeForget (l : Level) (a n : Nat) (s : State) : State :=
  match l with
  | .vest => homeEvC a n s
  | .sleeve k => sfRemove k a n s

/-- A holder that was asked to forward has nothing to forward (Table 6.10, EvC crossing): the home supplies the data. -/
def supplyInstead (t : Txn) (s : State) : State :=
  match t.lvl with
  | .vest =>
    match t.kind with
    | .rds | .rdc => grantData .vest t.req t.line .F (memCopy s t.line) s
    | .rdo | .upg => grantData .vest t.req t.line .M (memCopy s t.line) s
    | .rdcur => setTxn .vest t.line (fun u => { u with got := some (memCopy s t.line) }) s
    | _ => s
  | .sleeve k =>
    let s1 := setTxn t.lvl t.line (fun u => { u with fwd := none }) s
    if slvLevel s1 k t.line = .I && !t.home then
      setTxn t.lvl t.line (fun u => { u with home := true }) (askHome k t.line t.kind s1)
    else s1

/-- A response from a holder arrives: it must match the active transaction (R143). -/
def response (m : Msg) (s0 : State) (f : Txn → State → State) : State := onMsg m s0 fun s =>
  if agentOff s m.lvl m.fr then s
  else
    match txnOf s m.lvl m.line with
    | some t => if t.wait.contains m.fr then serveLine m.lvl m.line (f t s) else protoError m.lvl m.fr m.line s
    | none => protoError m.lvl m.fr m.line s

/-- A message of a holder to its home. -/
def toHome (l : Level) (cmd a n : Nat) : Msg := mkMsg l cmd a homeEnd n

def execRspfwdf (l : Level) (fr line : Nat) (s : State) : Out := keepQueue s <|
  done (response (toHome l 0x20 fr line) s fun _ s => setTxn l line (answered fr) s)
def execRspfwdi (l : Level) (fr line : Nat) (s : State) : Out := keepQueue s <|
  done (response (toHome l 0x21 fr line) s fun _ s => setTxn l line (answered fr) (homeForget l fr line s))
/-- RSPCUR: the current data has been forwarded; an owner's data that no snoop of the model brought is what the owner holds. -/
def execRspcur (fr : SleeveId) (line : Nat) (s : State) : Out := keepQueue s <|
  done (response (toHome .vest 0x22 fr line) s fun _ s =>
    setTxn .vest line (fun u => { answered fr u with got := u.got.or ((agentData s .vest fr line).map (·.1)) }) s)
def execRspi (l : Level) (fr line : Nat) (s : State) : Out := keepQueue s <|
  done (response (toHome l 0x23 fr line) s fun t s =>
    let s1 := setTxn l line (answered fr) (homeForget l fr line s)
    if t.fwd = some fr ∧ t.got = none then supplyInstead (answered fr t) s1 else s1)
/-- RSPWB (R142): closes the snoop once the write-back itself has come. -/
def execRspwb (l : Level) (fr line : Nat) (s : State) : Out := keepQueue s <|
  done (response (toHome l 0x24 fr line) s fun _ s =>
    setTxn l line (fun u => if u.wbGot.contains fr then answered fr u else { u with wbRsp := u.wbRsp ++ [fr] }) s)
/-- DATAHOME: dirty data returned by SnpI or SnpFwdS. -/
def execDatahome (l : Level) (fr line : Nat) (data : BitVec 512) (poison : Bool) (s : State) : Out := keepQueue s <|
  done (response { toHome l 0x31 fr line with data := data, poison := poison } s fun _ s =>
    setTxn l line (fun u => { u with got := some (data, poison) }) s)

/-! ### Write-backs and eviction notices -/

/-- An agent's write-back or notice leaves it and awaits its answer (R134 rule 2). -/
def noteWb (l : Level) (a n : Nat) (wb left : Bool) (s : State) : State :=
  { s with coh := { s.coh with wbs := s.coh.wbs.filter (fun w => ¬ (w.lvl = l ∧ w.agent = a ∧ w.line = n)) ++ [⟨l, a, n, wb, left⟩] } }

/-- What a requester for sharing is granted from a crossing write-back (Table 6.8): F; in a Sleeve S when the sleeve cache
takes the data, which makes it the F holder (R132). -/
def crossGrant (s : State) (t : Txn) : LState :=
  match t.lvl with
  | .vest => .F
  | .sleeve k => if l3Room s k t.line (coreL3 s k t.req) then .S else .F

/-- A WbM crosses the home's snoop (Table 6.8): the home answers the snoop from its data. -/
def crossing (t : Txn) (a : Nat) (d : LineData × Bool) (s : State) : State :=
  let l := t.lvl
  let n := t.line
  let put (s : State) : State := match l with
    | .vest => memPut n d.1 d.2 s
    | .sleeve _ => s
  let s1 := match t.fwd with
    | some f =>
      if f = a then
        match t.kind with
        | .rds | .rdc => grantData l t.req n (crossGrant s t) d (put s)
        | .rdcur => answerCur t d (put s)
        | _ => grantData l t.req n .M d s
      else put s
    | none => put s
  let keep := match t.kind with
    | .rdcur => false
    | .rds | .rdc => match l with
      | .vest => false
      | .sleeve _ => true
    | .wrfull | .wrpart | .atom => false
    | _ => match l with
      | .vest => false
      | .sleeve _ => decide (t.fwd ≠ some a)
  let s2 := homeForget l a n s1
  setTxn l n (fun u =>
    let v := { u with wbGot := u.wbGot ++ [a], got := if keep then some d else u.got }
    if u.wbRsp.contains a then answered a v else v) s2

/-- A write-back or notice of an agent that answers reaches its home; an agent that is off sends none (Table 6.13). -/
def giveUp (m : Msg) (s0 : State) (f : State → State) : State := onMsg m s0 fun s => if agentOff s m.lvl m.fr then s else f s

/-- The home answers a write-back or notice. -/
def ack (cmd : Nat) (l : Level) (a n : Nat) (s : State) : State := sendMsg (mkMsg l cmd homeEnd a n) s

/-- A dirty line reaches its home with no transaction that snoops it. -/
def wbmPlain (l : Level) (a n : Nat) (d : LineData × Bool) (s : State) : State :=
  match l with
  | .vest => homeWbM a n d.1 d.2 (slvDrop a n s)
  | .sleeve k => if (sfCores s k n).contains a then slvGiveUp k a (coreL3 s k a) ⟨n, .M, d.1, d.2⟩ true (coreDrop (coreId k a) n s) else s

/-- WBM: a dirty line is given up (R142, Tables 6.4, 6.6). -/
def wbm (l : Level) (a n : Nat) (d : LineData × Bool) (s : State) : State :=
  let s1 := noteWb l a n true true s
  match txnOf s1 l n with
  | some t => if t.wait.contains a then serveLine l n (ack 0x27 l a n (crossing t a d (agentDrop l a n s1))) else ack 0x27 l a n (wbmPlain l a n d s1)
  | none => ack 0x27 l a n (wbmPlain l a n d s1)

def execWbm (l : Level) (fr line : Nat) (data : BitVec 512) (poison : Bool) (s : State) : Out := keepQueue s <|
  done (giveUp { toHome l 0x32 fr line with data := data, poison := poison } s (wbm l fr line (data, poison)))

/-- WBK: dirty data is written back; the Sleeve keeps a clean copy. -/
def wbk (k n : Nat) (d : LineData × Bool) (s : State) : State :=
  let s1 := homeWbK k n d.1 d.2 (noteWb .vest k n true false s)
  let s2 := l3Mod k n (fun e => { e with st := if e.st = .M then .E else e.st }) s1
  let s3 := match sfFind s2 k n with
    | some x => if x.2.st = .M ∧ (ownerCore s2 k n).isNone then sfWrite k x.1 { x.2 with st := .E } s2 else s2
    | none => s2
  ack 0x27 .vest k n s3
def execWbk (fr : SleeveId) (line : Nat) (data : BitVec 512) (poison : Bool) (s : State) : Out := keepQueue s <|
  done (giveUp { toHome .vest 0x33 fr line with data := data, poison := poison } s (wbk fr line (data, poison)))

/-- WBC: a clean L2 victim is carried into the sleeve cache. -/
def wbc (k : SleeveId) (c n : Nat) (d : LineData × Bool) (s : State) : State :=
  let l := Level.sleeve k
  let st := ((coreLook (s.core (coreId k c)) n).map (·.st)).getD .S
  let s1 := noteWb l c n true false s
  ack 0x27 l c n (if (sfCores s1 k n).contains c then
    slvGiveUp k c (coreL3 s1 k c) ⟨n, if st = .M then .E else st, d.1, d.2⟩ true (coreDrop (coreId k c) n s1) else s1)
def execWbc (k : SleeveId) (c : Fin 20) (line : Nat) (data : BitVec 512) (poison : Bool) (s : State) : Out := keepQueue s <|
  done (giveUp { toHome (.sleeve k) 0x34 c line with data := data, poison := poison } s (wbc k c line (data, poison)))

/-- EVC: a clean copy is dropped without data. -/
def evc (l : Level) (a n : Nat) (s : State) : State :=
  let s1 := noteWb l a n false false s
  ack 0x28 l a n (match txnOf s1 l n with
    | some t => if t.wait.contains a then agentDrop l a n s1 else homeForget l a n (agentDrop l a n s1)
    | none => match l with
      | .vest => homeEvC a n (slvDrop a n s1)
      | .sleeve k =>
        match coreLook (s1.core (coreId k a)) n with
        | some e => slvGiveUp k a (coreL3 s1 k a) { e with st := if e.st = .M then .E else e.st } false (coreDrop (coreId k a) n s1)
        | none => sfRemove k a n s1)
def execEvc (l : Level) (fr line : Nat) (s : State) : Out := keepQueue s <| done (giveUp (toHome l 0x25 fr line) s (evc l fr line))

/-- A message of a home to an agent. -/
def toAgent (l : Level) (cmd a n : Nat) : Msg := mkMsg l cmd homeEnd a n

/-- The level whose agent finds that a message to it answers nothing: its slice (R143). -/
def agentSlice (l : Level) (a : Nat) : Level :=
  match l with
  | .vest => .sleeve (Fin.ofNat 12 a)
  | .sleeve k => .sleeve k

/-- A message reaches an agent that is in service. -/
def atAgent (m : Msg) (s0 : State) (f : State → State) : State := onMsg m s0 fun s => if agentOff s m.lvl m.dest then s else f s

/-- WBACK and EVACK: the write-back or notice has been absorbed. -/
def ackIn (wb : Bool) (l : Level) (a n : Nat) (s : State) : State :=
  match wbOut s l a n with
  | some w =>
    if w.wb = wb then { s with coh := { s.coh with wbs := s.coh.wbs.filter fun w => ¬ (w.lvl = l ∧ w.agent = a ∧ w.line = n) } }
    else protoError (agentSlice l a) a n s
  | none => protoError (agentSlice l a) a n s

def execWback (l : Level) (dest line : Nat) (s : State) : Out := keepQueue s <| done (atAgent (toAgent l 0x27 dest line) s (ackIn true l dest line))
def execEvack (l : Level) (dest line : Nat) (s : State) : Out := keepQueue s <| done (atAgent (toAgent l 0x28 dest line) s (ackIn false l dest line))

/-! ### Data and completion at the requester (R134 rule 4) -/

/-- A request of an agent is complete: held snoops are answered from the state just granted. -/
def mshrDone (l : Level) (a n : Nat) (s : State) : State :=
  match mshrOf s l a n with
  | none => s
  | some m =>
    if m.needData || m.needCmp then s
    else
      let s1 := dropMshr l a n s
      let s2 := match l with
        | .vest =>
          let sl := Level.sleeve (Fin.ofNat 12 a)
          match txnOf s1 sl n with
          | some t => if t.home then serveLine sl n (setTxn sl n (fun u => { u with home := false }) s1) else s1
          | none => s1
        | .sleeve k => if m.own then s1.modCore (coreId k a) (coreSetSt n .M) else s1
      m.held.foldl (fun b h => answerSnoop h b) s2

/-- The agent takes the data: a core fills its caches; a slice gives it to the transaction that asked, or keeps the line. -/
def takeData (l : Level) (a n : Nat) (m : Mshr) (st : LState) (d : LineData × Bool) (s : State) : State :=
  match l with
  | .sleeve k =>
    let e : CLine := ⟨n, if m.needCmp then .S else if m.asF && decide (st = .S) then .F else st, d.1, d.2⟩
    let core := coreId k a
    let s1 := l2Put core (coreL2 s k a) (coreL3 s k a) e s
    if m.code then l1iPut core (coreL3 s k a) e s1 else l1dPut core (coreL2 s k a) (coreL3 s k a) e s1
  | .vest =>
    let sl := Level.sleeve (Fin.ofNat 12 a)
    match txnOf s sl n with
    | some t =>
      if t.home then setTxn sl n (fun u => { u with got := some d, gst := st }) s else s
    | none =>
      let p := l3Put a (BitVec.allOnes 16) ⟨n, st, d.1, d.2⟩ s
      if p.2 then p.1 else if st = .M then homeWbM a n d.1 d.2 p.1 else homeEvC a n p.1

/-- DATA: line data with the granted state, from whichever agent sends it. An agent that caches nothing takes it as it comes. -/
def dataIn (l : Level) (a n : Nat) (st : LState) (d : LineData × Bool) (s : State) : State :=
  match mshrOf s l a n with
  | some m =>
    if m.needData then mshrDone l a n (takeData l a n m st d (setMshr l a n (fun r => { r with needData := false }) s))
    else protoError (agentSlice l a) a n s
  | none => protoError (agentSlice l a) a n s

/-- The Data packet for an agent and a line that is in flight with these contents, by whom it was sent; from the home when none is. -/
def dataMsg (s : State) (l : Level) (a n : Nat) (st : LState) (data : LineData) (poison : Bool) : Msg :=
  let m (fr : Nat) : Msg := { mkMsg l 0x30 fr a n with st := st, data := data, poison := poison }
  ((upto 20).find? fun c => (flightOf s (msgPacket s (m c))).isSome).elim (m homeEnd) m

def execData (l : Level) (dest line : Nat) (st : LState) (data : BitVec 512) (poison : Bool) (s : State) : Out := keepQueue s <|
  done (onMsg (dataMsg s l dest line st data poison) s fun s =>
    if agentOff s l dest then s else dataIn l dest line st (data, poison) s)

/-- CMP: the transaction is complete and ownership confirmed. -/
def cmpIn (l : Level) (a n : Nat) (s : State) : State :=
  match mshrOf s l a n with
  | some m =>
    if m.needCmp then mshrDone l a n (setMshr l a n (fun r => { r with needCmp := false }) s)
    else protoError (agentSlice l a) a n s
  | none => protoError (agentSlice l a) a n s
def execCmp (l : Level) (dest line : Nat) (s : State) : Out := keepQueue s <| done (atAgent (toAgent l 0x26 dest line) s (cmpIn l dest line))

/-! ### Timeouts (R148) and the directory scan of a fail-stop (R149) -/

/-- SLICE_TIMEOUT: a slice receives no answer from a core within SLICE_TMO (cause 0x1). -/
def execSliceTimeout (k : SleeveId) (line : Nat) (s : State) : Out := keepQueue s <|
  match txnOf s (.sleeve k) line with
  | some t => if t.wait = [] then done s else done (failStopSleeve k 1 k (some line) s)
  | none => done s

/-- The Cuff of a Sleeve leaves L1 or L2: the Sleeve wakes and its Cuff is not active yet (R329). -/
def cuffLeaving (s : State) (k : Nat) : Bool :=
  decide ((s.cuff k).lpow ≠ 0 ∨ (s.cuff k).state = 1) && s.pwr.waking.any fun o => match o.scope with
    | .sleeve j => j.val == k
    | _ => false

/-- The Cuff of a Sleeve is in a repair pause or a retrain, or leaves L1 or L2: HA_TMO counts are suspended (R181, R329). -/
def cuffPaused (s : State) (k : Nat) : Bool :=
  decide ((s.cuff k).state = 3) || decide ((s.cuff k).state = 4) || cuffLeaving s k

/-- The packet by which a home agent answers a request for a line from memory, while memory has not answered: it has not left the
home agent. -/
def memoryAnswer (s : State) (n : Nat) : Option Flight :=
  s.fab.mesh.flights.find? fun f => decide (f.pkt.cmd = 0x30 ∧ f.pkt.line = n ∧ f.loc = .src ∧ f.pkt.srcN = haNode (homeAgent n))

/-- A home agent's snoop is not answered (cause 0x2): the domains of the requesting Sleeve and of every Sleeve that failed to answer; a
device or engine receives an error completion instead. -/
def snoopTimeout (ha n : Nat) (t : Txn) (s : State) : State :=
  match t.who with
  | some w => serveLine .vest n { reportUcs w .device (64 * n) (secureAddr s (64 * n)) (dropTxn .vest n s) with answer := .error }
  | none => (t.req :: t.wait).foldl (fun a k => failStopSleeve k 2 (0x10 + ha) (some n) a) s

/-- HA_TIMEOUT: a home agent's snoop or memory request receives no answer within HA_TMO (R148). The count of a transaction that the
Belt holds is suspended (R310). -/
def execHaTimeout (ha : Fin 64) (line : Nat) (s : State) : Out := keepQueue s <|
  if homeAgent line ≠ ha.val ∨ txnHeld s line = true then done s
  else
    let memory : State := match memoryAnswer s line with
      | some f => if nodeDie f.pkt.dst < 12 ∧ cuffPaused s (nodeDie f.pkt.dst) = false then
          failStopSleeve (nodeDie f.pkt.dst) 2 (0x10 + ha) (some line) s else s
      | none => s
    match txnOf s .vest line with
    | some t =>
      if t.wait = [] then done memory
      else if (t.wait.any (cuffPaused s) || (decide (t.req < 12) && cuffPaused s t.req)) = true then done s
      else done (snoopTimeout ha line t s)
    | none => done memory

/-- Transactions that no longer wait on anything are completed. -/
def settleTxns (s : State) : State :=
  (s.coh.txns.filter fun t => t.wait = [] && !t.home).foldl (fun a t => serveLine t.lvl t.line a) s

/-- Data for a Sleeve and a line is in flight. -/
def dataFor (s : State) (k n : Nat) : Bool :=
  s.fab.mesh.flights.any fun f => decide (f.pkt.cmd = 0x30 ∧ f.pkt.line = n ∧ f.pkt.dst = sliceNode k (lineSlice n))

/-- A transaction that waited on Sleeves of the domain waits no longer; memory supplies the requester, unless data that a forwarder
or a write-back gave is on its way or has come. -/
def unwait (inD : Nat → Bool) (t : Txn) (s : State) : State :=
  let s1 := setTxn .vest t.line (fun u => { u with wait := u.wait.filter fun k => !inD k }) s
  let due : Bool := match mshrOf s .vest t.req t.line with
    | some m => m.needData && !dataFor s t.req t.line
    | none => decide (t.kind = .rdcur)
  match t.fwd with
  | some f => if inD f && t.wait.contains f && !t.wbGot.contains f && due then supplyInstead t s1 else s1
  | none => s1

/-- A Sleeve whose transaction has ended, and whose Data was lost with the Sleeve that sent it, is supplied from memory. -/
def resupply (s : State) (m : Mshr) : State :=
  let n := m.line
  let waits (t : Txn) : Bool := t.lvl == Level.vest && t.line == n && t.req == m.agent
  let asked : Bool := s.fab.mesh.flights.any fun f => decide (f.pkt.vc = 0 ∧ f.pkt.line = n ∧ f.pkt.srcN = sliceNode m.agent (lineSlice n))
  if m.lvl = .vest ∧ m.needData = true ∧ (s.coh.txns.any waits || s.coh.queue.any waits || asked || dataFor s m.agent n) = false then
    sendData .vest homeEnd m.agent n (if m.own then .M else .F) (memCopy s n) s
  else s

/-- FAILSTOP_SCAN_DONE (R149, step 5): the directories hold no pointer to a Sleeve of `d`; lines in X with an owner in `d` are
poisoned; transactions that waited on `d` complete from memory. -/
def execFailstopScanDone (d : DomId) (s : State) : Out := keepQueue s <|
  let f := s.fstop d
  if f.active && f.scan then
    let inD (k : Nat) : Bool := decide (k < 12) && domainOf s k == d.val
    let c := s.coh
    let s1 : State := { s with
      coh := { c with
        dir := c.dir.filterMap fun (e : Nat × DirEnt) => (scanEntry inD e.2).map fun v => (e.1, v)
        fstop := tabSet c.fstop FStop.reset d { f with scan := false } }
      dram := { s.dram with poison := scanPoison inD c.dir s.dram.poison } }
    let ts := s1.coh.txns.filter fun t => t.lvl == Level.vest && t.wait.any inD
    let s2 := settleTxns (ts.foldl (fun a t => unwait inD t a) s1)
    done (s2.coh.mshr.foldl resupply s2)
  else done s

/-! ### What waits at an idle step -/

/-- Requests and transactions that waited for an entry go on when there is one, and snoops that were held back are served when
nothing holds them any more. -/
def cohTick (s : State) : State :=
  let s1 := s.coh.queue.foldl (fun a t => if (txnOf a t.lvl t.line).isNone then serveLine t.lvl t.line a else a) (settleTxns s)
  s1.coh.late.foldl (fun a m => if snoopHeld a m then a
    else serveSnoop m { a with coh := { a.coh with late := a.coh.late.erase m } }) s1

end Sys2Proof.Machine
end

