-- ==== Sys2Proof/Machine/Trans.lean ====
section
/-! DEFINITION. Address translation by harts (04): regimes, block registers, page-table walks, TLBs and the walk cache, walk-fault
words, the PMP check, and the fences. -/

namespace Sys2Proof.Machine

/-! ### The access to be translated -/

inductive AccKind where | fetch | load | store
deriving DecidableEq, Repr

/-- An access under its regime (R86, Table 4.1): its kind, effective privilege and virtualization, and whether it is an HLVX. -/
structure Acc where
  kind : AccKind
  priv : BitVec 2
  virt : Bool
  hlvx : Bool
deriving DecidableEq, Repr

/-- The regime of an ordinary access: mstatus.MPRV redirects loads and stores in M-mode; in debug mode with dcsr.mprven. -/
def accOf (x : Hart) (k : AccKind) : Acc :=
  if decide (k ≠ .fetch) && x.priv == 3 && bit (x.c 0x300) 17 && (!x.halted || bit (x.c 0x7B0) 4) then
    ⟨k, mppOf x, decide (mppOf x ≠ 3) && bit (x.c 0x300) 39, false⟩
  else ⟨k, x.priv, x.virt, false⟩

/-- The regime of HLV, HLVX and HSV: V = 1 at the privilege of hstatus.SPVP, two stages also while SEC = 1, as Table 4.1 has it;
the text after the table has a hart in the secure world translate nothing but its accesses under MPRV. DESIGN CHOICE (log 138). -/
def accHyp (x : Hart) (k : AccKind) (hlvx : Bool) : Acc := ⟨k, if bit (x.c 0x600) 8 then 1 else 0, true, hlvx⟩

/-- The request is secure (Table 3.1): SEC = 1 at effective privilege M. -/
def accSec (x : Hart) (a : Acc) : Bool := x.sec && a.priv == 3

/-! ### The PMP (R64, Table 2.3) -/

/-- The first entry that matches an address. -/
def pmpMatch (x : Hart) (pa : Nat) : Option Nat :=
  (upto 16).find? fun i =>
    let a := x.c (0x3B0 + i)
    if pmpA x i = 1 then
      let lo := if i = 0 then 0 else (x.c (0x3B0 + i - 1)).toNat / 1024 * 4096
      decide (lo ≤ pa ∧ pa < a.toNat / 1024 * 4096)
    else if pmpA x i = 3 then
      let v := (a ||| 0x1FF).toNat
      let m := v ^^^ (v + 1)
      decide (pa / 4 / (m + 1) = v / (m + 1))
    else false

/-- The PMP permits an access; it is not checked while SEC = 1. -/
def pmpOk (x : Hart) (priv : BitVec 2) (k : AccKind) (pa : Nat) : Bool :=
  if x.sec then true
  else match pmpMatch x pa with
    | none => decide (priv = 3)
    | some i =>
      let c := pmpCfg x i
      if priv = 3 ∧ c.getLsbD 7 = false then true
      else match k with
        | .load => c.getLsbD 0
        | .store => c.getLsbD 1
        | .fetch => c.getLsbD 2

/-! ### Stages -/

inductive Stage where | single | vs | g
deriving DecidableEq, Repr

def Stage.code : Stage → Nat
  | .single => 0 | .vs => 1 | .g => 2

/-- A walk fault (Tables 4.5, 4.6): cause, stage, level, the block that produced it, the table entry's address, and for the G
stage the guest physical address and whether the access was implicit. `wait`: a table read waits for the line. -/
structure WFault where
  wait  : Bool
  cause : Nat
  stage : Stage
  level : Nat
  blk   : Option Nat
  pte   : Nat
  gpa   : Nat
  impl  : Bool
deriving DecidableEq, Repr

def wfault (cause : Nat) (S : Stage) (level : Nat) (pte : Nat) (A : Nat) : WFault := ⟨false, cause, S, level, none, pte, A, false⟩

/-- What one stage yields: output address, permission bits, memory type, far-atomic attribute, page size, whether a block gave
it, the G bit, and the structures it fills when the access completes (R96). -/
structure Leaf where
  out  : Nat
  perm : BitVec 8
  pbmt : BitVec 2
  fa   : Bool
  size : Nat
  blk  : Bool
  glob : Bool
  tlb  : List TlbEnt
  walk : List WalkEnt
  l1g  : List TlbEnt
  /-- Where a walk found the leaf: the entry's address and level. -/
  pte  : Nat
  lvl  : Nat
deriving DecidableEq, Repr

/-- The mode of a stage is Bare. -/
def atpReg : Stage → Nat
  | .single => 0x180 | .vs => 0x280 | .g => 0x680
def stageBare (x : Hart) (S : Stage) : Bool := fld (x.c (atpReg S)) 60 4 == 0
def stageRoot (x : Hart) (S : Stage) : Nat := (fld (x.c (atpReg S)) 0 44).toNat * 4096
def asidOf (x : Hart) (S : Stage) : BitVec 16 :=
  match S with
  | .single => fld (x.c 0x180) 44 16
  | .vs => fld (x.c 0x280) 44 16
  | .g => 0
def vmidOf (x : Hart) (S : Stage) : BitVec 12 :=
  match S with
  | .single => 0
  | _ => fld (x.c 0x680) 44 12

/-- The PBMTE bit that governs a stage. -/
def pbmteOf (x : Hart) (S : Stage) : Bool :=
  match S with
  | .vs => bit (x.c 0x30A) 62 && bit (x.c 0x60A) 62
  | _ => bit (x.c 0x30A) 62

/-- The input address lies in the stage's input space: VA[63:48] = VA[47], GPA[63:50] = 0. -/
def canonical (S : Stage) (A : Nat) : Bool :=
  match S with
  | .g => decide (A < 2 ^ 50)
  | _ => decide (A < 2 ^ 47) || decide (2 ^ 64 - 2 ^ 47 ≤ A ∧ A < 2 ^ 64)

/-- The permission check of a leaf or block (R90, R92): R, W, X and U, with SUM and MXR; accesses in the G stage are checked as
user accesses. -/
def permOk (x : Hart) (S : Stage) (a : Acc) (impl : Bool) (p : BitVec 8) : Bool :=
  let r := p.getLsbD 1
  let w := p.getLsbD 2
  let e := p.getLsbD 3
  let u := p.getLsbD 4
  let hsMxr := bit (x.c 0x300) 19
  let mxr := match S with
    | .single => hsMxr
    | .vs => hsMxr || bit (x.c 0x200) 19
    | .g => hsMxr
  let sum := match S with
    | .vs => bit (x.c 0x200) 18
    | _ => bit (x.c 0x300) 18
  let rwx := if impl then r else match a.kind with
    | .fetch => e
    | .load => if a.hlvx then e else r || (mxr && e)
    | .store => w
  let user := match S with
    | .g => u
    | _ => if a.priv = 0 then u else !u || (sum && decide (a.kind ≠ .fetch))
  rwx && user

/-! ### Block registers (R87 to R90) -/

def blkBase : Stage → Nat
  | .single => 0x5D0 | .vs => 0x6E0 | .g => 0x6D0

/-- The input address in units of 64 KiB, as the stage compares it. -/
def blkIn (S : Stage) (A : Nat) : Nat := A % 2 ^ (match S with
  | .g => 50
  | _ => 48) / 65536

/-- The lowest-numbered block register that matches (R89, R90). -/
def blkMatch (x : Hart) (S : Stage) (A : Nat) : Option Nat :=
  (upto 8).find? fun n =>
    let v := x.c (blkBase S + n)
    let o := x.c (blkBase S + 8 + n)
    let base := match S with
      | .g => (fld v 16 34).toNat
      | _ => (fld v 16 32).toNat
    bit v 0 && decide (base ≤ blkIn S A ∧ blkIn S A ≤ base + (fld o 40 24).toNat)

/-- The translation by a block (R89). -/
def blkMap (x : Hart) (S : Stage) (a : Acc) (impl : Bool) (A n : Nat) : Except WFault Leaf :=
  let v := x.c (blkBase S + n)
  let o := x.c (blkBase S + 8 + n)
  let base := match S with
    | .g => (fld v 16 34).toNat
    | _ => (fld v 16 32).toNat
  let perm : BitVec 8 := (fld v 0 4).setWidth 8 ||| (match S with
    | .g => 0x10
    | _ => if bit v 4 then 0x10 else 0)
  let out := (fld o 0 36).toNat * 65536 + (A % 2 ^ 50 - base * 65536)
  let out' := match S with
    | .g => out
    | _ => (fld o 0 36).toNat * 65536 + (A % 2 ^ 48 - base * 65536)
  let lim := match S with
    | .vs => 2 ^ 50
    | _ => 2 ^ 52
  if permOk x S a impl perm = false then .error ⟨false, 2, S, 0, some n, 0, A, false⟩
  else if lim ≤ out' then .error ⟨false, 7, S, 0, some n, 0, A, false⟩
  else .ok ⟨out', perm ||| 0xC1, if pbmteOf x S then fld v 61 2 else 0, bit v 60, 16, true, false, [], [], [], 0, 0⟩

/-! ### TLBs and the walk cache (R100) -/

/-- A page covers an address. -/
def covers (e : TlbEnt) (A : Nat) : Bool := A / 2 ^ e.size == e.va / 2 ^ e.size

/-- The way-keyed L2 TLB entry of a stage that serves an address: an entry of the hart's own, of the context in force. -/
def tlbLook (k : Core) (x : Hart) (h : Nat) (S : Stage) (A : Nat) : Option (Nat × TlbEnt) :=
  k.l2tlb.find? fun p => p.2.stage == S.code && p.2.hart == h && covers p.2 A &&
    (decide (S = .g) || p.2.glob || p.2.asid == asidOf x S) && (decide (S = .single) || p.2.vmid == vmidOf x S)

/-- The deepest walk-cache entry: its way, the level of the next table and its address. -/
def walkLook (k : Core) (x : Hart) (h : Nat) (S : Stage) (A : Nat) : Option (Nat × Nat × Nat) :=
  let ent (l : Nat) : Option (Nat × Nat × Nat) := (k.walk.find? fun p => p.2.stage == S.code && p.2.level == l && p.2.hart == h &&
    p.2.va == A / 2 ^ (12 + 9 * l) && (decide (S = .g) || p.2.glob || p.2.asid == asidOf x S) &&
    (decide (S = .single) || p.2.vmid == vmidOf x S)).map fun p => (p.1, l - 1, p.2.next)
  (ent 1).or ((ent 2).or (ent 3))

/-- Keep at most `n` entries, the newest first: how the first-level TLBs replace (log 34). -/
def pushCap {α : Type} (n : Nat) (a : α) (l : List α) : List α := (a :: l).take n

/-- The set of an L2 TLB entry: the low bits of its page number (log 34). -/
def tlbSet (e : TlbEnt) : Nat := e.va / 2 ^ e.size % 256

/-- Two entries for the same page of the same context. -/
def samePage (a b : TlbEnt) : Bool :=
  a.stage == b.stage && a.hart == b.hart && a.va == b.va && a.size == b.size && a.asid == b.asid && a.vmid == b.vmid
def sameTable (a b : WalkEnt) : Bool :=
  a.stage == b.stage && a.hart == b.hart && a.va == b.va && a.level == b.level && a.asid == b.asid && a.vmid == b.vmid

/-- The pseudo-LRU trees of the L2 TLB and of the walk cache follow a use (R100). -/
def tlbTouch (key : Nat) (k : Core) : Core :=
  { k with tlbPlru := tabSet k.tlbPlru 0 (key / 8) (plruTouch 3 1 (key % 8) (tabGet k.tlbPlru 0 (key / 8))) }
def walkTouch (way : Nat) (k : Core) : Core := { k with walkPlru := plruTouch 6 1 way k.walkPlru }

/-- Fill the L2 TLB: over the page's own entry, else into a free way of its set, else over the way that the tree selects. -/
def tlbFill (k : Core) (e : TlbEnt) : Core :=
  let t := tlbSet e
  let put (w : Nat) : Core := tlbTouch (t * 8 + w) { k with l2tlb := tabInsert (t * 8 + w) e k.l2tlb }
  match (upto 8).find? fun w => ((tabFind (t * 8 + w) k.l2tlb).map fun o => samePage o e) == some true with
  | some w => put w
  | none => match pickWay 8 3 (fun w => (tabFind (t * 8 + w) k.l2tlb).isSome) (fun _ => true) (tabGet k.tlbPlru 0 t) with
    | some w => put w
    | none => k

/-- Fill the walk cache in the same way. -/
def walkFill (k : Core) (e : WalkEnt) : Core :=
  let put (w : Nat) : Core := walkTouch w { k with walk := tabInsert w e k.walk }
  match k.walk.find? fun p => sameTable p.2 e with
  | some p => put p.1
  | none => match pickWay 64 6 (fun w => (tabFind w k.walk).isSome) (fun _ => true) k.walkPlru with
    | some w => put w
    | none => k

/-! ### Table reads (R94, R95) -/

/-- Whether a walk's read is refused at its target (R95): by the region (R30, R32), the world, the domain or the PMP. -/
def walkRefused (s : State) (h p : Nat) : Bool :=
  (refusal s (.hart (Fin.ofNat 960 h)) false false p).isSome || !pmpOk (s.hart h) 1 .load p

/-- A line cannot be had now: a transaction is active for it, or the L1D of another core holds it under an LR (R145) and this
core would have to take it. `own`: ownership is needed. -/
def lineWait (s : State) (core n : Nat) (own : Bool) : Bool :=
  let mine := coreLook (s.core core) n
  let has : Bool := match mine with
    | some e => !own || decide (e.st = .E ∨ e.st = .M)
    | none => false
  if has then false
  else (s.coh.txns.any fun t => t.line == n) || (s.coh.mshr.any fun m => m.line == n) || (s.coh.wbs.any fun w => w.line == n) ||
    s.harts.any fun e => e.1 / 4 != core && e.2.resv == some n && e.2.resHold.isSome

/-- A line read for a walk (R94): by the L2 and the levels beyond it, never by the L1D, and never filled into the L1D. What an L1 of
the core holds of a line that the L2 lacks, or holds older, goes into the L2 first. A line of another Sleeve's scratch window is
read coherently at its slice. -/
def walkLine (h n : Nat) (s : State) : State × CLine :=
  let core := hartCore h
  if (scratchSlv n).isSome && scratchSlv n != some (hartSleeve h) then
    let d := curLine s n
    (s, ⟨n, .S, d.1, d.2⟩)
  else
    match coreLook (s.core core) n with
    | some e =>
      let s1 := if (l2Look (s.core core) n) = some e then hitL2 core n s else l2Put core (l2Ways s h) (l3Mask s h) e s
      (s1, ringNow s1 e)
    | none =>
      let r := slvRead (core / 20) (core % 20) n false (l3Mask s h) s
      let s1 := l2Put core (l2Ways s h) (l3Mask s h) r.2 r.1
      (s1, ringNow s1 r.2)

/-- The aligned 8 bytes of a line at an address. -/
def lineWord (d : LineData) (a : Nat) : Word := d.extractLsb' (8 * (a % 64 / 8 * 8)) 64

/-- A table read that misses the core is metered at the core's injection point (R167): without allowance it is held there and the
hart is not ready; once it has been let go it passes. -/
def walkMeter (h n : Nat) (s : State) : State × Bool :=
  if (coreLook (s.core (hartCore h)) n).isSome then (s, true)
  else if (s.hart h).walkPaid = some n then (s.modHart h fun x => { x with walkPaid := none }, true)
  else match injTake (hartCore h) (agentTid s (.hart (Fin.ofNat 960 h))) 1 s with
    | (s1, none) => (s1, true)
    | (s1, some a) => (holdPackets (hartCore h) a 1 1 (.walk h n) (s1.modHart h fun x => { x with heldAcc := true }), false)

/-- Read a table entry: the state, and the entry or the fault's cause (4 DEVICE, 5 BUS; 0: wait). -/
def readPte (h p : Nat) (s : State) : State × Except Nat Word :=
  if walkColumn p = false then (s, .error 4)
  else if walkRefused s h p then (s, .error 5)
  else if lineWait s (hartCore h) (p / 64) false then (s, .error 0)
  else match walkMeter h (p / 64) s with
    | (s1, false) => (s1, .error 0)
    | (s1, true) =>
      let r := walkLine h (p / 64) s1
      if r.2.poison then (r.1, .error 5) else (r.1, .ok (lineWord r.2.data p))

/-! ### The walk (R92 to R96) -/

/-- An entry that breaks a rule marked RESERVED in Table 4.4. -/
def pteReserved (s : State) (pbmte : Bool) (e : Word) (lvl : Nat) : Bool :=
  let leaf := bit e 1 || bit e 3
  let faOn := featOn s 0
  fld e 54 6 != 0 || (bit e 60 && !faOn) || (bit e 2 && !bit e 1) ||
  if leaf then
    fld e 61 2 == 3 || (fld e 61 2 != 0 && !pbmte) || decide ((fld e 10 44).toNat % 2 ^ (9 * lvl) ≠ 0) ||
      (bit e 63 && (decide (lvl ≠ 0) || fld e 10 4 != 8))
  else decide (lvl = 0) || bit e 7 || bit e 6 || bit e 4 || bit e 63 || fld e 61 2 != 0 || bit e 60

/-- The translation that a leaf entry gives. -/
def leafMap (x : Hart) (h : Nat) (S : Stage) (A lvl : Nat) (e : Word) : Leaf :=
  let napot := bit e 63
  let size := if napot then 16 else 12 + 9 * lvl
  let ppn := if napot then (fld e 10 44).toNat / 16 * 16 else (fld e 10 44).toNat
  let out := ppn * 4096 / 2 ^ size * 2 ^ size + A % 2 ^ size
  let glob := decide (S ≠ .g) && bit e 5
  let t : TlbEnt := ⟨S.code, asidOf x S, vmidOf x S, glob, h, A / 2 ^ size * 2 ^ size, size, out / 2 ^ size * 2 ^ size, fld e 0 8, fld e 61 2, bit e 60, size⟩
  ⟨out, fld e 0 8, fld e 61 2, bit e 60, size, false, glob, [t], [], [], 0, lvl⟩

/-- A table entry's address before the table read: VPN of the level, 11 bits at the root of the G stage. -/
def vpnAddr (S : Stage) (A lvl base : Nat) : Nat :=
  base + A / 2 ^ (12 + 9 * lvl) % (if S = .g ∧ lvl = 3 then 2048 else 512) * 8

/-- Walk the tables of a stage from a level, with `xl` translating a table address. -/
def walkLoop (h : Nat) (S : Stage) (a : Acc) (impl : Bool) (A : Nat) (xl : Nat → State → State × Except WFault (Nat × List TlbEnt × List WalkEnt × List TlbEnt)) :
    Nat → Nat → State → State × Except WFault Leaf
  | lvl, base, s0 =>
    let p0 := vpnAddr S A lvl base
    match xl p0 s0 with
    | (s1, .error f) => (s1, .error f)
    | (s1, .ok (p, ft, fw, fg)) =>
      match readPte h p s1 with
      | (s2, .error c) => (s2, .error (if c = 0 then ⟨true, 0, S, lvl, none, p, A, false⟩ else wfault c S lvl p A))
      | (s2, .ok e) =>
        let x := s2.hart h
        if bit e 0 = false then (s2, .error (wfault 1 S lvl p A))
        else if pteReserved s2 (pbmteOf x S) e lvl then (s2, .error (wfault 3 S lvl p A))
        else if bit e 1 || bit e 3 then
          if permOk x S a impl (fld e 0 8) = false then (s2, .error (wfault 2 S lvl p A))
          else if bit e 6 = false ∨ (a.kind = .store ∧ impl = false ∧ bit e 7 = false) then (s2, .error (wfault 6 S lvl p A))
          else
            let l := leafMap x h S A lvl e
            (s2, .ok { l with tlb := l.tlb ++ ft, walk := fw, l1g := fg, pte := p })
        else match lvl with
          | 0 => (s2, .error (wfault 3 S 0 p A))
          | n + 1 =>
            match walkLoop h S a impl A xl n ((fld e 10 44).toNat * 4096) s2 with
            | (s3, .error f) => (s3, .error f)
            | (s3, .ok l) =>
              let w : WalkEnt := ⟨S.code, n + 1, asidOf x S, vmidOf x S, decide (S ≠ .g) && bit e 5, h, A / 2 ^ (12 + 9 * (n + 1)), (fld e 10 44).toNat * 4096⟩
              (s3, .ok { l with tlb := l.tlb ++ ft, walk := w :: fw ++ l.walk, l1g := fg ++ l.l1g })

/-- What an entry of a TLB gives: a translation, or the fault that its permissions (2) or its A and D bits (6) imply. -/
def hitLeaf (x : Hart) (S : Stage) (a : Acc) (impl : Bool) (A : Nat) (e : TlbEnt) : Except Nat Leaf :=
  if permOk x S a impl e.perm = false then .error 2
  else if e.perm.getLsbD 6 && (impl || decide (a.kind ≠ .store) || e.perm.getLsbD 7) then
    .ok ⟨e.out + A % 2 ^ e.size, e.perm, e.pbmt, e.fa, e.size, false, e.glob, [], [], [], 0, 0⟩
  else .error 6

/-! ### Entries that memory no longer holds (R102). While the prescribed fence has not been executed, an access uses the old value or
the new one, by a free choice each time. -/

/-- The tables as they are now give another outcome than an old entry: it is the outcome of a complete walk, not of one that
waits or that a table read ends. -/
def otherLeaf (old : Leaf) : Except WFault Leaf → Bool
  | .ok l => decide (l.out ≠ old.out ∨ l.perm ≠ old.perm ∨ l.pbmt ≠ old.pbmt ∨ l.fa ≠ old.fa)
  | .error f => !f.wait && decide (f.cause ≠ 5)

/-- The free choice that decides. -/
def pickNew (s : State) : Bool := decide (Config.freeNat s.free % 2 = 1)

/-- An old outcome or a new one. -/
def oldOrNew (s : State) (old : State × Except WFault Leaf) (new : State × Except WFault Leaf) : State × Except WFault Leaf :=
  if pickNew s then (new.1.draw, new.2) else (old.1.draw, old.2)

/-- Walk the tables: from the deepest walk-cache entry, or from the root where that entry is old and the choice says so. -/
def walkFrom (h : Nat) (S : Stage) (a : Acc) (impl : Bool) (xl : Nat → State → State × Except WFault (Nat × List TlbEnt × List WalkEnt × List TlbEnt))
    (A : Nat) (s : State) : State × Except WFault Leaf :=
  let x := s.hart h
  let root := walkLoop h S a impl A xl 3 (stageRoot x S) s
  match walkLook (s.core (hartCore h)) x h S A with
  | none => root
  | some (way, lvl, base) =>
    let deep := walkLoop h S a impl A xl lvl base (s.modCore (hartCore h) (walkTouch way))
    let differ : Bool := match deep.2 with
      | .ok l => otherLeaf l root.2
      | .error f => !f.wait && (match root.2 with
        | .ok _ => true
        | .error g => !g.wait && decide (g ≠ f))
    if differ then oldOrNew s deep root else deep

/-- An entry of a TLB serves an access, unless the tables have changed and the choice takes the new value. An entry whose
permissions fail gives its fault only where the tables have changed: the walk says which entry it names. -/
def hitOrWalk (h : Nat) (S : Stage) (a : Acc) (impl : Bool) (xl : Nat → State → State × Except WFault (Nat × List TlbEnt × List WalkEnt × List TlbEnt))
    (A : Nat) (e : TlbEnt) (sHit s : State) : State × Except WFault Leaf :=
  let w := walkFrom h S a impl xl A s
  match hitLeaf (s.hart h) S a impl A e with
  | .ok l => if otherLeaf l w.2 then oldOrNew s (sHit, .ok l) w else (sHit, .ok l)
  | .error c => (match w.2 with
    | .ok l => oldOrNew s (w.1, .error (wfault c S l.lvl l.pte A)) w
    | .error _ => w)

/-- Translate in one stage (R90): range check, block registers, TLB, tables. -/
def stageXlate (h : Nat) (S : Stage) (a : Acc) (impl : Bool) (xl : Nat → State → State × Except WFault (Nat × List TlbEnt × List WalkEnt × List TlbEnt))
    (A : Nat) (s : State) : State × Except WFault Leaf :=
  let x := s.hart h
  if stageBare x S then (s, .ok ⟨A, 0xDF, 0, false, 12, true, false, [], [], [], 0, 0⟩)
  else if canonical S A = false then (s, .error (wfault 7 S 3 0 A))
  else match blkMatch x S A with
    | some n => (s, blkMap x S a impl A n)
    | none =>
      let l1 := if S = .g then x.dtlb.find? fun e => e.stage == 2 && covers e A && e.vmid == vmidOf x .g else none
      match l1, tlbLook (s.core (hartCore h)) x h S A with
      | some e, _ => hitOrWalk h S a impl xl A e s s
      | none, some p => hitOrWalk h S a impl xl A p.2 (s.modCore (hartCore h) (tlbTouch p.1)) s
      | none, none => walkFrom h S a impl xl A s

/-- The G stage (R94): its tables lie at physical addresses. -/
def gXlate (h : Nat) (a : Acc) (impl : Bool) (A : Nat) (s : State) : State × Except WFault Leaf :=
  stageXlate h .g a impl (fun p s => (s, .ok (p, [], [], []))) A s

/-- The translation of a VS-stage table address: an implicit load in the G stage, whose result enters the L1 DTLB. -/
def gImplicit (h : Nat) (a : Acc) (p : Nat) (s : State) : State × Except WFault (Nat × List TlbEnt × List WalkEnt × List TlbEnt) :=
  match gXlate h { a with kind := .load, hlvx := false } true p s with
  | (s1, .error f) => (s1, .error { f with impl := true })
  | (s1, .ok l) =>
    let x := s.hart h
    let e : TlbEnt := ⟨2, 0, vmidOf x .g, false, h, p / 4096 * 4096, 12, l.out / 4096 * 4096, l.perm, l.pbmt, l.fa, 12⟩
    (s1, .ok (l.out, l.tlb, l.walk, if stageBare x .g then [] else [e]))

/-- The tag of a first-level entry: single stage, or combined with the modes of its stages. -/
def l1Code (x : Hart) (virt : Bool) : Nat :=
  if virt then 3 + (if stageBare x .vs then 4 else 0) + (if stageBare x .g then 8 else 0) else 0

/-- A first-level hit for the whole translation: permissions are rechecked. A stage that is Bare now translates nothing (R86), and a
block register of the first stage that matches is asked before the TLBs (R90). A combined entry without R serves a load only where
MXR holds for both stages. -/
def l1Look (x : Hart) (h : Nat) (a : Acc) (A : Nat) : Option Xl :=
  let S : Stage := if a.virt then .vs else .single
  let list := if a.kind = .fetch then x.itlb else x.dtlb
  if (a.virt = false ∧ stageBare x .single = true) ∨ (stageBare x S = false ∧ (canonical S A = false ∨ (blkMatch x S A).isSome = true)) then none
  else match list.find? fun e => e.stage == l1Code x a.virt && e.hart == h && covers e A && (e.glob || e.asid == asidOf x S) &&
      (!a.virt || e.vmid == vmidOf x .g) with
  | none => none
  | some e => if a.virt && decide (a.kind = .load) && !a.hlvx && !e.perm.getLsbD 1 && !bit (x.c 0x300) 19 then none
    else match hitLeaf x S a false A e with
      | .ok l => some ⟨l.out, l.pbmt, l.fa, [], [], [], [], false⟩
      | .error _ => none

/-- The combined permissions, memory type, attribute and size of the two stages. -/
def joinLeaf (x : Hart) (h A : Nat) (v g : Leaf) : Xl :=
  let rwx (p : BitVec 8) : BitVec 8 := if p.getLsbD 7 then p else p &&& ~~~0x84
  let perm := (rwx v.perm &&& (rwx g.perm ||| 0x30)) ||| (v.perm &&& 0x10)
  let size := min v.size g.size
  let pbmt := if v.pbmt ≠ 0 then v.pbmt else g.pbmt
  let e : TlbEnt := ⟨l1Code x true, asidOf x .vs, vmidOf x .g, v.glob, h, A / 2 ^ size * 2 ^ size, size, g.out / 2 ^ size * 2 ^ size, perm,
    pbmt, v.fa || g.fa, max v.size size⟩
  ⟨g.out, pbmt, v.fa || g.fa, g.tlb ++ v.tlb, v.walk ++ g.walk, if stageBare x .vs && stageBare x .g then [] else [e], v.l1g ++ g.l1g,
    !(v.blk && g.blk)⟩

/-- The translation of one stage as a whole. -/
def oneLeaf (x : Hart) (h A : Nat) (l : Leaf) : Xl :=
  let e : TlbEnt := ⟨0, asidOf x .single, 0, l.glob, h, A / 2 ^ l.size * 2 ^ l.size, l.size, l.out / 2 ^ l.size * 2 ^ l.size, l.perm, l.pbmt,
    l.fa, l.size⟩
  ⟨l.out, l.pbmt, l.fa, l.tlb, l.walk, if stageBare x .single then [] else [e], l.l1g, !l.blk⟩

/-- Translate past the first-level TLBs: one stage, or two. -/
def deepXlate (h : Nat) (a : Acc) (A : Nat) (s : State) : State × Except WFault Xl :=
  let x := s.hart h
  if a.virt = false then
    match stageXlate h .single a false (fun p s => (s, .ok (p, [], [], []))) A s with
    | (s1, .error f) => (s1, .error f)
    | (s1, .ok l) => (s1, .ok (oneLeaf x h A l))
  else
    match stageXlate h .vs a false (gImplicit h a) A s with
    | (s1, .error f) => (s1, .error f)
    | (s1, .ok v) =>
      match gXlate h a false v.out s1 with
      | (s2, .error f) => (s2, .error f)
      | (s2, .ok g) => (s2, .ok (joinLeaf x h A v g))

/-- Translate an access (R86): no translation at effective privilege M; by the first-level TLB; or past it. A first-level entry that
the deeper structures no longer give is used or not by the free choice of R102. -/
def translate (h : Nat) (a : Acc) (A : Nat) (s : State) : State × Except WFault Xl :=
  if a.priv = 3 then (s, .ok ⟨A, 0, false, [], [], [], [], false⟩)
  else
    let d := deepXlate h a A s
    match l1Look (s.hart h) h a A with
    | none => d
    | some r =>
      let differ : Bool := match d.2 with
        | .ok t => decide (t.pa ≠ r.pa ∨ t.pbmt ≠ r.pbmt ∨ t.fa ≠ r.fa)
        | .error f => !f.wait && decide (f.cause ≠ 5)
      if differ && pickNew s then (d.1.draw, d.2) else (if differ then s.draw else s, .ok r)

/-- Event 0x09 or 0x0A: the first-level TLB has missed (R58). -/
def countTlbMiss (h : Nat) (k : AccKind) (s : State) : State := countEvent h (if k = .fetch then 9 else 0xA) 1 s
def missEv (h : Nat) (k : AccKind) (t : Xl) (s : State) : State := if t.miss then countTlbMiss h k s else s

/-- The fills of an access that has completed (R96, R100); a block fills only the first level (R90). -/
def fillTlbs (h : Nat) (k : AccKind) (r : Xl) (s : State) : State :=
  let s1 := s.modCore (hartCore h) fun c => r.walk.foldl walkFill (r.tlb.foldl tlbFill c)
  let s2 := s1.modHart h fun x =>
    let y := { x with dtlb := r.l1g.foldl (fun l e => pushCap 32 e l) x.dtlb }
    if k = .fetch then { y with itlb := r.l1.foldl (fun l e => pushCap 16 e l) y.itlb }
    else { y with dtlb := r.l1.foldl (fun l e => pushCap 32 e l) y.dtlb }
  missEv h k r s2

/-! ### Translation without a walk (R53): what the block registers and the TLBs give, with no trace left in them -/

/-- One stage. -/
def stageHit (s : State) (h : Nat) (S : Stage) (a : Acc) (A : Nat) : Option Leaf :=
  let x := s.hart h
  let ok (r : Except Nat Leaf) : Option Leaf := match r with
    | .ok l => some l
    | .error _ => none
  if stageBare x S then some ⟨A, 0xDF, 0, false, 12, true, false, [], [], [], 0, 0⟩
  else if canonical S A = false then none
  else match blkMatch x S A with
    | some n => (match blkMap x S a false A n with
      | .ok l => some l
      | .error _ => none)
    | none => (tlbLook (s.core (hartCore h)) x h S A).bind fun p => ok (hitLeaf x S a false A p.2)

/-- The whole translation of an access. -/
def xlateHit (s : State) (h : Nat) (a : Acc) (A : Nat) : Option Xl :=
  let x := s.hart h
  if a.priv = 3 then some ⟨A, 0, false, [], [], [], [], false⟩
  else (l1Look x h a A).or (if a.virt = false then (stageHit s h .single a A).map (oneLeaf x h A)
    else (stageHit s h .vs a A).bind fun v => (stageHit s h .g a v.out).map (joinLeaf x h A v))

/-! ### Faults (R98, R99) -/

/-- The walk-fault word (Table 4.5). -/
def walkWord (f : WFault) : Word :=
  cat [on 63 true, on 62 f.impl, at_ 60 (BitVec.ofNat 2 f.stage.code), at_ 58 (BitVec.ofNat 2 f.level), on 57 f.blk.isSome,
    at_ 54 (BitVec.ofNat 3 (f.blk.getD 0)), at_ 51 (BitVec.ofNat 3 f.cause),
    at_ 0 (if f.blk.isSome || f.cause == 7 then 0#49 else BitVec.ofNat 49 (f.pte / 8))]

/-- The exception of a walk fault (Table 4.7). -/
def walkTrap (k : AccKind) (virt : Bool) (A : Nat) (f : WFault) : Trap :=
  let acc := f.cause = 4 ∨ f.cause = 5
  let base : Nat := if acc then 0 else if f.stage = .g then 20 else 12
  let c := match k with
    | .fetch => if acc then 1 else base
    | .load => if acc then 5 else base + 1
    | .store => if acc then 7 else base + 3
  let guest := decide (f.stage = .g) && !decide acc
  ⟨c, BitVec.ofNat 64 A, if guest then BitVec.ofNat 64 (f.gpa / 4) else 0, virt, guest && f.impl, some (walkWord f)⟩

/-- Take a walk fault; BUS is also reported (R99). -/
def takeWalkFault (h : Nat) (k : AccKind) (virt : Bool) (A : Nat) (f : WFault) (s : State) : State :=
  let s1 := if f.cause = 5 then reportUcs (.hart (Fin.ofNat 960 h)) .walk f.pte (secureAddr s f.pte) s else s
  takeTrap h (walkTrap k virt A f) s1

/-! ### Fences (R101, Table 4.9) -/

/-- The operand form of a fence: an address and an address-space number, each absent for x0. -/
structure FenceOp where
  va : Option Nat
  id : Option Nat
deriving DecidableEq, Repr

def covering (o : Option Nat) (e : TlbEnt) : Bool :=
  match o with
  | none => true
  | some A => covers e A

/-- The same for a first-level entry, whose page is that of its first stage: a change of a leaf of the VS stage is completed by a
fence on any address of the leaf's page (R102). -/
def spanning (o : Option Nat) (e : TlbEnt) : Bool :=
  match o with
  | none => true
  | some A => A / 2 ^ e.span == e.va / 2 ^ e.span
def idOk (id : Option Nat) (glob : Bool) (n : Nat) : Bool :=
  match id with
  | none => true
  | some i => !glob && decide (i = n)

/-- SFENCE.VMA with V = 0. -/
def sfence (h : Nat) (o : FenceOp) (s : State) : State :=
  let l1 (e : TlbEnt) : Bool := e.stage == 0 && covering o.va e && idOk o.id e.glob e.asid.toNat
  let s1 := s.modHart h fun x => { x with itlb := x.itlb.filter fun e => !l1 e, dtlb := x.dtlb.filter fun e => !l1 e }
  s1.modCore (hartCore h) fun k => { k with
    l2tlb := k.l2tlb.filter fun p => !(p.2.hart == h && l1 p.2)
    walk := k.walk.filter fun p => !(p.2.hart == h && p.2.stage == 0 && o.va.isNone && idOk o.id p.2.glob p.2.asid.toNat) }

/-- HFENCE.VVMA: the VS-stage entries of the current VMID. -/
def hfenceVvma (h : Nat) (o : FenceOp) (s : State) : State :=
  let vm := vmidOf (s.hart h) .g
  let l1 (e : TlbEnt) : Bool := e.stage != 0 && e.vmid == vm && spanning o.va e && idOk o.id e.glob e.asid.toNat
  let s1 := s.modHart h fun x => { x with itlb := x.itlb.filter fun e => !l1 e, dtlb := x.dtlb.filter fun e => !l1 e }
  s1.modCore (hartCore h) fun k => { k with
    l2tlb := k.l2tlb.filter fun p => !(p.2.hart == h && p.2.stage == 1 && p.2.vmid == vm && covering o.va p.2 && idOk o.id p.2.glob p.2.asid.toNat)
    walk := k.walk.filter fun p => !(p.2.hart == h && p.2.stage == 1 && p.2.vmid == vm && o.va.isNone && idOk o.id p.2.glob p.2.asid.toNat) }

/-- HFENCE.GVMA: the G-stage entries, and every V = 1 entry of the first level. -/
def hfenceGvma (h : Nat) (o : FenceOp) (s : State) : State :=
  let vm (n : Nat) : Bool := match o.id with
    | none => true
    | some i => decide (i = n)
  let l1 (e : TlbEnt) : Bool := e.stage != 0 && vm e.vmid.toNat
  let s1 := s.modHart h fun x => { x with itlb := x.itlb.filter fun e => !l1 e, dtlb := x.dtlb.filter fun e => !l1 e }
  s1.modCore (hartCore h) fun k => { k with
    l2tlb := k.l2tlb.filter fun p => !(p.2.hart == h && p.2.stage == 2 && vm p.2.vmid.toNat && covering o.va p.2)
    walk := k.walk.filter fun p => !(p.2.hart == h && p.2.stage == 2 && o.va.isNone && vm p.2.vmid.toNat) }

/-- The operands of a fence from its registers: x0 stands for all; the address-space number is taken in its implemented width. -/
def fenceOp (x : Hart) (rs1 rs2 : XReg) (scale w : Nat) : FenceOp :=
  ⟨if rs1.val = 0 then none else some ((x.gx rs1).toNat * scale), if rs2.val = 0 then none else some ((x.gx rs2).toNat % 2 ^ w)⟩

/-- A non-canonical address operand invalidates nothing (R101). -/
def fenceGuard (S : Stage) (o : FenceOp) (f : State → State) (s : State) : State :=
  match o.va with
  | some A => if canonical S A then f s else s
  | none => f s

/-- The bits of a fence instruction: funct7, rs2, rs1. -/
def fenceInst (f7 : Nat) (rs1 rs2 : XReg) : Word := BitVec.ofNat 64 (f7 * 2 ^ 25 + rs2.val * 2 ^ 20 + rs1.val * 2 ^ 15 + 0x73)

/-- HFENCE.VVMA as executed by HS or M, and by SFENCE.VMA with V = 1. -/
def doVvma (h : Nat) (rs1 rs2 : XReg) (s : State) : State :=
  let o := fenceOp (s.hart h) rs1 rs2 1 16
  retire h 4 (fenceGuard .vs o (hfenceVvma h o) s)

/-- SFENCE_VMA (R101). -/
def execSfenceVma (h : HartId) (rs1 rs2 : XReg) (s : State) : Out := keepQueue s <|
  done (byHart h (fun s =>
    let x := s.hart h
    let i := fenceInst 9 rs1 rs2
    if x.virt then
      (if x.priv = 0 ∨ bit (x.c 0x600) 20 = true then virtInstr h i s else doVvma h rs1 rs2 s)
    else if x.priv = 0 ∨ (x.priv = 1 ∧ bit (x.c 0x300) 20 = true) then illegalInstr h i s
    else
      let o := fenceOp x rs1 rs2 1 16
      retire h 4 (fenceGuard .single o (sfence h o) s)) s)

/-- HFENCE_VVMA (R101). -/
def execHfenceVvma (h : HartId) (rs1 rs2 : XReg) (s : State) : Out := keepQueue s <|
  done (byHart h (fun s =>
    let x := s.hart h
    let i := fenceInst 0x11 rs1 rs2
    if x.virt then virtInstr h i s else if x.priv = 0 then illegalInstr h i s else doVvma h rs1 rs2 s) s)

/-- HFENCE_GVMA (R101): the address operand is the guest physical address shifted right by 2. -/
def execHfenceGvma (h : HartId) (rs1 rs2 : XReg) (s : State) : Out := keepQueue s <|
  done (byHart h (fun s =>
    let x := s.hart h
    let i := fenceInst 0x31 rs1 rs2
    if x.virt then virtInstr h i s
    else if x.priv = 0 ∨ (x.priv = 1 ∧ bit (x.c 0x300) 20 = true) then illegalInstr h i s
    else
      let o := fenceOp x rs1 rs2 4 12
      retire h 4 (fenceGuard .g o (hfenceGvma h o) s)) s)

end Sys2Proof.Machine
end

