-- ==== Sys2Proof/Machine/Iommu.lean ====
section
/-! DEFINITION. The IOMMU (17 R422 to R425): its register file, the directories, translation with block sets, MSI translation, the
IOTLB and directory cache, the fault queue and the command queue. What the RISC-V IOMMU Architecture Specification 1.0 defines
follows that specification, with the choices of Table 17.5. -/

namespace Sys2Proof.Machine

/-! ### The standard register file -/

/-- A 32-bit word of the standard register file, by offset; capabilities: version 1.0, Sv48, Sv48x4, Svpbmt, flat MSI
translation, ATS, hardware performance monitor, 52-bit physical addresses, PD8 and PD17. -/
def iow (s : State) (off : Nat) : BitVec 32 :=
  if off = 0 then 0x42448410
  else if off = 4 then 0x000000F4
  else tabGet s.pcie.iommu.regs 0 (off / 4)
def setIow (off : Nat) (v : BitVec 32) (s : State) : State :=
  { s with pcie := { s.pcie with iommu := { s.pcie.iommu with regs := tabSet s.pcie.iommu.regs 0 (off / 4) v } } }
/-- An 8-byte register. -/
def iow64 (s : State) (off : Nat) : Word := (iow s (off + 4)).setWidth 64 <<< 32 ||| (iow s off).setWidth 64
def setIow64 (off : Nat) (v : Word) (s : State) : State := setIow (off + 4) (fld v 32 32) (setIow off (fld v 0 32) s)

/-- A request of the IOMMU itself for main memory is refused. -/
def ioBad (s : State) (a : Nat) (write : Bool) : Bool := !walkable (regionOf s a) || (refusal s .iommu false write a).isSome

/-- Write bytes for the IOMMU: false when the write is refused. -/
def ioWrite (a : Nat) (l : List Byte) (s : State) : State × Bool := if ioBad s a true then (s, false) else (cohWrite a l false s, true)

/-- Read an aligned 8-byte word (R94, R95): an access fault (false) or corrupted data (true). -/
def ioWord (s : State) (a : Nat) : Except Bool Word :=
  if ioBad s a false then .error false
  else
    let r := cohRead s a 8
    if r.2 then .error true else .ok (BitVec.ofNat 64 (leNat r.1))

/-- A write of the interrupt message of vector `v` (msi_cfg_tbl); false when it cannot be made. -/
def ioMsi (v : Nat) (s : State) : State × Bool :=
  let a := (iow64 s (0x300 + 16 * v)).toNat % 2 ^ 56
  let d := (iow s (0x308 + 16 * v)).toNat
  match regionOf s a with
  | .imsic h f o => (if o = 0 then imsicSet h f d s else s, true)
  | _ => ioWrite a (leBytes 4 d) s

/-- Raise an interrupt of the IOMMU (0 command queue, 1 fault queue, 2 performance monitor): ipsr, and the message unless its vector
is masked or the interrupt is already pending. -/
def ioIntr (k : Nat) (s : State) : State :=
  let p := iow s 0x54
  if p.getLsbD k then s
  else
    let s1 := setIow 0x54 (setBit p k true) s
    let v := ((iow s 0x2F8).toNat / 16 ^ k) % 16
    if (iow s (0x30C + 16 * v)).getLsbD 0 then s1 else (ioMsi v s1).1

/-! ### The fault queue -/

/-- Queue geometry: entries and base. -/
def qSize (s : State) (off : Nat) : Nat := 2 ^ ((iow s off).toNat % 32 + 1)
def qBase (s : State) (off : Nat) : Nat := (fld (iow64 s off) 10 44).toNat * 4096

/-- Write a fault record, unless the queue is off or stopped by an overflow or a memory fault. -/
def ioRecord (l : List Byte) (s : State) : State :=
  let c := iow s 0x4C
  let intr (s : State) : State := if c.getLsbD 1 then ioIntr 1 s else s
  if c.getLsbD 16 = false ∨ c.getLsbD 8 = true ∨ c.getLsbD 9 = true then s
  else
    let t := (iow s 0x34).toNat
    let n := (t + 1) % qSize s 0x28
    if n = (iow s 0x30).toNat then intr (setIow 0x4C (setBit c 9 true) s)
    else
      let r := ioWrite (qBase s 0x28 + 32 * t) l s
      if r.2 then intr (setIow 0x34 (BitVec.ofNat 32 n) r.1) else intr (setIow 0x4C (setBit c 8 true) s)

/-- A request to be translated: its DID and process, what it does, whether it is a request with an address
translated under ATS, an ATS translation request, or a store-queue buffer access (R425). -/
structure IoReq where
  did   : BitVec 24
  pid   : Option (BitVec 20)
  exec  : Bool
  priv  : Bool
  write : Bool
  xlated : Bool
  ats   : Bool
  sq    : Bool
  addr  : Nat
deriving DecidableEq, Repr

/-- TTYP of a fault record. -/
def ttyp (r : IoReq) : Nat :=
  if r.ats then 8 else (if r.xlated then 4 else 0) + (if r.write then 3 else if r.exec then 1 else 2)

/-- The fault record of a request (32 B). -/
def faultRec (r : IoReq) (cause iotval2 : Nat) : List Byte :=
  leBytes 8 (cause + ((r.pid.getD 0).toNat) * 2 ^ 12 + (if r.pid.isSome then 2 ^ 32 else 0) + (if r.priv then 2 ^ 33 else 0) +
    ttyp r * 2 ^ 34 + r.did.toNat * 2 ^ 40) ++ zeros 8 ++ leBytes 8 r.addr ++ leBytes 8 iotval2

/-- Report a fault: contexts with DTF = 1 suppress all but the causes that the specification always reports. -/
def ioFault (r : IoReq) (dtf : Bool) (cause iotval2 : Nat) (s : State) : State :=
  if dtf && ! [256, 257, 258, 259, 268, 272, 273].contains cause then s else ioRecord (faultRec r cause iotval2) s

/-! ### The performance monitor -/

/-- The filter of an event register. -/
def hpmHit (e : Word) (r : IoReq) (gscid : BitVec 16) (pscid : BitVec 20) : Bool :=
  let id := fld e 36 24
  let pv := fld e 16 20
  let x : BitVec 24 := if bit e 62 then gscid.setWidth 24 else r.did
  let y : Option (BitVec 20) := if bit e 62 then some pscid else r.pid
  let low := (id ^^^ (id + 1))
  (!bit e 61 || (if bit e 15 then (id ||| low) == (x ||| low) else id == x)) && (!bit e 60 || y == some pv)

/-- Count an event in the counters that select it; a counter that wraps sets OF and raises the interrupt. -/
def ioCount (ev : Nat) (r : IoReq) (gscid : BitVec 16) (pscid : BitVec 20) (s : State) : State :=
  (upto 8).foldl (fun a i =>
    let e := iow64 a (0x160 + 8 * i)
    if (fld e 0 15).toNat = ev ∧ (iow a 0x5C).getLsbD (i + 1) = false ∧ hpmHit e r gscid pscid = true then
      let v := iow64 a (0x68 + 8 * i)
      let a1 := setIow64 (0x68 + 8 * i) (v + 1) a
      if v = BitVec.allOnes 64 ∧ bit e 63 = false then ioIntr 2 (setIow64 (0x160 + 8 * i) (e ||| on 63 true) a1) else a1
    else a) s

/-! ### Contexts -/

/-- An extended device context. -/
structure DevCtx where
  tc   : Word
  gatp : Word
  ta   : Word
  fsc  : Word
  msip : Word
  mask : Word
  pat  : Word
  rsv  : Word
deriving DecidableEq, Repr

def ctxOf : List Word → DevCtx
  | [a, b, c, d, e, f, g, h] => ⟨a, b, c, d, e, f, g, h⟩
  | _ => ⟨0, 0, 0, 0, 0, 0, 0, 0⟩
def DevCtx.words (d : DevCtx) : List Word := [d.tc, d.gatp, d.ta, d.fsc, d.msip, d.mask, d.pat, d.rsv]

/-- MODE of a first-stage or second-stage field: Bare or the 4-level scheme. -/
def modeOk (w : Word) : Bool := fld w 60 4 == 0 || fld w 60 4 == 9

/-- A device context is misconfigured (Table 17.5, R424): reserved bits, options that are absent, unsupported modes. -/
def ctxBad (d : DevCtx) : Bool :=
  let pdtv := bit d.tc 5
  (d.tc &&& 0xFFFFFFFF40FFF000) != 0 || (bit d.tc 6 && !bit d.tc 2) || bit d.tc 3 || bit d.tc 7 || bit d.tc 8 || bit d.tc 10 || bit d.tc 11 ||
  (bit d.tc 9 && !pdtv) ||
  (if pdtv then !((fld d.fsc 60 4).toNat ≤ 2) else !modeOk d.fsc) || fld d.fsc 44 16 &&& 0xFFF != 0 ||
  !modeOk d.gatp || (fld d.gatp 60 4 != 0 && fld d.gatp 0 2 != 0) || fld d.gatp 56 4 != 0 ||
  (d.ta &&& 0xFFFFFFFF00000FFF) != 0 ||
  !((fld d.msip 60 4).toNat ≤ 1) || fld d.msip 44 16 &&& 0xFFF != 0 || fld d.mask 52 12 != 0 || fld d.pat 52 12 != 0 || d.rsv != 0

/-- Keep an entry in the directory cache (256 entries). -/
def ddcPut (e : DdtEnt) (s : State) : State :=
  { s with pcie := { s.pcie with iommu := { s.pcie.iommu with ddc := pushCap 256 e s.pcie.iommu.ddc } } }
def ddcLook (s : State) (did : BitVec 24) (pid : Option (BitVec 20)) : Option (List Word) :=
  (s.pcie.iommu.ddc.find? fun e => e.did == did && e.pid == pid).map (·.words)

/-- A non-leaf directory entry: the next table, or a cause; `base` is the first of the three causes of the table. -/
def dirNext (s : State) (p access : Nat) (corrupt : Nat) : Except Nat Nat :=
  match ioWord s p with
  | .error c => .error (if c then corrupt else access)
  | .ok e =>
    if bit e 0 = false then .error (access + 1)
    else if fld e 1 9 ≠ 0 ∨ fld e 54 10 ≠ 0 then .error (access + 2)
    else .ok ((fld e 10 44).toNat * 4096)

/-- Read consecutive words. -/
def ioWords (s : State) (a : Nat) : Nat → Except Bool (List Word)
  | 0 => .ok []
  | n + 1 => match ioWord s a with
    | .error c => .error c
    | .ok w => match ioWords s (a + 8) n with
      | .error c => .error c
      | .ok l => .ok (w :: l)

/-- Walk the 3-level device directory (256 to 259, 268). -/
def walkDdt (s : State) (did : BitVec 24) : Except Nat DevCtx :=
  let root := (fld (iow64 s 0x10) 10 44).toNat * 4096
  let d := did.toNat
  match dirNext s (root + d / 2 ^ 15 * 8) 257 268 with
  | .error c => .error c
  | .ok t1 => match dirNext s (t1 + d / 64 % 512 * 8) 257 268 with
    | .error c => .error c
    | .ok t0 => match ioWords s (t0 + d % 64 * 64) 8 with
      | .error c => .error (if c then 268 else 257)
      | .ok l =>
        let x := ctxOf l
        if bit x.tc 0 = false then .error 258 else if ctxBad x then .error 259 else .ok x

/-- The device context of a DID, from the directory cache or the directory. -/
def getCtx (r : IoReq) (s : State) : State × Except Nat DevCtx :=
  match ddcLook s r.did none with
  | some l => (s, .ok (ctxOf l))
  | none =>
    let s1 := ioCount 5 r 0 0 s
    match walkDdt s r.did with
    | .error c => (s1, .error c)
    | .ok x => (ddcPut ⟨r.did, none, x.words⟩ s1, .ok x)

/-! ### Stages -/

/-- A translation fault: cause, and iotval2 (the guest physical address of a second-stage fault). -/
structure IoF where
  cause : Nat
  gpa   : Nat
deriving DecidableEq, Repr

/-- What a stage yields. -/
structure IoLeaf where
  out  : Nat
  perm : BitVec 8
  pbmt : BitVec 2
  fa   : Bool
  size : Nat
  glob : Bool
deriving DecidableEq, Repr

def pageCause (S : Stage) (k : AccKind) : Nat :=
  (if S = .g then 20 else 12) + (match k with
    | .fetch => 0
    | .load => 1
    | .store => 3)
def accessCause : AccKind → Nat
  | .fetch => 1 | .load => 5 | .store => 7

/-- What a translation checks: the access, whether its privilege is User, SUM of the process context. -/
structure IoAcc where
  kind : AccKind
  user : Bool
  sum  : Bool
deriving DecidableEq, Repr

def ioPerm (S : Stage) (a : IoAcc) (impl : Bool) (p : BitVec 8) : Bool :=
  let rwx := if impl then p.getLsbD 1 else match a.kind with
    | .fetch => p.getLsbD 3
    | .load => p.getLsbD 1
    | .store => p.getLsbD 2
  let u := p.getLsbD 4
  rwx && (if S = .g then u else if a.user then u else !u || (a.sum && decide (a.kind ≠ .fetch)))

/-- VEST.IOMMU.BLK (Table 17.6): register `r` of set `n`. -/
def ioBlk (s : State) (n r : Nat) : Word := tabGet s.pcie.iommu.blk 0 (32 * n + r)

/-- The translation by a block of set `n` (R424), if one matches. -/
def ioBlock (s : State) (n : Nat) (S : Stage) (a : IoAcc) (impl : Bool) (A : Nat) : Option (Except IoF IoLeaf) :=
  let r := if S = .g then 16 else 0
  let base (v : Word) : Nat := if S = .g then (fld v 16 34).toNat else (fld v 16 32).toNat
  match (upto 8).find? fun k =>
    let v := ioBlk s n (r + k)
    let o := ioBlk s n (r + 8 + k)
    bit v 0 && decide (base v ≤ blkIn S A ∧ blkIn S A ≤ base v + (fld o 40 24).toNat) with
  | none => none
  | some k =>
    let v := ioBlk s n (r + k)
    let o := ioBlk s n (r + 8 + k)
    let perm : BitVec 8 := (fld v 0 4).setWidth 8 ||| (if S = .g ∨ bit v 4 = true then 0x10 else 0)
    let out := (fld o 0 36).toNat * 65536 + (A % 2 ^ (if S = .g then 50 else 48) - base v * 65536)
    if ioPerm S a impl perm = false ∨ (if S = .vs then 2 ^ 50 else 2 ^ 52) ≤ out then some (.error ⟨pageCause S a.kind, A⟩)
    else some (.ok ⟨out, perm ||| 0xC1, fld v 61 2, bit v 60, 16, false⟩)

/-- Walk the tables of a stage; `xl` places a table address. -/
def ioWalk (s : State) (S : Stage) (a : IoAcc) (impl : Bool) (A : Nat) (xl : Nat → Except IoF Nat) : Nat → Nat → Except IoF IoLeaf
  | lvl, base =>
    match xl (vpnAddr S A lvl base) with
    | .error f => .error f
    | .ok p => match ioWord s p with
      | .error c => .error ⟨if c then 274 else accessCause a.kind, A⟩
      | .ok e =>
        let pf : Except IoF IoLeaf := .error ⟨pageCause S a.kind, A⟩
        if bit e 0 = false ∨ pteReserved s true e lvl = true then pf
        else if bit e 1 || bit e 3 then
          if ioPerm S a impl (fld e 0 8) = false ∨ bit e 6 = false ∨ (a.kind = .store ∧ impl = false ∧ bit e 7 = false) then pf
          else
            let size := if bit e 63 then 16 else 12 + 9 * lvl
            let ppn := if bit e 63 then (fld e 10 44).toNat / 16 * 16 else (fld e 10 44).toNat
            .ok ⟨ppn * 4096 / 2 ^ size * 2 ^ size + A % 2 ^ size, fld e 0 8, fld e 61 2, bit e 60, size, decide (S ≠ .g) && bit e 5⟩
        else match lvl with
          | 0 => pf
          | n + 1 => ioWalk s S a impl A xl n ((fld e 10 44).toNat * 4096)

/-- One stage: range check, block set, tables (R424). -/
def ioStage (s : State) (bset : Option Nat) (S : Stage) (on_ : Bool) (root : Nat) (a : IoAcc) (impl : Bool) (xl : Nat → Except IoF Nat)
    (A : Nat) : Except IoF IoLeaf :=
  if on_ = false then .ok ⟨A, 0xDF, 0, false, 12, true⟩
  else if canonical S A = false then .error ⟨pageCause S a.kind, A⟩
  else match bset.bind fun n => ioBlock s n S a impl A with
    | some r => r
    | none => ioWalk s S a impl A xl 3 root

/-- Block set of a context. -/
def ctxSet (d : DevCtx) : Option Nat := if bit d.tc 31 then some (fld d.tc 24 6).toNat else none

/-- The second stage of a context. -/
def ioG (s : State) (d : DevCtx) (a : IoAcc) (impl : Bool) (A : Nat) : Except IoF IoLeaf :=
  ioStage s (ctxSet d) .g (fld d.gatp 60 4 == 9) ((fld d.gatp 0 44).toNat * 4096) a impl (fun p => .ok p) A

/-- A table address of the first stage or of the process directory, translated by the second stage as an implicit read. -/
def ioGImpl (s : State) (d : DevCtx) (k : AccKind) (p : Nat) : Except IoF Nat :=
  match ioG s d ⟨.load, true, false⟩ true p with
  | .ok l => .ok l.out
  | .error f => .error ⟨if f.cause = 21 then pageCause .g k else if f.cause = 5 then accessCause k else f.cause, p / 4 * 4 + 1⟩

/-! ### Process contexts -/

/-- A process context: ENS, SUM, PSCID, and the first stage. -/
structure ProcCtx where
  ta  : Word
  fsc : Word
deriving DecidableEq, Repr

/-- Walk the process directory of a context (PD8 or PD17). -/
def walkPdt (s : State) (d : DevCtx) (k : AccKind) (pid : BitVec 20) : Except IoF ProcCtx :=
  let n := pid.toNat
  let root := (fld d.fsc 0 44).toNat * 4096
  let leaf (t : Nat) : Except IoF ProcCtx :=
    match ioGImpl s d k (t + n % 256 * 16) with
    | .error f => .error f
    | .ok p => match ioWords s p 2 with
      | .error c => .error ⟨if c then 269 else 265, 0⟩
      | .ok l =>
        let x : ProcCtx := ⟨l.headD 0, (l.drop 1).headD 0⟩
        if bit x.ta 0 = false then .error ⟨266, 0⟩
        else if (x.ta &&& 0xFFFFFFFF00000FF8) ≠ 0 ∨ modeOk x.fsc = false ∨ fld x.fsc 44 16 &&& 0xFFF ≠ 0 then .error ⟨267, 0⟩
        else .ok x
  if fld d.fsc 60 4 = 1 then leaf root
  else match ioGImpl s d k (root + n / 256 * 8) with
    | .error f => .error f
    | .ok p => match dirNext s p 265 269 with
      | .error c => .error ⟨c, 0⟩
      | .ok t => leaf t

/-- The process context of a process, from the directory cache or the directory. -/
def getProc (r : IoReq) (d : DevCtx) (pid : BitVec 20) (k : AccKind) (s : State) : State × Except IoF ProcCtx :=
  match ddcLook s r.did (some pid) with
  | some l => (s, .ok ⟨l.headD 0, (l.drop 1).headD 0⟩)
  | none =>
    let s1 := ioCount 6 r (fld d.gatp 44 16) 0 s
    match walkPdt s d k pid with
    | .error f => (s1, .error f)
    | .ok x => (ddcPut ⟨r.did, some pid, [x.ta, x.fsc]⟩ s1, .ok x)

/-! ### Translation -/

/-- A translated request: the address, the tenant (R422), the combined permissions and size, whether it came from an MSI entry, and the
first-stage G bit with the tags for the IOTLB. -/
structure IoOk where
  pa   : Nat
  tid  : BitVec 12
  perm : BitVec 8
  size : Nat
  msi  : Bool
deriving DecidableEq, Repr

/-- The bits of `v` at the positions below `n` that are set in `m`, packed towards bit 0. -/
def extractBits (v m : Nat) : Nat → Nat
  | 0 => 0
  | n + 1 => if m / 2 ^ n % 2 = 1 then extractBits v m n + v / 2 ^ n % 2 * 2 ^ popBelow m n else extractBits v m n
where
  /-- Set bits of a mask below a position. -/
  popBelow (m : Nat) : Nat → Nat
    | 0 => 0
    | k + 1 => m / 2 ^ k % 2 + popBelow m k

/-- A guest physical page that flat MSI translation takes (msi_addr_mask, msi_addr_pattern): its interrupt file number. -/
def msiFile (d : DevCtx) (gpa : Nat) : Option Nat :=
  let p : BitVec 52 := BitVec.ofNat 52 (gpa / 4096)
  let m := fld d.mask 0 52
  if fld d.msip 60 4 = 1 ∧ p &&& ~~~m = fld d.pat 0 52 &&& ~~~m then some (extractBits p.toNat m.toNat 52) else none

/-- Translate by a flat MSI page table (261 to 263, 270). -/
def msiXlate (s : State) (d : DevCtx) (gpa i : Nat) : Except IoF Nat :=
  match ioWord s ((fld d.msip 0 44).toNat * 4096 + 16 * i) with
  | .error c => .error ⟨if c then 270 else 261, 0⟩
  | .ok e =>
    if bit e 0 = false then .error ⟨262, 0⟩
    else if fld e 1 2 ≠ 3 ∨ fld e 3 7 ≠ 0 ∨ fld e 54 10 ≠ 0 then .error ⟨263, 0⟩
    else .ok ((fld e 10 44).toNat * 4096 + gpa % 4096)

/-- The access of a request under a process context. -/
def ioKind (r : IoReq) : AccKind := if r.write then .store else if r.exec then .fetch else .load

/-- An IOTLB hit whose permissions allow the access. -/
def ioTlbLook (s : State) (r : IoReq) (d : DevCtx) (pscid : BitVec 20) (a : IoAcc) : Option IoTlbEnt :=
  s.pcie.iommu.tlb.find? fun e => e.did == r.did && e.pid == r.pid && e.gscid == fld d.gatp 44 16 && (e.glob || e.pscid == pscid) &&
    e.bset == ctxSet d && r.addr / 2 ^ e.size == e.va / 2 ^ e.size && ioPerm .single a false e.perm &&
    (msiFile d (e.gpa + r.addr % 2 ^ e.size)).isNone

/-- Stages 1 and 2 of a request, with flat MSI translation between (R423): the result and what the IOTLB keeps. -/
def ioStages (s : State) (r : IoReq) (d : DevCtx) (firstOn : Bool) (fsc : Word) (pscid : BitVec 20) (a : IoAcc) :
    Except IoF (IoOk × Option IoTlbEnt) :=
  let tid := fld d.gatp 44 12
  let S : Stage := if fld d.gatp 60 4 = 9 then .vs else .single
  match ioStage s (ctxSet d) S firstOn ((fld fsc 0 44).toNat * 4096) a false (ioGImpl s d a.kind) r.addr with
  | .error f => .error f
  | .ok v =>
    match msiFile d v.out with
    | some i => match msiXlate s d v.out i with
      | .error f => .error f
      | .ok p => .ok (⟨p, tid, 0xDF, 12, true⟩, none)
    | none => match ioG s d { a with user := true } false v.out with
      | .error f => .error { f with gpa := f.gpa / 4 * 4 }
      | .ok g =>
        let rwx (p : BitVec 8) : BitVec 8 := if p.getLsbD 7 then p else p &&& ~~~0x84
        let perm := (rwx v.perm &&& (rwx g.perm ||| 0x30)) ||| (v.perm &&& 0x10)
        let size := min v.size g.size
        let e : IoTlbEnt := ⟨fld d.gatp 44 16, pscid, r.did, r.pid, r.addr / 2 ^ size * 2 ^ size, v.out / 2 ^ size * 2 ^ size,
          g.out / 2 ^ size * 2 ^ size, size, perm, v.glob && firstOn, fld d.gatp 60 4 == 9, ctxSet d⟩
        .ok (⟨g.out, tid, perm, size, false⟩, some e)

/-- Translate once the context is known. -/
def ioCtxXlate (r : IoReq) (d : DevCtx) (firstOn : Bool) (fsc : Word) (pscid : BitVec 20) (a : IoAcc) (s : State) :
    State × Except IoF IoOk :=
  match (if firstOn ∨ fld d.gatp 60 4 = 9 then ioTlbLook s r d pscid a else none) with
  | some e => (s, .ok ⟨e.out + r.addr % 2 ^ e.size, fld d.gatp 44 12, e.perm, e.size, false⟩)
  | none =>
    let gs := fld d.gatp 44 16
    let s1 := ioCount 4 r gs pscid s
    let s2 := if firstOn then ioCount 7 r gs pscid s1 else s1
    let s3 := if fld d.gatp 60 4 = 9 then ioCount 8 r gs pscid s2 else s2
    match ioStages s r d firstOn fsc pscid a with
    | .error f => (s3, .error f)
    | .ok (x, some e) =>
      if firstOn ∨ fld d.gatp 60 4 = 9 then
        ({ s3 with pcie := { s3.pcie with iommu := { s3.pcie.iommu with tlb := pushCap 4096 e s3.pcie.iommu.tlb } } }, .ok x)
      else (s3, .ok x)
    | .ok (x, none) => (s3, .ok x)

/-- The first stage that a context and a process select, then the translation; 260 for a request that the context does not allow. -/
def ioInCtx (r : IoReq) (d : DevCtx) (s : State) : State × Except IoF IoOk :=
  let k := ioKind r
  let pdtv := bit d.tc 5
  let pid : Option (BitVec 20) := if r.pid.isSome then r.pid else if pdtv && bit d.tc 9 then some 0 else none
  let pscid := fld d.ta 12 20
  if r.sq then ioCtxXlate r d false 0 pscid ⟨k, true, false⟩ s
  else if (r.xlated || r.ats) && !bit d.tc 1 then (s, .error ⟨260, 0⟩)
  else if r.pid.isSome && !pdtv then (s, .error ⟨260, 0⟩)
  else if r.xlated then (s, .ok ⟨r.addr, fld d.gatp 44 12, 0xDF, 12, false⟩)
  else if pdtv then
    match pid with
    | none => ioCtxXlate r d false 0 pscid ⟨k, true, false⟩ s
    | some p =>
      let mode := fld d.fsc 60 4
      if mode = 0 then ioCtxXlate r d false 0 pscid ⟨k, true, false⟩ s
      else if (mode = 1 ∧ 256 ≤ p.toNat) ∨ 0x20000 ≤ p.toNat then (s, .error ⟨260, 0⟩)
      else match getProc r d p k s with
        | (s1, .error f) => (s1, .error f)
        | (s1, .ok c) =>
          if r.priv && !bit c.ta 1 then (s1, .error ⟨260, 0⟩)
          else ioCtxXlate r d (fld c.fsc 60 4 == 9) c.fsc (fld c.ta 12 20) ⟨k, !r.priv, bit c.ta 2⟩ s1
  else ioCtxXlate r d (fld d.fsc 60 4 == 9) d.fsc pscid ⟨k, true, false⟩ s

/-- Translate a request (R419, R422 to R425): its address and tenant, or a fault, which is reported. -/
def ioTranslate (r : IoReq) (s : State) : State × Option IoOk :=
  let mode := (fld (iow64 s 0x10) 0 4).toNat
  let s0 := ioCount (if r.ats then 3 else if r.xlated then 2 else 1) r 0 0 s
  if mode = 0 then (ioFault r false 256 0 s0, none)
  else if mode = 1 then
    if r.xlated ∨ r.ats ∨ r.sq then (ioFault r false 260 0 s0, none) else (s0, some ⟨r.addr, 0, 0xDF, 12, false⟩)
  else match getCtx r s0 with
    | (s1, .error c) => (ioFault r false c 0 s1, none)
    | (s1, .ok d) => match ioInCtx r d s1 with
      | (s2, .error f) => (ioFault r (bit d.tc 4) f.cause f.gpa s2, none)
      | (s2, .ok x) => (s2, some x)

/-! ### The command queue -/

/-- IOTINVAL: the entries it removes. -/
def iotHit (gvma : Bool) (w0 w1 : Word) (e : IoTlbEnt) : Bool :=
  let addr := (fld w1 10 52).toNat * 4096
  let gOk := if bit w0 33 then e.two && e.gscid == fld w0 44 16 else if gvma then e.two else !e.two
  let inAddr (base : Nat) : Bool := !bit w0 10 || addr / 2 ^ e.size == base / 2 ^ e.size
  if gvma then gOk && inAddr (if bit w0 33 then e.gpa else addr)
  else gOk && (!bit w0 32 || (!e.glob && e.pscid == fld w0 12 20)) && inAddr e.va

/-- Run a command; false when it is illegal, and a further flag is false when a memory access of it fails. -/
def ioCommand (w0 w1 : Word) (s : State) : State × Bool × Bool :=
  let op := (fld w0 0 7).toNat
  let f3 := (fld w0 7 3).toNat
  let io := s.pcie.iommu
  let put (x : Iommu) : State := { s with pcie := { s.pcie with iommu := x } }
  if op = 1 ∧ f3 ≤ 1 then
    if f3 = 1 ∧ bit w0 32 = true then (s, false, true)
    else (put { io with tlb := io.tlb.filter fun e => !iotHit (f3 == 1) w0 w1 e }, true, true)
  else if op = 2 ∧ f3 = 0 then
    if bit w0 11 then (s, false, true)
    else if bit w0 10 then
      let a := (fld w1 0 62).toNat * 4
      let d := (fld w0 32 32).toNat
      match regionOf s a with
      | .imsic h f o => (if o = 0 then imsicSet h f d s else s, true, true)
      | _ => let x := ioWrite a (leBytes 4 d) s
        (x.1, true, x.2)
    else (s, true, true)
  else if op = 3 ∧ f3 = 0 then
    (put { io with ddc := io.ddc.filter fun e => bit w0 33 && e.did != fld w0 40 24 }, true, true)
  else if op = 3 ∧ f3 = 1 then
    if bit w0 33 = false then (s, false, true)
    else (put { io with ddc := io.ddc.filter fun e => !(e.did == fld w0 40 24 && e.pid == some (fld w0 12 20)) }, true, true)
  else if op = 4 ∧ f3 ≤ 1 then (s, true, true)
  else (s, false, true)

/-- Stop the command queue on an error: a bit of cqcsr. -/
def cqStop (n : Nat) (s : State) : State :=
  let c := iow s 0x48
  let s1 := setIow 0x48 (setBit c n true) s
  if c.getLsbD 1 then ioIntr 0 s1 else s1

/-- Run the queued commands. -/
def cqRun : Nat → State → State
  | 0, s => s
  | n + 1, s =>
    let c := iow s 0x48
    let h := (iow s 0x20).toNat
    if c.getLsbD 16 = false ∨ c.getLsbD 8 = true ∨ c.getLsbD 10 = true ∨ h = (iow s 0x24).toNat then s
    else match ioWords s (qBase s 0x18 + 16 * h) 2 with
      | .error _ => cqStop 8 s
      | .ok l =>
        let x := ioCommand (l.headD 0) ((l.drop 1).headD 0) s
        if x.2.1 = false then cqStop 10 x.1
        else if x.2.2 = false then cqStop 8 x.1
        else cqRun n (setIow 0x20 (BitVec.ofNat 32 ((h + 1) % qSize s 0x18)) x.1)

/-- Run the command queue until it is empty. -/
def cqRunAll (s : State) : State := cqRun (qSize s 0x18) s

/-- A write of cqt. -/
def wrCqt (v : BitVec 32) (s : State) : State := cqRunAll (setIow 0x24 (BitVec.ofNat 32 (v.toNat % qSize s 0x18)) s)

/-- A write of cqcsr or fqcsr: the enable resets the queue's indices and error bits; error bits are cleared by writing 1. -/
def wrCqcsr (v : BitVec 32) (s : State) : State :=
  let c := iow s 0x48
  let start := v.getLsbD 0 && !c.getLsbD 0
  let err : BitVec 32 := if start then 0 else c &&& 0xF00 &&& ~~~v
  let s1 := setIow 0x48 ((v &&& 3) ||| err ||| (if v.getLsbD 0 then 0x10000 else 0)) s
  cqRunAll (if start then setIow 0x20 0 (setIow 0x24 0 s1) else s1)
def wrFqcsr (v : BitVec 32) (s : State) : State :=
  let c := iow s 0x4C
  let start := v.getLsbD 0 && !c.getLsbD 0
  let err : BitVec 32 := if start then 0 else c &&& 0x300 &&& ~~~v
  let s1 := setIow 0x4C ((v &&& 3) ||| err ||| (if v.getLsbD 0 then 0x10000 else 0)) s
  if start then setIow 0x30 0 (setIow 0x34 0 s1) else s1

/-- A write of a 4-byte word of the standard register file. -/
def wrIow (off : Nat) (v : BitVec 32) (s : State) : State :=
  let keep (m : BitVec 32) : State := setIow off (v &&& m) s
  if off = 0x10 then
    let m := v.toNat % 16
    if m = 0 ∨ m = 1 ∨ m = 4 then keep 0xFFFFFC0F else setIow off ((v &&& 0xFFFFFC00) ||| (iow s off &&& 0xF)) s
  else if off = 0x14 ∨ off = 0x1C ∨ off = 0x2C then keep 0x3FFFFF
  else if off = 0x18 ∨ off = 0x28 then keep 0xFFFFFC1F
  else if off = 0x24 then wrCqt v s
  else if off = 0x30 then setIow off (BitVec.ofNat 32 (v.toNat % qSize s 0x28)) s
  else if off = 0x48 then wrCqcsr v s
  else if off = 0x4C then wrFqcsr v s
  else if off = 0x54 then setIow off (iow s off &&& ~~~v) s
  else if off = 0x5C then keep 0x1FF
  else if 0x60 ≤ off ∧ off < 0xA8 then keep 0xFFFFFFFF
  else if 0x160 ≤ off ∧ off < 0x1A0 then keep 0xFFFFFFFF
  else if off = 0x2F8 then keep 0xFFF
  else if 0x300 ≤ off ∧ off < 0x400 then
    let k := off % 16
    if k = 0 then keep 0xFFFFFFFC
    else if k = 4 then keep 0xFFFFFF
    else if k = 8 then keep 0xFFFFFFFF
    else
      let n := (off - 0x300) / 16
      let s1 := keep 1
      let due := (upto 3).any fun q => (iow s 0x54).getLsbD q && decide ((iow s 0x2F8).toNat / 16 ^ q % 16 = n)
      if (iow s off).getLsbD 0 && !v.getLsbD 0 && due then (ioMsi n s1).1 else s1
  else s

/-- An 8-byte register begins at an offset. -/
def wideReg (off : Nat) : Bool :=
  off % 8 == 0 && (off == 0 || off == 0x10 || off == 0x18 || off == 0x28 || decide (0x60 ≤ off ∧ off < 0x2F8) || decide (0x300 ≤ off ∧ off < 0x400 ∧ off % 16 = 0))

/-- A write to the standard register file: 8 bytes of an 8-byte register, else 4. -/
def wrIommuStd (off : Nat) (v : Word) (s : State) : State :=
  if off % 4 ≠ 0 then s
  else if wideReg off then wrIow (off + 4) (fld v 32 32) (wrIow off (fld v 0 32) s) else wrIow off (fld v 0 32) s

/-- A word as it reads; the cycle counter is open, and iocntovf gathers the OF bits. -/
def rdIow (s : State) (off : Nat) : BitVec 32 :=
  if off = 0x58 then (upto 8).foldl (fun a i => setBit a (i + 1) (bit (iow64 s (0x160 + 8 * i)) 63)) 0
  else if off = 0x60 ∨ off = 0x64 then (Config.freeWord (s.free + off)).setWidth 32
  else iow s off
def rdIommuStd (s : State) (off : Nat) : Word :=
  if off % 4 ≠ 0 then 0
  else if wideReg off then (rdIow s (off + 4)).setWidth 64 <<< 32 ||| (rdIow s off).setWidth 64 else (rdIow s off).setWidth 64

/-- IOMMU_COMMAND_QUEUE (R422): software advances cqt, and the queued commands run. -/
def execIommuCommandQueue (who : Agent) (tail : BitVec 32) (s : State) : Out := keepQueue s <| sentBy who s <| done (wrCqt tail s)

/-! ### Block sets (R424) -/

/-- A write to a block-set register: reserved encodings leave their field (R88), and the IOTLB entries of the set go. -/
def wrIommuBlk (n r : Nat) (v : Word) (s : State) : State :=
  let old := ioBlk s n r
  let g := decide (16 ≤ r)
  let m : Word :=
    if r / 8 % 2 = 1 then 0xFFFFFF0FFFFFFFFF
    else cat [0x0000FFFFFFFF0001, if g then 0x0003000000000000 else 0x10,
      if fld v 61 2 = 3 then 0 else 0x6000000000000000, if featOn s 0 || !bit v 60 then on 60 true else 0,
      if bit v 2 && !bit v 1 then 0 else 0xE]
  let io := s.pcie.iommu
  { s with pcie := { s.pcie with iommu := { io with
    blk := tabSet io.blk 0 (32 * n + r) ((old &&& ~~~m) ||| (v &&& m))
    tlb := io.tlb.filter fun e => e.bset != some n } } }

/-- IOMMU_BLOCK_WRITE (R424). -/
def execIommuBlockWrite (who : Agent) (n : Fin 64) (r : Fin 32) (v : BitVec 64) (s : State) : Out := keepQueue s <| sentBy who s <| done (wrIommuBlk n r v s)

end Sys2Proof.Machine
end

