-- ==== Sys2Proof/Machine/Pcie.lean ====
section
/-! DEFINITION. Root ports and links, inbound requests of devices, and I/O errors (17 R415 to R421, R423, R426, R427). -/

namespace Sys2Proof.Machine

/-! ### Port registers (Table 17.1) -/

/-- VEST.PCIE[p].CFG. -/
def rdPcieCfg (s : State) (p : Nat) : Word :=
  let x := s.port p
  cat [at_ 16 x.cto, at_ 8 x.cxlen, at_ 4 x.rate, at_ 0 x.bifur]
def wrPcieCfg (p : Nat) (v : Word) (s : State) : State :=
  let cto := fld v 16 16
  let cxl := fld v 8 4
  let cxlOk := decide (cxl = 0) || (cxlPort (4 * p) && featOn s 7)
  s.modPort p fun x => { x with
    cto := if 1 ≤ cto.toNat ∧ cto.toNat ≤ 1000 then cto else x.cto
    cxlen := if cxlOk then cxl else x.cxlen
    rate := if (fld v 4 3).toNat ≤ 3 then fld v 4 3 else x.rate
    bifur := if (fld v 0 3).toNat ≤ 4 then fld v 0 3 else x.bifur }

/-- Packets of a link held by the regulator of its port. -/
def heldLink (l : Nat) (e : Held) : Bool :=
  match e.pkt with
  | .cmd (.inboundMemWrite r _ _) => r.link.val == l
  | .cmd (.inboundMemRead r _ _) => r.link.val == l
  | .cmd (.inboundAtomic r _ _ _) => r.link.val == l
  | .cmd (.inboundMsi r _) => r.link.val == l
  | _ => false
def linkHeld (s : State) (p l : Nat) : Nat := (s.fab.held.filter fun e => e.pt == 240 + p && heldLink l e).length

/-- VEST.PCIE[p].LNK[l]. -/
def rdPcieLnk (s : State) (p l : Nat) : Word :=
  let k := s.link (4 * p + l)
  cat [on 63 k.up, on 62 k.cxl, on 61 k.dpc, at_ 48 k.width, at_ 44 k.speed, at_ 16 (BitVec.ofNat 16 (linkHeld s p l)), at_ 0 k.ctocnt]
def wrPcieLnk (p l : Nat) (v : Word) (s : State) : State :=
  s.modLink (4 * p + l) fun k => { k with dpc := k.dpc && !bit v 61, ctocnt := fld v 0 16 }

/-- DPC_RELEASE (R426): containment ends; CTOCNT is unchanged. -/
def execDpcRelease (who : Agent) (p : PortId) (l : LinkId) (s : State) : Out := keepQueue s <| sentBy who s <|
  done (s.modLink (4 * p.val + l.val) fun k => { k with dpc := false })

/-- The lanes of a link under a bifurcation (Table 17.1, BIF); 0 when there is no such link. -/
def linkLanes (bifur : BitVec 3) (l : Nat) : Nat :=
  match bifur.toNat, l with
  | 0, 0 => 16
  | 1, 0 => 8 | 1, 2 => 8
  | 2, 0 => 8 | 2, 2 => 4 | 2, 3 => 4
  | 3, 0 => 4 | 3, 1 => 4 | 3, 2 => 8
  | 4, _ => 4
  | _, _ => 0

/-- Root port `p` is powered: its block is not powered off. -/
def portOn (s : State) (p : Nat) : Bool := decide (blockAt s (34 + p) ≠ 2)
where
  /-- The state of a power block. -/
  blockAt (s : State) (b : Nat) : Nat := tabGet s.pwr.blocks 0 b

/-- LINK_UP (R426): a link of the bifurcation in force trains, at a width and rate that the port permits; in CXL mode where CXLEN
lets it, with a device that keeps poison or cannot (R212). A CXL link that has been isolated is retrained (R213). -/
def execLinkUp (p : PortId) (l : LinkId) (cxl : Bool) (width : BitVec 8) (speed : BitVec 4) (s : State) (noPoison : Bool := false) : Out := keepQueue s <|
  let x := s.port p
  let t := 4 * p.val + l.val
  let wOk := [1, 2, 4, 8, 16].contains width.toNat && decide (width.toNat ≤ linkLanes x.bifurF l)
  let rOk := decide (1 ≤ speed.toNat ∧ speed.toNat + x.rateF.toNat ≤ 6)
  if s.pins.inReset ∨ portOn s p = false ∨ wOk = false ∨ rOk = false ∨ (cxl = true ∧ x.cxlenF.getLsbD l = false) then done s
  else done (cxlRetrained t (s.modLink t fun k => { k with up := true, cxl := cxl, noPoison := noPoison, width := width, speed := speed }))

/-! ### Harts' requests to a port (Table 17.7) -/

/-- The link through which a window or ECAM address of a port is reached. -/
def winLink (s : State) (p a : Nat) : Nat := if (s.port p).bifurF = 0 then 0 else (Config.linkOf a).val
def linkServes (s : State) (p l : Nat) : Bool := let k := s.link (4 * p + l)
  k.up && !k.dpc

/-- A failed request at a root port is reported with the port's source (R426). -/
def reportIo (p l : Nat) (who : Agent) (addr : Nat) (s : State) : State :=
  report (mkReport (0x5000 + 4 * p + l) 3 0x012 false 16 (leBytes 8 addr ++ leBytes 2 (agentNode who) ++ leBytes 1 UcsKind.device.code)) s

/-- A request that a port sent ends in an error: a hart takes a load or store/AMO access fault; another agent receives an error
completion. -/
def endIoError (p l : Nat) (who : Agent) (tag : BitVec 12) (addr : Nat) (s : State) : State :=
  let s1 := reportIo p l who addr s
  match who with
  | .hart h =>
    (match (s1.hart h).io with
    | some io =>
      if io.tag = tag then
        let c := match io.what with
          | .load .. => 5
          | _ => 7
        takeTrap h (plainTrap c io.va io.gva) (missEv h .load io.xl (s1.modHart h fun y => { y with io := none }))
      else s1
    | none => s1)
  | _ => s1.answerErr

/-- The requests of a port that wait for a completion through a link. -/
def waitsOn (s : State) (p l : Nat) : List (BitVec 12 × (Agent × Nat)) := (s.port p).wait.filter fun w => winLink s p w.2.2 == l

/-- Every waiting request of a link ends in an error. -/
def failWaits (p l : Nat) (s : State) : State :=
  let ws := waitsOn s p l
  ws.foldl (fun a w => endIoError p l w.2.1 w.1 w.2.2 a) (s.modPort p fun x => { x with wait := x.wait.filter fun w => winLink s p w.2.2 != l })

/-- COMPLETION_TIMEOUT (R426): the oldest waiting request of the link is not answered within CTO. -/
def execCompletionTimeout (p : PortId) (l : LinkId) (s : State) : Out := keepQueue s <|
  match waitsOn s p l with
  | [] => done s
  | w :: _ =>
    let s1 := (s.modPort p fun x => { x with wait := x.wait.erase w }).modLink (4 * p.val + l.val) fun k => { k with ctocnt := satInc k.ctocnt }
    done (endIoError p l w.2.1 w.1 w.2.2 s1)

/-- DPC contains a link (R426, R427): held packets are discarded uncharged, waiting requests end as at a down link. -/
def contain (p l : Nat) (s : State) : State :=
  let s1 := s.modLink (4 * p + l) fun k => { k with dpc := true }
  failWaits p l { s1 with fab := { s1.fab with held := s1.fab.held.filter fun e => !(e.pt == 240 + p && heldLink l e) } }

/-- An AER event is logged at a port. -/
def logAer (p : Nat) (s : State) : State := s.modPort p fun x => { x with aer := x.aer + 1 }

/-- SURPRISE_LINK_DOWN (R426): containment; memory behind a CXL link is isolated (R213). -/
def execSurpriseLinkDown (p : PortId) (l : LinkId) (s : State) : Out := keepQueue s <|
  let t := 4 * p.val + l.val
  if (s.link t).up = false then done s
  else
    let s1 := logAer p (contain p l (s.modLink t fun k => { k with up := false }))
    done (if cxlLink s t then isolate t 1 s1 else s1)

/-- INTX_MESSAGE (Table 17.3): discarded, counted in the AER log. -/
def execIntxMessage (p : PortId) (s : State) : Out := keepQueue s <| done (logAer p s)

/-- PTM_REQUEST (Table 17.3): the package timebase in ns. -/
def execPtmRequest (_p : PortId) (s : State) : Out := keepQueue s <| done (s.answerW (BitVec.ofNat 64 (s.time * 10)))

/-! ### Inbound requests (R419 to R421) -/

/-- The device ID. -/
def devId (r : DevReq) : BitVec 24 := BitVec.ofNat 24 (r.port.val * 65536 + r.rid.toNat)
def devAgent (r : DevReq) : Agent := .device r.port r.link r.rid

/-- A request of a device as the IOMMU sees it. -/
def ioReq (r : DevReq) (write ats : Bool) : IoReq :=
  ⟨devId r, r.pasid, r.exec && !write, r.priv && r.pasid.isSome, write, r.xlated, ats, false, r.addr.toNat⟩

/-- Completions: unsupported request, completer abort. -/
def answerUr (s : State) : State := { s with answer := .status 2 [] }
def answerCa (s : State) : State := { s with answer := .status 1 [] }

/-- The causes that a read of a table raises. -/
def tableCause (c : Nat) : Bool := [257, 261, 265, 268, 269, 270, 274].contains c

/-- A request refused at its destination: discarded or UR, with a record and a fault record. -/
def inboundRefused (r : DevReq) (k : UcsKind) (pa : Nat) (write : Bool) (s : State) : State :=
  let s1 := reportUcs (devAgent r) k pa (secureAddr s pa) s
  let s2 := ioFault (ioReq r write false) false (if write then 7 else 5) 0 s1
  if write then s2 else answerUr s2

/-- Translate an inbound request; a fault discards it or answers UR, with a record. -/
def inboundXlate (r : DevReq) (write posted : Bool) (s : State) : State × Option IoOk :=
  match ioTranslate (ioReq r write false) s with
  | (s1, some x) => (s1, some x)
  | (s1, none) =>
    let s2 := reportUcs (devAgent r) .reserved r.addr.toNat false s1
    (if posted then s2 else answerUr s2, none)

/-- All 64 entries of a root port are in use: it returns no credits, and every request of its functions stays with the device
(R169). -/
def portFull (s : State) (p : Nat) : Bool := decide (64 ≤ (s.fab.held.filter fun e => e.pt == 240 + p).length)

/-- Meter a translated request at its port (R167, R169): it passes, or it is held. -/
def inboundMeter (on_ : Bool) (r : DevReq) (x : IoOk) (cost : Nat) (c : Instr) (s0 s : State) : State × Bool :=
  if on_ = false then (s, true)
  else if portFull s r.port then (s0, false)
  else match injTake (240 + r.port) x.tid cost s with
    | (s1, none) => (s1, true)
    | (s1, some a) => (holdPacket (240 + r.port) a cost c s1, false)

/-- A transaction is active for a line. -/
def lineBusy (s : State) (n : Nat) : Bool := s.coh.txns.any fun t => t.line == n

/-- Poison that a write creates is reported by the memory that stores it (R124, R125). -/
def reportPoison (a : Nat) (s : State) : State :=
  let rec_ (src node : Nat) : State := report (mkReport src 2 0x011 false 16 (leBytes 8 a ++ leBytes 2 node)) s
  match regionOf s a with
  | .dram => match dramLoc s a with
    | some (n, _) => rec_ (0x4000 + n) (dramNode n)
    | none => s
  | .cxl => match cxlTarget s a with
    | some t => rec_ (0x5000 + t) (portNode (t / 4))
    | none => s
  | .scratch k _ _ => rec_ (0x2000 + k) (sliceNode k (lineSlice (a / 64)))
  | _ => s

/-- Write bytes line by line for an agent that caches nothing: where a transaction is active for a line, the write waits at the
home (R140). -/
def plainWrite (who : Agent) (a : Nat) (l : List Byte) (p : Bool) (s : State) : State :=
  (linesOf a l.length).foldl (fun st n =>
    let inL (i : Nat) : Bool := decide (a ≤ 64 * n + i ∧ 64 * n + i < a + l.length)
    let m := maskOf 64 inL
    let d := lineOfBytes ((upto 64).map fun i => if inL i then l.getD (64 * n + i - a) 0 else 0)
    if lineBusy st n then
      let k : ReqKind := if m = BitVec.allOnes 64 then .wrfull else .wrpart
      arrive { mkTxn .vest k 99 n (some who) st.time with mask := m, val := d, poison := p } st
    else putLine n m d p st) s

/-- The requester stands on one of the buses 0 to 15 of its segment (R415); a requester on another bus receives UR (Table 17.3). -/
def busOk (r : DevReq) : Bool := decide (r.rid.toNat < 16 * 256)

/-- Main memory and scratch windows, at which device requests are served. -/
def devMem : Region → Bool
  | .dram | .cxl | .scratch .. => true
  | _ => false

/-- A memory write of a device (Table 17.4). -/
def inMemWrite (metered : Bool) (r : DevReq) (data : List Byte) (ep : Bool) (c : Instr) (s : State) : State :=
  if linkServes s r.port r.link = false then s
  else if busOk r = false then logAer r.port s
  else match inboundXlate r true true s with
    | (s1, none) => s1
    | (s1, some x) =>
      match inboundMeter metered r x (max 1 (linesOf x.pa data.length).length) c s s1 with
      | (s2, false) => s2
      | (s2, true) =>
        match refusal s2 (devAgent r) false true x.pa with
        | some k => inboundRefused r k x.pa true s2
        | none =>
          match regionOf s2 x.pa with
          | .imsic h f o =>
            if data.length = 4 ∧ (o = 0 ∨ o = 4) then
              let v := if o = 0 then leNat data else leNat data.reverse
              if hartFailed s2 h then s2 else imsicSet h f v s2
            else logAer r.port s2
          | g =>
            if devMem g then
              let s3 := plainWrite (devAgent r) x.pa data ep s2
              if ep then (linesOf x.pa data.length).foldl (fun a n => reportPoison (64 * n) a) s3 else s3
            else logAer r.port s2

/-- A memory read of a device (Table 17.4): completed after every earlier posted write, as commands are served in order. -/
def inMemRead (metered : Bool) (r : DevReq) (n : Nat) (c : Instr) (s : State) : State :=
  if linkServes s r.port r.link = false then s
  else if busOk r = false then answerUr (logAer r.port s)
  else match inboundXlate r false false s with
    | (s1, none) => s1
    | (s1, some x) =>
      if (linesOf x.pa n).any (lineBusy s1) then s
      else match inboundMeter metered r x (max 1 (linesOf x.pa n).length) c s s1 with
      | (s2, false) => s2
      | (s2, true) =>
        match refusal s2 (devAgent r) false false x.pa with
        | some k => inboundRefused r k x.pa false s2
        | none =>
          if devMem (regionOf s2 x.pa) then
            let b := cohRead s2 x.pa n
            if b.2 then answerCa (reportUcs (devAgent r) .device x.pa false s2) else { s2 with answer := .bytes b.1 }
          else answerUr (logAer r.port s2)

/-- The new value of an AtomicOp and its width in bytes; none for one that the ports do not complete. -/
def devAtomicNew (op : DevAtomic) (v cmp : Word) (old : Nat) : Option (Nat × Nat) :=
  let w (dbl : Bool) : Nat := if dbl then 8 else 4
  match op with
  | .fetchAdd d => some (w d, (old + v.toNat) % 2 ^ (8 * w d))
  | .swap d => some (w d, v.toNat % 2 ^ (8 * w d))
  | .cas d => some (w d, if old = cmp.toNat % 2 ^ (8 * w d) then v.toNat % 2 ^ (8 * w d) else old)
  | .cas128 => none
def devAtomicLen : DevAtomic → Nat
  | .fetchAdd d | .swap d | .cas d => if d then 8 else 4
  | .cas128 => 16

/-- An AtomicOp of a device (Tables 17.3, 17.4): performed at the home agent or the slice, with the old value as its completion. -/
def inAtomic (metered : Bool) (r : DevReq) (op : DevAtomic) (v cmp : Word) (c : Instr) (s : State) : State :=
  let n := devAtomicLen op
  if linkServes s r.port r.link = false then s
  else if n = 16 ∨ busOk r = false then answerUr (logAer r.port s)
  else match inboundXlate r true false s with
    | (s1, none) => s1
    | (s1, some x) =>
      if lineBusy s1 (x.pa / 64) then s
      else match inboundMeter metered r x 1 c s s1 with
      | (s2, false) => s2
      | (s2, true) =>
        if x.pa % n ≠ 0 ∨ devMem (regionOf s2 x.pa) = false then
          match refusal s2 (devAgent r) false true x.pa with
          | some k => answerUr (inboundRefused r k x.pa true s2)
          | none => answerUr (logAer r.port s2)
        else match refusal s2 (devAgent r) false true x.pa with
        | some k => answerUr (inboundRefused r k x.pa true s2)
        | none =>
          let b := cohRead s2 x.pa n
          if b.2 then answerCa (reportUcs (devAgent r) .device x.pa false s2)
          else match devAtomicNew op v cmp (leNat b.1) with
            | some y => { cohWrite x.pa (leBytes n y.2) false (clearResv (x.pa / 64) none s2) with answer := .bytes b.1 }
            | none => answerUr s2

/-- The payload of a request is within the port's limits and one 4 KiB page (Table 17.3). A request that is not is malformed: the port
discards it and logs it (log 131). -/
def devLenOk (r : DevReq) (n mx : Nat) : Bool := decide (n ≤ mx ∧ r.addr.toNat % 4096 + n ≤ 4096)

/-- INBOUND_MEM_WRITE. -/
def execInboundMemWrite (r : DevReq) (data : List Byte) (ep : Bool) (s : State) : Out := keepQueue s <|
  if devLenOk r data.length 512 then done (inMemWrite true r data ep (.inboundMemWrite r data ep) s)
  else done (logAer r.port s)

/-- INBOUND_MEM_READ. -/
def execInboundMemRead (r : DevReq) (n : Nat) (s : State) (errs : List ArrErr := []) : Out := keepQueue s <|
  if devLenOk r n 4096 then done (inMemRead true r n (.inboundMemRead r n []) (meet errs s)) else done (logAer r.port s)

/-- INBOUND_ATOMIC. -/
def execInboundAtomic (r : DevReq) (op : DevAtomic) (v cmp : BitVec 64) (s : State) : Out := keepQueue s <|
  done (inAtomic true r op v cmp (.inboundAtomic r op v cmp) s)

/-- INBOUND_MSI (R423): a 4 B posted write; an MSI whose translation falls elsewhere is an ordinary write. -/
def execInboundMsi (r : DevReq) (v : BitVec 32) (s : State) : Out := keepQueue s <|
  done (inMemWrite true r (leBytes 4 v.toNat) false (.inboundMsi r v) s)

/-- Run a packet that a root port held. -/
def runInbound (c : Instr) (s : State) : State :=
  match c with
  | .inboundMemWrite r d e => inMemWrite false r d e c s
  | .inboundMemRead r n _ => inMemRead false r n c s
  | .inboundAtomic r op v k => inAtomic false r op v k c s
  | .inboundMsi r v => inMemWrite false r (leBytes 4 v.toNat) false c s
  | _ => s

/-- ATS_TRANSLATION_REQUEST (Table 17.3): the translated page with its permissions (R in bit 0, W in bit 1); a fault of the tables
answers with neither; a context that does not allow it, or a PASID, UR. -/
def execAtsTranslationRequest (r : DevReq) (s : State) : Out := keepQueue s <|
  if linkServes s r.port r.link = false then done s
  else if r.pasid.isSome ∨ busOk r = false then done (answerUr (logAer r.port s))
  else match ioTranslate (ioReq { r with xlated := false } false true) s with
    | (s1, some x) => done (s1.answerW (cat [BitVec.ofNat 64 (x.pa / 4096 * 4096), on 0 (x.perm.getLsbD 1), on 1 (x.perm.getLsbD 2 && x.perm.getLsbD 7)]))
    | (s1, none) =>
      let mode := (fld (iow64 s 0x10) 0 4).toNat
      match (if mode = 4 then (getCtx (ioReq r false true) s).2 else .error 256) with
      | .ok d => if bit d.tc 1 then done (s1.answerW 0) else done (answerUr s1)
      | .error _ => done (answerUr s1)

end Sys2Proof.Machine
end

