-- ==== Sys2Proof/Machine/BufOps.lean ====
section
/-! DEFINITION. Buffers of store commands (09 R226, 12 R299, 17 R425): addresses, and reads and writes of a block's area by the
media engine's data movers, as non-secure requests with the queue's TID. -/

namespace Sys2Proof.Machine

/-- The part of a range that lies in its first 4 KiB page, and the rest. -/
def pageParts : Nat → Nat → Nat → List (Nat × Nat)
  | 0, _, _ => []
  | fuel + 1, a, n => if n = 0 then [] else
      let k := min n (4096 - a % 4096)
      (a, k) :: pageParts fuel (a + k) (n - k)

/-- A refused buffer access is reported with the queue pair as its source (Table 16.2). -/
def bufRefused (q : Nat) (k : UcsKind) (a : Nat) (s : State) : State :=
  report (mkReport (0x7000 + q) 3 0x012 (secureAddr s a) 16 (leBytes 8 a ++ leBytes 2 (agentNode .media) ++ leBytes 1 k.code)) s

/-- The physical address of a buffer access within one page: translated under the context of the tenant while XLATE = 1 (R425), and
checked under R73 and R30. -/
def bufPlace (q a : Nat) (write : Bool) (s : State) : State × Option Nat :=
  let p := s.qp q
  let x : State × Option Nat :=
    if p.xlate then
      match ioTranslate ⟨BitVec.ofNat 24 (0xFFF000 + p.tid.toNat), none, false, false, write, false, false, true, a⟩ s with
      | (s1, some y) => (s1, some y.pa)
      | (s1, none) => (bufRefused q .reserved a s1, none)
    else (s, some a)
  match x with
  | (s1, none) => (s1, none)
  | (s1, some pa) =>
    match refusal s1 .iommu false write pa with
    | some k => (bufRefused q k pa s1, none)
    | none => if devMem (regionOf s1 pa) then (s1, some pa) else (bufRefused q .device pa s1, none)

/-- Read the parts of a range. -/
def readParts (q : Nat) : List (Nat × Nat) → State → State × Option (List Byte)
  | [], s => (s, some [])
  | e :: r, s =>
    match bufPlace q e.1 false s with
    | (s1, none) => (s1, none)
    | (s1, some pa) =>
      let b := cohRead s1 pa e.2
      if b.2 then (bufRefused q .device pa s1, none)
      else match readParts q r s1 with
        | (s2, some l) => (s2, some (b.1 ++ l))
        | (s2, none) => (s2, none)

/-- The places of the parts of a range for a write; none when one of them is refused. -/
def placeParts (q : Nat) : List (Nat × Nat) → State → State × Option (List Nat)
  | [], s => (s, some [])
  | e :: r, s =>
    match bufPlace q e.1 true s with
    | (s1, none) => (s1, none)
    | (s1, some pa) => let x := placeParts q r s1; (x.1, x.2.map fun l => pa :: l)

/-- Write bytes at places: each takes the length of its part. -/
def putParts : List (Nat × Nat) → List Nat → List Byte → State → State
  | e :: r, pa :: ps, l, s => putParts r ps (l.drop e.2) (plainWrite .media pa (l.take e.2) false s)
  | _, _, _, s => s

/-- Write the parts of a range: all of them, or none where one is refused (R237: an area holds its earlier content or the block's
data). -/
def writeParts (q : Nat) (l : List (Nat × Nat)) (b : List Byte) (s : State) : State × Bool :=
  match placeParts q l s with
  | (s1, some ps) => (putParts l ps b s1, true)
  | (s1, none) => (s1, false)

/-- Read `n` bytes for a command of pair `q`; nothing when the access fails. -/
def bufRead (q addr n : Nat) (s : State) : State × Option (List Byte) := readParts q (pageParts (n / 4096 + 2) addr n) s

/-- Write bytes for a command of pair `q`; false when the access fails. -/
def bufWrite (q addr : Nat) (b : List Byte) (s : State) : State × Bool := writeParts q (pageParts (b.length / 4096 + 2) addr b.length) b s

/-- The area of block `i` of a command (R226): from DPTR, or from entry `i` of the list at DPTR. -/
def bufAddr (c : Cmd) (i : Nat) (s : State) : State × Option Nat :=
  if c.dptm = 0 then (s, some (c.dptr + 4096 * i))
  else
    match bufRead c.q (c.dptr + 8 * i) 8 s with
    | (t, some b) => let v := leNat b; (t, if v % 4096 = 0 ∧ v < 2 ^ 52 then some v else none)
    | (t, none) => (t, none)

/-- The packets that the access to block `i`'s area takes at the media engine's port (R167, Table 7.7): the read of the list entry, and
one for each line up to the first page that is refused. -/
def areaCost (c : Cmd) (write : Bool) (s : State) (i : Nat) : Nat :=
  let x := bufAddr c i s
  let pages : List (Nat × Nat) := match x.2 with
    | some a => (pageParts 3 a 4096).takeWhile fun e => (bufPlace c.q e.1 write x.1).2.isSome
    | none => []
  pages.foldl (fun n e => n + (linesOf e.1 e.2).length) (if c.dptm = 0 then 0 else 1)

/-- Read the area of block `i`. -/
def readArea (c : Cmd) (i : Nat) (s : State) : State × Option (List Byte) :=
  match bufAddr c i s with
  | (t, some a) => bufRead c.q a 4096 t
  | (t, none) => (t, none)

/-- Write the area of block `i`. -/
def writeArea (c : Cmd) (i : Nat) (b : List Byte) (s : State) : State × Bool :=
  match bufAddr c i s with
  | (t, some a) => bufWrite c.q a b t
  | (t, none) => (t, false)

end Sys2Proof.Machine
end

