-- ==== Sys2Proof/Machine/MediaFmt.lean ====
section
/-! DEFINITION. What the media engine writes on flash, byte by byte: band header and codeword metadata (10 R246, R247), journal
units and records, checkpoint header and trailer, drain header and manifest (11 R284, R287, R288). -/

namespace Sys2Proof.Machine

/-- Bytes with their CRC-32C after them. -/
def withCrc (l : List Byte) : List Byte := l ++ leBytes 4 (crc32c l).toNat

/-- LSEG of a header or parity unit (Table 10.4), and the absent band of a record (Table 11.7). -/
def noSeg : Nat := 0xFFFFFFFF

/-- The band header of the copy at a channel position (Table 10.3). -/
def bandHdr (bn : Nat) (b : Band) (pos ec : Nat) : List Byte :=
  withCrc (leBytes 4 0x444E4255 ++ leBytes 1 1 ++ leBytes 1 (if b.slc then 1 else 0) ++ leBytes 1 b.kind ++ leBytes 1 (if b.hot then 1 else 0) ++
    leBytes 4 bn ++ leBytes 4 (if b.kind ≤ 1 then b.seg else noSeg) ++ leBytes 8 b.openSeq ++ leBytes 8 b.openTime ++
    leBytes 2 (BitVec.ofInt 16 (b.temp.getD pos 0)).toNat ++ leBytes 1 pos ++ zeros 1 ++ leBytes 4 ec ++ zeros 20)

/-- The metadata of a codeword (Table 10.4); the CRC covers the data too. -/
def unitMeta (x : FUnit) : List Byte :=
  let flags (b : Bool) (i : Nat) : Nat := if b then 2 ^ i else 0
  let m := leBytes 4 x.seg ++ leBytes 4 (flags x.gc 31 + flags x.zero 30 + flags x.unrec 29 + flags x.hdr 28 + x.page % 2097152) ++
    leBytes 8 x.seq ++ zeros 8 ++ leBytes 4 x.bn
  m ++ leBytes 4 (crc32c ((x.data ++ zeros (4096 - x.data.length)) ++ m)).toNat

/-- A page map entry (Table 10.6) and a block record (Table 10.13) as words. -/
def pmWord (e : PmEnt) : BitVec 32 :=
  match e with
  | .none => 0
  | .unit l => BitVec.ofNat 32 (2147483648 + l)
  | .disc => BitVec.ofNat 32 1073741824
def ebWord (e : EBlk) : Word :=
  cat [at_ 60 (BitVec.ofNat 4 e.state), on 59 e.suspect, at_ 24 (BitVec.ofNat 24 e.ec), at_ 0 (BitVec.ofNat 24 e.rdc)]

/-! ### Journal (Tables 11.6 and 11.7) -/

/-- TYPE, P0 and P1 of a record. -/
def jrecOps : JOp → Nat × Nat × Nat
  | .segmap g e => (1, g, (segWord e).toNat)
  | .slotBind j g bn _ => (2, j + g * 4294967296, bn)
  | .slotFree j => (3, j, 0)
  | .discard j o n => (4, j + o * 4294967296, n)
  | .mergeStart g succ fill dest =>
    (5, g + (match succ with
      | some j => j * 4294967296 + 4398046511104
      | none => 0) + (if fill then 8796093022208 else 0), dest)
  | .mergeDone g a b => (6, g, a.getD noSeg + b.getD noSeg * 4294967296)
  | .fillOpen g dest => (7, g, dest)
  | .erased bn => (8, bn, 0)
  | .block k e => (9, k % 4096 + (k / 4096 % 16) * 4294967296 + (k / 65536 % 16) * 1099511627776 + (k / 1048576) * 281474976710656, (ebWord e).toNat)
  | .bandMap bn pos eb => (10, bn + pos * 4294967296, eb.getD (2 ^ 64 - 1))
  | .namespace_ n v => (11, n + v.state * 256 + v.lgmask.toNat * 65536, v.sbase + v.nseg * 4294967296)
  | .time t => (12, t, 0)
  | .checkpoint k bn => (13, k, bn)

/-- A journal record, and a journal unit that follows checkpoint `ck`. -/
def jrecBytes (r : JRec) : List Byte :=
  let p := jrecOps r.op
  leBytes 8 r.rseq ++ leBytes 4 r.jnum ++ leBytes 1 p.1 ++ zeros 3 ++ leBytes 8 p.2.1 ++ leBytes 8 p.2.2
def jrnUnit (ck : Nat) (l : List JRec) : List Byte :=
  leBytes 4 0x4E4A4255 ++ leBytes 4 l.length ++ leBytes 8 ck ++ zeros 16 ++ (l.map jrecBytes).flatten

/-! ### Checkpoint (Table 11.8) -/

/-- Units that a section of `n` bytes takes: each section starts on a unit boundary. -/
def pages (n : Nat) : Nat := (n + 4095) / 4096

/-- Units of the image: header, segment map of 458,752 entries, slot descriptors, merge and fill descriptors, namespaces, band
table, block table of `blocks` erase blocks, trailer. -/
def ckptUnits (m : Maps) (blocks : Nat) : Nat :=
  1 + pages (8 * 458752) + pages (32 * 1024) + pages (8 + 64 * m.descs.length) + pages (32 * 64) + pages (64 * m.bands.length) +
    pages (8 * blocks) + 1

/-- The checkpoint's header and trailer; the trailer's CRC covers the section bytes. -/
def ckptHdr (k : Ckpt) (units : Nat) : List Byte :=
  withCrc (leBytes 4 0x4B434255 ++ leBytes 1 1 ++ zeros 3 ++ leBytes 8 k.num ++ leBytes 4 k.jnum ++ zeros 4 ++ leBytes 8 k.mtime ++
    leBytes 8 k.seq ++ leBytes 4 units ++ leBytes 4 458752 ++ zeros 12)
def ckptTrailer (k : Ckpt) (crc : BitVec 32) : List Byte := leBytes 8 k.num ++ leBytes 4 crc.toNat ++ leBytes 4 0x45434255

/-! ### Drain bands (Table 11.5) -/

/-- A manifest entry, and the metadata of its data unit. -/
def manEntry (e : DrainEnt) : List Byte := leBytes 4 e.seg ++ leBytes 4 (e.off % 2097152) ++ leBytes 8 e.seq
def drainUnit (e : DrainEnt) : FUnit := ⟨e.data.getD [], e.seg, false, false, e.unrec, false, e.off, e.seq, 0, false⟩

end Sys2Proof.Machine
end

