-- ==== Sys2Proof/Machine/Media.lean ====
section
/-! DEFINITION. The media engine's parts (10, 11): geometry, units and bands, the journal, flash operations and their
charges, the page map and the location of blocks. -/

namespace Sys2Proof.Machine

/-- Change the media engine's state. -/
def State.modFtl (s : State) (f : Ftl → Ftl) : State := { s with ftl := f s.ftl }
def State.modMaps (s : State) (f : Maps → Maps) : State := { s with ftl := { s.ftl with maps := f s.ftl.maps } }
def State.modPls (s : State) (f : Pls → Pls) : State := { s with pls := f s.pls }

/-- A lane group. -/
def State.lg (s : State) (g : Nat) : LgSt := tabGet s.ftl.lgs LgSt.reset g
def State.modLg (s : State) (g : Nat) (f : LgSt → LgSt) : State :=
  s.modFtl fun t => { t with lgs := tabSet t.lgs LgSt.reset g (f (tabGet t.lgs LgSt.reset g)) }

/-! ### Geometry (R244 to R246) -/

/-- Bits per cell. -/
def geoBits (g : Geo) : Nat := if g.qlc then 4 else 3
/-- EBU and EBU_S: units of an erase block in native and in SLC mode (R244). -/
def ebu (g : Geo) : Nat := 4 * g.planes * g.pages
def ebuS (g : Geo) : Nat := ebu g / geoBits g
/-- SEGBLK: logical blocks of a native band; and the log units of a log band (R246). -/
def segBlk (g : Geo) : Nat := 16 * (ebu g - 1)
def logCap (g : Geo) : Nat := 16 * (ebuS g - 1)

/-- Band number (R245), and its lane group, die slot and erase-block address. -/
def bandNo (g k a : Nat) : Nat := g * 65536 + k * 4096 + a
def bnLg (bn : Nat) : Nat := bn / 65536
def bnSlot (bn : Nat) : Nat := bn / 4096 % 16
def bnAddr (bn : Nat) : Nat := bn % 4096

/-- Keys of a die, an erase block and a unit of the media. -/
def dieKey (g pos slot : Nat) : Nat := (g * 16 + pos) * 16 + slot
def ebKey (die a : Nat) : Nat := die * 4096 + a
def unitKey (eb u : Nat) : Nat := eb * 1048576 + u

/-- Channel position and unit within the erase block of a native offset or log unit (R246). -/
def unitPos (o : Nat) : Nat := o % 16
def unitIdx (o : Nat) : Nat := 1 + o / 16

def Band.none : Band := ⟨.gone, 0, false, 0, false, 0, 0, [], 0, [], 0, 0, false, 0⟩

/-- A band. -/
def State.band (s : State) (bn : Nat) : Band := tabGet s.ftl.maps.bands Band.none bn
def State.modBand (s : State) (bn : Nat) (f : Band → Band) : State :=
  s.modMaps fun m => { m with bands := tabSet m.bands Band.none bn (f (tabGet m.bands Band.none bn)) }

/-- Segment map entry, log slot, namespace, descriptor, block record. -/
def State.seg (s : State) (g : Nat) : SegEnt := tabGet s.ftl.maps.segs SegEnt.reset g
def State.modSeg (s : State) (g : Nat) (f : SegEnt → SegEnt) : State :=
  s.modMaps fun m => { m with segs := tabSet m.segs SegEnt.reset g (f (tabGet m.segs SegEnt.reset g)) }
def State.slot (s : State) (j : Nat) : LogSlot := tabGet s.ftl.maps.slots LogSlot.reset j
def State.modSlot (s : State) (j : Nat) (f : LogSlot → LogSlot) : State :=
  s.modMaps fun m => { m with slots := tabSet m.slots LogSlot.reset j (f (tabGet m.slots LogSlot.reset j)) }
def State.ns (s : State) (n : Nat) : Ns := tabGet s.ftl.maps.nss Ns.reset n
def State.setNs (s : State) (n : Nat) (v : Ns) : State :=
  s.modMaps fun m => { m with nss := tabSet m.nss Ns.reset n v }
def State.desc (s : State) (g : Nat) : Option FDesc := s.ftl.maps.descs.find? (·.seg = g)
def State.modDesc (s : State) (g : Nat) (f : FDesc → FDesc) : State :=
  s.modMaps fun m => { m with descs := m.descs.map fun d => if d.seg = g then f d else d }
def State.dropDesc (s : State) (g : Nat) : State := s.modMaps fun m => { m with descs := m.descs.filter (·.seg ≠ g) }
def State.eblk (s : State) (k : Nat) : EBlk := tabGet s.ftl.maps.ebs EBlk.reset k
def State.modEblk (s : State) (k : Nat) (f : EBlk → EBlk) : State :=
  s.modMaps fun m => { m with ebs := tabSet m.ebs EBlk.reset k (f (tabGet m.ebs EBlk.reset k)) }

/-- The erase block of a band at a position. -/
def bandEb (s : State) (bn pos : Nat) : Nat := ebKey (dieKey (bnLg bn) pos (bnSlot bn)) ((s.band bn).eb.getD pos (bnAddr bn))
def bandDie (bn pos : Nat) : Nat := dieKey (bnLg bn) pos (bnSlot bn)

/-- The unit programmed at a place of a band. -/
def mediaAt (s : State) (bn pos idx : Nat) : Option FUnit := tabFind (unitKey (bandEb s bn pos) idx) s.ftl.media

/-- Lane groups that serve: usable or exhausted (Table 10.2). -/
def lgServes (s : State) (g : Nat) : Bool := decide ((s.lg g).state = 2) || decide ((s.lg g).state = 4)
def usableLgs (s : State) : List Nat := (upto 8).filter (lgServes s)

/-- Media time (R247): the package timebase plus the offset that recovery restored. -/
def mediaTime (s : State) : Nat := s.time + s.ftl.mtOff

/-! ### Counters, journal (11 R287) -/

/-- Draw a media sequence number (R247). -/
def drawSeq (s : State) : State × Nat := (s.modFtl fun t => { t with seq := t.seq + 1 }, s.ftl.seq)

/-- Program the journal tail to the journal home and its mirror. -/
def flushTail (s : State) : State := s.modPls fun p => { p with
  jrn := p.jrn ++ p.tail, jUnits := if p.tail = [] then p.jUnits else p.jUnits + 1, tail := [] }

/-- Append a record to the journal (R287): to the tail, which is programmed when a unit of 127 records is full; while WT = 1
it is programmed at once. -/
def jot (op : JOp) (s : State) : State :=
  let s1 := s.modPls fun p => { p with tail := p.tail ++ [⟨s.ftl.seq, p.jnum % 2 ^ 32, op⟩], jnum := (p.jnum + 1) % 2 ^ 32 }
  if s.stor.wt ∨ s.stor.st = 1 ∨ 127 ≤ s1.pls.tail.length then flushTail s1 else s1

/-- Journal the segment map entry of a segment. -/
def jotSeg (g : Nat) (s : State) : State := jot (.segmap g (s.seg g)) s

/-- Journal a namespace. -/
def jotNs (n : Nat) (s : State) : State := jot (.namespace_ n (s.ns n)) s

/-- Journal a block record. -/
def jotEb (k : Nat) (s : State) : State := jot (.block k (s.eblk k)) s

/-! ### Flash operations and their charges (R259, 12 R306 to R309) -/

/-- The operation with an id. -/
def findOp (s : State) (id : Nat) : Option FOp := s.ftl.ops.find? (·.id = id)
def setOp (o : FOp) (s : State) : State := s.modFtl fun t => { t with ops := t.ops.map fun p => if p.id = o.id then o else p }

/-- Typical time of an operation in µs, from the part profile. -/
def opTime (s : State) (o : FOp) : Nat :=
  let g := (s.lg (bnLg o.bn)).geo
  let slc := (s.band o.bn).slc
  match o.kind with
  | .readCmd .. | .readBack .. | .readMerge .. | .verify | .sample => if slc then g.tRs else g.tR
  | .progSlot .. | .progHdr .. | .progMerge .. => if slc then g.tPs else g.tP
  | .progPar .. | .reparity .. | .ckpt => g.tPs
  | .erase .. => g.tE

/-- Units an operation costs in a class (Table 12.3), and the scope it is charged in. -/
def opCost (s : State) (o : FOp) (c : Fin 6) : Nat := if c = 2 then opTime s o else if c = 5 then 64 else 1
def opScope (o : FOp) (c : Fin 6) : Nat := if c = 5 then 0 else bnLg o.bn

/-- The owner that an operation is charged to in a class: the program of an acknowledged write whose tenant has no matching
activity goes to the media engine's entries (R311); a remnant meters only the operations of started commands (Table 12.9). -/
def opEng (s : State) (o : FOp) (c : Fin 6) : Bool :=
  o.eng || (match o.kind with
    | .progSlot j =>
      (match matchAct s false o.tid c (opScope o c) with
        | none => true
        | some a => (s.act a).remnant && !(s.pls.slots.any fun p => p.id == j && s.stor.cmds.any fun d => d.id == p.cmd))
    | _ => false)

/-- Charge the classes an operation still owes, until one holds it (R306). -/
def chargeOp : Nat → Nat → State → State
  | 0, _, s => s
  | n + 1, id, s =>
    match findOp s id with
    | none => s
    | some o =>
      match o.left with
      | [] => s
      | c :: r =>
        let eng := opEng s o c
        let a := matchAct s eng o.tid c (opScope o c)
        let x := beltCharge eng o.tid c (opScope o c) (opCost s o c) (.op id) s
        let b := match a with
          | some e => borrowsUnit s e (opScope o c)
          | none => false
        if x.2 then chargeOp n id (setOp { o with left := r, act3 := if c = 3 then a else o.act3, bor3 := if c = 3 then b else o.bor3 } x.1)
        else x.1

/-- Operations that the Belt still owes a decision and no longer holds are charged anew: their activity was withdrawn (12
Table 12.9, step 5). -/
def rechargeOps (s : State) : State :=
  (s.ftl.ops.filter fun o => o.left ≠ [] && !(s.belt.held.any fun h => h.what = .op o.id)).foldl (fun a o => chargeOp 4 o.id a) s

/-- The Belt releases an operation: the held class has been charged. -/
def releaseOp (id : Nat) (charged : Option Nat) (bor : Bool) (s : State) : State :=
  match findOp s id with
  | none => s
  | some o =>
    let c3 := decide (o.left.head? = some 3)
    chargeOp 4 id (setOp { o with left := o.left.tail, act3 := if c3 then charged else o.act3, bor3 := if c3 then bor else o.bor3 } s)

def FUnit.none : FUnit := ⟨[], noSeg, false, false, false, false, 0, 0, 0, false⟩

/-- Temperature of a die in °C (R461: 1/16 °C readings; 85 °C when nothing answers). -/
def dieTemp (s : State) (g pos : Nat) : Int := (tabGet s.ftl.temps 1360 (g * 16 + pos)) / 16

/-- The bucket of a value: the number of bounds that it has reached (Table 10.15). -/
def bucket (l : List Int) (v : Int) : Nat := (l.filter fun b => decide (b ≤ v)).length

/-- The entry of the threshold table for a read of a band at a position (R266): 20 × A + 4 × T + E. 160 stands for the profile's
SLC offsets, which a log band's reads use. -/
def thrIndex (s : State) (bn pos : Nat) : Nat :=
  let b := s.band bn
  if b.slc then 160
  else
    let a := bucket [1, 24, 168, 720, 2160, 4320, 8760] b.age
    let t := bucket [-29, -9, 10, 30] (dieTemp s (bnLg bn) pos - b.temp.getD pos 0)
    let e := bucket [25, 50, 75] ((s.eblk (bandEb s bn pos)).ec * 100 / max 1 (s.lg (bnLg bn)).geo.rated)
    20 * a + 4 * t + e

/-- The 16 offsets that a step-0 read uses (R266): the object's entry, else the part profile's. -/
def readOffsets (s : State) (o : FOp) : List Byte := (tabFind o.thr s.ftl.obj.thr).getD (leBytes 16 (Config.partThr o.thr).toNat)

/-- Issue a flash operation: `owner` is the tenant charged, or none for the media engine. -/
def issueOp (kind : FOpKind) (bn u : Nat) (owner : Option (BitVec 12)) (left : List (Fin 6)) (what : FUnit) (s : State) : State :=
  let id := s.ftl.nextOp
  let s1 := s.modFtl fun t => { t with
    nextOp := id + 1
    ops := t.ops ++ [⟨id, kind, bn, u, owner.isNone, owner.getD 0, left, none, false, 0, thrIndex s bn (u / 1048576), what⟩] }
  chargeOp 4 id s1

/-- An operation ends: its class 3 unit returns (R309), and it leaves the list. -/
def endOp (o : FOp) (s : State) : State :=
  let s1 := match o.act3 with
    | some a => programEnd a (bnLg o.bn) o.bor3 s
    | none => s
  let s2 := s1.modFtl fun t => { t with ops := t.ops.filter fun p => p.id ≠ o.id }
  { s2 with belt := { s2.belt with held := s2.belt.held.filter fun h => h.what ≠ .op o.id } }

/-- Drop the operations that meet a test. -/
def dropOps (p : FOp → Bool) (s : State) : State := (s.ftl.ops.filter p).foldl (fun a o => endOp o a) s

/-- A read, a program or an erase. -/
def opClass (o : FOp) : Nat :=
  match o.kind with
  | .readCmd .. | .readBack .. | .readMerge .. | .verify | .sample => 0
  | .erase .. => 2
  | _ => 1

/-- An operation runs: nothing is owed, and no program of the same erase block is ahead of a program (R244: units are
programmed in order). -/
def opRuns (s : State) (o : FOp) : Bool :=
  o.left = [] && (decide (opClass o ≠ 1) ||
    !((s.ftl.ops.takeWhile fun p => p.id ≠ o.id).any fun p => decide (opClass p = 1) && decide (p.bn = o.bn) && decide (p.u / 1048576 = o.u / 1048576)))

/-! ### Bands (R245, R254, R258) -/

/-- Free bands of a lane group. -/
def freeBands (s : State) (g : Nat) : List Nat :=
  (s.ftl.maps.bands.filter fun e => e.2.st = .free && bnLg e.1 = g).map (·.1)

/-- Free bands beyond the merge reserve. -/
def freeBeyond (s : State) (g : Nat) : Nat := (freeBands s g).length - (s.lg g).mres

/-- The highest erase count of a band's erase blocks. -/
def bandEc (s : State) (bn : Nat) : Nat := (upto 16).foldl (fun a p => max a (s.eblk (bandEb s bn p)).ec) 0

/-- The band of a list with the lowest, or the highest, key; the lowest BN on a tie. -/
def pickBand (key : Nat → Nat) (hi : Bool) (l : List Nat) : Option Nat :=
  l.foldl (fun a b => match a with
    | none => some b
    | some c => if (if hi then decide (key c < key b) else decide (key b < key c)) then some b else some c) none

/-- The lane group of a mask with the most free bands beyond its reserves, the lowest on a tie (R254). A merge may use the
reserve: then the one with the most free bands. -/
def pickLg (s : State) (mask : BitVec 8) (reserve : Bool) : Option Nat :=
  let ok := (usableLgs s).filter fun g => inMask mask g && decide (0 < if reserve then (freeBands s g).length else freeBeyond s g)
  ok.foldl (fun a g => match a with
    | none => some g
    | some c => if freeBeyond s c < freeBeyond s g then some g else some c) none

/-- A free band for a log or a fill (R254), or a DEST (R258): a cold DEST takes the band with the highest erase count. -/
def pickFree (s : State) (mask : BitVec 8) (reserve cold : Bool) : Option Nat :=
  (pickLg s mask reserve).bind fun g => pickBand (bandEc s) cold (freeBands s g)

/-- Open a band (R246): it leaves the free pool, and its header units are programmed on the 16 dies. -/
def openBand (bn kind : Nat) (hot : Bool) (seg : Nat) (slc : Bool) (s : State) : State :=
  let g := bnLg bn
  let s1 := s.modBand bn fun b => { b with
    st := .open_, kind := kind, hot := hot, seg := seg, slc := slc, openSeq := s.ftl.seq, openTime := mediaTime s,
    temp := (upto 16).map (dieTemp s g), age := 0, mir := 0, ver := 0, parity := !slc, due := 0 }
  (upto 16).foldl (fun a p =>
    issueOp (.progHdr p) bn (p * 1048576) none [2, 3]
      { FUnit.none with data := bandHdr bn (s1.band bn) p (s.eblk (bandEb s bn p)).ec, hdr := true, seq := s.ftl.seq, bn := bn }
      (a.modEblk (bandEb a bn p) fun e => { e with state := 1 })) s1

/-- A band whose every unit is programmed: a mapped data band, or a log band with no free log unit. -/
def closedBand (s : State) (bn : Nat) : Bool :=
  let b := s.band bn
  decide (b.st = .mapped) || (decide (b.st = .open_) && b.slc &&
    s.ftl.maps.slots.any fun e => e.2.bound && e.2.band == bn && decide (logCap (s.lg (bnLg bn)).geo ≤ e.2.next))

/-- Open native bands of kinds 0 and 1 (R269). -/
def openNative (s : State) : Nat := (s.ftl.maps.bands.filter fun e => e.2.st = .open_ && !e.2.slc).length

/-- A band has something that keeps it from being erased: PWB slots or reservations in it (R277), or operations. -/
def bandHeld (s : State) (bn : Nat) : Bool :=
  (s.pls.slots.any fun p => p.bn == bn) || (s.stor.cmds.any fun c => c.res.any fun r => r.bn == bn) ||
    s.ftl.ops.any fun o => o.bn == bn

/-- Mark a band for its erase (step 5 of Table 10.10). -/
def condemn (bn : Nat) (s : State) : State := s.modBand bn fun b => if b.st = .gone then b else { b with st := .erase }

/-- Issue the erases of the bands that wait for one and are no longer held. -/
def tryErases (s : State) : State :=
  let l := (s.ftl.maps.bands.filter fun e => e.2.st = .erase).map (·.1)
  l.foldl (fun a bn =>
    if bandHeld a bn then a
    else (upto 16).foldl (fun b p => issueOp (.erase p) bn (p * 1048576) none [2] FUnit.none b) a) s

/-! ### The page map and the location of blocks (R250, R251) -/

def pmKey (j o : Nat) : Nat := j * 16777216 + o
def pmGet (s : State) (j o : Nat) : PmEnt := tabGet s.ftl.pm .none (pmKey j o)
def pmSet (j o : Nat) (e : PmEnt) (s : State) : State := s.modFtl fun t => { t with pm := tabSet t.pm .none (pmKey j o) e }
/-- Clear a slot's array (R250). -/
def pmClear (j : Nat) (s : State) : State := s.modFtl fun t => { t with pm := t.pm.filter fun e => e.1 / 16777216 ≠ j }

/-- Where a block lies: zero, a unit of a band (native offset or log unit, and whether it is a log unit), or unreadable. -/
inductive Loc where
  | zero
  | unit (bn u : Nat) (log : Bool)
  | unrec
deriving DecidableEq, Repr

/-- The page map of slot `j`: a location when the entry has V or D. -/
def pmLoc (s : State) (j o : Nat) : Option Loc :=
  match pmGet s j o with
  | .unit l => some (.unit (s.slot j).band l true)
  | .disc => some .zero
  | .none => none

/-- What a descriptor locates (R251; a rebuilt band is read where only it holds the offset). -/
def descLoc (s : State) (d : FDesc) (o : Nat) : Option Loc :=
  let a := match d.succ with
    | some j => pmLoc s j o
    | none => none
  match a with
  | some l => some l
  | none =>
    match d.reb with
    | some r => if o < r.2 then some (.unit r.1 o false) else if d.fill && decide (o < d.next) then some (.unit d.dest o false) else none
    | none => if d.fill && decide (o < d.next) then some (.unit d.dest o false) else none

/-- The newest location of offset `o` of segment `g` (R251). -/
def locate (s : State) (g o : Nat) : Loc :=
  let e := s.seg g
  let d := s.desc g
  let a := match d with
    | some d => descLoc s d o
    | none => none
  match a with
  | some l => l
  | none =>
    match (if e.log then pmLoc s e.idx o else none) with
    | some l => l
    | none =>
      match d with
      | some d => if d.unk then .unrec else if e.v then .unit e.band o false else .zero
      | none => if e.v then .unit e.band o false else .zero

/-- The newest slot of the protected write buffer that holds an offset (R277). -/
def pwbFind (s : State) (g o : Nat) : Option PSlot := (s.pls.slots.filter fun p => p.seg == g && p.off == o).getLast?

/-- Count map changes, in blocks (R288). -/
def mapChange (n : Nat) (s : State) : State := s.modPls fun p => { p with mapChg := p.mapChg + 4096 * n }

/-- A snapshot of the maps (step 1 of R288). -/
def snapshot (s : State) : Ckpt := ⟨s.pls.ckNum + 1, (s.pls.jnum + 2 ^ 32 - 1) % 2 ^ 32, mediaTime s, s.ftl.seq, s.ftl.maps⟩

/-- The system band of a lane group in a role (R286): 0 and 1 checkpoints and journal, 2 the drain, 3 the Pocket mirror. A fixed
band's role stands in `seg`. -/
def sysBand (s : State) (g r : Nat) : Nat :=
  ((s.ftl.maps.bands.find? fun e => decide (e.2.kind = 4) && bnLg e.1 == g && e.2.seg == r).map (·.1)).getD (bandNo g 0 r)

/-- The lane groups that hold the checkpoint and the journal: the journal home and its mirror (R286). -/
def journalLgs (s : State) : List Nat := (usableLgs s).take 2

/-- A band that lost an erase block without a spare is dissolved; the escape band of the lane group takes the role of a system
band (R286, R272). -/
def dissolve (bn : Nat) (m : Maps) : Maps :=
  let b := tabGet m.bands Band.none bn
  let m1 := { m with bands := tabSet m.bands Band.none bn Band.none }
  if b.kind = 4 then
    match m1.bands.find? fun e => decide (e.2.kind = 5) && bnLg e.1 == bnLg bn with
    | some e => { m1 with bands := tabSet m1.bands Band.none e.1 { e.2 with kind := 4, seg := b.seg } }
    | none => m1
  else m1

/-- The journal home: the lowest-numbered usable lane group (R286). -/
def journalHome (s : State) : Option Nat := (usableLgs s).head?

/-- Start a checkpoint (R288), unless one is being written. -/
def startCkpt (s : State) : State :=
  if s.pls.snap.isSome then s
  else
    let s1 := s.modPls fun p => { p with snap := some (snapshot s), ckNum := p.ckNum + 1, mapChg := 0, ckAt := s.time, jUnits := 0 }
    issueOp .ckpt (((journalHome s).getD 0) * 65536) 0 none [] FUnit.none s1

/-- Units of the checkpoint band that hold journal records: the band's SLC units without the image's (R288). -/
def jrnSpace (s : State) : Nat :=
  let blocks := (usableLgs s).foldl (fun a g => a + 16 * (s.lg g).geo.dies * (s.lg g).geo.blocks) 0
  logCap (s.lg ((journalHome s).getD 0)).geo - ckptUnits s.ftl.maps blocks

/-- A checkpoint starts early when the map-change count reaches 4 GiB, and at once when the journal space fills (R288). -/
def ckptDue (s : State) : State :=
  if 4294967296 ≤ s.pls.mapChg ∨ (0 < s.pls.jUnits ∧ jrnSpace s ≤ s.pls.jUnits) then startCkpt s else s

end Sys2Proof.Machine
end

