-- ==== Sys2Proof/Machine/Merge.lean ====
section
/-! DEFINITION. Placement of written blocks, merges, rebuilding, the protected write buffer's slots and the end of life of
lane groups (10 R253 to R272, 11 R275 to R278). -/

namespace Sys2Proof.Machine

/-- The namespace that owns a segment. -/
def nsOfSeg (s : State) (g : Nat) : Option Nat :=
  (s.ftl.maps.nss.find? fun e => e.2.state ≠ 0 && decide (e.2.sbase ≤ g ∧ g < e.2.sbase + e.2.nseg)).map (·.1)

/-- The lane-group mask that a segment's bands come from. -/
def maskOfSeg (s : State) (g : Nat) : BitVec 8 :=
  match nsOfSeg s g with
  | some n => (s.ns n).lgmask
  | none => 0

/-- The geometry that a mask's lane groups share (R248). -/
def geoOfMask (s : State) (m : BitVec 8) : Geo :=
  match (upto 8).find? (inMask m) with
  | some g => (s.lg g).geo
  | none => Geo.none

/-- A MAX that the enabled LOGQ entry of a TID sets (12 R315). -/
def logqMax (s : State) (t : BitVec 12) : Option Nat :=
  ((upto 64).find? fun i => bit (logqOf s i) 63 && decide (fld (logqOf s i) 32 12 = t)).map fun i => (fld (logqOf s i) 0 11).toNat

/-- The log slots in use, and those of a TID. -/
def boundSlots (s : State) : List (Nat × LogSlot) := s.ftl.maps.slots.filter (·.2.bound)
def tidSlots (s : State) (t : BitVec 12) : List (Nat × LogSlot) := (boundSlots s).filter fun e => e.2.tid = t

/-- A merge of the segment runs. -/
def merging (s : State) (g : Nat) : Bool :=
  match s.desc g with
  | some d => d.run
  | none => false

/-- Reservations of the segment whose blocks are not yet acknowledged. -/
def segReserved (s : State) (g : Nat) : Bool := s.stor.cmds.any fun c => c.res.any fun r => r.seg == g

/-- Bind a free slot to a segment, with a band from the free pool, charged to a TID (R250, R253). -/
def bindSlot (g : Nat) (mask : BitVec 8) (tid : BitVec 12) (s : State) : Option (State × Nat) :=
  match (upto 1024).find? (fun j => !(s.slot j).bound), pickFree s mask false false with
  | some j, some bn =>
    let s1 := openBand bn 2 (s.seg g).hot g true s
    let s2 := (pmClear j s1).modSlot j fun _ => ⟨true, g, bn, 0, tid, s.time⟩
    some (jot (.slotBind j g bn tid) s2, j)
  | _, _ => none

/-- The unit of a merge copy (step 2 of Table 10.10). -/
def mergeUnit (d : FDesc) (o seq : Nat) (data : List Byte) (zero unrec : Bool) : FUnit :=
  ⟨data, d.seg, true, zero, unrec, false, o, seq, d.dest, false⟩

/-- Issue the program of a merge copy into DEST. -/
def progMerge (d : FDesc) (o : Nat) (data : List Byte) (zero unrec : Bool) (left : List (Fin 6)) (s : State) : State :=
  let r := drawSeq s
  issueOp (.progMerge d.seg o) d.dest (unitPos o * 1048576 + unitIdx o) none left (mergeUnit d o r.2 data zero unrec) r.1

/-- Copy the next offset of a running merge (R256): a block still in the write buffer, a zero block, or a flash read. -/
def copyNext (g : Nat) (s : State) : State :=
  match s.desc g with
  | none => s
  | some d =>
    if d.run && decide (d.step = 2) && decide (d.next < segBlk (s.lg (bnLg d.dest)).geo) then
      let o := d.next
      match pwbFind s g o with
      | some p => progMerge d o p.data false p.unrec [5, 2, 3] s
      | none =>
        match locate s g o with
        | .zero => progMerge d o [] true false [5, 2, 3] s
        | .unrec => progMerge d o [] false true [5, 2, 3] s
        | .unit bn u _ => issueOp (.readMerge g o) bn (unitPos u * 1048576 + unitIdx u) none [5, 2] FUnit.none s
    else s

/-- Close a native band once every unit is programmed (Table 10.17): its verification reads start. -/
def closeCheck (bn : Nat) (s : State) : State :=
  match s.ftl.maps.descs.find? (·.dest = bn) with
  | none => s
  | some d =>
    let full := decide (segBlk (s.lg (bnLg bn)).geo ≤ d.next)
    let busy := (s.ftl.ops.any fun o => o.bn == bn) || (s.stor.cmds.any fun c => c.res.any fun r => r.bn == bn) ||
      (s.pls.slots.any fun p => p.bn == bn && !p.prog)
    if full && !busy && decide ((s.band bn).st = .open_) then
      let s1 := (s.modBand bn fun b => { b with st := .verifying, ver := 0 }).modDesc d.seg fun d => { d with step := 3 }
      issueOp .verify bn 0 none [2] FUnit.none s1
    else s

/-- The band a descriptor's merge frees when it ends, beside the old data and log bands. -/
def rebBand (d : FDesc) : List Nat := match d.reb with
  | some r => [r.1]
  | none => []

/-- Free a log slot: its array is cleared and its descriptor reset. -/
def freeSlot (j : Nat) (s : State) : State := jot (.slotFree j) ((pmClear j s).modSlot j fun _ => LogSlot.reset)

/-- The class at a DEST allocation (R258): hot when RWC has reached HOT_TH. HOT records it. -/
def hotNow (s : State) (g : Nat) : Bool := decide (s.ftl.obj.hotTh ≤ (s.seg g).rwc)

/-- Start a merge of segment `g` (step 1 of Table 10.10), with a successor slot when one is wanted. False: it cannot start
now. A merge of an open fill keeps its band and continues from NEXT. -/
def mergeStart (g : Nat) (succ : Bool) (tid : BitVec 12) (s : State) : State × Bool :=
  let mask := maskOfSeg s g
  let hot := hotNow s g
  if merging s g || segReserved s g then (s, false)
  else
    let withSucc (t : State) : Option (State × Option Nat) :=
      if succ then (bindSlot g mask tid t).map fun r => (r.1, some r.2) else some (t, none)
    match s.desc g with
    | some d =>
      match withSucc s with
      | none => (s, false)
      | some (t, j) =>
        let t1 := t.modDesc g fun d => { d with run := true, succ := j, step := 2, rseq := t.ftl.seq }
        (closeCheck d.dest (copyNext g (jot (.mergeStart g j true d.dest) t1)), true)
    | none =>
      if s.ftl.maxopenF ≤ openNative s then (s, false)
      else
        match withSucc s with
        | none => (s, false)
        | some (t, j) =>
          match pickFree t mask true (!hot) with
          | none => (s, false)
          | some bn =>
            let t1 := openBand bn 0 hot g false t
            let d : FDesc := ⟨g, false, bn, 0, true, j, t1.ftl.seq, false, none, 2, s.time⟩
            let t2 := t1.modMaps fun m => { m with descs := m.descs ++ [d] }
            let t3 := t2.modSeg g fun e => { e with hot := hot, busy := true }
            (copyNext g (jot (.mergeStart g j false bn) t3), true)

/-- Merges that keep LOG_LOW slots unbound (R254): cold segments first, then the slot whose last write is oldest. The fuel
bounds the number started. -/
def lowMerges : Nat → State → State
  | 0, s => s
  | n + 1, s =>
    let l := boundSlots s
    let leaving := (l.filter fun e => merging s e.2.seg).length
    if 1024 - l.length + leaving < s.ftl.obj.logLow then
      let cand := l.filter fun e => !merging s e.2.seg
      let cold := cand.filter fun e => !(s.seg e.2.seg).hot
      let pool := if cold = [] then cand else cold
      match pickBand (fun j => (s.slot j).lastW) false (pool.map (·.1)) with
      | none => s
      | some j =>
        let r := mergeStart (s.slot j).seg false 0 s
        if r.2 then lowMerges n r.1 else s
    else s

/-- A lane group is exhausted (R271). -/
def lgExhausted (s : State) (g : Nat) : Bool :=
  lgServes s g && decide (freeBeyond s g = 0) &&
    !(s.ftl.maps.descs.any fun d => d.run &&
      (((s.seg d.seg).v && bnLg (s.seg d.seg).band == g) || ((s.seg d.seg).log && bnLg (s.slot (s.seg d.seg).idx).band == g))) &&
    !((boundSlots s).any fun e => bnLg e.2.band == g && (s.seg e.2.seg).v) &&
    !(s.ftl.maps.bands.any fun e => e.2.st = .erase && decide (e.2.kind < 3) && bnLg e.1 == g)

/-- Every lane group of a mask that serves is exhausted. -/
def maskExhausted (s : State) (m : BitVec 8) : Bool := (upto 8).all fun g => !inMask m g || !lgServes s g || lgExhausted s g

/-- Whether the blocks of a write have a place: yes, not yet, or never (R253, R271). -/
inductive Prep where | ok | wait | full
deriving DecidableEq, Repr

/-- A slot could not be bound: wait, unless no band can ever be supplied. -/
def noBand (s : State) (mask : BitVec 8) : Prep := if maskExhausted s mask then .full else .wait

/-- The oldest slot of a TID at its LOGQ MAX is merged without a successor (12 R315). -/
def logqMerge (t : BitVec 12) (s : State) : State :=
  let l := tidSlots s t
  if l.any fun e => merging s e.2.seg then s
  else match pickBand (fun j => (s.slot j).lastW) false (l.map (·.1)) with
    | some j => (mergeStart (s.slot j).seg false 0 s).1
    | none => s

/-- A TID may bind another slot. -/
def slotAllowed (s : State) (t : BitVec 12) : Bool :=
  match logqMax s t with
  | some m => decide (s.stor.st = 1) || decide ((tidSlots s t).length < m)
  | none => true

/-- Bind a slot for a write; LOG_LOW is kept after it. -/
def bindFor (g : Nat) (mask : BitVec 8) (tid : BitVec 12) (s : State) : State × Option Nat × Prep :=
  if slotAllowed s tid then
    match bindSlot g mask tid s with
    | some (t, j) => (t, some j, .ok)
    | none => (lowMerges 1024 s, none, noBand s mask)
  else (logqMerge tid s, none, .wait)

/-- Start a merge with a successor for a write (Table 10.9, LOG band full or fill left). -/
def mergeFor (g : Nat) (mask : BitVec 8) (tid : BitVec 12) (s : State) : State × Prep :=
  if slotAllowed s tid then
    let r := mergeStart g true tid s
    if r.2 then (lowMerges 1024 r.1, .ok) else (lowMerges 1024 s, noBand s mask)
  else (logqMerge tid s, .wait)

/-- Make a place for `n` blocks from offset `o` of a segment (Table 10.9). `run` says that the blocks are consecutive. -/
def prepSeg (g o n : Nat) (run : Bool) (mask : BitVec 8) (tid : BitVec 12) (s : State) : State × Prep :=
  let e := s.seg g
  let cap := logCap (geoOfMask s mask)
  match s.desc g with
  | some d =>
    if d.run then
      match d.succ with
      | some j => (s, if (s.slot j).next + n ≤ cap then .ok else .wait)
      | none =>
        let r := bindFor g mask tid s
        match r.2.1 with
        | some j => (lowMerges 1024 (r.1.modDesc g fun d => { d with succ := some j }), .ok)
        | none => (r.1, r.2.2)
    else if run && decide (o = d.next) && !s.stor.wt then (s, .ok)
    else mergeFor g mask tid s
  | none =>
    if !e.v && !e.log && run && decide (o = 0) && !s.stor.wt && decide (openNative s < s.ftl.maxopenF) then
      match pickFree s mask false false with
      | none => (s, noBand s mask)
      | some bn =>
        let s1 := openBand bn 1 e.hot g false s
        let d : FDesc := ⟨g, true, bn, 0, false, none, s1.ftl.seq, false, none, 2, s.time⟩
        let s2 := s1.modMaps fun m => { m with descs := m.descs ++ [d] }
        (jot (.fillOpen g bn) (s2.modSeg g fun e => { e with busy := true }), .ok)
    else if e.log then
      if (s.slot e.idx).next + n ≤ cap then (s, .ok) else mergeFor g mask tid s
    else
      let r := bindFor g mask tid s
      match r.2.1 with
      | some j => (lowMerges 1024 (jotSeg g (r.1.modSeg g fun e => { e with log := true, idx := j })), .ok)
      | none => (r.1, r.2.2)

/-- Reserve the next unit of a segment for a block at offset `o` (R253): appended to the open fill, the successor slot or the
bound slot. -/
def reserveBlk (g o blk : Nat) (data : List Byte) (unrec : Bool) (s : State) : State × Res :=
  let inSlot (j : Nat) : State × Res :=
    let l := s.slot j
    (s.modSlot j fun l => { l with next := l.next + 1, lastW := s.time }, ⟨blk, g, o, l.band, l.next, some j, data, unrec⟩)
  match s.desc g with
  | some d =>
    if d.run then inSlot (d.succ.getD 0)
    else (s.modDesc g fun d => { d with next := d.next + 1, lastW := s.time }, ⟨blk, g, o, d.dest, o, none, data, unrec⟩)
  | none => inSlot (s.seg g).idx

/-- A WRITE rewrites the segment (R258): RWC follows the overwrite and the hint. -/
def rwcWrite (g hint : Nat) (overs : Bool) (s : State) : State :=
  let w := s.ftl.obj.hintW
  s.modSeg g fun e =>
    let a := if overs then min 255 (e.rwc + 1) else e.rwc
    { e with rwc := if hint = 1 then min 255 (a + w) else if hint = 2 then a - w else a }

/-- The block has been written since its namespace was created. -/
def everWritten (s : State) (g o : Nat) : Bool :=
  (pwbFind s g o).isSome || (match locate s g o with
    | .unit bn u _ => (match mediaAt s bn (unitPos u) (unitIdx u) with
      | some x => !x.zero
      | none => true)
    | .unrec => true
    | .zero => false)

/-- Slots that count against DLIM: acknowledged and not released (R278). -/
def dirtySlots (s : State) : Nat := (s.pls.slots.filter fun p => p.wait.isNone).length

/-- Place a block in a slot (R276, R277): it receives its sequence number, earlier slots of the offset are superseded, the
page map finds it, and its program is issued. While WT = 1 its acknowledgement waits for the release. -/
def ackBlk (c : Cmd) (r : Res) (s : State) : State :=
  let q := drawSeq s
  let s1 := q.1
  let id := s1.pls.nextSlot
  let p : PSlot := ⟨id, r.seg, r.off, q.2, r.data, r.unrec, c.tid, r.bn, r.unit, r.log, false, false, c.id,
    if s.stor.wt then some r.blk else none⟩
  let s2 := s1.modPls fun t => { t with
    nextSlot := id + 1
    slots := (t.slots.map fun x => if x.seg = r.seg ∧ x.off = r.off then { x with super := true } else x) ++ [p] }
  let s3 := match r.log with
    | some j => pmSet j r.off (.unit r.unit) s2
    | none => s2
  let s4 := { s3 with stor := { s3.stor with cmds := s3.stor.cmds.map fun d =>
    if d.id = c.id then { d with res := d.res.drop 1, todo := if s.stor.wt then d.todo else d.todo.filter (· ≠ r.blk) } else d } }
  let u : FUnit := ⟨r.data, r.seg, false, false, r.unrec, false, r.off, q.2, r.bn, false⟩
  let owner := if s.stor.st = 1 then none else some c.tid
  issueOp (.progSlot id) r.bn (unitPos r.unit * 1048576 + unitIdx r.unit) owner (if s.stor.st = 1 then [] else [2, 3]) u
    (ckptDue (mapChange 1 s4))

/-- Acknowledge the blocks that wait, in admission order, while DLIM (R278) and the 63,488 slots (Table 11.1) allow and no drain runs (11 Table 11.4). The fuel bounds their
number. -/
def ackMore : Nat → State → State
  | 0, s => s
  | n + 1, s =>
    if decide (s.pls.step = 0) && decide (s.pls.slots.length < 63488) && (s.stor.wt || decide ((dirtySlots s + 1) * 4096 ≤ s.pls.dlim)) then
      match s.stor.cmds.find? fun c => c.started && c.res ≠ [] with
      | none => s
      | some c =>
        match c.res with
        | [] => s
        | r :: _ => ackMore n (ackBlk c r s)
    else s

/-- A slot is released (R277); while WT = 1 its block is acknowledged now. -/
def releaseSlot (p : PSlot) (s : State) : State :=
  let s1 := s.modPls fun t => { t with slots := t.slots.filter fun x => x.id ≠ p.id }
  let s2 := match p.wait with
    | some b => { s1 with stor := { s1.stor with cmds := s1.stor.cmds.map fun d =>
        if d.id = p.cmd then { d with todo := d.todo.filter (· ≠ b) } else d } }
    | none => s1
  ackMore 4096 s2

/-- DEST of a rebuilt or restarted merge (Table 10.17, Rebuilding): a new band; what only the old band holds is copied from it.
Slots and their programs move to the new band. Waits while blocks reserved in the band are not yet acknowledged. -/
def rebuildBand (bn : Nat) (s : State) : State :=
  match s.ftl.maps.descs.find? (·.dest = bn) with
  | none => s
  | some d =>
    let g := d.seg
    if s.stor.cmds.any fun c => c.res.any fun r => r.bn == bn then s.modBand bn fun b => { b with due := 6 }
    else
      match pickFree s (maskOfSeg s g) true (!hotNow s g) with
      | none => s.modBand bn fun b => { b with due := 6 }
      | some nb =>
        let s0 := dropOps (fun o => o.bn == bn && (match o.kind with
          | .readCmd .. => false
          | _ => true)) (dropOps (fun o => match o.kind with
          | .readMerge h _ => h == g
          | .progMerge h _ => h == g
          | _ => false) s)
        let s1 := openBand nb 0 (hotNow s g) g false (s0.modSeg g fun e => { e with hot := hotNow s g })
        let s2 := s1.modBand bn fun b => { b with st := if d.fill then .rebuild else .erase, due := 0 }
        let s3 := s2.modDesc g fun d => { d with
          dest := nb, next := 0, run := true, step := 2, fill := false
          reb := if d.fill then some (bn, d.next) else d.reb }
        let s4 := s3.modPls fun t => { t with slots := t.slots.map fun p => if p.bn = bn then { p with bn := nb, prog := false } else p }
        copyNext g (jot (.mergeStart g d.succ d.fill nb) s4)

/-- Every position of a stripe has been programmed (or failed to be). -/
def stripeDone (s : State) (bn u : Nat) : Bool := (upto 16).all fun p => (mediaAt s bn p u).isSome

/-- Program the parity of a stripe into the current scratch band (`kind`: its mirror write, or its rewrite at a rotation): a parity
unit draws a media sequence number (R247). -/
def parityUnit (kind : FOpKind) (bn u : Nat) (s : State) : State :=
  let r := drawSeq s
  issueOp kind bn (16 * 1048576 + u) none [2, 3] { FUnit.none with seg := noSeg, seq := r.2, bn := bn } r.1
def progParity (bn u : Nat) (s : State) : State := parityUnit (.progPar u) bn u s

/-- Issue the parity mirror write of a stripe that is complete (Table 10.17). -/
def stripeCheck (bn u : Nat) (s : State) : State :=
  if (s.band bn).parity && stripeDone s bn u then progParity bn u s else s

/-- The parity-scratch bands of a lane group: fixed bands 4 and 5; system bands 0 to 3 and the escape band 6 beside them. -/
def scratchBand (s : State) (g : Nat) (sel : Bool) : Nat :=
  let l := (s.ftl.maps.bands.filter fun e => e.2.kind = 3 && bnLg e.1 == g).map (·.1)
  l.getD (if sel then 1 else 0) (bandNo g 0 4)

/-- A rewrite of a lane group's parity is under way. -/
def rewriting (s : State) (g : Nat) : Bool :=
  s.ftl.ops.any fun o => bnLg o.bn == g && (match o.kind with
    | .reparity _ => true
    | _ => false)

/-- The rotation of a lane group's scratch bands may start: the other band is erased, and no read of the lane group is at step 4 of
the ladder (Table 10.19). -/
def rotReady (s : State) (g : Nat) : Bool :=
  decide ((s.band (scratchBand s g (!(s.lg g).scrSel))).st = .fixed) && !rewriting s g &&
    !(s.ftl.ops.any fun o => bnLg o.bn == g && o.step == 4)

/-- The parity of every band of a lane group that is not verified is rewritten from DRAM, stripe by stripe, where it has been
mirrored. -/
def rewriteParity (g : Nat) (s : State) : State :=
  let l := (s.ftl.maps.bands.filter fun e => e.2.parity && bnLg e.1 == g).map (·.1)
  l.foldl (fun a bn => (upto (ebu (s.lg g).geo)).foldl (fun b u =>
    if stripeDone s bn u && !(s.ftl.ops.any fun o => decide (o.kind = .progPar u) && o.bn == bn) then parityUnit (.reparity u) bn u b else b) a) s

/-- The scratch band that was full is erased once every rewrite has ended (R270). -/
def endRotation (g : Nat) (s : State) : State :=
  if rewriting s g then s else s.modBand (scratchBand s g (!(s.lg g).scrSel)) fun b => { b with st := .erase }

/-- Rotate the scratch bands (R270): the other one is used from now on, and takes the parity that is still held. -/
def rotate (g : Nat) (s : State) : State :=
  endRotation g (rewriteParity g (s.modLg g fun t => { t with scrUsed := 0, scrSel := !t.scrSel }))

/-- One parity unit has been written to the current scratch band: a full band is rotated. While the other band is not yet erased or
a rewrite is under way, the rotation waits (DESIGN CHOICE, log 163). -/
def scratchUse (g : Nat) (s : State) : State :=
  let s1 := (s.modLg g fun t => { t with scrUsed := t.scrUsed + 1 }).modFtl fun t => { t with progU := t.progU + 1 }
  if decide (logCap (s1.lg g).geo ≤ (s1.lg g).scrUsed) && rotReady s1 g then rotate g s1 else s1

/-- Reclaim a segment's data and log: bands are marked for erase and the slot is freed (R255). -/
def reclaimSeg (g : Nat) (s : State) : State :=
  let e := s.seg g
  let s1 := if e.v then condemn e.band s else s
  let s2 := if e.log then freeSlot e.idx (condemn (s.slot e.idx).band s1) else s1
  jotSeg g (s2.modSeg g fun e => { e with v := false, log := false, idx := 0, band := 0 })

/-- Stop a merge or fill of a segment (Table 10.19, deletion): DEST and what it was rebuilt from are erased, the successor slot
is freed. -/
def stopMerge (g : Nat) (s : State) : State :=
  match s.desc g with
  | none => s
  | some d =>
    let s1 := dropOps (fun o => match o.kind with
      | .readMerge h _ => h == g
      | .progMerge h _ => h == g
      | .verify => o.bn == d.dest
      | _ => false) s
    let s2 := (d.dest :: rebBand d).foldl (fun a b => condemn b a) s1
    let s3 := match d.succ with
      | some j => freeSlot j (condemn (s2.slot j).band s2)
      | none => s2
    (s3.dropDesc g).modSeg g fun e => { e with busy := false }

/-- Release a segment of a deleted or shrunk namespace (14 R373). Write-buffer slots of its blocks hold no block of the segment any
more; they keep their bands until they are programmed and released (R255). -/
def releaseSeg (g : Nat) (s : State) : State :=
  let s1 := (reclaimSeg g (stopMerge g s)).modSeg g fun _ => SegEnt.reset
  s1.modPls fun t => { t with slots := t.slots.map fun p => if p.seg = g then { p with seg := noSeg, super := true } else p }

/-- The new urgency level of R260, from the fewest free bands beyond the reserves among the usable lane groups. -/
def urgency (s : State) : Nat :=
  let f := (usableLgs s).foldl (fun a g => min a (freeBeyond s g)) 1000000
  if s.ftl.obj.freeBg ≤ f then 0 else if s.ftl.obj.freeLow ≤ f then 1 else 2

/-- The budget of the garbage-collection copy activity (12 R311). -/
def gcBudget (s : State) (lv : Nat) : Nat := max 1 (s.ftl.obj.gcb.getD lv 4000 * (s.bcls 5).period.toNat / 64)

/-- The media engine writes BUDGET of entry 0 when the level changes. -/
def setUrgency (s : State) : State :=
  let lv := urgency s
  if lv = s.ftl.urg then s
  else (s.modFtl fun t => { t with urg := lv }).modAct 0 fun v => { v with budget := BitVec.ofNat 32 (gcBudget s lv) }

/-- A finished namespace command (14 R371, R373, 09 R217): when the commands admitted before it are complete, the namespace
record is journaled, its segments are released (Table 10.19), and CMD_DONE follows. -/
def settleNs (s : State) : State :=
  match s.ftl.nsCmd with
  | none => s
  | some c =>
    if c.wait.any fun id => s.stor.cmds.any fun d => d.id == id then s
    else
      let s1 := if c.op = 2 then jotNs c.nsid (s.setNs c.nsid Ns.reset) else jotNs c.nsid s
      let s2 := (upto (c.hi - c.lo)).foldl (fun a i => releaseSeg (c.lo + i) a) s1
      let s3 := s2.modFtl fun t => { t with nsCmd := none }
      match c.ctx with
      | some x =>
        let v := s.ns c.nsid
        if c.op = 2 then cmdDoneFor x 0x4003 0 stOK [] s3
        else cmdDoneFor x 0x4002 0 stOK (leBytes 8 (v.nseg * v.segblk)) s3
      | none => s3

/-- Open fills become merges (R281). -/
def fillsToMerges (s : State) : State :=
  (s.ftl.maps.descs.filter fun d => d.fill && !d.run).foldl (fun a d => (mergeStart d.seg false 0 a).1) s

/-- What may follow any change of the media: pending rebuilds, closings, merges that LOG_LOW still wants, erases, namespace
commands, the urgency level. -/
def settleMedia (s : State) : State :=
  let pend := (s.ftl.maps.bands.filter fun e => e.2.due = 6).map (·.1)
  let s1 := pend.foldl (fun a b => rebuildBand b a) s
  let s2 := (s1.ftl.maps.descs.map (·.dest)).foldl (fun a b => closeCheck b a) s1
  let s3 := if s2.stor.st = 2 ∧ s2.pls.step = 0 then ckptDue (lowMerges 1024 (if s2.stor.wt then fillsToMerges s2 else s2)) else s2
  setUrgency (rechargeOps (tryErases (settleNs s3)))

end Sys2Proof.Machine
end

