-- ==== Sys2Proof/Machine/Mirror.lean ====
section
/-! DEFINITION. The rotation of the Pocket's flash mirror (16 R410). -/

namespace Sys2Proof.Machine

/-- The band of the copy that is being rotated is to be erased (R410, steps 1 and 4). -/
def mirErase (s : State) : State :=
  match s.pkt.rot, mirLgs s with
  | 1, g :: _ => tryErases (condemn (sysBand s g 3) s)
  | 2, _ :: g :: _ => tryErases (condemn (sysBand s g 3) s)
  | _, _ => s

/-- The rotation after the erase of a copy: the other copy's turn comes after the journal home's. -/
def rotNext (copy : Nat) (two : Bool) (rot : Nat) : Nat :=
  if rot = copy + 1 then (if copy = 0 ∧ two = true then 2 else 0) else rot

/-- Band 3 of lane group `g` has been erased: the copy that it holds takes the ring's contents. -/
def mirErased (g : Nat) (s : State) : State :=
  let turn (copy : Nat) : State :=
    let s1 : State := { s with pkt := { mirRewrite copy s.pkt with rot := rotNext copy (mirTwo s) s.pkt.rot } }
    mirErase { s1 with pkt := { s1.pkt with mirState := if s.pkt.mirState = 0 then 0 else mirNow s1 } }
  match mirLgs s with
  | g0 :: l => if g = g0 then turn 0 else if l.contains g then turn 1 else s
  | [] => s

/-- MIRROR_FLUSH_TIMEOUT (R409): a unit is programmed with the records that wait. -/
def execMirrorFlushTimeout (s : State) : Out := keepQueue s <|
  if s.pkt.mirState = 0 then done s else done (mirErase { s with pkt := mirProgram (mirCap s) (mirTwo s) s.pkt })

end Sys2Proof.Machine
end

