-- ==== Sys2Proof/Machine/StoreCmd.lean ====
section
/-! DEFINITION. Store commands (09): admission and arbitration, the five commands, completion. -/

namespace Sys2Proof.Machine

def scQueueData : Nat := 0x0A

/-- The words of a packet: word `i`. -/
def word (ws : List Word) (i : Nat) : Word := ws.getD i 0

/-- The command that a packet's words spell (Table 9.7). -/
def parseCmd (id q : Nat) (tid : BitVec 12) (ws : List Word) : Cmd where
  id := id
  q := q
  cid := fld (word ws 0) 0 16
  opc := (fld (word ws 0) 48 8).toNat
  nsid := (fld (word ws 0) 32 6).toNat
  slba := (fld (word ws 1) 0 48).toNat
  nlb := (fld (word ws 2) 0 24).toNat
  hint := (fld (word ws 0) 42 2).toNat
  dptm := (fld (word ws 0) 40 2).toNat
  dptr := (fld (word ws 3) 0 52).toNat
  tid := tid
  lock := false
  started := false
  issued := false
  metered := false
  todo := []
  res := []
  errs := []

/-- Check 3 of Table 9.9: reserved bits and unused fields zero, HINT, DPTM, NLB and DPTR within their limits. -/
def fieldsOk (ws : List Word) (c : Cmd) : Bool :=
  let w0 := word ws 0
  let rsv := decide (fld w0 56 7 = 0) && decide (fld w0 44 4 = 0) && decide (fld w0 38 2 = 0) && decide (fld w0 16 16 = 0) &&
    decide (fld (word ws 1) 48 16 = 0) && decide (fld (word ws 2) 24 40 = 0) && decide (fld (word ws 3) 52 12 = 0) &&
    decide (word ws 4 = 0) && decide (word ws 5 = 0) && decide (word ws 6 = 0) && decide (word ws 7 = 0)
  let noHint := decide (c.hint = 0)
  let noBuf := decide (c.dptm = 0) && decide (c.dptr = 0)
  let noRange := decide (c.slba = 0) && decide (c.nlb = 0)
  let buf := decide (c.dptm ≤ 1) && decide (c.dptr % (if c.dptm = 0 then 64 else 8) = 0)
  rsv && match c.opc with
    | 0 => noHint && noBuf && noRange && decide (c.nsid = 0)
    | 1 => noHint && buf && decide (c.nlb ≤ 255)
    | 2 => decide (c.hint ≠ 3) && buf && decide (c.nlb ≤ 255)
    | 3 => noHint && noBuf
    | _ => noHint && noBuf && noRange

/-- The admission checks of Table 9.9, in order: the status of the first that fails (R225). -/
def admitCheck (s : State) (ws : List Word) (c : Cmd) : Option Nat :=
  let n := s.ns c.nsid
  let nsze := n.nseg * n.segblk
  if ws.length ≠ 8 ∨ bit (word ws 0) 63 then some scMalformed
  else if 4 < c.opc then some scInvalidOpcode
  else if !fieldsOk ws c then some scInvalidField
  else if c.opc = 0 then none
  else if ¬ ((n.state = 1 ∨ n.state = 2) ∧ inMask (s.qp c.q).nsmask c.nsid) then some scNsInvalid
  else if c.opc ≠ 4 ∧ ¬ (c.slba + c.nlb < nsze) then some scLbaRange
  else if c.opc = 2 ∧ n.state = 2 then some scWriteProt
  else none

/-- An SQ is eligible for admission (R230); the Belt grants its TID a class 4 unit. A drain stops admission (11 Table 11.4). -/
def eligible (s : State) (q : Nat) : Bool :=
  let p := s.qp q
  decide (s.pls.step = 0) && p.en && decide (p.state = 1) && decide (1 ≤ packets p.sq) && decide (2 ≤ cqFree s q) && decide (rlInuse s < 4096) &&
    (match matchAct s false p.tid 4 0 with
      | some a => canCover s a 0 1
      | none => true)

/-- The eligible SQs of a class, in pair order. -/
def eligibleIn (s : State) (c : Nat) : List Nat := (s.stor.pairs.map (·.1)).filter fun q => (s.qp q).cls.toNat == c && eligible s q

/-- Round robin among the eligible SQs of a class: the first at or after the position, else the first. -/
def rrNext (s : State) (c : Nat) : Option Nat :=
  let l := eligibleIn s c
  match l.find? fun q => decide (tabGet s.stor.rr 0 c ≤ q) with
  | some q => some q
  | none => l.head?

/-- The credit of a class, and one unit less. -/
def creditOf (t : Stor) (c : Nat) : Nat := if c = 1 then t.credH else if c = 2 then t.credM else t.credL
def takeCredit (c : Nat) (t : Stor) : Stor :=
  if c = 1 then { t with credH := t.credH - 1 } else if c = 2 then { t with credM := t.credM - 1 } else { t with credL := t.credL - 1 }

/-- One pass over HIGH, MEDIUM and LOW: the class served. -/
def passPick (s : State) : Option Nat := [1, 2, 3].find? fun c => eligibleIn s c ≠ [] && decide (0 < creditOf s.stor c)

/-- The arbiter (R230): urgent SQs first, then by credit, refilled when no eligible class has any. -/
def pick (s : State) : State × Option Nat :=
  match rrNext s 0 with
  | some q => (s, some q)
  | none =>
    match passPick s with
    | some c => ({ s with stor := takeCredit c s.stor }, rrNext s c)
    | none =>
      let s1 := { s with stor := { s.stor with credH := s.stor.wh.toNat, credM := s.stor.wm.toNat, credL := s.stor.wl.toNat } }
      match passPick s1 with
      | some c => ({ s1 with stor := takeCredit c s1.stor }, rrNext s1 c)
      | none => (s, none)

/-- Put a command among the admitted ones (Table 9.12, R231): range-lock statistics follow, and it starts unless an earlier
entry overlaps it. -/
def addCmd (c : Cmd) (s : State) : State :=
  let waits := s.stor.cmds.any fun e => lockClash e c
  let s1 := { s with stor := { s.stor with cmds := s.stor.cmds ++ [c], waits := if waits then satInc s.stor.waits else s.stor.waits } }
  let n := rlInuse s1
  startWaiting { s1 with stor := { s1.stor with hwm := if s1.stor.hwm.toNat < n then BitVec.ofNat 13 n else s1.stor.hwm } }

/-- WRITEs of other pairs to a namespace that are not complete (what a FLUSH need not wait for). -/
def otherWrites (s : State) (q nsid : Nat) : List Nat :=
  (s.stor.cmds.filter fun c => c.q ≠ q && c.opc == 2 && c.nsid == nsid).map (·.id)

/-- COMMAND_ADMIT (R229, R230, R225): the arbiter takes one command; one that fails a check completes at once. `bad` are the
words of the packet that are uncorrectable in SRAM (R227, QUEUE_DATA_ERROR; CID 0xFFFF when W0 is one of them), `ce` those that
are corrected. -/
def execCommandAdmit (bad : List (Fin 8)) (s : State) (ce : List (Fin 8) := []) : Out := keepQueue s <|
  match pick s with
  | (_, none) => done s
  | (s1, some q) =>
    let p := s1.qp q
    match firstPacket p.sq with
    | none => done s
    | some x =>
      let s2 := (beltCharge false p.tid 4 0 1 .item s1).1
      let ue := bad.filter fun i => decide (i.val < x.1.length)
      let met := ue.foldl (fun a i => queueUe (sqOffset p i.val) a) ((ce.filter fun i => decide (i.val < x.1.length)).foldl (fun a _ => countVestCe 0 a) s2)
      let s3 := met.modQp q (takeSq x.1.length)
      let s4 := { s3 with stor := { s3.stor with nextId := s3.stor.nextId + 1, rr := tabSet s3.stor.rr 0 p.cls.toNat (q + 1) } }
      let c := parseCmd s3.stor.nextId q p.tid x.1
      match (if ue ≠ [] then some scQueueData else admitCheck s4 x.1 c) with
      | some st =>
        let c1 := { c with cid := if ue.contains 0 then 0xFFFF else packetCid x.1, started := true }
        done (completeCmd c1 st (if st = scWriteProt then c.slba else 0)
          { s4 with stor := { s4.stor with cmds := s4.stor.cmds ++ [c1] } })
      | none =>
        let lk := decide (c.opc = 1 ∨ c.opc = 2 ∨ c.opc = 3)
        done (addCmd { c with lock := lk, todo := if c.opc = 4 then otherWrites s4 q c.nsid else [] } s4)

/-- Change an admitted command. -/
def modCmd (id : Nat) (f : Cmd → Cmd) (s : State) : State :=
  { s with stor := { s.stor with cmds := s.stor.cmds.map fun c => if c.id = id then f c else c } }

/-- The command with an id that may perform its first operation: of the opcode, started, and not yet issued. -/
def startedCmd (s : State) (id opc : Nat) : Option Cmd :=
  s.stor.cmds.find? fun c => c.id == id && c.opc == opc && c.started && !c.issued

/-- Global segment and offset of block `i` of a command (R248). -/
def blkSeg (s : State) (c : Cmd) (i : Nat) : Nat × Nat :=
  let n := s.ns c.nsid
  let lba := c.slba + i
  (n.sbase + lba / n.segblk, lba % n.segblk)

/-- NOP (Table 9.8): touches nothing. -/
def execNop (id : Nat) (s : State) : Out := keepQueue s <|
  match startedCmd s id 0 with
  | some _ => done (modCmd id (fun c => { c with issued := true }) s)
  | none => done s

/-- FLUSH (Table 9.8): its condition is met at COMMAND_COMPLETE. -/
def execFlush (id : Nat) (s : State) : Out := keepQueue s <|
  match startedCmd s id 4 with
  | some _ => done (modCmd id (fun c => { c with issued := true }) s)
  | none => done s

/-- A failure of a block, at its LBA. -/
def addErr (id lba st : Nat) (s : State) : State := modCmd id (fun c => { c with errs := c.errs ++ [(lba, st)] }) s

/-- A block's data goes into its area (R226). Above a transfer failure the spec leaves open whether an area receives its
data (R237, Table 9.14): a free choice. -/
def putArea (c : Cmd) (i : Nat) (data : List Byte) (s : State) : State :=
  let cur := (s.stor.cmds.find? (·.id = c.id)).getD c
  let failed := cur.errs.any fun e => e.2 == scTransfer && decide (e.1 < c.slba + i)
  let skip := failed && decide (Config.freeNat s.free % 2 = 0)
  let s1 := if failed then s.draw else s
  let s2 := modCmd c.id (fun c => { c with todo := c.todo.filter (· ≠ i) }) s1
  if skip then s2
  else
    let r := writeArea c i data s2
    if r.2 then r.1 else addErr c.id (c.slba + i) scTransfer r.1

/-- Deliver a block's data: its packets pass the media engine's port, or are held there (R167, R169, R299). -/
def deliver (c : Cmd) (i : Nat) (data : List Byte) (s : State) : State :=
  match portTake c.tid (areaCost c true s i) (.area c.id i data) s with
  | (s1, true) => putArea c i data s1
  | (s1, false) => s1

/-- A block of a READ cannot be read. -/
def blkUnread (c : Cmd) (i : Nat) (s : State) : State :=
  addErr c.id (c.slba + i) scUnrecovered (modCmd c.id (fun c => { c with todo := c.todo.filter (· ≠ i) }) s)

/-- A unit's 4,096 data bytes. -/
def unitData (u : FUnit) : List Byte := if u.zero then zeros 4096 else u.data

/-- Read block `i` of a READ (R251, R277): from the write buffer, as zeros, or by a flash read charged to the tenant. -/
def readBlk (c : Cmd) (s : State) (i : Nat) : State :=
  let a := blkSeg s c i
  match pwbFind s a.1 a.2 with
  | some p => if p.unrec then blkUnread c i s else deliver c i p.data s
  | none =>
    match locate s a.1 a.2 with
    | .zero => deliver c i (zeros 4096) s
    | .unrec => blkUnread c i s
    | .unit bn u _ => issueOp (.readCmd c.id i) bn (unitPos u * 1048576 + unitIdx u) (some c.tid) [2] FUnit.none s

/-- READ (R224, R226, R251). -/
def execRead (id : Nat) (s : State) : Out := keepQueue s <|
  match startedCmd s id 1 with
  | none => done s
  | some c =>
    let l := upto (c.nlb + 1)
    let s1 := modCmd id (fun c => { c with issued := true, todo := l }) s
    done (l.foldl (readBlk c) s1)

/-- What a WRITE stores in a block: its data, or a unit that reads UNRECOVERED_READ. -/
structure WBlk where
  blk   : Nat
  data  : List Byte
  unrec : Bool
deriving DecidableEq, Repr

/-- Read the source areas from block `i` on, with the first failure met (R237). From that failure on the spec leaves open
whether a block keeps its old data, takes its new data or reads UNRECOVERED_READ (Table 9.14): a free choice for each. -/
def readSource (c : Cmd) : Nat → Nat → Option Nat → State → State × List WBlk × Option Nat
  | 0, _, f, s => (s, [], f)
  | n + 1, i, f, s =>
    match readArea c i s with
    | (t, some b) =>
      match f with
      | none => let r := readSource c n (i + 1) none t; (r.1, ⟨i, b, false⟩ :: r.2.1, r.2.2)
      | some _ =>
        let k := Config.freeNat t.free % 3
        let r := readSource c n (i + 1) f t.draw
        (r.1, (if k = 0 then [] else [⟨i, b, decide (k = 2)⟩]) ++ r.2.1, r.2.2)
    | (t, none) =>
      let k := Config.freeNat t.free % 2
      let r := readSource c n (i + 1) (some (f.getD i)) t.draw
      (r.1, (if k = 0 then [] else [⟨i, zeros 4096, true⟩]) ++ r.2.1, r.2.2)

/-- The segments a command touches, in ascending order. -/
def segsOf (s : State) (c : Cmd) : List Nat :=
  let a := (blkSeg s c 0).1
  let b := (blkSeg s c c.nlb).1
  (upto (b + 1 - a)).map (a + ·)

/-- The blocks of a list that lie in a segment, in order. -/
def inSeg (s : State) (c : Cmd) (g : Nat) (l : List WBlk) : List WBlk := l.filter fun w => (blkSeg s c w.blk).1 == g

/-- The blocks are consecutive. -/
def consecutive : List WBlk → Bool
  | a :: b :: r => decide (b.blk = a.blk + 1) && consecutive (b :: r)
  | _ => true

/-- Make a place in every segment in turn (R253): the segments that have one, and the first outcome that is not `ok`. -/
def prepAll (c : Cmd) (mask : BitVec 8) (l : List WBlk) : List Nat → State → State × List Nat × Prep
  | [], s => (s, [], .ok)
  | g :: r, s =>
    match inSeg s c g l with
    | [] => prepAll c mask l r s
    | w :: ws =>
      let x := prepSeg g (blkSeg s c w.blk).2 (ws.length + 1) (consecutive (w :: ws)) mask c.tid s
      match x.2 with
      | .ok => let y := prepAll c mask l r x.1; (y.1, g :: y.2.1, y.2.2)
      | p => (x.1, [], p)

/-- Reserve the places of a segment's blocks; RWC follows (R258). -/
def reserveSeg (c : Cmd) (l : List WBlk) (s : State) (g : Nat) : State :=
  let ws := inSeg s c g l
  let overs := ws.any fun w => everWritten s g (blkSeg s c w.blk).2
  let s1 := rwcWrite g c.hint overs s
  ws.foldl (fun a w =>
    let r := reserveBlk g (blkSeg a c w.blk).2 w.blk w.data w.unrec a
    modCmd c.id (fun d => { d with res := d.res ++ [r.2], todo := d.todo ++ [w.blk] }) r.1) s1

/-- A namespace becomes write-protected (R271). -/
def protectNs (n : Nat) (s : State) : State :=
  report (mkReport 0x6800 0 0x051 false 8 (leBytes 1 n)) (jotNs n (s.setNs n { s.ns n with state := 2 }))

/-- The packets that read a WRITE's source areas pass the media engine's port, or are held there (R167, R169, R299). -/
def meterSource (c : Cmd) (s : State) : State × Bool :=
  if c.metered then (s, true)
  else if s.fab.held.any fun e => decide (e.pkt = .source c.id) then (s, false)
  else
    let cost := (upto (c.nlb + 1)).foldl (fun n i => n + areaCost c false s i) 0
    let x := portTake c.tid cost (.source c.id) s
    (if x.2 then modCmd c.id (fun d => { d with metered := true }) x.1 else x.1, x.2)

/-- WRITE (R224, R253, R276): its source areas are read, and a place is reserved for every block; then the WRITE starts, and its blocks are acknowledged in
the write buffer while DLIM allows. Without a place it waits, unstarted; when none can ever be supplied the namespace
becomes write-protected. -/
def runWrite (id : Nat) (s0 : State) : State :=
  match s0.stor.cmds.find? fun c => c.id == id && c.opc == 2 && !c.issued with
  | none => s0
  | some c =>
    if (s0.stor.cmds.takeWhile fun d => d.id ≠ id).any fun e => lockClash e c then s0
    else match meterSource c s0 with
    | (s, false) => s
    | (s, true) =>
      let src := readSource c (c.nlb + 1) 0 none s
      let n := s.ns c.nsid
      let p := prepAll c n.lgmask src.2.1 (segsOf s c) src.1
      match p.2.2 with
      | .wait => settleMedia p.1
      | pr =>
        let s1 := modCmd id (fun c => { c with started := true, issued := true }) p.1
        let s2 := p.2.1.foldl (reserveSeg c src.2.1) s1
        let s3 := match src.2.2 with
          | some f => addErr id (c.slba + f) scTransfer s2
          | none => s2
        let s4 := match pr with
          | .full =>
            let placed := src.2.1.filter fun w => p.2.1.contains (blkSeg s c w.blk).1
            let miss := (src.2.1.filter fun w => !placed.contains w).head?
            (match miss with
              | some w => protectNs c.nsid (addErr id (c.slba + w.blk) scWriteProt s3)
              | none => s3)
          | _ => s3
        settleMedia (ackMore 4096 s4)
def execWrite (id : Nat) (s : State) : Out := keepQueue s <| done (runWrite id s)

/-- DISCARD of `n` offsets from `o` of a segment (R255). -/
def discardSeg (g o n : Nat) (s : State) : State :=
  let s0 := s.modPls fun t => { t with slots := t.slots.map fun p =>
    if p.seg = g ∧ o ≤ p.off ∧ p.off < o + n then { p with super := true } else p }
  let e := s.seg g
  let d := s.desc g
  let whole := decide (o = 0) && (match nsOfSeg s g with
    | some k => decide ((s.ns k).segblk ≤ n)
    | none => true)
  if whole && d.isNone then reclaimSeg g (mapChange n s0)
  else
    let target := match d with
      | some d => if d.run then d.succ else if e.log then some e.idx else none
      | none => if e.log then some e.idx else none
    match target with
    | none => s0
    | some j => jot (.discard j o n) (mapChange n ((upto n).foldl (fun a i => pmSet j (o + i) .disc a) s0))

/-- DISCARD (R238, R255). -/
def execDiscard (id : Nat) (s : State) : Out := keepQueue s <|
  match startedCmd s id 3 with
  | none => done s
  | some c =>
    let s1 := modCmd id (fun c => { c with issued := true }) s
    let a := blkSeg s c 0
    let b := blkSeg s c c.nlb
    let blk := (s.ns c.nsid).segblk
    done (settleMedia ((upto (b.1 + 1 - a.1)).foldl (fun t i =>
      let g := a.1 + i
      let lo := if i = 0 then a.2 else 0
      let hi := if g = b.1 then b.2 + 1 else blk
      discardSeg g lo (hi - lo) t) s1))

/-- A FLUSH may complete (Table 9.8): no earlier WRITE of its pair to the namespace runs, and every block of the WRITEs it
waits for is programmed; a log unit counts once it has been read back. -/
def flushMet (s : State) (c : Cmd) : Bool :=
  let n := s.ns c.nsid
  !(s.stor.cmds.any fun d => d.q == c.q && d.opc == 2 && d.nsid == c.nsid && decide (d.id < c.id)) &&
    !(s.pls.slots.any fun p => decide (n.sbase ≤ p.seg ∧ p.seg < n.sbase + n.nseg) && decide (p.cmd < c.id) &&
      !c.todo.contains p.cmd && (p.log.isSome || !p.prog))

/-- The failure at the lowest LBA decides the status (R237). -/
def lowestErr : List (Nat × Nat) → Option (Nat × Nat)
  | [] => none
  | e :: r => match lowestErr r with
    | some f => if f.1 < e.1 then some f else some e
    | none => some e

/-- What a block holds now; nothing when it cannot be read. -/
def blkNow (s : State) (g o : Nat) : Option (List Byte) :=
  match pwbFind s g o with
  | some p => if p.unrec then none else some p.data
  | none =>
    match locate s g o with
    | .zero => some (zeros 4096)
    | .unrec => none
    | .unit bn u _ => match mediaAt s bn (unitPos u) (unitIdx u) with
      | some x => if x.bad || x.unrec then none else some (unitData x)
      | none => none

/-- An area that a failed READ leaves unspecified holds its earlier content or the block's data (Table 9.14): a free choice. -/
def leaveArea (c : Cmd) (s : State) (i : Nat) : State :=
  let a := blkSeg s c i
  let t := s.draw
  match (if Config.freeNat s.free % 2 = 0 then none else blkNow s a.1 a.2) with
  | some b => (writeArea c i b t).1
  | none => t

/-- A block that a failed WRITE has not acknowledged keeps its old data, takes its new data or reads UNRECOVERED_READ (Table 9.14): a
free choice for each. -/
def leaveBlocks (s : State) : List Res → State × List Res
  | [] => (s, [])
  | r :: l =>
    let x := leaveBlocks s.draw l
    let k := Config.freeNat s.free % 3
    let v := if k = 0 then (match blkNow s r.seg r.off with
        | some b => { r with data := b, unrec := false }
        | none => { r with unrec := true })
      else if k = 1 then r else { r with unrec := true }
    (x.1, v :: x.2)

/-- The media engine cannot complete a command (R227, INTERNAL_ERROR): a MEDIAERR record names the cause, and Table 9.14 gives what
its blocks and areas hold. A DISCARD that has been performed, or a command with nothing left to do, cannot fail. -/
def failCmd (c : Cmd) (cause : BitVec 8) (s : State) : State :=
  let s1 := report (mkReport (0x7000 + c.q) 3 0x053 false 16 (leBytes 2 c.q ++ leBytes 2 c.cid.toNat ++ leBytes 1 cause.toNat)) s
  let todo := if c.issued then c.todo else upto (c.nlb + 1)
  let first := todo.foldl min (todo.headD 0)
  if c.errs.any (fun e => e.2 == scInternal) then s
  else if c.opc = 1 ∧ todo ≠ [] then
    let s2 := dropOps (fun o => match o.kind with
      | .readCmd d _ => d == c.id
      | _ => false) s1
    let s3 := { s2 with fab := { s2.fab with held := s2.fab.held.filter fun e => match e.pkt with
      | .area d _ _ => d != c.id
      | _ => true } }
    addErr c.id (c.slba + first) scInternal (modCmd c.id (fun d => { d with issued := true, todo := [] }) (todo.foldl (leaveArea c) s3))
  else if c.opc = 2 ∧ c.issued ∧ todo ≠ [] then
    let x := leaveBlocks s1 c.res
    addErr c.id (c.slba + first) scInternal (modCmd c.id (fun d => { d with res := x.2 }) x.1)
  else if c.opc = 0 ∨ c.opc = 4 ∨ (c.opc = 3 ∧ c.issued = false) then
    addErr c.id c.slba scInternal (modCmd c.id (fun d => { d with issued := true, todo := [] }) s1)
  else s

/-- COMMAND_COMPLETE (R228, R237): a command that has done everything completes; `fail` is the cause code of the media engine when it
could not complete the command. -/
def execCommandComplete (id : Nat) (s0 : State) (fail : Option (BitVec 8) := none) : Out := keepQueue s0 <|
  let s := match s0.stor.cmds.find? (fun c => c.id == id && c.started), fail with
    | some c, some k => failCmd c k s0
    | _, _ => s0
  match s.stor.cmds.find? fun c => c.id == id && c.started && c.issued with
  | none => done s
  | some c =>
    let ready := if c.opc = 4 then flushMet s c || c.errs ≠ [] else decide (c.todo = [])
    if ready then
      match lowestErr c.errs with
      | some e => done (settleMedia (completeCmd c e.2 e.1 s))
      | none => done (settleMedia (completeCmd c scSuccess 0 s))
    else done s

/-- VEST.STOR.NS[n] (Table 9.3). -/
def rdNs (s : State) (n : Nat) : Word :=
  let v := s.ns n
  cat [at_ 62 (BitVec.ofNat 2 v.state), at_ 0 (BitVec.ofNat 48 (v.nseg * v.segblk))]

end Sys2Proof.Machine
end

