-- ==== Sys2Proof/Machine/MediaExec.lean ====
section
/-! DEFINITION. The media engine's events (10): bring-up, ends of flash operations, merges, ageing, die failure; checkpoints and
journal records (11); namespace commands (14). -/

namespace Sys2Proof.Machine

/-! ### Bring-up (R242) -/

/-- The first row of Table 10.1 that a lane group fails; 0 when it meets every row. -/
def lgCause (f : LgFacts) : Nat :=
  let d := f.geo.dies
  let okCount := f.dieCounts.length = 16 ∧ f.dieCounts.all (· = d) ∧ (d = 1 ∨ d = 2 ∨ d = 4 ∨ d = 8 ∨ d = 16)
  let g := f.geo
  let bits := geoBits g
  if !f.iface then 7
  else if !(decide okCount && f.ceLun && decide (g.luns = 1 ∨ g.luns = 2)) then 1
  else if !f.crcOk then 2
  else if !f.samePart then 3
  else if !(f.tlcOrQlc && decide (f.pageBytes = 16384) && decide (2048 ≤ f.spareBytes) && decide (g.planes = 1 ∨ g.planes = 2 ∨ g.planes = 4) &&
    decide (g.pages % bits = 0) && decide (g.pages ≤ 4608) && decide (g.blocks ≤ 4096)) then 4
  else if !f.profile then 5
  else 0

/-- Raw capacity of a lane group in 4 KiB units. -/
def lgRaw (f : LgFacts) : Nat := 16 * f.geo.dies * f.geo.blocks * ebu f.geo

/-- The lane groups that the package total allows, from `g` = 0 upward (Table 10.1, 0x6): groups from 7 downward are made
unusable while the total of those that meet the other rows exceeds 512 TiB. -/
def totalAllowed (l : List LgFacts) : Nat → Bool := fun g =>
  let sum := (upto (g + 1)).foldl (fun a i => match l[i]? with
    | some f => if f.present ∧ lgCause f = 0 then a + lgRaw f else a
    | none => a) 0
  decide (sum ≤ 137438953472)

/-- FLASH_BRINGUP (R242): bring-up starts in every lane group that has not had it since the package reset. -/
def execFlashBringup (s : State) : Out := keepQueue s <|
  done ((upto 8).foldl (fun a g => a.modLg g fun t => if t.state = 0 then { t with state := 1, cause := 0 } else t) s)

/-- A lane group of which nothing is reported: it is populated or not, and usable or not. -/
def LgFacts.free (n : Nat) : LgFacts :=
  ⟨n % 2 = 1, n / 2 % 2 = 1, List.replicate 16 1, true, true, true, 16384, 2048, true, true, { Geo.none with dies := 1, luns := 1, planes := 1 }⟩

/-- FLASH_BRINGUP_DONE (R242): each lane group in bring-up is empty, usable or unusable, until the next package reset; a formatted
one keeps what its format chose. -/
def execFlashBringupDone (pop : List LgFacts) (s : State) : Out := keepQueue s <|
  let l := fillFree 8 LgFacts.free pop s
  done ((upto 8).foldl (fun a g =>
    match (if (a.lg g).state = 1 then l.2[g]? else none) with
    | none => a
    | some f =>
      let c := lgCause f
      let c1 := if c = 0 ∧ totalAllowed l.2 g = false then 6 else c
      loadCap 2 g (if f.present ∧ c1 = 0 then 16 * f.geo.dies else 0) (a.modLg g fun t => { t with
        state := if f.present = false then 0 else if c1 = 0 then 2 else 3
        cause := if f.present then c1 else 0
        geo := if f.present then f.geo else Geo.none })) l.1)

/-! ### Reads (R267, R268) -/

/-- Mark the band for a refresh, keeping the more urgent reason. -/
def markDue (bn r : Nat) (s : State) : State := s.modBand bn fun b => { b with due := if b.due < r then r else b.due }

/-- Mode index of a band: 0 TLC, 1 QLC, 2 SLC (Table 10.18). -/
def modeIdx (s : State) (bn : Nat) : Nat := if (s.band bn).slc then 2 else if (s.lg (bnLg bn)).geo.qlc then 1 else 0

/-- A read of an erase block counts in RDC; a closed band falls due at RD_TH (R267). -/
def countRead (o : FOp) (s : State) : State :=
  let k := bandEb s o.bn (o.u / 1048576)
  let s1 := s.modEblk k fun e => { e with rdc := min (e.rdc + 1) 16777215 }
  if closedBand s1 o.bn = true ∧ s1.ftl.obj.rdTh.getD (modeIdx s1 o.bn) 0 ≤ (s1.eblk k).rdc then markDue o.bn 3 s1 else s1

/-- The unit that an operation reads, when this step decodes it: an undecodable codeword is recovered only by the stripe
parity. -/
def readUnit (s : State) (o : FOp) (decoded : Bool) : Option FUnit :=
  match mediaAt s o.bn (o.u / 1048576) (o.u % 1048576) with
  | some x => if decoded && (!x.bad || decide (o.step = 4)) then some x else none
  | none => none

/-- The next step of the ladder for an operation that did not decode (Table 10.16); none after the last. -/
def nextStep (s : State) (o : FOp) : Option Nat :=
  if o.step < 3 then some (o.step + 1)
  else if o.step = 3 ∧ (s.band o.bn).parity then some 4
  else none

/-- SRC of a record that names a die (Table 16.2). -/
def dieSrc (bn pos : Nat) : Nat := 0x6000 + bnLg bn * 256 + pos * 16 + bnSlot bn

/-- The end of the ladder without recovery (R268): the unit reads UNRECOVERED_READ from now on, its erase block is SUSPECT,
and a record is written. -/
def ladderFail (o : FOp) (s : State) : State :=
  let pos := o.u / 1048576
  let key := unitKey (bandEb s o.bn pos) (o.u % 1048576)
  let b := s.band o.bn
  let off := match mediaAt s o.bn pos (o.u % 1048576) with
    | some x => x.page
    | none => 0
  let s1 := s.modEblk (bandEb s o.bn pos) fun e => { e with suspect := true }
  let s2 := s1.modFtl fun t => { t with media := match tabFind key t.media with
    | some x => tabInsert key { x with unrec := true } t.media
    | none => t.media }
  let s3 := s2.modLg (bnLg o.bn) fun g => { g with unrec := g.unrec + 1 }
  report (mkReport (dieSrc o.bn pos) 3 0x050 false 16 (leBytes 4 b.seg ++ leBytes 4 off ++ leBytes 4 o.bn)) (markDue o.bn 2 s3)

/-- A program of a log unit failed or does not read back: its erase block is SUSPECT, and the slot is placed again in the next
log unit, or programmed again where the log band is full. -/
def replaceSlot (id : Nat) (s : State) : State :=
  match s.pls.slots.find? (·.id = id) with
  | none => s
  | some p =>
    match p.log with
    | none => s
    | some j =>
      let room := (s.slot j).bound && decide ((s.slot j).band = p.bn) && decide ((s.slot j).next < logCap (s.lg (bnLg p.bn)).geo)
      let u := if room then (s.slot j).next else p.unit
      let s1 := if room then s.modSlot j fun l => { l with next := l.next + 1 } else s
      let s2 := s1.modPls fun t => { t with slots := t.slots.map fun x => if x.id = id then { x with unit := u, prog := false } else x }
      let s3 := if pmGet s2 j p.off = .unit p.unit then pmSet j p.off (.unit u) s2 else s2
      let w : FUnit := ⟨p.data, p.seg, false, false, p.unrec, false, p.off, p.seq, p.bn, false⟩
      issueOp (.progSlot id) p.bn (unitPos u * 1048576 + unitIdx u) (if s.stor.st = 1 then none else some p.tid) (if s.stor.st = 1 then [] else [2, 3]) w s3

/-- Every unit of a closed band has been verified (Table 10.17): its parity is freed; a direct fill is mapped and journaled, a
merge goes on to its map change. -/
def bandVerified (bn : Nat) (s : State) : State :=
  let s1 := s.modBand bn fun b => { b with st := .mapped, parity := false }
  match s1.ftl.maps.descs.find? (·.dest = bn) with
  | none => s1
  | some d =>
    if d.run then s1.modDesc d.seg fun d => { d with step := 4 }
    else jotSeg d.seg ((s1.dropDesc d.seg).modSeg d.seg fun e => { e with v := true, band := bn, busy := false })

/-- The next verification read of a band, or the end of the verification. -/
def verifyNext (bn : Nat) (s : State) : State :=
  let n := 16 * ebu (s.lg (bnLg bn)).geo
  let v := (s.band bn).ver
  if v < n then issueOp .verify bn ((v % 16) * 1048576 + v / 16) none [2] FUnit.none s else bandVerified bn s

/-- A read that decoded: what it serves. -/
def readServed (o : FOp) (x : FUnit) (s0 : State) : State :=
  let s1 := endOp o s0
  let s := if 3 ≤ o.step ∧ closedBand s1 o.bn = true then markDue o.bn 2 s1 else s1
  match o.kind with
  | .readCmd c i =>
    match s.stor.cmds.find? (·.id = c) with
    | some c => if x.unrec then blkUnread c i s else deliver c i (unitData x) s
    | none => s
  | .readBack id =>
    match s.pls.slots.find? (·.id = id) with
    | some p => releaseSlot p s
    | none => s
  | .readMerge g off =>
    match s.desc g with
    | some d => progMerge d off (if x.unrec then [] else x.data) x.zero x.unrec [2, 3] s
    | none => s
  | .verify => verifyNext o.bn (s.modBand o.bn fun b => { b with ver := b.ver + 1 })
  | .sample => if 2 ≤ o.step then markDue o.bn 2 s else s
  | _ => s

/-- A read that no step recovered: what follows. -/
def readLost (o : FOp) (s0 : State) : State :=
  let s := endOp o s0
  match o.kind with
  | .readCmd c i =>
    match s.stor.cmds.find? (·.id = c) with
    | some c => blkUnread c i (ladderFail o s)
    | none => s
  | .readBack id => replaceSlot id (s.modEblk (bandEb s o.bn (o.u / 1048576)) fun e => { e with suspect := true })
  | .readMerge g off =>
    match s.desc g with
    | some d => progMerge d off [] false true [2, 3] (ladderFail o s)
    | none => s
  | _ => ladderFail o s

/-- FLASH_READ_DONE (R268): the codeword decodes, or the read moves to the next step of the ladder; a verification read must
decode at step 0 (R269). -/
def execFlashReadDone (id : Nat) (decoded : Bool) (s : State) : Out := keepQueue s <|
  match findOp s id with
  | none => done s
  | some o =>
    if opRuns s o && decide (opClass o = 0) then
      let s1 := countRead o s
      match readUnit s1 o decoded with
      | some x => done (settleMedia (readServed o x s1))
      | none =>
        if o.kind = .verify then
          done (settleMedia (rebuildBand o.bn (endOp o (s1.modEblk (bandEb s1 o.bn (o.u / 1048576)) fun e => { e with suspect := true }))))
        else
          match nextStep s1 o with
          | some n => done (chargeOp 4 id (setOp { o with step := n, left := [2] } s1))
          | none => done (settleMedia (readLost o s1))
    else done s

/-! ### Die failure (R264) -/

/-- A die fails: every block of it takes STATE 5. Bands open or closed on it are rebuilt from parity; blocks of verified bands on
it are lost and their bands relocated; no band forms at its die slot again. -/
def failDie (die : Nat) (s : State) : State :=
  let lg := die / 256
  let slot := die % 16
  let blocks := (s.lg lg).geo.blocks
  let s1 := (upto blocks).foldl (fun a b => a.modEblk (ebKey die b) fun e => { e with state := 5 }) s
  let s2 := s1.modFtl fun t => { t with
    deadDie := if t.deadDie.contains die then t.deadDie else t.deadDie ++ [die]
    media := t.media.map fun e => if e.1 / 1048576 / 4096 = die then (e.1, { e.2 with bad := true }) else e }
  let here := (s2.ftl.maps.bands.filter fun e => bnLg e.1 == lg && bnSlot e.1 == slot).map (·.1)
  here.foldl (fun a bn =>
    let b := a.band bn
    if b.st = .free then a.modBand bn fun _ => Band.none
    else if (b.st = .open_ ∨ b.st = .verifying) ∧ b.slc = false then rebuildBand bn a
    else if b.st = .mapped ∨ b.st = .open_ then markDue bn 4 a
    else a) s2

/-- DIE_FAIL (R264). -/
def execDieFail (lg : LgId) (pos slot : Fin 16) (s : State) : Out := keepQueue s <|
  done (settleMedia (failDie (dieKey lg pos slot) s))

/-- The status of a program or an erase of a die counts: the 16th failure in a row fails the die (R264). -/
def dieStatus (o : FOp) (ok : Bool) (s : State) : State :=
  let pos := o.u / 1048576
  if pos < 16 ∧ o.kind ≠ .ckpt then
    let die := bandDie o.bn pos
    let n := if ok then 0 else tabGet s.ftl.dieRow 0 die + 1
    let s1 := s.modFtl fun t => { t with dieRow := tabSet t.dieRow 0 die n }
    if n = 16 then failDie die s1 else s1
  else s

/-! ### Programs (R269, R270) -/

/-- Slots of a band's stripe: native units at that unit index, programmed. -/
def releaseStripe (bn u : Nat) (s : State) : State :=
  (s.pls.slots.filter fun p => p.bn == bn && p.log.isNone && p.prog && unitIdx p.unit == u).foldl (fun a p => releaseSlot p a) s

/-- Put a unit on the media: programmed, or lost to a failed program and known to the parity alone. -/
def putUnit (o : FOp) (ok : Bool) (s : State) : State :=
  let key := unitKey (bandEb s o.bn (o.u / 1048576)) (o.u % 1048576)
  s.modFtl fun t => { t with
    media := tabInsert key { o.what with bad := !ok } t.media
    progU := t.progU + 1
    tenU := if o.eng then t.tenU else t.tenU + 1 }

/-- The band of the checkpoint before number `num` is erased, in the journal home and its mirror (R288, step 4). -/
def ckptErase (num : Nat) (s : State) : State := (journalLgs s).foldl (fun a g => condemn (sysBand s g ((num + 1) % 2)) a) s

/-- A checkpoint's trailer and CHECKPOINT record are programmed (R288): it is the newest, and the previous band is erased. -/
def ckptDone (s : State) : State :=
  match s.pls.snap with
  | none => s
  | some k =>
    let s1 := jot (.checkpoint k.num (sysBand s ((journalHome s).getD 0) (k.num % 2))) (s.modPls fun p => { p with snap := none, cks := [k] })
    let s2 := ckptErase k.num (flushTail s1)
    s2.modPls fun p => { p with jrn := if p.jrn.any (fun r => r.jnum = k.jnum) then (p.jrn.dropWhile fun r => r.jnum ≠ k.jnum).drop 1 else p.jrn }

/-- The end of a program that succeeded. -/
def progGood (o : FOp) (s0 : State) : State :=
  match o.kind with
  | .progSlot id =>
    let s1 := endOp o (putUnit o true s0)
    match s1.pls.slots.find? (·.id = id) with
    | none => stripeCheck o.bn (o.u % 1048576) s1
    | some p =>
      let s2 := s1.modPls fun t => { t with slots := t.slots.map fun x => if x.id = id then { x with prog := true } else x }
      if p.log.isSome then issueOp (.readBack id) o.bn o.u none [2] FUnit.none s2 else stripeCheck o.bn (o.u % 1048576) s2
  | .progMerge g off =>
    let s1 := endOp o (putUnit o true s0)
    let s2 := s1.modPls fun t => { t with slots := t.slots.map fun x =>
      if x.bn = o.bn ∧ x.log = none ∧ x.unit = off then { x with prog := true } else x }
    let s3 := mapChange 1 (s2.modDesc g fun d => { d with next := max d.next (off + 1) })
    ckptDue (copyNext g (stripeCheck o.bn (o.u % 1048576) s3))
  | .progHdr _ => stripeCheck o.bn 0 (endOp o (putUnit o true s0))
  | .progPar u =>
    let s1 := (endOp o s0).modBand o.bn fun b => { b with mir := b.mir + 1 }
    releaseStripe o.bn u (scratchUse (bnLg o.bn) s1)
  | .reparity _ =>
    let g := bnLg o.bn
    endRotation g ((endOp o s0).modFtl fun t => { t with
      progU := t.progU + 1, lgs := tabSet t.lgs LgSt.reset g { tabGet t.lgs LgSt.reset g with scrUsed := (tabGet t.lgs LgSt.reset g).scrUsed + 1 } })
  | .ckpt => ckptDone (endOp o s0)
  | _ => endOp o s0

/-- The end of a program that failed (R262, Table 10.17): the erase block is SUSPECT; a log unit is placed again; a native
band goes to Rebuilding, its lost unit known to the parity; system and parity writes are repeated. -/
def progBad (o : FOp) (s0 : State) : State :=
  let s := s0.modEblk (bandEb s0 o.bn (o.u / 1048576)) fun e => { e with suspect := true }
  match o.kind with
  | .progSlot id =>
    if (s.band o.bn).slc then replaceSlot id (endOp o s)
    else
      let s1 := endOp o (putUnit o false s)
      let s2 := s1.modPls fun t => { t with slots := t.slots.map fun x => if x.id = id then { x with prog := true } else x }
      rebuildBand o.bn (stripeCheck o.bn (o.u % 1048576) s2)
  | .progMerge .. => rebuildBand o.bn (stripeCheck o.bn (o.u % 1048576) (endOp o (putUnit o false s)))
  | .progHdr _ =>
    if (s.band o.bn).slc then endOp o (putUnit o false s) else rebuildBand o.bn (endOp o (putUnit o false s))
  | .progPar u => progParity o.bn u (endOp o s0)
  | .reparity u => parityUnit (.reparity u) o.bn u (endOp o s0)
  | .ckpt => issueOp .ckpt o.bn o.u none [] FUnit.none (endOp o s0)
  | _ => endOp o s

/-- FLASH_PROGRAM_DONE (R269, R270, R288). -/
def execFlashProgramDone (id : Nat) (ok : Bool) (s : State) : Out := keepQueue s <|
  match findOp s id with
  | none => done s
  | some o =>
    if opRuns s o && decide (opClass o = 1) then
      done (settleMedia (dieStatus o ok (if ok then progGood o s else progBad o s)))
    else done s

/-! ### Erases, retirement, wear (R261 to R263) -/

/-- The spares of a die, lowest address first. -/
def dieSpares (s : State) (die : Nat) : List Nat :=
  ((s.ftl.maps.ebs.filter fun e => e.1 / 4096 == die && e.2.state == 2).map (·.1))

/-- An erase block reaches the end of its life at this erase (R261). -/
def ebWorn (s : State) (g k : Nat) : Bool :=
  (s.eblk k).suspect || decide (((s.lg g).geo.rated * s.ftl.obj.eolPe) ≤ (s.eblk k).ec * 100)

/-- The end of one erase block's erase in a band: it is free again, or retired and replaced (R262). A die without a spare
dissolves the band (marked by `due` = 7). -/
def eraseOne (bn pos : Nat) (ok : Bool) (s : State) : State :=
  let k := bandEb s bn pos
  let g := bnLg bn
  let s1 := s.modFtl fun t => { t with media := t.media.filter fun e => e.1 / 1048576 ≠ k }
  let s2 := s1.modEblk k fun e => { e with ec := min (e.ec + 1) 16777215, rdc := 0, state := 0 }
  if ok && !ebWorn s2 g k then jotEb k s2
  else
    let s3 := jotEb k ((s2.modEblk k fun e => { e with state := 4, suspect := false }).modLg g fun t => { t with grown := min (t.grown + 1) 65535 })
    match (dieSpares s3 (bandDie bn pos)).head? with
    | some sp =>
      let s4 := jotEb sp (s3.modEblk sp fun e => { e with state := 0 })
      jot (.bandMap bn pos (some (sp % 4096))) (s4.modBand bn fun b => { b with eb := b.eb.set pos (sp % 4096) })
    | none => jot (.bandMap bn pos none) (s3.modBand bn fun b => { b with due := 7 })

/-- Every erase of a band has ended: it returns to the free pool or to its system role, or is dissolved and its good erase
blocks become spares. -/
def eraseEnd (bn : Nat) (s : State) : State :=
  let b := s.band bn
  let dead := (upto 16).any fun p => s.ftl.deadDie.contains (bandDie bn p)
  let s2 := if b.due = 7 ∨ dead then
      let s1 := (upto 16).foldl (fun a p =>
        let k := bandEb a bn p
        if (a.eblk k).state = 0 then jotEb k (a.modEblk k fun e => { e with state := 2 }) else a) s
      jot (.erased bn) (s1.modMaps (dissolve bn))
    else
      jot (.erased bn) (s.modBand bn fun b => { b with
        st := if 3 ≤ b.kind then .fixed else .free, slc := decide (3 ≤ b.kind), seg := if 3 ≤ b.kind then b.seg else 0, age := 0, mir := 0, ver := 0, parity := false, due := 0 })
  if b.kind = 4 ∧ b.seg = 3 then mirErased (bnLg bn) s2 else s2

/-- Wear levelling (R263): with an EC gap above WL_GAP, the cold segment whose data band has the lowest highest EC moves, but
not one of a write-protected namespace (R272). -/
def wearLevel (g : Nat) (s : State) : State :=
  let bl := (s.ftl.maps.ebs.filter fun e => e.1 / 1048576 == g && (e.2.state ≤ 2)).map fun e => e.2.ec
  let hi := bl.foldl max 0
  let lo := bl.foldl min hi
  if s.ftl.obj.wlGap < hi - lo then
    let cand := s.ftl.maps.segs.filter fun e => e.2.v && !e.2.hot && !e.2.busy && bnLg e.2.band == g &&
      (match nsOfSeg s e.1 with
        | some n => decide ((s.ns n).state = 1)
        | none => false)
    match pickBand (fun q => bandEc s (s.seg q).band) false (cand.map (·.1)) with
    | some q =>
      let r := mergeStart q false 0 s
      if r.2 then r.1 else markDue (s.seg q).band 5 s
    | none => s
  else s

/-- FLASH_ERASE_DONE (R261, R262, R263, R260). -/
def execFlashEraseDone (id : Nat) (ok : Bool) (s : State) : Out := keepQueue s <|
  match findOp s id with
  | none => done s
  | some o =>
    match o.kind with
    | .erase pos =>
      if opRuns s o then
        let s1 := dieStatus o ok (eraseOne o.bn pos ok (endOp o s))
        if s1.ftl.ops.any fun p => p.bn == o.bn then done (settleMedia s1)
        else done (settleMedia (wearLevel (bnLg o.bn) (eraseEnd o.bn s1)))
      else done s
    | _ => done s

/-! ### Merges -/

/-- The reason for which a segment's merge is scheduled: the greater `due` of its data and log bands (3 disturb, 2 ladder,
1 retention, 4 die failure, 5 wear). -/
def segDue (s : State) (g : Nat) : Nat :=
  let e := s.seg g
  max (if e.v then (s.band e.band).due else 0) (if e.log then (s.band (s.slot e.idx).band).due else 0)

/-- Refresh order (R267): disturb, then ladder, then retention; other reasons stand beside them. -/
def dueRank (r : Nat) : Nat := if 1 ≤ r ∧ r ≤ 3 then r else 0

/-- A merge of the segment may be chosen now (R260, R263, R264, R267): it is scheduled and no refresh of an earlier kind waits,
or the urgency level allows it. -/
def mergeAllowed (s : State) (g : Nat) : Bool :=
  let e := s.seg g
  let r := segDue s g
  let cap := if e.log then logCap (s.lg (bnLg (s.slot e.idx).band)).geo else 0
  let first := !(s.ftl.maps.segs.any fun x => decide (dueRank r < dueRank (segDue s x.1)) && !x.2.busy)
  (decide (r ≠ 0) && (decide (dueRank r = 0) || first)) ||
    (decide (1 ≤ s.ftl.urg) && e.log && !e.hot && decide (cap ≤ (s.slot e.idx).next)) ||
    (decide (2 ≤ s.ftl.urg) && e.log && e.v)

/-- MERGE_START (R256, R260): the media engine chooses a merge of segment `g`. -/
def execMergeStart (g : Nat) (s : State) : Out := keepQueue s <|
  if s.stor.st = 2 ∧ mergeAllowed s g = true then done (settleMedia (mergeStart g false 0 s).1) else done s

/-- MERGE_MAP_DURABLE (steps 4 and 5 of Table 10.10): MERGE_DONE is durable, the map points at DEST, and the old bands are to
be erased. -/
def finishMerge (d : FDesc) (s : State) : State :=
  let g := d.seg
  let e := s.seg g
  let oldLog := if e.log then some (s.slot e.idx).band else none
  let s1 := jot (.mergeDone g (if e.v then some e.band else none) oldLog) s
  let s2 := (s1.dropDesc g).modSeg g fun e => { e with
    v := true, band := d.dest, busy := false, log := d.succ.isSome, idx := d.succ.getD 0 }
  let olds := (if e.v then [e.band] else []) ++ oldLog.toList ++ rebBand d
  let s3 := olds.foldl (fun a b => condemn b a) s2
  if e.log then freeSlot e.idx s3 else s3

def execMergeMapDurable (g : Nat) (s : State) : Out := keepQueue s <|
  match s.desc g with
  | some d => if d.run ∧ d.step = 4 then done (settleMedia (ackMore 4096 (finishMerge d s))) else done s
  | none => done s

/-- FILL_IDLE_EXPIRE (R253): a direct fill without writes for FILL_IDLE becomes a merge. -/
def execFillIdleExpire (g : Nat) (s : State) : Out := keepQueue s <|
  match s.desc g with
  | some d => if !d.run ∧ d.fill then done (settleMedia (mergeStart g false 0 s).1) else done s
  | none => done s

/-- RWC_DECAY (R258): every RWC is halved. -/
def execRwcDecay (s : State) : Out := keepQueue s <|
  done ((s.modMaps fun m => { m with segs := m.segs.filterMap fun e =>
    let v := { e.2 with rwc := e.2.rwc / 2 }
    if v = SegEnt.reset then none else some (e.1, v) }).modFtl fun t => { t with decayAt := s.time })

/-! ### Ageing and temperature (R265, R461) -/

/-- The factor of Table 10.14 for a mean temperature in 1/16 °C. -/
def ageFactor (t : Int) : Nat := if t < 640 then 1 else if t < 880 then 2 else if t < 1120 then 4 else if t < 1360 then 8 else 16

/-- The mean temperature of a die since the last update: of its samples, or its last reading when there was none. -/
def dieMean (s : State) (k : Nat) : Int :=
  let x := tabGet s.ftl.tempSum (0, 0) k
  if x.2 = 0 then tabGet s.ftl.temps 1360 k else x.1 / x.2

/-- Add hours of age to a band; a closed one falls due at RET_TH (R267). -/
def ageBand (bn n : Nat) (s : State) : State :=
  let s1 := s.modBand bn fun b => { b with age := b.age + n }
  if closedBand s1 bn = true ∧ s1.ftl.obj.retTh.getD (modeIdx s1 bn) 0 ≤ (s1.band bn).age then markDue bn 1 s1 else s1

/-- Bands that hold data. -/
def usedBands (s : State) : List Nat :=
  (s.ftl.maps.bands.filter fun e => e.2.st = .open_ || e.2.st = .verifying || e.2.st = .mapped || e.2.st = .rebuild).map (·.1)

/-- AGE_UPDATE (R265): the effective ages grow by the factor of the hottest die's mean temperature over the hour. -/
def execAgeUpdate (s : State) : Out := keepQueue s <|
  let s1 := (usedBands s).foldl (fun a bn =>
    let hot := (upto 16).foldl (fun m p => max m (dieMean s (bnLg bn * 16 + p))) (dieMean s (bnLg bn * 16))
    ageBand bn (ageFactor hot) a) s
  done (s1.modFtl fun t => { t with tempSum := [], ageAt := s.time })

/-- The reading of the nearest position that answers (R461): 85 °C when none does. -/
def nearestTemp (l : List (Option Int)) (p : Nat) : Int :=
  match (upto 16).findSome? fun d =>
    match (if d ≤ p then (l[p - d]?).join else none) with
    | some v => some v
    | none => (l[p + d]?).join with
  | some v => v
  | none => 1360

/-- FLASH_TEMP_SAMPLE (R247, R461): the 1 s read of a lane group's 16 sensors, in 1/16 °C. -/
def execFlashTempSample (lg : LgId) (temps : List (Option Int)) (s : State) : Out := keepQueue s <|
  let l := fillFree 16 (fun n => some (Int.ofNat n)) temps s
  done (l.1.modFtl fun t => (upto 16).foldl (fun a p =>
    let k := lg.val * 16 + p
    let v := nearestTemp l.2 p
    let x := tabGet a.tempSum (0, 0) k
    { a with temps := tabSet a.temps 1360 k v, tempSum := tabSet a.tempSum (0, 0) k (x.1 + v, x.2 + 1) }) t)

/-! ### Namespaces (09 R216, R217; 14 R371 to R373) -/

/-- Bands that the usable lane groups form (R249), and LSEG_MAX. -/
def lsegMax (s : State) : Nat :=
  let n := (s.ftl.maps.bands.filter fun e => e.2.st ≠ .gone && lgServes s (bnLg e.1)).length
  n - 1024 - (usableLgs s).foldl (fun a g => a + 7 + (s.lg g).mres) 0

/-- The total of NSEG, and whether a range of segments belongs to no namespace. -/
def nsegTotal (s : State) : Nat := s.ftl.maps.nss.foldl (fun a e => a + e.2.nseg) 0
def rangeFree (s : State) (except lo n : Nat) : Bool :=
  s.ftl.maps.nss.all fun e => e.1 == except || decide (e.2.state = 0) || decide (lo + n ≤ e.2.sbase) || decide (e.2.sbase + e.2.nseg ≤ lo)

/-- The lane groups of a mask are usable and of identical geometry (R248). -/
def maskOk (s : State) (m : BitVec 8) : Bool :=
  let l := (upto 8).filter (inMask m)
  let g0 := geoOfMask s m
  m ≠ 0 && l.all fun g => lgServes s g && ((s.lg g).geo.qlc == g0.qlc) && (s.lg g).geo.planes == g0.planes && (s.lg g).geo.pages == g0.pages

/-- The lowest SBASE that starts `n` free segments (R372): 0 or the end of a namespace. -/
def lowestBase (s : State) (n : Nat) : Option Nat :=
  let cands := 0 :: (s.ftl.maps.nss.map fun e => e.2.sbase + e.2.nseg)
  (cands.filter fun b => rangeFree s 64 b n).foldl (fun a b => match a with
    | none => some b
    | some c => some (min b c)) none

/-- NSCREATE (R372). -/
def execNscreate (x : DictCtx) (nsid : BitVec 8) (nseg : BitVec 32) (lgmask : BitVec 8) (s : State) : Out := keepQueue s <|
  done (dictCommand x 0x4001 0 1 true (fun t =>
    let n := nseg.toNat
    if t.stor.st ≠ 2 then (t, stRefused, [])
    else if t.ftl.nsCmd.isSome then (t, stBusy, [])
    else if 64 ≤ nsid.toNat ∨ (t.ns nsid.toNat).state ≠ 0 ∨ n = 0 ∨ maskOk t lgmask = false then (t, stReserved, [])
    else if min 458752 (lsegMax t) < nsegTotal t + n then (t, stExhausted, [])
    else
      match lowestBase t n with
      | none => (t, stExhausted, [])
      | some b =>
        let k := segBlk (geoOfMask t lgmask)
        let t1 := jotNs nsid.toNat (t.setNs nsid.toNat ⟨1, lgmask, b, n, k⟩)
        (t1, stOK, leBytes 4 b ++ leBytes 8 (n * k))) s)

/-- The commands to a namespace that are admitted now (R373, R217). -/
def nsCmds (s : State) (n : Nat) : List Nat := (s.stor.cmds.filter fun c => c.nsid == n && c.opc != 0).map (·.id)

/-- NSRESIZE (R373): growing is done at once; shrinking ends when the commands already admitted are complete and the segments
cut off are released. -/
def execNsresize (x : DictCtx) (nsid : BitVec 8) (nseg : BitVec 32) (s : State) : Out := keepQueue s <|
  done (settleMedia (dictCommand x 0x4002 0 1 true (fun t =>
    let n := nseg.toNat
    let k := nsid.toNat
    let v := t.ns k
    if t.stor.st ≠ 2 then (t, stRefused, [])
    else if t.ftl.nsCmd.isSome then (t, stBusy, [])
    else if 64 ≤ k ∨ v.state = 0 ∨ v.state = 3 ∨ n = 0 then (t, stReserved, [])
    else if v.nseg < n then
      if v.state = 2 then (t, stRefused, [])
      else if rangeFree t k (v.sbase + v.nseg) (n - v.nseg) = false ∨ min 458752 (lsegMax t) < nsegTotal t + n - v.nseg then (t, stExhausted, [])
      else (jotNs k (t.setNs k { v with nseg := n }), stOK, leBytes 8 (n * v.segblk))
    else
      let t1 := jotNs k (t.setNs k { v with nseg := n })
      if n = v.nseg then (t1, stOK, leBytes 8 (n * v.segblk))
      else (t1.modFtl fun f => { f with nsCmd := some ⟨1, k, some x, v.sbase + n, v.sbase + v.nseg, nsCmds t k⟩ }, stPending, [])) s))

/-- NSDELETE (R217, R371): STATE 3 at once; STATE 0 when the commands admitted before are complete and the segments released. -/
def execNsdelete (x : DictCtx) (nsid : BitVec 8) (s : State) : Out := keepQueue s <|
  done (settleMedia (dictCommand x 0x4003 0 1 true (fun t =>
    let k := nsid.toNat
    let v := t.ns k
    if t.stor.st ≠ 2 then (t, stRefused, [])
    else if t.ftl.nsCmd.isSome then (t, stBusy, [])
    else if 64 ≤ k ∨ v.state = 0 ∨ v.state = 3 then (t, stReserved, [])
    else
      let t1 := jotNs k (t.setNs k { v with state := 3 })
      (t1.modFtl fun f => { f with nsCmd := some ⟨2, k, some x, v.sbase, v.sbase + v.nseg, nsCmds t k⟩ }, stPending, [])) s))

/-! ### Tenant reset by register and by command (12 R316, R317) -/

/-- A write to VEST.TEN.RST (R316, Table 12.8): the TID field takes the written value; GO while BUSY only sets ERR. -/
def wrTenRst (v : Word) (s : State) : State :=
  let t := fld v 0 12
  let s1 := { s with belt := { s.belt with tTid := t } }
  if bit v 63 then
    if s.belt.tBusy then { s with belt := { s.belt with tErr := 1 } } else rechargeOps (tenantReset t s1)
  else s1

/-- TENANT_RESET (R317). -/
def execTenantReset (who : Agent) (v : BitVec 64) (s : State) : Out := keepQueue s <| sentBy who s <| done (wrTenRst v s)

/-- TENRESET (OD 0x5000.01): as GO. -/
def execTenreset (x : DictCtx) (tid : BitVec 16) (s : State) : Out := keepQueue s <|
  done (dictCommand x 0x5000 1 1 true (fun t =>
    if 4096 ≤ tid.toNat then (t, stReserved, [])
    else if t.belt.tBusy then ({ t with belt := { t.belt with tErr := 1 } }, stBusy, [])
    else
      let t1 := rechargeOps <| tenantReset (tid.setWidth 12) { t with belt := { t.belt with tTid := tid.setWidth 12 } }
      (t1, if t1.belt.tBusy then stPending else stOK, [])) s)

/-! ### Checkpoint and journal (11 R287, R288) -/

/-- CHECKPOINT_START (R288). -/
def execCheckpointStart (s : State) : Out := keepQueue s <| if s.stor.st = 2 then done (startCkpt s) else done s

/-- JOURNAL_TIME_RECORD (R287): a TIME record every 60 s. -/
def execJournalTimeRecord (s : State) : Out := keepQueue s <| if s.stor.st = 2 then done (jot (.time (mediaTime s)) (s.modPls fun p => { p with timeAt := s.time })) else done s

/-! ### Registers and objects -/

/-- VEST.MEDIA.LG[g].STAT (Table 10.2). -/
def rdLgStat (s : State) (g : Nat) : Word :=
  let t := s.lg g
  let st := if t.state = 2 ∧ lgExhausted s g then 4 else t.state
  let esc := (s.ftl.maps.bands.filter fun e => e.2.kind = 5 && bnLg e.1 == g).length
  let spareMin := (upto 16).foldl (fun a p => (upto t.geo.dies).foldl (fun a k => min a (dieSpares s (dieKey g p k)).length) a) 65535
  if t.state = 0 then 0
  else cat [at_ 60 (BitVec.ofNat 4 st), at_ 56 (BitVec.ofNat 4 t.cause), at_ 52 (BitVec.ofNat 4 (t.geo.dies - 1)), on 51 t.geo.qlc,
    at_ 32 (BitVec.ofNat 18 ((freeBands s g).length + esc)), at_ 16 (BitVec.ofNat 16 (if t.fmt then spareMin else 0)), at_ 0 (BitVec.ofNat 16 t.grown)]

/-- PMSTRIDE (R250). -/
def pmStride (segblk : Nat) : Nat := (segblk * 4 + 4095) / 4096 * 4096

/-- Sizes of the parts of VEST.MEDIA.REGION (R252): page map, parity buffer, block table, band table. -/
def regionParts (s : State) : List Nat :=
  let l := usableLgs s
  let g0 := (l.map fun g => (s.lg g).geo).foldl (fun a g => if segBlk a < segBlk g then g else a) Geo.none
  let stride := pmStride (segBlk g0)
  let blocks := l.foldl (fun a g => a + 16 * (s.lg g).geo.dies * (s.lg g).geo.blocks) 0
  let bands := l.foldl (fun a g => a + (s.lg g).geo.dies * (s.lg g).geo.blocks) 0
  [1024 * stride, s.ftl.maxopenF * ebu g0 * 4160, blocks * 8, bands * 64]

/-- Addresses of the segment map entry of a segment (R249) and of the page map entry of an offset of a slot (R250), for a
namespace's SEGBLK. -/
def segEntAddr (g : Nat) : Nat := 0x1C00000 + 8 * g
def pmEntAddr (s : State) (segblk j o : Nat) : Nat := s.ftl.rBase.toNat * 2097152 + j * pmStride segblk + 4 * o

/-- OD 0x4281.01 REQSIZE and the offsets OD 0x4281.02 to .06 (R252). -/
def reqSize (s : State) : Nat := ((regionParts s).foldl (· + ·) 67108864 + 2097151) / 2097152 * 2097152
def regionOff (s : State) (i : Nat) : Nat := ((regionParts s).take i).foldl (· + ·) 0

/-- VEST.MEDIA.REGION (Table 10.7). -/
def rdRegion (s : State) : Word := cat [on 63 s.ftl.rLock, at_ 60 s.ftl.rErr, at_ 21 s.ftl.rBase, at_ 5 s.ftl.rSize]
def wrRegion (v : Word) (s : State) : State :=
  if s.ftl.rLock then s
  else
    let b := fld v 21 31
    let z := fld v 5 16
    let f := s.ftl
    if bit v 63 then
      let lo := b.toNat * 2097152
      let err : Nat :=
        if !s.dram.mapLock || !s.dram.pwben then 1
        else if !s.cloak.hemLock || decide (lo < 0x000110000000) || decide (s.cloak.hemAddr.toNat * 2097152 < lo + z.toNat * 2097152) then 2
        else if z.toNat * 2097152 < reqSize s then 3
        else 0
      if err = 0 then { s with ftl := { f with rBase := b, rSize := z, rErr := 0, rLock := true } }
      else { s with ftl := { f with rErr := BitVec.ofNat 3 err } }
    else { s with ftl := { f with rBase := b, rSize := z } }

end Sys2Proof.Machine
end

