-- ==== Sys2Proof/Machine/SleepOps.lean ====
section
/-! DEFINITION. What the power states need of the other blocks: cleaning of caches on entry to SL3 and SL4, idleness of
storage, and the drain that protective actions start. -/

namespace Sys2Proof.Machine

/-- Storage is disabled (Table 14.9, R332): ST is 0x0, 0x7 or a refusal code. -/
def storDisabled (s : State) : Bool :=
  s.stor.st = 0 || s.stor.st = 7 || (decide (3 ≤ s.stor.st.toNat) && decide (s.stor.st.toNat ≤ 6))

/-- Storage counts as enabled for a drain (R282): ST is 0x2, or 0x8 while disabling. -/
def storActive (s : State) : Bool := s.stor.st = 2 || s.stor.st = 8

end Sys2Proof.Machine
end

