-- ==== Sys2Proof/Machine/Hold.lean ====
section
/-! DEFINITION. The holdup bank (11 R279 to R281): usable energy, LOW, the capacitance test, write-through. -/

namespace Sys2Proof.Machine

def State.modHold (s : State) (f : Hold → Hold) : State := { s with hold := f s.hold }

/-! ### Registers (Table 11.2) -/

def rdHoldCfg (s : State) : Word := cat [at_ 40 s.hold.vchg, at_ 28 s.hold.vlo, at_ 16 s.hold.itst, at_ 0 s.hold.phold]
def rdHoldTest (s : State) : Word := cat [at_ 16 s.hold.ttst, at_ 0 s.hold.ereq]
def rdHoldStat (s : State) : Word :=
  let h := s.hold
  cat [on 63 h.valid, on 62 h.busy, on 61 h.low, at_ 58 h.terr, at_ 32 h.cap, at_ 20 h.esr, at_ 0 h.euse]
def rdHoldMeas (s : State) : Word := cat [at_ 32 s.hold.lasttst, at_ 0 s.hold.vnow]

/-- A write of VCHG and VLO as the register would hold them: VLO at or above a nonzero VCHG is a reserved encoding that
leaves both unchanged. -/
def setVchgVlo (vchg vlo : BitVec 12) (h : Hold) : Hold :=
  if vchg ≠ 0 ∧ vchg.toNat ≤ vlo.toNat then h else { h with vchg := vchg, vlo := vlo }

/-- VEST.HOLD.CFG: Quiesce fields, written while storage is disabled. -/
def wrHoldCfg (v : Word) (s : State) : State :=
  if storDisabled s then
    s.modHold fun h => { setVchgVlo (fld v 40 12) (fld v 28 12) h with itst := fld v 16 12, phold := fld v 0 16 }
  else s

/-- VNOW is within 2 % of VCHG (units of 10 mV and of 100 mV). -/
def nearVchg (h : Hold) : Bool :=
  decide (98 * (10 * h.vchg.toNat) ≤ 100 * h.vnow.toNat) && decide (100 * h.vnow.toNat ≤ 102 * (10 * h.vchg.toNat))

/-- HOLD_CHG with no test and no drain (Table 19.8): high while VCHG is nonzero and VNOW below it; once low, high again at
0.99 × VCHG. -/
def chgNormal (h : Hold) : Bool :=
  let t := 10 * h.vchg.toNat
  if h.vchg = 0 ∨ t ≤ h.vnow.toNat then false
  else if h.chgOut then true
  else decide (100 * h.vnow.toNat ≤ 99 * t)

/-- Start a test (R280): step 1 of Table 11.3 when the bank is within 2 % of VCHG, else it waits with HOLD_CHG asserted. -/
def startTest (now : Nat) (h : Hold) : Hold :=
  if nearVchg h then { h with busy := true, waiting := false, step := 1, since := now, chgOut := false }
  else { h with busy := true, waiting := true, step := 0, since := now, chgOut := true }

/-- START (R280): no effect while VCHG = 0 or BUSY = 1. -/
def holdStart (s : State) : State :=
  if s.hold.vchg = 0 ∨ s.hold.busy = true then s else s.modHold (startTest s.time)

/-- VEST.HOLD.TEST: START is Live; TTST and EREQ are Quiesce, with reserved encodings. -/
def wrHoldTest (v : Word) (s : State) : State :=
  let t := fld v 16 8
  let e := fld v 0 16
  let s1 := if storDisabled s then
      s.modHold fun h => { h with
        ttst := if 2 ≤ t.toNat ∧ t.toNat ≤ 100 then t else h.ttst
        ereq := if 100 ≤ e.toNat ∧ e.toNat ≤ 10000 then e else h.ereq }
    else s
  if bit v 63 then holdStart s1 else s1

/-- HOLD_TEST_START (R280): a write of VEST.HOLD.TEST. -/
def execHoldTestStart (who : Agent) (v : BitVec 64) (s : State) : Out := keepQueue s <| sentBy who s <| done (wrHoldTest v s)

/-- HOLD_TEST (OD 0x3302.00): starts a test as START does. -/
def execHoldTest (x : DictCtx) (s : State) : Out := keepQueue s <|
  done (dictCommand x 0x3302 0 1 true (fun t => (holdStart t, stOK, [])) s)

/-- A test may run: no drain, no failed power input, not in PK3 (R280). -/
def testAllowed (s : State) : Bool :=
  decide (s.pls.step = 0) && !s.pins.pwrfailLow && !s.pins.vinLow && !s.pwr.pk3 && !s.pins.inReset

/-- HOLD_TEST_DAILY (R280): 24 h after the last passed test. -/
def execHoldTestDaily (s : State) : Out := keepQueue s <|
  if s.hold.valid && testAllowed s then done (holdStart s) else done s

/-! ### Write-through (R281) -/

/-- Programs of dirty slots owe nothing to the Belt and go ahead of all other media work. -/
def flushSlots (s : State) : State :=
  let isSlot (o : FOp) : Bool := match o.kind with
    | .progSlot _ => true
    | _ => false
  let l := s.ftl.ops
  let ids := (l.filter isSlot).map (·.id)
  { s with
    ftl := { s.ftl with ops := ((l.filter isSlot).map fun o => { o with left := [] }) ++ l.filter fun o => !isSlot o }
    belt := { s.belt with held := s.belt.held.filter fun h => match h.what with
      | .op i => !ids.contains i
      | _ => true } }

/-- WT follows LOW while storage is enabled; on its change to 1 the dirty slots are programmed first (R281). -/
def followLow (s : State) : State :=
  if s.stor.st = 2 then
    let s1 := { s with stor := { s.stor with wt := s.hold.low } }
    if s.hold.low ∧ s.stor.wt = false then fillsToMerges (flushSlots (flushTail s1)) else s1
  else s

/-! ### Test results -/

/-- The HOLDFAIL record (Table 16.4): TERR and the measured CAP. -/
def holdRecord (terr cap : Nat) : Report := mkReport 0x8FFF 0 0x044 false 8 (leBytes 2 terr ++ leBytes 2 cap)

/-- A test fails (R280): CAP and ESR stay, LOW is set, a record is written. The record's CAP is what was measured; with
nothing measured it is a free value. -/
def testFail (terr : Nat) (cap : Option Nat) (s : State) : State :=
  let c := cap.getD (Config.freeNat s.free)
  let s1 := if cap.isSome then s else s.draw
  let s2 := s1.modHold fun h => { h with
    busy := false, waiting := false, step := 0, terr := BitVec.ofNat 3 terr, low := true, tstOut := false }
  followLow (report (holdRecord terr c) (s2.modHold fun h => { h with chgOut := chgNormal h }))

/-- A power failure aborts a test in progress (Table 11.11): TERR 3. -/
def abortTest (s : State) : State := if s.hold.busy then testFail 3 none s else s

/-- HOLD_TEST_CHARGE_TIMEOUT (R280): the bank has not come within 2 % of VCHG in 10 s: TERR 1. -/
def execHoldTestChargeTimeout (s : State) : Out := keepQueue s <|
  if s.hold.busy && s.hold.waiting then done (testFail 1 none s) else done s

/-- Nearest integer of a quotient, a half rounded up. -/
def nearest (num den : Nat) : Nat := (2 * num + den) / (2 * den)

/-- CAP in 10 µF units as a fraction (Table 11.3, step 5): ITST × (TTST − 0.1 ms) ÷ ΔV, with ΔV in µV. -/
def capFrac (itst ttst dv : Nat) : Nat × Nat := (itst * (10 * ttst - 1) * 100000, dv)

/-- ESR in mΩ: (V1 − Va − ITST × 0.1 ms ÷ CAP) ÷ ITST, with voltages in µV; negative values as 0 of an integer. -/
def esrNum (v1 va itst ttst dv : Nat) : Int × Nat :=
  -- ITST × 0.1 ms ÷ CAP = ΔV × 0.1 ÷ (TTST − 0.1) = ΔV ÷ (10 × TTST − 1)
  (((v1 : Int) - va) * (10 * ttst - 1) - dv, (10 * ttst - 1) * (10 * itst))

/-- Step 5 of Table 11.3: CAP and ESR from the three samples; ΔV out of its range fails the test. A result that its field
cannot hold is a free value. -/
def testCompute (vb : Nat) (s : State) : State :=
  let h := s.hold
  let dv := h.va - vb
  let c := capFrac h.itst.toNat h.ttst.toNat dv
  let capV := if dv = 0 then none else some (nearest c.1 c.2)
  let lim := (h.vchg.toNat - h.vlo.toNat) * 50000
  if dv < 50000 ∨ lim < dv then testFail 2 (capV.bind fun v => if v < 65536 then some v else none) s
  else
    let e := esrNum h.v1 h.va h.itst.toNat h.ttst.toNat dv
    let esr := (2 * e.1 + e.2) / (2 * (e.2 : Int))
    let esrOk := decide (e.2 ≠ 0 ∧ 0 ≤ e.1 ∧ esr < 4096)
    let capOk := decide (capV.getD 65536 < 65536)
    let s1 := s.draw.draw
    followLow (s1.modHold fun h =>
      let h1 := { h with
        busy := false, step := 0, terr := 0, valid := true, tstOut := false
        cap := if capOk then BitVec.ofNat 16 (capV.getD 0) else BitVec.ofNat 16 (Config.freeNat s.free)
        esr := if esrOk then BitVec.ofInt 12 esr else BitVec.ofNat 12 (Config.freeNat (s.free + 1))
        lasttst := BitVec.ofNat 32 (s.time / 100000000) }
      { h1 with chgOut := true })

/-- HOLD_TEST_STEP_DONE (Table 11.3): the next step of a test; its operand is the voltage sampled at V1, Va and Vb in µV, or
nothing when the HOLD_V reading is invalid (TERR 4, R460). -/
def execHoldTestStepDone (uv : Option Nat) (s : State) : Out := keepQueue s <|
  if s.hold.busy = false ∨ s.hold.waiting = true then done s
  else
    match uv with
    | none => done (testFail 4 none s)
    | some v =>
      match s.hold.step with
      | 1 => done (s.modHold fun h => { h with step := 2, v1 := v, tstOut := true })
      | 2 => done (s.modHold fun h => { h with step := 3, va := v })
      | 3 => done (testCompute v s)
      | _ => done s

/-! ### The 1 ms update (R279) -/

/-- Usable energy as a fraction in 0.1 J: ½ × CAP × (VNOW² − VEFF²), VEFF = VLO + ESR × PHOLD ÷ VLO; VLO is not 0. -/
def euseFrac (h : Hold) : Int × Nat :=
  let vlo := h.vlo.toNat
  let a : Int := h.vnow.toNat * vlo
  let b : Int := 10 * vlo * vlo + h.esr.toNat * h.phold.toNat
  (h.cap.toNat * (a * a - b * b), 200000000 * vlo * vlo)

/-- EREQX in 0.1 mJ × 1000: the larger of EREQ and PHOLD × 6.6 ms (R279), in thousandths of 0.1 J. -/
def ereqx (h : Hold) : Nat := max (h.ereq.toNat * 1000) (h.phold.toNat * 66)

/-- EUSE as computed: a fraction, or a free value where VLO is 0. -/
def euseNow (free : Nat) (h : Hold) : Int × Nat := if h.vlo = 0 then ((Config.freeNat free : Int), 1) else euseFrac h

/-- The EUSE field: to the nearest 0.1 J; a free value where the field cannot hold it. -/
def euseField (free : Nat) (e : Int × Nat) : BitVec 20 :=
  let n := (2 * e.1 + e.2) / (2 * (e.2 : Int))
  if 0 ≤ n ∧ n < 1048576 then BitVec.ofInt 20 n else BitVec.ofNat 20 (Config.freeNat free)

/-- LOW after an update (R279). -/
def lowNow (e : Int × Nat) (h : Hold) : Bool :=
  if h.vchg = 0 ∨ h.valid = false ∨ e.1 * 1000 < ereqx h * e.2 then true
  else if 105 * (ereqx h * e.2 : Int) ≤ e.1 * 100000 ∧ h.terr = 0 then false
  else h.low

/-- What the update does with a valid reading. -/
def holdUpdate (v : BitVec 16) (s : State) : State :=
  let h0 := { s.hold with vnow := v, vok := true }
  let e := euseNow s.free h0
  let h1 := { h0 with euse := euseField (s.free + 1) e, low := lowNow e h0 }
  let first := decide (h1.first = false ∧ h1.vchg ≠ 0 ∧ nearVchg h1 = true ∧ h1.busy = false) && testAllowed s
  let h2 := if first then startTest s.time { h1 with first := true }
    else if h1.busy && h1.waiting && nearVchg h1 then { h1 with waiting := false, step := 1, since := s.time, chgOut := false, first := true }
    else if !h1.busy && decide (s.pls.step = 0) && !h1.enOut then { h1 with chgOut := chgNormal h1 }
    else h1
  followLow { s.draw.draw with hold := h2 }

/-- HOLD_ENERGY_UPDATE (R279), every 1 ms: VNOW is read; an invalid reading updates nothing, and ends a test with TERR 4. -/
def execHoldEnergyUpdate (vnow : Option (BitVec 16)) (s : State) : Out := keepQueue s <|
  match vnow with
  | none =>
    let s1 := s.modHold fun h => { h with vok := false }
    if s.hold.busy then done (testFail 4 none s1) else done s1
  | some v => done (holdUpdate v s)

end Sys2Proof.Machine
end

