-- ==== Sys2Proof/Machine/Reset.lean ====
section
/-! DEFINITION. Package reset (19 R454, 14 R364, 13 R333): every block outside the AON domain returns to its reset values;
non-volatile contents, the retained slot and the AON registers keep theirs. -/

namespace Sys2Proof.Machine

/-- What survives in the flash media: units, formatted lane groups, failed dies. -/
def ftlNvm (f : Ftl) : Ftl :=
  { Ftl.reset with
    media := f.media, deadDie := f.deadDie
    lgs := f.lgs.filterMap fun e =>
      if e.2.fmt then some (e.1, { LgSt.reset with fmt := true, spareN := e.2.spareN, mres := e.2.mres, geo := e.2.geo }) else none }

/-- The manifest of a drain: one entry per dirty slot that is not superseded (11 R284). -/
def drainMan (p : Pls) : List DrainEnt :=
  (p.slots.filter fun x => !x.super && x.wait.isNone).map fun x => ⟨x.seg, x.off, x.seq, none, x.unrec⟩

/-- The data units of a drain; UNREC where a slot read was uncorrectable (`bad`: slot numbers). -/
def drainData (bad : List Nat) (p : Pls) : List DrainEnt :=
  (p.slots.filter fun x => !x.super && x.wait.isNone).map fun x => ⟨x.seg, x.off, x.seq, some x.data, x.unrec || bad.contains x.id⟩

/-- The first `k` entries with their data, the rest without. -/
def dataUpTo (k : Nat) (l : List DrainEnt) : List DrainEnt := l.take k ++ (l.drop k).map fun e => { e with data := none }

/-- What the drain bands hold when the step that runs is cut off: how much of it was programmed the spec leaves open. -/
def drainCut (n : Nat) (p : Pls) : Option DrainImg :=
  match p.drain with
  | none => none
  | some d =>
    let k := Config.freeNat n
    if p.step = 4 then some { d with man := (drainMan p).take (k % ((drainMan p).length + 1)) }
    else if p.step = 5 then some { d with man := dataUpTo (k % ((drainData [] p).length + 1)) (drainData [] p) }
    else if p.step = 6 then some { d with jrn := p.tail.take (k % (p.tail.length + 1)) }
    else some d

/-- What survives in the system bands: checkpoints, programmed journal records and the drain bands (11 R284, R286). -/
def plsNvm (n : Nat) (p : Pls) : Pls :=
  { Pls.reset with jrn := p.jrn, cks := p.cks, drain := drainCut n p, drainNum := p.drainNum }
/-- What survives in the boot flash and the fuses. -/
def bootNvm (b : Boot) : Boot := { Boot.reset with flash := b.flash, svn := b.svn, epoch := b.epoch }

/-- What survives in the debug port: the TAP, which has its own reset, and an armed Vest self-test (18 R442). -/
def dbgKept (d : Dbg) : Dbg :=
  let b := tabGet d.bist BistSt.reset 12
  { Dbg.reset with
    ir := d.ir
    bsrIn := d.bsrIn
    bsrOut := d.bsrOut
    bypass := d.bypass
    bist := if b.state = 1 then tabSet [] BistSt.reset 12 b else [] }

/-- Package reset asserted. `wdt` and `dfail` say whether a watchdog expiry caused it and whether its drain failed
(Table 3.10). -/
def packageReset (wdt dfail : Bool) (s : State) : State :=
  { State.reset with
    pins := { s.pins with inReset := true }
    pwr := { Pwr.reset with wakesrc := s.pwr.wakesrc, pk3 := s.pwr.pk3, pk3Cause := s.pwr.pk3Cause }
    lace := { s.lace with lacepd := false }
    thm := { Thm.reset with sensors := s.thm.sensors }
    pkt := { Pkt.reset with retained := s.pkt.retained, mir0 := s.pkt.mir0, mir1 := s.pkt.mir1, mseq := s.pkt.mseq }
    cloak := { Cloak.reset with wdtExp := wdt, wdtDfail := dfail }
    ftl := ftlNvm s.ftl
    pls := plsNvm s.free s.pls
    boot := bootNvm s.boot
    dbg := dbgKept s.dbg
    adp := Adp.reset s.pins.straps.t1sNode
    time := s.time
    free := s.free + 1
    answer := s.answer
    pending := s.pending }

/-- Some condition of R454 holds package reset. -/
def resetHeld (s : State) : Bool :=
  s.pins.resetNLow ||
  (s.pins.railBad.any fun r => match r with
    | .vinSlv _ => false
    | _ => true) ||
  !s.pins.oscStable || !s.pins.refclkOk || s.pins.pwrfailLow || s.pins.vinLow || s.pwr.pk3 ||
  (match s.pins.intReset with
    | some t => decide (s.time < t + 100000)
    | none => false)

/-- Assert package reset from inside the package, for at least 1 ms (R454). -/
def internalReset (wdt dfail : Bool) (s : State) : State :=
  let s1 := packageReset wdt dfail s
  { s1 with pins := { s1.pins with intReset := some s.time } }

/-- Enter PK3 (R333): package reset is asserted and held. Cause 1 is a power-off request, 2 a thermal shutdown, 3 a power
failure. -/
def enterPk3 (cause : Nat) (s : State) : State :=
  let s1 := if cause = 2 then internalReset false false s else packageReset false false s
  { s1 with pwr := { s1.pwr with pk3 := true, pk3Cause := cause } }

/-- Write VEST.PWR.WAKESRC (Table 13.5). -/
def setWakesrc (left sleeve core src : Nat) (s : State) : State :=
  let w := cat [at_ 32 (BitVec.ofNat 32 (s.time / 1024)), at_ 28 (BitVec.ofNat 4 left), at_ 16 (BitVec.ofNat 4 sleeve),
    at_ 8 (BitVec.ofNat 8 core), at_ 0 (BitVec.ofNat 8 src)]
  { s with pwr := { s.pwr with wakesrc := w } }

/-- The highest of a list of readings. -/
def maxReading : List Int → Int
  | [] => 0
  | a :: r => r.foldl max a

/-- Leave PK3 (R333): after a thermal shutdown only once TJ is below 80 °C. The held package reset can then end. -/
def leavePk3 (src : Nat) (s : State) : State :=
  if s.pwr.pk3 = false then s
  else if s.pwr.pk3Cause = 2 ∧ 80000 ≤ maxReading s.thm.sensors then s
  else
    let s1 := setWakesrc 7 0xF 0xFF src s
    { s1 with pwr := { s1.pwr with pk3 := false }, pins := { s1.pins with evPk3 := true } }

end Sys2Proof.Machine
end

