-- ==== Sys2Proof/Machine/Retain.lean ====
section
/-! DEFINITION. What power states do to caches, DRAM channels and root ports (13 Tables 13.3, 13.8). -/

namespace Sys2Proof.Machine

/-- The core's caches are cleaned and invalidated into the sleeve cache: the L1D first, then the L2, then the L1I. -/
def emptyCore (core : Nat) (s : State) : State :=
  let ways := l2Ways s (4 * core)
  let mask := l3Mask s (4 * core)
  let s1 := (s.core core).l1d.ents.foldl (fun a e => l1dEvict core ways mask e.2 a) s
  let s2 := (s1.core core).l2.ents.foldl (fun a e => l2Evict core mask e.2 a) s1
  let s3 := (s2.core core).l1i.ents.foldl (fun a e =>
    l1Gone core mask e.2 (a.modCore core fun k => { k with l1i := cDel k.l1i 4 (l1iT e.2.line) e.2.line })) s2
  s3.setCore core Core.reset

/-- The structures of a hart outside the retention island are lost. -/
def loseHart (x : Hart) : Hart := { x with itlb := [], dtlb := [], ras := [], hist := 0, specFill := [] }

/-- SL3: the cores of a Sleeve are emptied, and only hart state is retained. -/
def retainSl3 (k : Nat) (s : State) : State :=
  let s1 := ((upto 20).map (20 * k + ·)).foldl (fun a c => emptyCore c a) s
  (upto 80).foldl (fun a i => a.modHart (80 * k + i) loseHart) s1

/-- SL4: the sleeve cache too is cleaned to the homes and invalidated. -/
def retainSl4 (k : Nat) (s : State) : State :=
  let s1 := retainSl3 k s
  (s1.slv k).l3.ents.foldl (fun a e => l3Evict k e.2 a) s1

/-- A DRAM channel is powered off: its contents are lost; its counters stay, and a failed channel stays failed (R189). -/
def chanOff (n : Nat) (s : State) : State :=
  let inCh (a : Nat) : Bool := match dramLoc s a with
    | some (c, _) => c == n && regionOf s a == .dram
    | none => false
  let c := s.chan n
  let s1 := s.setChan n { Chan.reset with
    state := if c.state = 4 then 4 else 0
    cause := c.cause
    dpc := c.dpc
    nref := c.nref
    uecnt := c.uecnt
    cecnt := c.cecnt
    ceBase := c.ceBase
    eaV := c.eaV
    eaUe := c.eaUe
    eaLine := c.eaLine }
  s1.modDram fun d => { d with mem := d.mem.filter fun e => !inCh e.1, poison := d.poison.filter fun e => !inCh (64 * e.1) }

/-- A DRAM channel is powered up after a power-off: a new bring-up from step 2 (R188). -/
def chanUp (n : Nat) (s : State) : State :=
  if (s.chan n).dpc = 0 ∨ (s.chan n).state = 4 then s else s.modChan n fun c => { c with state := 1, step := 2, attempt := 1 }

/-- A root port is powered off: its links go down and hart reads outstanding fault (Table 17.8); CXL memory behind them is isolated
(R213). -/
def portOff (p : Nat) (s : State) : State :=
  (upto 4).foldl (fun a l =>
    let t := 4 * p + l
    let b := if (a.link t).up && cxlLink a t then isolate t 1 a else a
    failWaits p l (b.modLink t fun k => { PLink.reset with ctocnt := k.ctocnt, dpc := k.dpc })) s

/-- A root port is powered up: Static values come into force at its reset (R416). -/
def portUp (p : Nat) (s : State) : State := s.modPort p fun x => { x with cxlenF := x.cxlen, rateF := x.rate, bifurF := x.bifur }

end Sys2Proof.Machine
end

