-- ==== Sys2Proof/Machine/Power.lean ====
section
/-! DEFINITION. Performance levels, the power limiter, sleep states and wake, clock and power requests (13 R323 to R333). -/

namespace Sys2Proof.Machine

/-- LIM of a Sleeve (R324): the lowest of TPL, PWC and HSC. -/
def plLim (s : State) (k : Nat) : Nat := min s.thm.tpl.toNat (min (s.slvPwr k).pwc.toNat (s.slvPwr k).hsc.toNat)

/-- The level a Sleeve moves toward: the lower of REQ and LIM. -/
def plTarget (s : State) (k : Nat) : Nat := min (s.slvPwr k).req.toNat (plLim s k)

/-- Start a transition when the level in force differs from the target and none is under way (R324). -/
def plApply (k : Nat) (s : State) : State :=
  let v := s.slvPwr k
  if v.busy = false ∧ v.cur.toNat ≠ plTarget s k then
    s.setSlvPwr k { v with busy := true, target := BitVec.ofNat 3 (plTarget s k) }
  else s

/-- After a change of TPL: every present Sleeve. -/
def plApplyAll (s : State) : State := ((upto 12).filter (slvPresent s)).foldl (fun a k => plApply k a) s

/-- VEST.PWR.SLV[s].PL (Table 13.2). -/
def rdPl (s : State) (k : Nat) : Word :=
  let v := s.slvPwr k
  cat [on 23 (decide (45000 < s.thm.tin) && !s.thm.tinBad), on 22 (decide (v.hsc ≠ 7)), on 21 (decide (v.pwc ≠ 7)),
    on 20 (decide (s.thm.tpl ≠ 7)), at_ 16 (BitVec.ofNat 3 (plLim s k)), on 11 v.busy, at_ 8 v.cur, at_ 0 v.req]

/-- PL_TRANSITION_DONE (R324, Table 13.13): CUR takes the new value; a target written meanwhile then applies, with BUSY
still 1. -/
def execPlTransitionDone (k : SleeveId) (s : State) : Out := keepQueue s <|
  let v := s.slvPwr k
  if v.busy = false then done s
  else done (plApply k (s.setSlvPwr k { v with cur := v.target, busy := false }))

/-- The Sleeve the power limiter lowers (R325): the highest CUR, the lowest number on a tie; a Sleeve with PWC 0 is passed
over. -/
def limiterPick (s : State) : Option Nat :=
  (upto 12).foldl (fun a k =>
    if slvPresent s k && decide ((s.slvPwr k).pwc ≠ 0) then
      match a with
      | none => some k
      | some j => if (s.slvPwr j).cur.toNat < (s.slvPwr k).cur.toNat then some k else a
    else a) none

/-- POWER_LIMITER_TICK (R325): the 1 ms comparison; `meas` is the 10 ms mean input power. A raise needs comparisons below
0.95 LIMIT over 10 ms from the first, then over each further 10 ms. DEDUCED (log 20). -/
def execPowerLimiterTick (meas : BitVec 10) (s : State) : Out := keepQueue s <|
  let s0 := { s with pwr := { s.pwr with meas := meas } }
  if s.pwr.limit.toNat < meas.toNat then
    let s1 := { s0 with pwr := { s0.pwr with belowCnt := 0 } }
    match limiterPick s1 with
    | none => done s1
    | some k =>
      let s2 := s1.modSlvPwr k fun v => { v with pwc := v.pwc - 1 }
      done (plApply k { s2 with pwr := { s2.pwr with lowered := k :: s2.pwr.lowered.filter (· ≠ k) } })
  else if meas.toNat * 100 < s.pwr.limit.toNat * 95 then
    let n := s.pwr.belowCnt + 1
    let s1 := { s0 with pwr := { s0.pwr with belowCnt := if 11 ≤ n then 1 else n } }
    if 11 ≤ n then
      match s1.pwr.lowered.find? fun k => decide ((s1.slvPwr k).pwc ≠ 7) with
      | none => done s1
      | some k => done (plApply k (s1.modSlvPwr k fun v => { v with pwc := v.pwc + 1 }))
    else done s1
  else done { s0 with pwr := { s0.pwr with belowCnt := 0 } }

/-- VEST.PWR.PKG, SLCFG and STATE (Table 13.2). -/
def rdPwrPkg (s : State) : Word := cat [at_ 32 s.pwr.meas, at_ 0 s.pwr.limit]
def wrPwrPkg (v : Word) (s : State) : State :=
  let n := fld v 0 10
  if 450 ≤ n.toNat ∧ n.toNat ≤ 750 then { s with pwr := { s.pwr with limit := n } } else s
def rdSlcfg (s : State) : Word := cat [at_ 16 s.pwr.guard_, at_ 4 s.pwr.pkmax, at_ 0 s.pwr.slmax]
def wrSlcfg (v : Word) (s : State) : State :=
  let p := s.pwr
  let g := fld v 16 16
  let k := fld v 4 2
  let m := fld v 0 3
  let mOk := decide (m.toNat ≤ 3) || (decide (m = 4) && featOn s 4)
  { s with pwr := { p with
      guard_ := if g.toNat ≤ 10000 then g else p.guard_
      pkmax := if k = 3 then p.pkmax else k
      slmax := if mOk then m else p.slmax } }
def rdPwrState (s : State) : Word :=
  let one (k : Nat) : Word :=
    let e := exclOf s k
    at_ (4 * k) (if e ≠ 0 ∧ e ≠ 0xF then 0xF#4 else BitVec.ofNat 4 (s.slvPwr k).sl)
  cat (at_ 48 (BitVec.ofNat 4 s.pwr.pk) :: (upto 12).map one)

/-! ### Sleep states (R326 to R331) -/

/-- The harts of core `c`. -/
def coreHarts (c : Nat) : List Nat := (upto 4).map (4 * c + ·)

/-- The present cores of a Sleeve. -/
def sleeveCores (s : State) (k : Nat) : List Nat := ((upto 20).map (20 * k + ·)).filter (corePresent s)

/-- Present Sleeves. -/
def presentSleeves (s : State) : List Nat := (upto 12).filter (slvPresent s)

/-- Sleep state of a core. -/
def coreSl (s : State) (c : Nat) : Nat := tabGet s.pwr.coreSl 0 c

/-- No store command is admitted, no merge runs, no media operation is under way (Table 13.3, PK1), and no slot is dirty
(PK2). -/
def mediaIdle (s : State) : Bool :=
  decide (s.stor.cmds = []) && decide (s.ftl.ops = []) && !(s.ftl.maps.descs.any fun d => d.run)
def noDirty (s : State) : Bool := decide (s.pls.slots = [])
/-- Every root port link is in L1 or down (PK1): a link is in L1 while no request waits at its port and none is held. -/
def linksIdle (s : State) : Bool := (upto 6).all fun p => decide ((s.port p).wait = []) && !(s.fab.held.any fun e => e.pt == 240 + p)

/-- The claims that have an effect: not that of a DRAM channel that is empty or failed (R189). -/
def claimsOn (s : State) : BitVec 40 :=
  (upto 12).foldl (fun c n => if (s.chan n).state = 0 ∨ (s.chan n).state = 4 then setBit c (12 + n) false else c) s.cloak.claim

/-- A claim is held on block `b`. -/
def claimed (s : State) (b : Nat) : Bool := (claimsOn s).getLsbD b

/-- The entry condition of a state for a scope (Table 13.3, R326). States are numbered as in WAKESRC.LEFT. -/
def entryOk (s : State) (sc : Scope) (st : Nat) : Bool :=
  match sc, st with
  | .core c, 1 => (coreHarts c).all fun h => (s.hart h).wfi || ((s.hart h).halted && !(s.hart h).prog)
  | .core c, 2 => (coreHarts c).all fun h => (s.hart h).wfi
  | .sleeve k, 3 => slvPresent s k && (sleeveCores s k).all fun c => coreSl s c == 2
  | .sleeve k, 4 =>
    slvPresent s k && (sleeveCores s k).all (fun c => coreSl s c == 2) && !claimed s k && decide ((s.slv k).count = 0) && featOn s 4
  | .package, 5 => (presentSleeves s).all (fun k => decide (3 ≤ (s.slvPwr k).sl)) && mediaIdle s && linksIdle s
  | .package, 6 => (presentSleeves s).all (fun k => decide (3 ≤ (s.slvPwr k).sl)) && mediaIdle s && linksIdle s && noDirty s
  | _, _ => false

/-- Entry and wake bounds of Table 13.3, in 10 ns counts. -/
def entryBound : Nat → Nat
  | 1 => 1 | 2 => 100 | 3 => 25000 | 4 => 200000 | 5 => 200 | 6 => 1000 | _ => 0
def wakeBound : Nat → Nat
  | 1 => 1 | 2 => 30 | 3 => 2500 | 4 => 150000 | 5 => 100 | 6 => 2000 | _ => 0

/-- The wake bound used for a state of a scope (R328): a package state adds the deepest state of any present Sleeve. -/
def wakeBoundOf (s : State) (sc : Scope) (st : Nat) : Nat :=
  match sc with
  | .package => wakeBound st + (presentSleeves s).foldl (fun a k => max a (wakeBound (s.slvPwr k).sl)) 0
  | _ => wakeBound st

/-- Harts of a scope. -/
def scopeHarts (s : State) : Scope → List Nat
  | .core c => coreHarts c
  | .sleeve k => (upto 80).map (80 * k + ·)
  | .package => presentHarts s

/-- Timer compares of a scope that lie in the future (R327). -/
def timerEvents (s : State) (sc : Scope) : List Nat :=
  (scopeHarts s sc).filterMap fun h =>
    let t := (tabGet s.mtimecmp (BitVec.allOnes 64) h).toNat
    if s.time < t then some t else none

/-- The watchdog warning point (R80), when it lies in the future. -/
def wdtWarnAt (s : State) : Option Nat :=
  if s.cloak.wdtEn && !s.cloak.wdtWarn then some (s.cloak.wdtFrom + s.cloak.wdtTmo.toNat * 87500) else none

/-- The next capacitance test (R280): 24 h after the last passed test. -/
def holdTestAt (s : State) : Option Nat :=
  if s.hold.valid && decide (s.hold.vchg ≠ 0) then some ((s.hold.lasttst.toNat + 86400) * 100000000) else none

/-- Known events of the storage side (R327): coalescing deadlines, media maintenance, Belt boundaries with held items:
times with their wake source codes. -/
def storEvents (s : State) : List (Nat × Nat) :=
  let coal := s.stor.pairs.filterMap fun e =>
    if e.2.intEn && decide (e.2.pend ≠ 0) then some (e.2.oldest + e.2.tmo.toNat * 10, 5) else none
  let media := if s.stor.st = 2 then
      [(s.pls.ckAt + 3000000000, 4), (s.pls.timeAt + 6000000000, 4), (s.ftl.ageAt + 360000000000, 4),
        (s.ftl.decayAt + s.ftl.obj.decay * 360000000000, 4)] ++
      s.ftl.maps.descs.filterMap fun d => if d.fill && !d.run then some (d.lastW + s.ftl.obj.fillIdle * 100000, 4) else none
    else []
  let belt := (upto 6).filterMap fun c =>
    let v := (tabFind c s.belt.cls).getD (BCls.reset c)
    if (s.belt.held.any fun h => ((tabFind h.act s.belt.acts).getD (Act.reset h.act)).cls.toNat == c) || (c == 0 && !s.fab.held.isEmpty) then
      some (v.lastB + v.periodF.toNat * 100, 3) else none
  coal ++ (media ++ belt).filter fun e => decide (s.time < e.1)

/-- The known events that concern a scope: time and wake source code (R327, Table 13.5). -/
def knownEvents (s : State) (sc : Scope) : List (Nat × Nat) :=
  (timerEvents s sc).map (fun t => (t, 1)) ++
    (match sc with
      | .package => (wdtWarnAt s).toList.map (fun t => (t, 0xB)) ++
          ((holdTestAt s).toList.filter fun t => decide (s.time < t)).map (fun t => (t, 0xC)) ++ storEvents s
      | _ => [])

/-- The earliest known event, with the lowest code among those that fall together. -/
def nextEvent (s : State) (sc : Scope) : Option (Nat × Nat) :=
  (knownEvents s sc).foldl (fun a e =>
    match a with
    | none => some e
    | some b => if e.1 < b.1 ∨ (e.1 = b.1 ∧ e.2 < b.2) then some e else some b) none

/-- A state fits before the next known event (R328). -/
def stateFits (s : State) (sc : Scope) (st : Nat) : Bool :=
  match nextEvent s sc with
  | none => true
  | some e => decide (entryBound st + wakeBoundOf s sc st + s.pwr.guard_.toNat * 100 ≤ e.1 - s.time)

/-- The states of a scope, deepest first, within SLMAX or PKMAX. -/
def stateList (s : State) : Scope → List Nat
  | .core _ => [2, 1].filter fun st => decide (st ≤ s.pwr.slmax.toNat)
  | .sleeve _ => [4, 3].filter fun st => decide (st ≤ s.pwr.slmax.toNat)
  | .package => [6, 5].filter fun st => decide (st ≤ 4 + s.pwr.pkmax.toNat)

/-- The state a scope holds now. -/
def stateOf (s : State) : Scope → Nat
  | .core c => coreSl s c
  | .sleeve k => (s.slvPwr k).sl
  | .package => if s.pwr.pk = 0 then 0 else 4 + s.pwr.pk

/-- Set the state of a scope. -/
def setStateOf (sc : Scope) (st : Nat) (s : State) : State :=
  match sc with
  | .core c => { s with pwr := { s.pwr with coreSl := tabSet s.pwr.coreSl 0 c st } }
  | .sleeve k => s.modSlvPwr k fun v => { v with sl := st }
  | .package => { s with pwr := { s.pwr with pk := st - 4 } }

/-- An entry or a wake of the scope is under way. -/
def opOn (sc : Scope) (l : List SleepOp) : Bool := l.any fun o => o.scope = sc

/-- SLEEP_ENTER (R328): the deepest state that the scope may enter and that fits before its next known event. -/
def execSleepEnter (sc : Scope) (s : State) : Out := keepQueue s <|
  if opOn sc s.pwr.entering || opOn sc s.pwr.waking then done s
  else
    match (stateList s sc).find? fun st => entryOk s sc st && stateFits s sc st && decide (stateOf s sc < st) with
    | none => done s
    | some st => done { s with pwr := { s.pwr with entering := s.pwr.entering ++ [⟨sc, st, 0, 0⟩] } }

/-- What entering a state does to the caches, the Cuff and the memory (Table 13.3). -/
def enterEffect (sc : Scope) (st : Nat) (s : State) : State :=
  match sc with
  | .sleeve k => (if st = 4 then retainSl4 k s else retainSl3 k s).modCuff k fun c => { c with lpow := if st = 4 then 2 else 1 }
  | _ => s

/-- A Cuff with unacknowledged data flits holds its Sleeve's entry (Table 7.14). -/
def unacked (s : State) : Scope → Bool
  | .sleeve k => decide ((s.cuff k).vest.replay ≠ [] ∨ (s.cuff k).sleeve.replay ≠ [])
  | _ => false

/-- SLEEP_ENTRY_DONE (R326): an entry is complete; that of a Sleeve waits until every data flit sent is acknowledged (Table 7.14). -/
def execSleepEntryDone (sc : Scope) (s : State) : Out := keepQueue s <|
  match s.pwr.entering.find? fun o => o.scope = sc with
  | none => done s
  | some o => if unacked s sc then done s else
    let s1 := { s with pwr := { s.pwr with entering := s.pwr.entering.filter fun o => o.scope ≠ sc } }
    done (enterEffect sc o.state (setStateOf sc o.state s1))

/-- Record a wake from SL3, SL4 or a PK state (R331). -/
def recordWake (sc : Scope) (st src : Nat) (s : State) : State :=
  match sc with
  | .core _ => s
  | .sleeve k => setWakesrc st k 0xFF src s
  | .package => setWakesrc st 0xF 0xFF src s

/-- A wake source that needs the slices of a Sleeve but not its harts (R329): a snoop or a scratch access to a Sleeve in SL3. -/
def sliceWake (sc : Scope) (st src : Nat) : Bool :=
  match sc with
  | .sleeve _ => decide (st = 3) && decide (src = 6)
  | _ => false

/-- The state a wake of the scope leaves: the one being entered, else the one it rests in (R328). -/
def leavingState (s : State) (sc : Scope) : Nat :=
  match s.pwr.entering.find? fun o => o.scope = sc with
  | some o => o.state
  | none => stateOf s sc

/-- A Sleeve held by a request stays until a power-up (Table 13.8). -/
def heldScope (s : State) : Scope → Bool
  | .sleeve k => (s.slvPwr k).slHeld
  | _ => false

/-- The wake of the scope under way brings back only the slices. -/
def sliceWaking (s : State) (sc : Scope) : Bool := s.pwr.waking.any fun o => o.scope = sc && sliceWake sc o.state o.src.toNat

/-- Start the wake of one scope (R328 to R331). An entry under way is abandoned, and the bound of the state being entered
applies. A Sleeve held by a request wakes its slices only; a wake of the slices gives way to one of the Sleeve. -/
def wakeScope (sc : Scope) (src : Nat) (s : State) : State :=
  let st := leavingState s sc
  if st = 0 || (heldScope s sc && !sliceWake sc st src) || (opOn sc s.pwr.waking && (!sliceWaking s sc || sliceWake sc st src)) then s
  else
    let s1 := { s with pwr := { s.pwr with
      entering := s.pwr.entering.filter fun o => o.scope ≠ sc
      waking := (s.pwr.waking.filter fun o => o.scope ≠ sc) ++ [⟨sc, st, 1, BitVec.ofNat 8 src⟩] } }
    recordWake sc st src s1

/-- The scope that wakes: a core of a Sleeve that enters, holds or leaves SL3 or SL4 wakes with its Sleeve. -/
def wakeTarget (s : State) : Scope → Scope
  | .core c =>
    let k : SleeveId := Fin.ofNat 12 (c.val / 20)
    if leavingState s (.sleeve k) = 0 then .core c else .sleeve k
  | sc => sc

/-- A wake source reaches a scope (R329, R330): a package that sleeps wakes before the core or Sleeve. -/
def startWake (sc : Scope) (src : Nat) (s : State) : State :=
  match wakeTarget s sc with
  | .package => wakeScope .package src s
  | t => if leavingState s t = 0 then s else wakeScope t src (wakeScope .package src s)

/-- KNOWN_EVENT_WAKE (R328): the wake for the earliest known event starts. -/
def execKnownEventWake (sc : Scope) (s : State) : Out := keepQueue s <|
  match nextEvent s sc with
  | none => done s
  | some e => done (startWake sc e.2 s)

/-- WAKE_SOURCE (R329): a source that is not a known event. -/
def execWakeSource (sc : Scope) (src : BitVec 8) (s : State) : Out := keepQueue s <| done (startWake sc src.toNat s)

/-- The end of a wake (R330): the scope is active; after SL4 the timebase copy has been reloaded (R185). -/
def wakeFull (o : SleepOp) (s : State) : State :=
  let s0 := setStateOf o.scope (match o.scope with
    | .package => 4
    | _ => 0) s
  let s1 := match o.scope with
    | .core c => (coreHarts c).foldl (fun a h => haltIfPending h a) s0
    | .sleeve k => (upto 80).foldl (fun a i => haltIfPending (80 * k + i) a) s0
    | .package => (upto 12).foldl (fun a n => serveAll n 128 a) s0
  match o.scope with
  | .sleeve k =>
    let s2 := s1.modCuff k fun c => { (if o.state = 4 then loadTime s.time c else c) with lpow := 0 }
    { s2 with pwr := { s2.pwr with coreSl := s2.pwr.coreSl.filter fun e => e.1 / 20 ≠ k } }
  | _ => s1

/-- The end of a wake; after a wake of the slices alone the Sleeve returns to SL3 and its Cuff to L1 (R329). -/
def wakeDone (o : SleepOp) (s : State) : State :=
  match o.scope with
  | .sleeve k => if sliceWake o.scope o.state o.src.toNat then s.modCuff k fun c => { c with lpow := 1 } else wakeFull o s
  | _ => wakeFull o s

/-- A Cuff leaves L2: the training sequence is repeated from step 2 (Table 7.10); when it fails, the main band is lost. -/
def leaveL2 (k : Nat) (s : State) : State := (trainStart k 2 1 true s).modCuff k fun c => { c with state := 1 }

/-- A Cuff trains: it is in a step of Table 7.11. -/
def cuffTrains (s : State) (k : Nat) : Bool := decide ((s.cuff k).step ≠ 0)

/-- A wake step is ready and the next one starts; the second step of a Sleeve takes its Cuff out of L1, or trains it out of L2
(Table 13.4). -/
def wakeStep (o : SleepOp) (s : State) : State :=
  let s1 := { s with pwr := { s.pwr with
    waking := (s.pwr.waking.filter fun q => q.scope ≠ o.scope) ++ [{ o with step := o.step + 1 }] } }
  match o.scope with
  | .sleeve k =>
    if o.step = 1 ∧ (s.cuff k).lpow = 2 then leaveL2 k s1
    else if o.step = 2 then s1.modCuff k fun c => { c with lpow := 0 }
    else s1
  | _ => s1

/-- The ready signal of the running step can not come yet: the Cuff is still training (Table 13.4, SL4 step 2). -/
def stepWaits (o : SleepOp) (s : State) : Bool :=
  match o.scope with
  | .sleeve k => decide (o.step = 2) && cuffTrains s k
  | _ => false

/-- The steps of a package wake come before those of a core's or Sleeve's (R330). -/
def packageFirst (s : State) : Scope → Bool
  | .package => false
  | _ => decide (s.pwr.pk ≠ 0) || opOn .package s.pwr.waking

/-- WAKE_STEP_READY (R330, Table 13.4): the ready signal of the running step; after the fourth the scope is awake. -/
def execWakeStepReady (sc : Scope) (s : State) : Out := keepQueue s <|
  match s.pwr.waking.find? fun o => o.scope = sc with
  | none => done s
  | some o =>
    if packageFirst s sc || stepWaits o s then done s
    else if o.step < 4 then done (wakeStep o s)
    else done (wakeDone o { s with pwr := { s.pwr with waking := s.pwr.waking.filter fun o => o.scope ≠ sc } })

/-! ### Clock and power requests (R332, R82 to R84) -/

/-- State of a power block: 0 running, 1 clock stopped, 2 powered off. -/
def blockState (s : State) (b : Nat) : Nat := tabGet s.pwr.blocks 0 b

/-- The operation is named for the target in Table 13.8, and its feature is available (R23). -/
def opNamed (s : State) (op b : Nat) : Bool :=
  if b = 33 then false
  else if b = 32 then decide (op ≠ 2)
  else if b < 12 then decide (op ≠ 2) || featOn s 4
  else true

/-- Flash lane group `g` is unusable: its STATE is not one in which it serves (Table 10.2: 2 usable,
4 exhausted). -/
def lgUnusable (s : State) (g : Nat) : Bool := decide ((tabGet s.ftl.lgs LgSt.reset g).state ≠ 2) && decide ((tabGet s.ftl.lgs LgSt.reset g).state ≠ 4)

/-- The condition under which Table 13.8 permits an operation. Channels 0 and 1 stay up during a drain (R196): their stop is refused
(DESIGN CHOICE, log 147). -/
def opCond (s : State) (op b : Nat) : Bool :=
  if op = 0 then true
  else if b < 12 then decide (op = 1) || decide ((s.slv b).count = 0)
  else if b < 14 ∧ s.pls.step ≠ 0 then false
  else if b < 24 then decide (op = 1) || !s.dram.mapLock || !s.dram.chmask.getLsbD (b - 12)
  else if b < 32 then storDisabled s || lgUnusable s (b - 24)
  else if b = 32 then storDisabled s
  else true

/-- A request comes from the normal world. -/
def reqNormal (s : State) : Requester → Bool
  | .register a => !agentSecure s a
  | _ => true

/-- The requester byte of a CLAIMREF record. -/
def reqCode : Requester → Nat
  | .register _ => 0
  | .dictionary => 1
  | .lace => 2

/-- A write to VEST.PWR.SLV[s].PL (Table 13.2): REQ alone. A deferred request on the Sleeve ends WITHDRAWN (Table 3.14). -/
def wrPl (k : Nat) (v : Word) (s : State) : State := plApply k ((withdraw k s).modSlvPwr k fun p => { p with req := fld v 0 3 })

/-- PL_REQ_WRITE (R324). -/
def execPlReqWrite (who : Agent) (k : SleeveId) (v : BitVec 64) (s : State) : Out := keepQueue s <| sentBy who s <| done (wrPl k v s)

/-- Let a request proceed (R332 rule 5). An earlier operation on the same block is replaced and ends WITHDRAWN. -/
def proceed (o : PwrOp) (s : State) : State :=
  let old := s.pwr.ops.filter fun q => q.block = o.block
  let s1 := old.foldl (fun a q => endReq q ocWithdrawn a) s
  let s2 := { s1 with pwr := { s1.pwr with ops := s1.pwr.ops.filter (fun q => q.block ≠ o.block) ++ [o] } }
  setReqstat true o.block.val ocDone s2

/-- The wake source of a request (Table 13.5). -/
def reqSrc : Requester → Nat
  | .register _ => 0xA
  | .dictionary => 9
  | .lace => 8

/-- The block runs: its clock is not stopped, it is not off, no operation on it is in progress, and a Sleeve is awake. -/
def blockAwake (s : State) (b : BlockId) : Bool :=
  decide (blockState s b.val = 0) && !(s.pwr.ops.any fun q => q.block = b) && (decide (12 ≤ b.val) || decide ((s.slvPwr b.val).sl = 0))

/-- A power-up that proceeds starts the wake of a Sleeve, which is recorded (R331). -/
def powerUp (o : PwrOp) (s : State) : State :=
  let st := (s.slvPwr o.block.val).sl
  let s1 := proceed o s
  if o.block.val < 12 ∧ st ≠ 0 then
    setWakesrc st o.block.val 0xFF (reqSrc o.who) (if (s.cuff o.block.val).lpow = 2 then leaveL2 o.block.val s1 else s1)
  else s1

/-- Only the secure world's power-up restores a block that was claimed while its stop was in progress (Table 3.14). -/
def secOnly (s : State) (b : Nat) (who : Requester) : Bool := reqNormal s who && claimed s b && s.pwr.secHeld.getLsbD b

/-- A clock or power request (R332): its state, and its outcome, `none` for a reserved encoding. -/
def powerRequest (op : Nat) (b : BlockId) (who : Requester) (ctx : Option DictCtx) (s : State) : State × Option Nat :=
  let o : PwrOp := ⟨b, op, who, ctx, s.time⟩
  let final (oc : Nat) : State × Option Nat := (setReqstat false b.val oc s, some oc)
  if !opNamed s op b.val then (s, none)
  else if s.thm.shut ≠ 0 then final ocBusy
  else if b.val < 12 ∧ exclOf s b.val ≠ 0 ∧ exclOf s b.val ≠ 0xF then final ocRefused
  else if !opCond s op b.val then final ocRefused
  else if op = 0 then
    if secOnly s b.val who then final ocRefused
    else
      let s1 := withdraw b.val s
      if blockAwake s1 b then (setReqstat false b.val ocDone s1, some ocDone)
      else (powerUp o s1, some ocDeferred)
  else if blockState s b.val = op ∨ blockState s b.val = 2 then final ocDone
  else if reqNormal s who && claimed s b.val then
    if s.pwr.deferred.any fun q => q.block = b then final ocBusy
    else
      let s1 := { s with pwr := { s.pwr with deferred := s.pwr.deferred ++ [o] } }
      (setReqstat true b.val ocDeferred s1, some ocDeferred)
  else (proceed o s, some ocDeferred)

/-- POWER_UP, CLOCK_STOP and POWER_OFF (R332): a request with OP 0, 1 or 2 from a register write, the dictionary or the
Lace port. -/
def execPowerUp (who : Requester) (b : BlockId) (s : State) : Out := keepQueue s <| done (powerRequest 0 b who none s).1
def execClockStop (who : Requester) (b : BlockId) (s : State) : Out := keepQueue s <| done (powerRequest 1 b who none s).1
def execPowerOff (who : Requester) (b : BlockId) (s : State) : Out := keepQueue s <| done (powerRequest 2 b who none s).1

/-- Sleep entries and wakes of a Sleeve and its cores end when an operation brings the Sleeve to its state. -/
def dropSleeps (k : Nat) (s : State) : State :=
  { s with pwr := { s.pwr with
      entering := s.pwr.entering.filter fun o => !inSleeve k o.scope
      waking := s.pwr.waking.filter fun o => !inSleeve k o.scope } }

/-- The effect of an operation on its block (Table 13.8). -/
def opEffect (op b : Nat) (s : State) : State :=
  let s0 := { s with pwr := { s.pwr with
    blocks := tabSet s.pwr.blocks 0 b op
    secHeld := if op = 0 then setBit s.pwr.secHeld b false else s.pwr.secHeld } }
  let s1 := if b < 12 then dropSleeps b s0 else s0
  if b < 12 then
    match op with
    | 0 => wakeFull ⟨.sleeve ⟨b % 12, Nat.mod_lt _ (by decide)⟩, (s1.slvPwr b).sl, 4, 0⟩ (s1.modSlvPwr b fun v => { v with slHeld := false })
    | 1 => enterEffect (.sleeve ⟨b % 12, Nat.mod_lt _ (by decide)⟩) 3 (s1.modSlvPwr b fun v => { v with sl := 3, slHeld := true })
    | _ => enterEffect (.sleeve ⟨b % 12, Nat.mod_lt _ (by decide)⟩) 4 (s1.modSlvPwr b fun v => { v with sl := 4, slHeld := true })
  else if b < 24 then
    if op = 2 then chanOff (b - 12) s1
    else if op = 0 then (if blockState s b = 2 then chanUp (b - 12) s1 else serveAll (b - 12) 128 s1)
    else s1
  else if 34 ≤ b then
    if op = 2 then portOff (b - 34) s1 else if op = 0 ∧ blockState s b = 2 then portUp (b - 34) s1 else s1
  else s1

/-- What an operation still waits for: a drain, which no management request disturbs (R283), and at a Sleeve data flits not
acknowledged (Table 7.14), or the training of its Cuff. -/
def opWaits (o : PwrOp) (s : State) : Bool :=
  let b := o.block.val
  decide (s.pls.step ≠ 0) || decide (b < 12) && if o.op = 0 then cuffTrains s b else decide ((s.cuff b).vest.replay ≠ [] ∨ (s.cuff b).sleeve.replay ≠ [])

/-- POWER_REQ_DONE (R83, R332): the block reaches the requested state; the outcome becomes DONE. -/
def execPowerReqDone (b : BlockId) (s : State) : Out := keepQueue s <|
  match s.pwr.ops.find? fun o => o.block = b with
  | none => done s
  | some o =>
    if opWaits o s then done s else
    let s1 := { s with pwr := { s.pwr with ops := s.pwr.ops.filter fun q => q.block ≠ b } }
    done (endReq o ocDone (opEffect o.op b.val s1))

/-- A write to VEST.PWR.REQ (Table 13.7): GO = 1 issues the request; OP 3 and targets above 39 are reserved. -/
def wrPwrReq (who : Agent) (v : Word) (s : State) : State :=
  let t := (fld v 0 6).toNat
  let op := (fld v 8 2).toNat
  if bit v 63 ∧ op ≠ 3 then
    if h : t < 40 then (powerRequest op ⟨t, h⟩ (.register who) none s).1 else s
  else s

/-- VEST.PWR.REQSTAT (Table 13.7). -/
def rdPwrReqstat (s : State) : Word := cat [on 63 s.pwr.reqBusy, at_ 4 s.pwr.reqTarget, at_ 0 s.pwr.reqOutcome]

/-- PWRREQ (OD 0x3101.00): arguments OP and TARGET, as VEST.PWR.REQ. -/
def execPwrreq (x : DictCtx) (op target : BitVec 8) (s : State) : Out := keepQueue s <|
  done (dictCommand x 0x3101 0 1 true (fun t =>
    if h : target.toNat < 40 then
      if op.toNat < 3 then
        match powerRequest op.toNat ⟨target.toNat, h⟩ .dictionary (some x) t with
        | (t1, some oc) => (t1, outcomeStatus oc, [])
        | (t1, none) => (t1, stReserved, [])
      else (t, stReserved, [])
    else (t, stReserved, [])) s)

/-- A power-off request to the package (R333): refused unless storage is disabled (ST = 0x0); deferred while any block is
claimed; else the package enters PK3. The outcome is a code of Table 3.13. -/
def packageOff (who : Requester) (ctx : Option DictCtx) (s : State) : State × Nat :=
  if s.thm.shut ≠ 0 then (s, ocBusy)
  else if s.stor.st ≠ 0 then (s, ocRefused)
  else if claimsOn s ≠ 0 then
    if s.pwr.offPending.isSome then (s, ocBusy)
    else ({ s with pwr := { s.pwr with offPending := some ⟨0, 2, who, ctx, s.time⟩ } }, ocDeferred)
  else (enterPk3 1 s, ocDone)

/-- PKGOFF (OD 0x3102.00): requests PK3. -/
def execPkgoff (x : DictCtx) (s : State) : Out := keepQueue s <|
  done (dictCommand x 0x3102 0 1 true (fun t =>
    let r := packageOff .dictionary (some x) t
    (r.1, outcomeStatus r.2, [])) s)

/-- MGMT_WAKE_PACKET (R333): the PHY's wake detector ends PK3. -/
def execMgmtWakePacket (s : State) : Out := keepQueue s <| done (leavePk3 9 s)

/-- VEST.PWR.CLAIMSTAT.DEFER (Table 3.12): blocks with a deferred request; a deferred package power-off counts for every
claimed block (R333). -/
def deferMask (s : State) : BitVec 40 :=
  (s.pwr.deferred.foldl (fun a o => setBit a o.block.val true) 0) ||| (if s.pwr.offPending.isSome then claimsOn s else 0)

/-- PRQ to the Cloak processor stays asserted while any DEFER bit is 1 (R83). -/
def prq (s : State) : Bool := decide (deferMask s ≠ 0)

/-- Blocks that only the secure world restores, after a write of CLAIM: a claim set while a stop is in progress joins them, and a
block whose claim is cleared leaves them (Table 3.14). -/
def newlyHeld (s : State) (c : BitVec 40) : BitVec 40 :=
  c &&& (s.pwr.ops.foldl (fun a o => if o.op ≠ 0 ∧ ¬ claimed s o.block.val then setBit a o.block.val true else a) s.pwr.secHeld)

/-- A write to VEST.PWR.CLAIM (R83, R84): a cleared bit lets the block's deferred request proceed; with no claim left a
deferred package power-off proceeds. -/
def wrClaim (v : Word) (s : State) : State :=
  let c := fld v 0 40
  let s1 := { s with
    cloak := { s.cloak with claim := c }
    pwr := { s.pwr with secHeld := newlyHeld s c } }
  let go := s1.pwr.deferred.filter fun o => !c.getLsbD o.block.val
  let s2 := { s1 with pwr := { s1.pwr with deferred := s1.pwr.deferred.filter fun o => c.getLsbD o.block.val } }
  let s3 := go.foldl (fun a o => proceed o a) s2
  match s3.pwr.offPending with
  | some o =>
    if claimsOn s3 = 0 then enterPk3 1 (endOff o ocDone { s3 with pwr := { s3.pwr with offPending := none } }) else s3
  | none => s3

/-- CLAIM_WRITE (R83). Only the secure world reaches the secure page (R73). -/
def execClaimWrite (who : Agent) (v : BitVec 64) (s : State) : Out := keepQueue s <| sentBy who s <|
  if agentSecure s who then done (wrClaim v s) else done (faultAgent who true (reportUcs who .world 0x08000200 true s))

/-- Report a refused claim (Table 16.4, CLAIMREF). -/
def reportClaimref (b : Nat) (who : Requester) (s : State) : State :=
  report (mkReport (0x8100 + b) 0 0x041 false 8 (leBytes 1 b ++ leBytes 1 (reqCode who))) s

/-- CLAIM_BOUND_EXPIRE (R83): BOUND ms have passed on a deferred request of block `b`: it ends REFUSED, with a record. -/
def execClaimBoundExpire (b : BlockId) (s : State) : Out := keepQueue s <|
  match s.pwr.deferred.find? fun o => o.block = b with
  | some o =>
    let s1 := { s with pwr := { s.pwr with deferred := s.pwr.deferred.filter fun o => o.block ≠ b } }
    done (reportClaimref b.val o.who (endReq o ocRefused s1))
  | none =>
    match s.pwr.offPending with
    | some o =>
      if claimed s b.val then
        done (reportClaimref b.val o.who (endOff o ocRefused { s with pwr := { s.pwr with offPending := none } }))
      else done s
    | none => done s

end Sys2Proof.Machine
end

