-- ==== Sys2Proof/Machine/Drain.lean ====
section
/-! DEFINITION. The drain of the protected write buffer (11 R282 to R285), the watchdog's expiry sequence (03 R81) and the
thermal shutdown's end (13 R340). -/

namespace Sys2Proof.Machine

/-- Write a record to the ring at once, and to the retained slot: the protective actions do so (R81, R340, R411). -/
def recordNow (r : Report) (s : State) : State :=
  errMsiFor r.cls { s with pkt := newRec s.time 1 s.time r (countCls r s.pkt) }

/-- A protective action wakes a sleeping package (R329, R331, Table 13.13): its wake steps run within the action. SRC is the
watchdog's, the thermal shutdown's or the power failure's. -/
def wakePackage (s : State) : State :=
  if s.pwr.pk = 0 then s
  else
    let src := if s.cloak.wdtStep = 3 then 0x0B else if s.thm.shut ≠ 0 then 0x0D else 0x0F
    let s1 := setWakesrc (4 + s.pwr.pk) 0xF 0xFF src s
    { s1 with pwr := { s1.pwr with
      pk := 0
      entering := s1.pwr.entering.filter fun o => o.scope ≠ .package
      waking := s1.pwr.waking.filter fun o => o.scope ≠ .package } }

/-- Every hart is halted by a protective action, which wakes a sleeping package; a Sleeve's self-test run stops (R445). -/
def stopAllHarts (s0 : State) : State :=
  let s := wakePackage s0
  { s with
    dbg := { s.dbg with bist := s.dbg.bist.map fun e => if e.1 < 12 ∧ e.2.state = 2 then (e.1, { e.2 with state := 4 }) else e }
    harts := (presentHarts s).foldl (fun a h => tabSet a Hart.reset h { tabGet a Hart.reset h with stopped := true }) s.harts }

/-- The sensor byte and SRC of a THERMSHUT record: Sleeve s, or 0x10 + k in the Vest. -/
def shutSensor (n : Nat) : Nat := if n < 48 then n / 4 else 0x10 + (n - 48)
def shutSrc (n : Nat) : Nat := if n < 48 then 0x8000 + n / 4 else 0x8FFF

/-- Steps 3 and 4 of a thermal shutdown (R340): a record is written, and the package enters PK3. -/
def thermalFinish (s : State) : State :=
  let r := mkReport (shutSrc s.thm.shutSens) 4 0x042 false 8 (leBytes 1 (shutSensor s.thm.shutSens))
  let s1 := recordNow r s
  enterPk3 2 { s1 with pins := { s1.pins with evThm := true } }

/-- Bring the flash mirror up to date (Table 3.11, step 4). The fuel bounds the units. -/
def mirrorAll : Nat → State → State
  | 0, s => s
  | n + 1, s => if s.pkt.mirState ≠ 0 ∧ waitRecs s.pkt ≠ [] then mirrorAll n { s with pkt := mirProgram (mirCap s) (mirTwo s) s.pkt } else s

/-- Steps 4 and 5 of a watchdog expiry: the mirror is brought up to date and package reset is asserted. -/
def wdtFinish (s : State) : State :=
  let s1 := mirrorAll 1024 s
  internalReset true false { s1 with pins := { s1.pins with evWdt := true, evPf := s1.pins.evPf || s1.pls.pf } }

/-- Step 8 of a power failure's drain: HOLD_EN is released and the package is held in reset until power returns. -/
def powerFinish (s : State) : State :=
  internalReset false false { s with pins := { s.pins with evPf := true } }

/-- What ends a drain (Table 11.4, step 8; Table 3.11; R340). -/
def drainFinish (s : State) : State :=
  if s.pls.cause = 1 then wdtFinish s
  else if s.pls.cause = 2 then thermalFinish (if s.pls.pf then { s with pins := { s.pins with evPf := true } } else s)
  else powerFinish s

/-- Channel 0 or 1 stays powered and leaves self-refresh for a drain (R196): a stop of it that is in progress ends WITHDRAWN. -/
def keepChannel (n : Nat) (s : State) : State :=
  let b := 12 + n
  let old := s.pwr.ops.filter fun o => o.block.val = b
  let s1 := old.foldl (fun a o => endReq o ocWithdrawn a) { s with pwr := { s.pwr with
    ops := s.pwr.ops.filter fun o => o.block.val ≠ b
    blocks := if tabGet s.pwr.blocks 0 b = 1 then tabSet s.pwr.blocks 0 b 0 else s.pwr.blocks } }
  serveAll n 128 s1

/-- Step 3 of Table 11.4: Sleeve regulators off; DRAM channels 2 to 11, root ports and CXL links stopped. What waited at a port
ends with it. -/
def stopRest (s : State) : State := { s with
  pwr := { s.pwr with blocks := (upto 40).foldl (fun a b =>
    if b < 12 ∨ 34 ≤ b then tabSet a 0 b 2 else if 14 ≤ b ∧ b < 24 ∧ tabGet a 0 b = 0 then tabSet a 0 b 1 else a) s.pwr.blocks }
  pcie := { s.pcie with
    ports := s.pcie.ports.map fun e => (e.1, { e.2 with wait := [] })
    links := s.pcie.links.map fun e => (e.1, { e.2 with up := false }) } }

/-- Start a drain (R283): flash operations in progress are ended (a unit of a native band whose program is cut off is not programmed: at recovery the
band is rebuilt, Table 11.11), and the drain header and manifest are being programmed.
Cause 0 is a power failure, 1 a watchdog expiry, 2 a thermal shutdown; `pf` says whether main power has failed. -/
def startDrain (cause : Nat) (pf : Bool) (s : State) : State :=
  let s0 := keepChannel 1 (keepChannel 0 s)
  let cut := s0.ftl.ops.filter fun o => opRuns s0 o && (match o.kind with
    | .progSlot _ | .progMerge .. => !(s0.band o.bn).slc
    | _ => false)
  let s1 := dropOps (fun _ => true) (cut.foldl (fun a o => putUnit o false a) s0)
  (stopRest s1).modPls fun p => { p with
    step := 4, cause := cause, pf := pf, holdEn := pf, drainNum := p.drainNum + 1
    drain := some ⟨p.drainNum + 1, s.time + s.ftl.mtOff, s.ftl.seq, (drainMan p).length, [], false, [], false, !pf⟩ }

/-- Change the drain image. -/
def modDrain (f : DrainImg → DrainImg) (s : State) : State := s.modPls fun p => { p with drain := p.drain.map f }

/-- DRAIN_STEP_DONE (Table 11.4): steps 4 to 7 in turn; after the completion unit the drain ends. `bad` names slots
whose read was uncorrectable (Table 11.11): their data units carry UNREC. -/
def execDrainStepDone (s : State) (bad : List Nat := []) : Out := keepQueue s <|
  let next (t : State) : State := t.modPls fun p => { p with step := p.step + 1 }
  match s.pls.step with
  | 4 => done (next (modDrain (fun d => { d with man := drainMan s.pls, manOk := true }) s))
  | 5 => done (next (modDrain (fun d => { d with man := drainData bad s.pls }) s))
  | 6 => done (next (modDrain (fun d => { d with jrn := s.pls.tail }) s))
  | 7 =>
    let s1 := modDrain (fun d => { d with done := true, main := decide (s.pls.cause ≠ 0) && !s.pls.pf }) s
    done (drainFinish (s1.modPls fun p => { p with step := 0 }))
  | _ => done s

/-! ### The secure watchdog (03 R79 to R81) -/

/-- The WDT record (Table 16.4). -/
def wdtRecord (s : State) : Report := mkReport 1 4 0x040 true 16 (leBytes 8 s.time ++ leBytes 2 s.cloak.wdtTmo.toNat)

/-- WDT_WARN (R80). -/
def execWdtWarn (s : State) : Out := keepQueue s <|
  if s.cloak.wdtEn ∧ s.cloak.wdtStep = 0 then done { s with cloak := { s.cloak with wdtWarn := true } } else done s

/-- WDT_EXPIRE (R81, Table 3.11): the record, every hart halted, and the drain if storage is enabled. An expiry during the
drain of a thermal shutdown leaves that cause: the package then ends in PK3 (DESIGN CHOICE, log 141). -/
def execWdtExpire (s : State) : Out := keepQueue s <|
  if s.cloak.wdtEn = false ∨ s.cloak.wdtStep ≠ 0 then done s
  else
    let s1 := withdrawAll (stopAllHarts (recordNow (wdtRecord s) { s with cloak := { s.cloak with wdtStep := 3 } }))
    if s1.pls.step ≠ 0 then done (s1.modPls fun p => { p with cause := if p.cause = 2 then 2 else 1 })
    else if storActive s1 then done (startDrain 1 false s1)
    else done (wdtFinish s1)

/-- WDT_DRAIN_DEADLINE (step 5 of Table 3.11): 20 ms after expiry the reset is asserted with steps 3 and 4 incomplete. -/
def execWdtDrainDeadline (s : State) : Out := keepQueue s <|
  if s.cloak.wdtStep = 0 then done s
  else done (internalReset true true { s with pins := { s.pins with evWdt := true } })

/-! ### Power failure (11 R282, 19 R454) -/

/-- The land of a power-failure source. -/
def setPfLand (src : PfSource) (v : Bool) (p : Pins) : Pins :=
  match src with
  | .pwrfailN => { p with pwrfailLow := v }
  | .vinSns => { p with vinLow := v }

/-- POWER_FAIL_DETECT (R282, R283): the POWERFAIL record; HOLD_EN asserted, HOLD_CHG and HOLD_TST released; harts halted;
with storage enabled the drain starts, else step 8 follows at once. In PK3 or package reset there is nothing to do but hold.
A failure during a drain with main power present leaves the drain at its step. -/
def execPowerFailDetect (src : PfSource) (s : State) : Out := keepQueue s <|
  let s1 := { s with pins := setPfLand src true s.pins }
  if s.pwr.pk3 || s.pins.inReset then done s1
  else if s.pls.step ≠ 0 then
    done (((abortTest s1).modHold fun h => { h with enOut := true, chgOut := false, tstOut := false }).modPls fun p => { p with pf := true, holdEn := true })
  else
    let r := mkReport 0x8FFF 0 0x043 false 8 (leBytes 1 (match src with
      | .pwrfailN => 0
      | .vinSns => 1) ++ leBytes 1 (if storActive s1 then 1 else 0))
    let s2 := withdrawAll (stopAllHarts (recordNow r s1))
    let s3 := (abortTest s2).modHold fun h => { h with enOut := true, chgOut := false, tstOut := false }
    if storActive s3 then done (startDrain 0 true s3) else done (powerFinish s3)

/-- PWRFAIL_RELEASE (R454, R333): the condition clears; PWRFAIL_N high ends PK3. A drain that runs completes all the same. -/
def execPwrfailRelease (src : PfSource) (s : State) : Out := keepQueue s <|
  let s1 := { s with pins := setPfLand src false s.pins }
  match src with
  | .pwrfailN => if s.pins.pwrfailLow then done (leavePk3 0x0F s1) else done s1
  | .vinSns => done s1

end Sys2Proof.Machine
end

