-- ==== Sys2Proof/Machine/Cloak.lean ====
section
/-! DEFINITION. The secure page (03): the Hem, the secure entry page, the secure watchdog's registers, the claim registers, and
UBX.WSWITCH. -/

namespace Sys2Proof.Machine

/-- A write to a register of the secure page: a non-secure request is refused (R73, R79). -/
def securePage (who : Agent) (off : Nat) (f : State → State) (s : State) : Out :=
  if agentSecure s who then done (f s) else done (faultAgent who true (reportUcs who .world (0x08000000 + off) true s))

/-! ### The Hem (R74, R75) -/

/-- VEST.HEM (Table 3.8). -/
def rdHem (s : State) : Word :=
  cat [on 63 s.cloak.hemLock, on 62 s.cloak.hemBusy, at_ 60 s.cloak.hemErr, at_ 21 s.cloak.hemAddr]

/-- An enabled VEST.DOMMEM range that lies in DRAM begins below an address (R74, case 3). -/
def hemConflict (s : State) (hem : Nat) : Bool :=
  s.pkg.domLock && (upto 16).any fun i =>
    let v := tabGet s.pkg.domMem 0 i
    domEn v && decide (0x100000000 ≤ domLo v ∧ domLo v < 0x60100000000 ∧ domLo v < hem)

/-- A write to VEST.HEM (R74). -/
def wrHem (v : Word) (s : State) : State :=
  let c := s.cloak
  let a := fld v 21 31
  let hem := a.toNat * 0x200000
  let err (e : BitVec 2) : State := { s with cloak := { c with hemErr := e } }
  if c.hemLock then s
  else if c.hemBusy then err 3
  else if hem < 0x100000000 ∨ 0x60100000000 < hem then err 1
  else if hemConflict s hem then err 2
  else
    let chg := decide (a ≠ c.hemAddr)
    { s with cloak := { c with
        hemErr := 0
        hemAddr := a
        hemLock := bit v 63
        hemBusy := chg
        hemOld := if chg then some c.hemAddr else none } }

/-- HEM_WRITE (R74). -/
def execHemWrite (who : Agent) (v : BitVec 64) (s : State) : Out := keepQueue s <| sentBy who s <| securePage who 0 (wrHem v) s

/-- HEM_SCAN_DONE (R75): every line between the old and the new Hem has been recalled. A line with an active transaction holds the
scan up (Table 6.10). -/
def execHemScanDone (s : State) : Out := keepQueue s <|
  match s.cloak.hemOld with
  | none => done s
  | some o =>
    let a := o.toNat * 0x200000
    let lo := min a (hemOf s)
    let hi := max a (hemOf s)
    if s.coh.txns.any fun t => decide (lo ≤ 64 * t.line ∧ 64 * t.line < hi) then done s
    else
      let s1 := recallRange lo hi s
      done { s1 with cloak := { s1.cloak with hemBusy := false, hemOld := none } }

/-! ### VEST.CLOAK.MONVEC (Table 3.3). A write that sets LOCK with a reserved encoding is rejected whole (R8). -/

def rdMonvec (s : State) : Word := cat [on 63 s.cloak.monLock, at_ 12 s.cloak.monAddr]
def wrMonvec (v : Word) (s : State) : State :=
  let a := (fld v 12 40).toNat * 4096
  let ok := decide (a < 0x40000) || decide (0x1000000 ≤ a ∧ a < 0x2000000)
  if s.cloak.monLock || (bit v 63 && !ok) then s
  else { s with cloak := { s.cloak with monLock := bit v 63, monAddr := if ok then fld v 12 40 else s.cloak.monAddr } }

/-! ### The secure watchdog (Table 3.10, R79) -/

/-- The count restarts; the warning ends (a write rejected under R8 restarts nothing). An expiry under way goes on. -/
def wdtRestart (s : State) : State :=
  if s.cloak.wdtStep ≠ 0 then s else { s with cloak := { s.cloak with wdtFrom := s.time, wdtWarn := false } }

def rdWdtctl (s : State) : Word := cat [on 63 s.cloak.wdtLock, on 62 s.cloak.wdtEn, at_ 0 s.cloak.wdtTmo]
def wrWdtctl (v : Word) (s : State) : State :=
  let t := fld v 0 16
  let ok := decide (1 ≤ t.toNat ∧ t.toNat ≤ 60000)
  if s.cloak.wdtLock || (bit v 63 && !ok) then s
  else wdtRestart { s with cloak := { s.cloak with
    wdtLock := bit v 63
    wdtEn := bit v 62
    wdtTmo := if ok then t else s.cloak.wdtTmo } }
def wrWdtkick (v : Word) (s : State) : State := if fld v 0 16 = 0xC10A then wdtRestart s else s
def rdWdtstat (s : State) : Word :=
  let left := (s.cloak.wdtFrom + s.cloak.wdtTmo.toNat * 100000 - s.time) / 100000
  cat [on 63 s.cloak.wdtExp, on 62 s.cloak.wdtDfail, at_ 0 (if s.cloak.wdtEn then BitVec.ofNat 16 left else 0xFFFF#16)]
def wrWdtstat (v : Word) (s : State) : State :=
  { s with cloak := { s.cloak with wdtExp := s.cloak.wdtExp && !bit v 63, wdtDfail := s.cloak.wdtDfail && !bit v 62 } }

/-- WDT_CTL_WRITE and WDT_KICK (R79). -/
def execWdtCtlWrite (who : Agent) (v : BitVec 64) (s : State) : Out := keepQueue s <| sentBy who s <| securePage who 0x100 (wrWdtctl v) s
def execWdtKick (who : Agent) (v : BitVec 64) (s : State) : Out := keepQueue s <| sentBy who s <| securePage who 0x110 (wrWdtkick v) s

/-! ### Claim registers (Table 3.12) -/

def rdClaim (s : State) : Word := at_ 0 s.cloak.claim
def rdClaimcfg (s : State) : Word := at_ 0 s.cloak.bound
def wrClaimcfg (v : Word) (s : State) : State :=
  let b := fld v 0 10
  if 1 ≤ b.toNat ∧ b.toNat ≤ 1000 then { s with cloak := { s.cloak with bound := b } } else s
def rdClaimstat (s : State) : Word := at_ 0 (deferMask s)

/-! ### UBX.WSWITCH (R69) -/

/-- The core's L1D is cleaned and invalidated, and its L1I invalidated. -/
def scrubL1 (h : Nat) (s : State) : State :=
  let core := hartCore h
  let s1 := (s.core core).l1d.ents.foldl (fun a e => l1dEvict core (l2Ways a h) (l3Mask a h) e.2 a) s
  (s1.core core).l1i.ents.foldl (fun a e =>
    l1Gone core (l3Mask a h) e.2 (a.modCore core fun k => { k with l1i := cDel k.l1i 4 (l1iT e.2.line) e.2.line })) s1

/-- The hart leaves the secure world (R69 steps 2 to 6). -/
def leaveSecure (h : Nat) (s : State) : State :=
  let x := s.hart h
  let s1 := if x.scrubItb then s.modCore (hartCore h) fun k => { k with itb := [] } else s
  let s2 := if x.scrubL1 then scrubL1 h s1 else s1
  haltIfPending h (s2.modHart h fun y => mretState { clearPaths y with sec := false })

/-- UBX.WSWITCH of a hart (R69). Outside the secure world, and in debug mode, which never changes SEC (R433), it is an illegal
instruction, whose exception goes to mtvec whatever medeleg holds. -/
def doWswitch (h : Nat) (s : State) : State :=
  let x := s.hart h
  if x.prog then programTrap h s
  else if x.sec then leaveSecure h s
  else enterTrap h 3 false (plainTrap 2 0x0200200B false) s

/-- UBX_WSWITCH. -/
def execUbxWswitch (h : HartId) (s : State) : Out := keepQueue s <| done (byHart h (doWswitch h) s)

end Sys2Proof.Machine
end

