-- ==== Sys2Proof/Machine/Boot.lean ====
section
/-! DEFINITION. Boot images and their checks, the boot sequence, ownership of the package, identity, attestation, tokens (15). -/

namespace Sys2Proof.Machine

/-! ### Images (R375 to R378) -/

def flashSlot (s : State) (ty slot : Nat) : FwSlot := tabGet s.boot.flash FwSlot.empty (2 * ty + slot)
/-- Bytes of a slot's area; erased bytes read as ones. -/
def slotBytes (f : FwSlot) (o n : Nat) : List Byte := (upto n).map fun i => tabGet f.bytes 0xFF (o + i)
def slotNat (f : FwSlot) (o n : Nat) : Nat := leNat (slotBytes f o n)

/-- The body limit of an image type (Table 15.1). -/
def bodyLimit : Nat → Nat
  | 1 => 0x180000 | 2 => 0x400000 | 3 => 0x200000 | 4 => 0x400000 | 5 => 0x4000000 | _ => 0

/-- The header digest D (R376). -/
def headerDigest (f : FwSlot) : List Byte := Config.shake256 (slotBytes f 0 1928) 64

/-- The fused counter of a type. -/
def svnFuse (s : State) (ty : Nat) : Nat := tabGet s.boot.svn 0 ty

/-- Check 2 of Table 15.3: the header's fixed fields. -/
def headerOk (ty : Nat) (f : FwSlot) : Bool :=
  slotNat f 0 4 == 0x474D4955 && slotNat f 4 1 == 1 && slotNat f 5 1 == ty && slotNat f 6 2 == 0 && slotNat f 96 32 == 0 &&
    slotNat f 1921 7 == 0 && slotNat f 3208 888 == 0 && decide (slotNat f 16 4 ≤ bodyLimit ty) && decide (slotNat f 20 4 < slotNat f 16 4) &&
    (if ty = 5 then decide (slotNat f 24 8 % 4096 = 0) else slotNat f 24 8 == 0)

/-- The result code of an image slot (R377, Table 15.3). -/
def imageCheck (s : State) (ty slot : Nat) (x : ImageFacts) : Nat :=
  let f := flashSlot s ty slot
  if x.readErr then 0xE
  else if x.entry = false ∨ f.len = 0 then 0x8
  else if headerOk ty f = false then 0x9
  else if Config.shake256 (slotBytes f 128 1793) 32 ≠ Config.imageRoot then 0xA
  else if Config.falconVerify (slotBytes f 128 1793) (headerDigest f) (slotBytes f 1928 1280) = false then 0xB
  else if slotNat f 12 4 < svnFuse s ty ∨ 64 < slotNat f 12 4 then 0xD
  else if Config.shake256 (slotBytes f 4096 (slotNat f 16 4)) 64 ≠ slotBytes f 32 64 then 0xC
  else 1 + slot

/-- How the reads of a slot went. -/
def slotFacts (b : BootFacts) (k : Nat) : ImageFacts := (tabFind k b.slots).getD ⟨true, false⟩

/-- The record of an accepted slot. -/
def imgRec (s : State) (ty slot : Nat) : ImgRec :=
  let f := flashSlot s ty slot
  ⟨slot, slotNat f 8 4, slotNat f 12 4, headerDigest f⟩

/-- The slot used of a type with two slots, and the result code: the higher FWVER among those that verify (slot 0 on a tie);
when both fail, the code of the slot tried last. -/
def pickSlot (s : State) (ty : Nat) (b : BootFacts) : Option Nat × Nat :=
  let c0 := imageCheck s ty 0 (slotFacts b (2 * ty))
  let c1 := imageCheck s ty 1 (slotFacts b (2 * ty + 1))
  let ok0 := decide (c0 < 8)
  let ok1 := decide (c1 < 8)
  let v (k : Nat) : Nat := (imgRec s ty k).fwver
  if ok0 && ok1 then (if v 0 < v 1 then (some 1, 2) else (some 0, 1))
  else if ok0 then (some 0, 1)
  else if ok1 then (some 1, 2)
  else (none, c1)

/-- TYPE of image number `i`. -/
def imgType : Nat → Nat
  | 0 => 1 | 1 => 2 | 2 => 2 | 3 => 3 | 4 => 4 | _ => 5

def setRes (i code : Nat) (s : State) : State := { s with boot := { s.boot with res := tabSet s.boot.res 0 i (BitVec.ofNat 4 code) } }
def setImg (i : Nat) (r : ImgRec) (s : State) : State := { s with boot := { s.boot with imgs := tabInsert i r s.boot.imgs } }
def dropImg (i : Nat) (s : State) : State := { s with boot := { s.boot with imgs := tabErase i s.boot.imgs } }
def imgOf (s : State) (i : Nat) : Option ImgRec := tabFind i s.boot.imgs

/-- The record of a failed image (R381). -/
def imageFail (ty slot code : Nat) (s : State) : State :=
  report (mkReport 0x9002 0 0x070 false 8 (leBytes 1 ty ++ leBytes 1 slot ++ leBytes 1 code)) s

/-- Load image `i` of a type with two slots: the code is recorded; a failure is reported. -/
def loadPicked (i : Nat) (b : BootFacts) (s : State) : State × Bool :=
  let ty := imgType i
  match pickSlot s ty b with
  | (some k, c) => (setImg i (imgRec s ty k) (setRes i c s), true)
  | (none, c) => (imageFail ty 1 c (setRes i c (dropImg i s)), false)

/-- Load the image of a controller from its own slot (Table 15.1): no fall-back. Its SVN is recorded in VEST.OWN.STAT. -/
def loadMc (e : Bool) (x : ImageFacts) (s : State) : State × Bool :=
  let slot := if e then 0 else 1
  let i := if e then 1 else 2
  let c := imageCheck s 2 slot x
  let svn (v : BitVec 8) (s : State) : State := { s with own := if e then { s.own with svnE := v } else { s.own with svnW := v } }
  if c < 8 then
    let r := imgRec s 2 slot
    (svn (BitVec.ofNat 8 r.svn) (setImg i r (setRes i c s)), true)
  else (svn 0xFF (imageFail 2 slot c (setRes i c (dropImg i s))), false)

/-- A controller is released from reset, or stays in it. -/
def setMcReset (e : Bool) (v : Bool) (s : State) : State := { s with own := if e then { s.own with rstE := v } else { s.own with rstW := v } }

/-! ### Identity (R387 to R389) -/

def ascii (l : List Nat) : List Byte := l.map fun n => BitVec.ofNat 8 n
/-- "UBX-DEVID", "UBX-CDI1", "UBX-ALIAS". -/
def strDevid : List Byte := ascii [0x55, 0x42, 0x58, 0x2D, 0x44, 0x45, 0x56, 0x49, 0x44]
def strCdi1 : List Byte := ascii [0x55, 0x42, 0x58, 0x2D, 0x43, 0x44, 0x49, 0x31]
def strAlias : List Byte := ascii [0x55, 0x42, 0x58, 0x2D, 0x41, 0x4C, 0x49, 0x41, 0x53]

/-- A measured digest; 64 zero bytes when no image was accepted. -/
def measOf (s : State) (i : Nat) : List Byte := (tabFind i s.boot.meas).getD (zeros 64)
def devidSeed : List Byte := Config.shake256 (strDevid ++ Config.uds) 48
def cdi1 (s : State) : List Byte :=
  let svn := ((imgOf s 0).map (·.svn)).getD 0
  Config.shake256 (strCdi1 ++ Config.uds ++ measOf s 0 ++ leBytes 4 svn) 64
def m1 (s : State) : List Byte := Config.shake256 (measOf s 1 ++ measOf s 2 ++ measOf s 3 ++ measOf s 4) 64
def aliasSeed (s : State) : List Byte := Config.shake256 (strAlias ++ cdi1 s ++ m1 s) 48
def aliasPub (s : State) : List Byte := Config.falconPub (aliasSeed s)

/-- The UID of the Vest, and VEST.DIEFUSE revisions. -/
def vestUid (s : State) : Nat := (fuseUid (fuseOf s 12)).toNat

/-- The alias certificate (Table 15.11), signed by the DevID key. -/
def aliasCertOf (s : State) : List Byte :=
  let body := leBytes 4 0x54434255 ++ leBytes 1 1 ++ leBytes 1 2 ++ zeros 2 ++ leBytes 8 (vestUid s) ++ m1 s ++
    Config.shake256 (Config.falconPub devidSeed) 32 ++ aliasPub s ++ zeros 7
  body ++ Config.falconSign devidSeed (Config.shake256 body 64) s.free

/-- ALIAS_KEYGEN_DONE (step 7 of Table 15.4): the keys exist and the alias certificate is made. -/
def execAliasKeygenDone (s : State) : Out := keepQueue s <|
  if s.boot.step < 6 ∨ s.boot.keys then done s
  else done { s with boot := { s.boot with keys := true, aliasCert := aliasCertOf s }, free := s.free + 1 }

/-! ### The boot sequence (R379 to R381) -/

/-- VEST.BOOT.STAT (Table 15.5). -/
def rdBootStat (s : State) : Word :=
  let r (i : Nat) : BitVec 4 := tabGet s.boot.res 0 i
  cat [at_ 60 s.boot.stage, at_ 20 (r 0), at_ 16 (r 1), at_ 12 (r 2), at_ 8 (r 3), at_ 4 (r 4), at_ 0 (r 5)]

/-- The Vest self-test that is armed runs after the fuse read (18 R442): its signatures are what the silicon yields. -/
def vestBist (s : State) : State :=
  let b := tabGet s.dbg.bist BistSt.reset 12
  if b.state = 1 then
    let sig (l : List (Nat × Word)) (i : Nat) : List (Nat × Word) :=
      let u := i / 2
      let k := i % 2
      if b.kind.getLsbD k then tabSet l 0 ((12 * 128 + u) * 2 + k) (Config.freeWord (s.free + i)) else l
    { s with
      free := s.free + 256
      dbg := { s.dbg with
        sigs := (upto 256).foldl sig s.dbg.sigs
        bist := tabSet s.dbg.bist BistSt.reset 12 { b with state := 3, tend := BitVec.ofNat 48 s.time } } }
  else s

/-- The body of an accepted image. -/
def imageBody (s : State) (ty slot : Nat) : List Byte :=
  let f := flashSlot s ty slot
  slotBytes f 4096 (slotNat f 16 4)

/-- Step 4: Cloak firmware. -/
def bootCloak (b : BootFacts) (s : State) : State :=
  let r := loadPicked 0 b s
  let s1 := { r.1 with boot := { r.1.boot with udsLock := true } }
  match r.2, imgOf s1 0 with
  | true, some i =>
    let s2 := setBytes 0x1000000 (imageBody s1 1 i.slot) s1
    { s2 with boot := { s2.boot with stage := 1, step := 5, meas := tabInsert 0 i.dig s2.boot.meas } }
  | _, _ => { s1 with boot := { s1.boot with romStop := true } }

/-- Step 5: the images of the controllers, the media engine and the monitor. -/
def bootImages (b : BootFacts) (s : State) : State :=
  let e := loadMc true (slotFacts b 4) s
  let w := loadMc false (slotFacts b 5) e.1
  let m := loadPicked 3 b w.1
  let o := loadPicked 4 b m.1
  let s1 := setMcReset true (!e.2) (setMcReset false (!w.2) o.1)
  let s2 := match o.2, imgOf s1 4 with
    | true, some i => setBytes 0x1200000 (imageBody s1 4 i.slot) s1
    | _, _ => s1
  let meas := [1, 2, 3, 4].foldl (fun l i => match imgOf s2 i with
    | some r => tabInsert i r.dig l
    | none => l) s2.boot.meas
  settleRelease { s2 with boot := { s2.boot with
    stage := if e.2 || w.2 then 2 else s2.boot.stage
    step := 6
    meas := meas
    mediaFw := m.2
    monrdy := o.2 } }

/-- The normal machine-mode firmware is placed at its LOADADDR on the monitor's request (step 10); a body that does not lie in
non-secure DRAM is not placed. -/
def placeNormal (b : BootFacts) (s : State) : State :=
  let r := loadPicked 5 b s
  match r.2, imgOf r.1 5 with
  | true, some i =>
    let f := flashSlot r.1 5 i.slot
    let a := slotNat f 24 8
    if decide (hemOf r.1 ≤ a) && (linesOf a (slotNat f 16 4)).all (fun n => regionOf r.1 (64 * n) == .dram) then
      cohWrite a (imageBody r.1 5 i.slot) false r.1
    else imageFail 5 i.slot 9 (setRes 5 9 (dropImg 5 r.1))
  | _, _ => r.1

/-- BOOT_STEP_DONE (R379): the step of Table 15.4 under way completes and the next one runs. Step 8 ends with the lock of VEST.DOMCFG,
step 9 with the release of a Sleeve's harts: with every Sleeve excluded neither comes, and no M-mode firmware is loaded (R21). -/
def execBootStepDone (f : BootFacts) (s : State) : Out := keepQueue s <|
  let next (t : State) : State := { t with boot := { t.boot with step := t.boot.step + 1 } }
  if s.boot.romStop ∨ s.pins.inReset then done s
  else match s.boot.step with
    | 0 | 1 => done s
    | 2 => done (next s)
    | 3 =>
      if s.pkg.fuseRead = false then done s
      else if s.pkg.vestBad then done { s with boot := { s.boot with romStop := true } }
      else done (next (vestBist s))
    | 4 => done (bootCloak f s)
    | 5 => done (bootImages f s)
    | 6 => done { s with boot := { s.boot with step := 8 } }
    | 8 => if s.pkg.domLock then done (next s) else done s
    | 9 => if (presentSleeves s).any fun k => !s.pkg.slvHeld.getLsbD k then done (next s) else done s
    | 10 => done (next (placeNormal f s))
    | _ => done s

/-- MONRDY_SET (R380): a write of VEST.BOOT.MONRDY by the Cloak processor. -/
def wrMonrdy (v : Word) (s : State) : State :=
  settleRelease { s with boot := { s.boot with monrdy := s.boot.monrdy || bit v 0 } }
def execMonrdySet (who : Agent) (s : State) : Out := keepQueue s <| sentBy who s <| securePage who 0x400 (wrMonrdy 1) s

/-! ### Ownership (R382 to R386) -/

def Own.present (o : Own) (e : Bool) : Bool := if e then o.aliveE.isSome else o.aliveW.isSome
def Own.inRst (o : Own) (e : Bool) : Bool := if e then o.rstE else o.rstW
def mcBit : Mc → Bool
  | .e => true | .w => false
def mcCode (e : Bool) : BitVec 2 := if e then 1 else 2

/-- Both controllers are present and each finds its peer absent. -/
def disagree (o : Own) : Bool := o.present true && o.present false && o.absE && o.absW

/-- VEST.OWN.STAT (Table 15.9). -/
def rdOwnStat (s : State) : Word :=
  let o := s.own
  cat [at_ 62 o.holder, at_ 60 o.phase, on 59 (s.pins.straps.primarySel = .w), on 58 (o.present true), on 57 (o.present false), on 56 o.absE,
    on 55 o.absW, on 54 (disagree o), at_ 40 o.svnE, at_ 32 o.svnW, at_ 16 o.takeovers, at_ 0 o.safestops]
def rdOwnCtl (s : State) (e : Bool) : Word :=
  cat [on 59 (if e then s.own.absE else s.own.absW), on 0 (s.own.holder == mcCode e)]

/-- A controller's writes reach the registers: it is out of reset and not in the safe state. -/
def mcLive (s : State) (m : Mc) : Bool := !s.own.inRst (mcBit m) && !s.own.safe
/-- The holder alone writes the management controllers' registers with effect. -/
def mcHolds (s : State) (m : Mc) : Bool := mcLive s m && s.own.holder == mcCode (mcBit m)

/-- The token goes to a controller; every ADP session ends (R384). -/
def giveToken (e : Bool) (s : State) : State :=
  endAllSessions { s with own := { s.own with holder := mcCode e, phase := 2, claimE := false, claimW := false } }

/-- A claim (R382). -/
def ownClaim (e : Bool) (s : State) : State :=
  if 2 ≤ s.own.phase.toNat then s
  else { s with own := { s.own with phase := 1, claimE := s.own.claimE || e, claimW := s.own.claimW || !e } }

/-- TAKE (Table 15.7): the standby takes over from a holder that is not present; the former holder is held in reset and its image
reloaded. -/
def ownTake (e : Bool) (s : State) : State :=
  if s.own.phase = 2 ∧ s.own.holder = mcCode (!e) ∧ s.own.present (!e) = false then
    let s1 := giveToken e s
    let o := { s1.own with takeovers := satInc s1.own.takeovers, reload := true }
    let s2 := setMcReset (!e) true { s1 with own := o }
    report (mkReport 0x9004 0 0x071 false 8 (leBytes 1 (mcCode e).toNat)) s2
  else s

/-- RELEASE (Table 15.7). -/
def ownRelease (e : Bool) (s : State) : State :=
  if s.own.phase = 2 ∧ s.own.holder = mcCode e ∧ s.own.present (!e) = true then giveToken (!e) s else s

def ownAlive (e : Bool) (s : State) : State :=
  { s with own := if e then { s.own with aliveE := some s.time } else { s.own with aliveW := some s.time } }

/-- A write to VEST.OWN.CTL[m]; from any other agent it is discarded. -/
def wrOwnCtl (who : Agent) (m : Mc) (v : Word) (s : State) : State :=
  if who = .mc m ∧ mcLive s m = true then
    let e := mcBit m
    let s1 := { s with own := if e then { s.own with absE := bit v 59 } else { s.own with absW := bit v 59 } }
    let s2 := if bit v 60 then ownAlive e s1 else s1
    let s3 := if bit v 61 then ownRelease e s2 else s2
    let s4 := if bit v 62 then ownTake e s3 else s3
    if bit v 63 then ownClaim e s4 else s4
  else s

/-- OWN_CLAIM, OWN_TAKE, OWN_RELEASE and OWN_ALIVE: writes of VEST.OWN.CTL[m] with that bit, and PEERABS as it stands. -/
def ownBit (m : Mc) (n : Nat) (s : State) : State :=
  wrOwnCtl (.mc m) m (cat [on n true, on 59 (if mcBit m then s.own.absE else s.own.absW)]) s
def execOwnClaim (m : Mc) (s : State) : Out := keepQueue s <| done (ownBit m 63 s)
def execOwnTake (m : Mc) (s : State) : Out := keepQueue s <| done (ownBit m 62 s)
def execOwnRelease (m : Mc) (s : State) : Out := keepQueue s <| done (ownBit m 61 s)
def execOwnAlive (m : Mc) (s : State) : Out := keepQueue s <| done (ownBit m 60 s)

/-- CLAIM_WINDOW_CLOSE (R382): the sole claimant, else the higher SVN, MC-E when equal. -/
def execClaimWindowClose (s : State) : Out := keepQueue s <|
  let o := s.own
  if o.phase ≠ 1 then done s
  else if o.claimE && o.claimW then done (giveToken (decide (o.svnW.toNat ≤ o.svnE.toNat)) s)
  else done (giveToken o.claimE s)

/-- PRESENCE_TIMEOUT (R383): 10 ms have passed since the controller's last ALIVE write. -/
def execPresenceTimeout (m : Mc) (s : State) : Out := keepQueue s <|
  done { s with own := if mcBit m then { s.own with aliveE := none } else { s.own with aliveW := none } }

/-- A management subsystem reset, step 1 (R386): both controllers, the network port, the sessions and the token logic but STAT[31:0];
held Static values come into force. The images are then reloaded. -/
def mgmtReset (s : State) : State :=
  let s1 := endAllSessions s
  let o := s1.own
  { s1 with
    own := { Own.reset with svnE := o.svnE, svnW := o.svnW, takeovers := o.takeovers, safestops := o.safestops, reload := true }
    adp := { s1.adp with
      cfgF := s1.adp.cfg
      dad := 0
      hs := []
      partials := []
      subs := []
      pend := [] } }

/-- HOLDER_ABSENT_TIMEOUT (Table 15.7): the holder not present for 100 ms, with no standby present. -/
def execHolderAbsentTimeout (s : State) : Out := keepQueue s <|
  let h := decide (s.own.holder = 1)
  if s.own.phase = 2 ∧ s.own.present h = false ∧ s.own.present (!h) = false then done (mgmtReset s) else done s

/-- DISAGREE_TIMEOUT (R385): the forced safe state. -/
def execDisagreeTimeout (s : State) : Out := keepQueue s <|
  if disagree s.own then
    let s1 := endAllSessions { s with own := { s.own with holder := 0, phase := 3, safe := true } }
    let s2 := report (mkReport 0x9004 0 0x072 false 8 (leBytes 8 (rdOwnStat s1).toNat)) s1
    done (mgmtReset { s2 with own := { s2.own with safestops := satInc s2.own.safestops } })
  else done s

/-- MC_RELOAD_DONE (R384, R386): the Cloak processor has read the image of each controller in reset again; each that passed is
released. -/
def execMcReloadDone (e w : ImageFacts) (s : State) : Out := keepQueue s <|
  if s.own.reload = false then done s
  else
    let one (b : Bool) (f : ImageFacts) (s : State) : State :=
      if s.own.inRst b then
        let r := loadMc b f s
        setMcReset b (!r.2) r.1
      else s
    let s1 := one false w (one true e s)
    done { s1 with own := { s1.own with reload := false } }

/-- MGMTRST (OD 0x1040.00): the answer is sent, and the management subsystem resets. -/
def execMgmtrst (x : DictCtx) (s : State) : Out := keepQueue s <|
  let ok := match reqState s x with
    | .fresh w => decide (1 ≤ w.level.toNat)
    | _ => false
  let s1 := dictCommand x 0x1040 0 1 true (fun t => (t, stOK, [])) s
  done (if ok then mgmtReset s1 else s1)

/-- HANDOVER (OD 0x7100.02): the holder writes RELEASE. -/
def execHandover (x : DictCtx) (s : State) : Out := keepQueue s <|
  let h := decide (s.own.holder = 1)
  let can := decide (s.own.phase = 2) && s.own.present (!h)
  let ok := match reqState s x with
    | .fresh w => decide (1 ≤ w.level.toNat) && can
    | _ => false
  let s1 := dictCommand x 0x7100 2 1 true (fun t => (t, if can then stOK else stRefused, [])) s
  done (if ok then ownRelease h s1 else s1)

/-- HARTREL (Table 15.5): written by the management controllers only, by the holder with effect. -/
def rdHartrel (s : State) : Word := at_ 0 s.boot.hartrel
def wrHartrel (who : Agent) (v : Word) (s : State) : State :=
  match who with
  | .mc m => if mcHolds s m then settleRelease { s with boot := { s.boot with hartrel := s.boot.hartrel ||| fld v 0 12 } } else s
  | _ => s
/-- HARTREL_SET (R380). -/
def execHartrelSet (who : Agent) (v : BitVec 64) (s : State) : Out := keepQueue s <| sentBy who s <| done (wrHartrel who v s)

/-! ### Attestation (R390) -/

/-- The image record of Table 15.12. -/
def imageRecord (s : State) (i : Nat) : List Byte :=
  let ty := imgType i
  match imgOf s i with
  | some r => leBytes 1 ty ++ leBytes 1 r.slot ++ zeros 2 ++ leBytes 4 r.fwver ++ leBytes 4 r.svn ++ leBytes 4 (svnFuse s ty) ++ r.dig
  | none => leBytes 1 ty ++ leBytes 1 0xFF ++ zeros 2 ++ leBytes 4 0 ++ leBytes 4 0 ++ leBytes 4 (svnFuse s ty) ++ zeros 64

/-- FLAGS of the report. -/
def attFlags (s : State) : Word :=
  cat [on 0 s.cloak.hemLock, on 1 (s.dbg.scope ≠ 0), on 2 s.boot.dbgEver, on 3 s.stor.wt]

/-- The attestation report (Table 15.12) for a nonce. -/
def attReport (s : State) (nonce : List Byte) : List Byte :=
  let revs := ((upto 13).map fun k => leBytes 1 (fuseMaj (fuseOf s k)).toNat ++ leBytes 1 (fuseMin (fuseOf s k)).toNat).flatten
  let body := leBytes 4 0x54414255 ++ leBytes 1 1 ++ zeros 3 ++ leBytes 4 1936 ++ zeros 4 ++ nonce ++ leBytes 8 (vestUid s) ++
    leBytes 8 (rdPkginfo s).toNat ++ leBytes 4 (rdPkgfeat s).toNat ++ leBytes 4 (attFlags s).toNat ++ leBytes 8 (rdHem s).toNat ++ revs ++
    zeros 6 ++ ((upto 6).map (imageRecord s)).flatten ++ m1 s
  body ++ (Config.falconSign (aliasSeed s) (Config.shake256 body 64) s.free ++ zeros 1280).take 1280

/-- ATTEST (OD 0x7000.00). -/
def execAttest (x : DictCtx) (nonce : List Byte) (s : State) : Out := keepQueue s <|
  done (dictCommand x 0x7000 0 0 true (fun t =>
    if nonce.length ≠ 32 then (t, stTypeMismatch, []) else (t.draw, stOK, attReport t nonce)) s)

/-! ### Anti-rollback, boot flash and tokens (R378, R391 to R393) -/

/-- The SVN that a commit of a type raises the counter to: of the running image; for the controllers the lower one. -/
def commitSvn (s : State) (ty : Nat) : Nat :=
  let v (i : Nat) : Option Nat := (imgOf s i).map (·.svn)
  match ty with
  | 1 => (v 0).getD 0
  | 2 => (match v 1, v 2 with
    | some a, some b => min a b
    | some a, none => a
    | none, some b => b
    | none, none => 0)
  | 3 => (v 3).getD 0
  | 4 => (v 4).getD 0
  | _ => (v 5).getD 0

/-- SVNCOMMIT (R378). -/
def execSvncommit (x : DictCtx) (ty : BitVec 8) (s : State) : Out := keepQueue s <|
  done (dictCommand x 0x7019 0 1 true (fun t =>
    let n := ty.toNat
    if n < 1 ∨ 5 < n then (t, stReserved, [])
    else ({ t with boot := { t.boot with svn := tabSet t.boot.svn 0 n (max (svnFuse t n) (commitSvn t n)) } }, stOK, [])) s)

/-- A directory entry (R375). -/
def dirEntry (ty slot : Nat) (f : FwSlot) : List Byte :=
  let b := leBytes 1 ty ++ leBytes 1 slot ++ zeros 2 ++ leBytes 4 f.off.toNat ++ leBytes 4 f.len
  b ++ leBytes 4 (crc32c b).toNat

/-- The bytes that a slot's area can hold. -/
def slotLimit (ty : Nat) : Nat := if ty = 6 then 3192 else 4096 + bodyLimit ty

/-- Write into a slot's area (OD 0x7020.00): offset 0 erases the area and begins a new image. -/
def fwWrite (ty slot off : Nat) (data : List Byte) (s : State) : State × FwSlot :=
  let k := 2 * ty + slot
  let old := flashSlot s ty slot
  let base : FwSlot := if off = 0 then ⟨Config.slotOffset k, 0, []⟩ else { old with off := Config.slotOffset k }
  let f : FwSlot := { base with
    len := max base.len (off + data.length)
    bytes := data.zipIdx.foldl (fun m e => tabSet m 0xFF (off + e.2) e.1) base.bytes }
  ({ s with boot := { s.boot with flash := tabSet s.boot.flash FwSlot.empty k f } }, f)

/-- FWWRITE. -/
def execFwwrite (x : DictCtx) (ty slot : BitVec 8) (off : BitVec 32) (data : List Byte) (s : State) : Out := keepQueue s <|
  done (dictCommand x 0x7020 0 1 true (fun t =>
    let n := ty.toNat
    let k := slot.toNat
    if n < 1 ∨ 6 < n ∨ 1 < k ∨ (n = 6 ∧ k = 1) then (t, stReserved, [])
    else if data.length < 1 ∨ 4096 < data.length then (t, stTypeMismatch, [])
    else if slotLimit n < off.toNat + data.length then (t, stReserved, [])
    else
      let r := fwWrite n k off.toNat data t
      (r.1, stOK, dirEntry n k r.2)) s)

/-- FWCHECK: the code of Table 15.3, without loading. -/
def execFwcheck (x : DictCtx) (ty slot : BitVec 8) (f : ImageFacts) (s : State) : Out := keepQueue s <|
  done (dictCommand x 0x7021 0 1 true (fun t =>
    if ty.toNat < 1 ∨ 5 < ty.toNat ∨ 1 < slot.toNat then (t, stReserved, [])
    else (t, stOK, leBytes 1 (imageCheck t ty.toNat slot.toNat f))) s)

/-- TOKREVOKE: the token epoch rises by one. -/
def execTokrevoke (x : DictCtx) (s : State) : Out := keepQueue s <|
  done (dictCommand x 0x7030 2 1 true (fun t =>
    ({ t with boot := { t.boot with epoch := min 64 (t.boot.epoch + 1) } }, stOK, [])) s)

/-- A new debug challenge (R392): it replaces the previous one; a token that is verifying fails (R445). -/
def newChallenge (s : State) : State × List Byte :=
  let c := Config.random s.free 32
  ({ s with free := s.free + 1, boot := { s.boot with chal := some (c, s.time) } }, c)

/-- DBGCHAL. -/
def execDbgchal (x : DictCtx) (s : State) : Out := keepQueue s <|
  done (dictCommand x 0x7031 0 1 (featOn s 8) (fun t => let r := newChallenge t
    (r.1, stOK, r.2)) s)

/-- CHALLENGE_LAPSE (R392). -/
def execChallengeLapse (s : State) : Out := keepQueue s <| done { s with boot := { s.boot with chal := none } }

def sl (l : List Byte) (o n : Nat) : List Byte := (l.drop o).take n

/-- The parts of a token's validity that service and debug tokens share (R391): its magic, version, kind and UID, its epoch, its
signer and its signature. `p` is the payload length. -/
def tokenOk (s : State) (kind p : Nat) (t : List Byte) : Bool :=
  let signer := sl t (24 + p) 1793
  decide (t.length = 24 + p + 1800 + 1280) && leNat (sl t 0 4) == 0x4B544255 && leNat (sl t 4 1) == 1 && leNat (sl t 5 1) == kind &&
    leNat (sl t 8 8) == vestUid s && leNat (sl t 16 4) == s.boot.epoch &&
    decide (Config.shake256 signer 32 = Config.tokenRoot) &&
    Config.falconVerify signer (Config.shake256 (t.take (24 + p)) 64) (sl t (24 + p + 1800) 1280)

/-- Secure debug is permitted (R437). -/
def secdbgOk (s : State) : Bool := Config.secdbgEn && featOn s 8

/-- A debug token is passed to the Cloak processor (R437 step 3): with the challenge current now. -/
def tokenIn (tok : List Byte) (ctx : Option (BitVec 32 × BitVec 32)) (s : State) : State :=
  { s with dbg := { s.dbg with tok := some (tok, ((s.boot.chal).map (·.1)).getD []), tokDict := ctx, tokRes := 3 } }

/-- DBGUNLOCK. -/
def execDbgunlock (x : DictCtx) (tok : List Byte) (s : State) : Out := keepQueue s <|
  done (dictCommand x 0x7032 0 1 (featOn s 8) (fun t =>
    if !Config.secdbgEn then ({ t with dbg := { t.dbg with tokRes := 4 } }, stRefused, [])
    else if t.dbg.tok.isSome then (t, stBusy, [])
    else if tok.length ≠ 3136 then (t, stTypeMismatch, [])
    else (tokenIn tok (some (x.sid, x.reqid)) t, stPending, [])) s)

/-- The Cloak processor verifies a debug token (R391, R437): a valid one unlocks its SCOPE and consumes the challenge. -/
def debugTokenOk (s : State) (tok chal : List Byte) : Bool :=
  let cur := match s.boot.chal with
    | some c => decide (c.1 = chal) && decide (sl tok 24 32 = c.1)
    | none => false
  tokenOk s 2 32 tok && cur && secdbgOk s

/-- TOKEN_VERIFY_DONE (R437 step 4, R438). -/
def execTokenVerifyDone (s : State) : Out := keepQueue s <|
  match s.dbg.tok with
  | none => done s
  | some (tok, chal) =>
    let ok := debugTokenOk s tok chal
    let sc : BitVec 13 := BitVec.ofNat 13 (leNat (sl tok 20 4))
    let s1 := { s with
      dbg := { s.dbg with tok := none, tokDict := none, tokRes := if ok then 1 else 2, scope := if ok then s.dbg.scope ||| sc else s.dbg.scope }
      boot := if ok then { s.boot with chal := none, dbgEver := true } else s.boot }
    match s.dbg.tokDict with
    | some c => done (cmdDoneFor ⟨c.1, c.2⟩ 0x7032 0 (if ok then stOK else stFailed) [] s1)
    | none => done s1

end Sys2Proof.Machine
end

