-- ==== Sys2Proof/Machine/Bist.lean ====
section
/-! DEFINITION. Built-in self-test (18 R439 to R445) and the TAP instructions other than DMI (R428, R437, R438, R444). -/

namespace Sys2Proof.Machine

/-- A self-test target's status. -/
def State.bist (s : State) (t : Nat) : BistSt := tabGet s.dbg.bist BistSt.reset t
def State.setBist (s : State) (t : Nat) (v : BistSt) : State := { s with dbg := { s.dbg with bist := tabSet s.dbg.bist BistSt.reset t v } }

/-- VEST.BIST registers (Table 18.9). -/
def rdBistCtl (s : State) : Word := cat [at_ 8 s.dbg.bTarget, at_ 0 s.dbg.bKind]
def rdBistStat (s : State) (t : Nat) : Word :=
  let b := s.bist t
  cat [at_ 61 b.state, at_ 58 b.err, at_ 56 b.kind, at_ 0 b.tend]
def rdBistSig (s : State) (t u k : Nat) : Word := tabGet s.dbg.sigs 0 ((t * 128 + u) * 2 + k)

/-- The outcome of a GO (R441, Table 18.9 ERR): 3 reserved encoding; 4 already running; 1 precondition not met; 2 four Sleeve runs
active; 0 accepted. -/
def goCheck (s : State) (t : Nat) (kind : BitVec 2) : Nat :=
  if kind = 0 ∨ (kind.getLsbD 1 = true ∧ featOn s 5 = false) then 3
  else if (s.bist t).state = 2 then 4
  else if t = 12 then 0
  else if slvPresent s t = false ∨ (s.pkg.slvHeld.getLsbD t = false ∧ (s.fstop (domainOf s t)).active = false) then 1
  else if 4 ≤ ((upto 12).filter fun k => (s.bist k).state == 2).length then 2
  else 0

/-- A GO for target `t` (R441, R442): a Sleeve run starts with its Sleeve in reset; a Vest run is armed. -/
def bistGo (t : Nat) (kind : BitVec 2) (s : State) : State × Nat :=
  let b := s.bist t
  match goCheck s t kind with
  | 0 =>
    if t = 12 then (s.setBist 12 { b with state := 1, err := 0, kind := kind }, 0)
    else (resetSleeve t (s.setBist t { b with state := 2, err := 0, kind := kind, step := 2 }), 0)
  | e => (s.setBist t { b with err := BitVec.ofNat 3 e }, e)

/-- A write to VEST.BIST.CTL: agents other than the management controllers and secure requests are discarded. A reserved TARGET or
KIND leaves its field (R7), and a GO with one fails with ERR 3. -/
def wrBistCtl (allowed : Bool) (v : Word) (s : State) : State :=
  if allowed = false then s
  else
    let t := fld v 8 4
    let k := fld v 0 2
    let tOk := decide (t.toNat ≤ 12)
    let kOk := decide (k ≠ 0) && (!k.getLsbD 1 || featOn s 5)
    let s1 := { s with dbg := { s.dbg with bTarget := if tOk then t else s.dbg.bTarget, bKind := if kOk then k else s.dbg.bKind } }
    if bit v 63 = false then s1
    else if tOk && kOk then (bistGo t.toNat k s1).1
    else s1.setBist s1.dbg.bTarget.toNat { s1.bist s1.dbg.bTarget.toNat with err := 3 }

/-- BIST_GO (R441). -/
def execBistGo (who : Agent) (v : BitVec 64) (s : State) : Out := keepQueue s <| sentBy who s <| done (wrBistCtl (domrstAllowed s who) v s)

/-- The signatures of a Sleeve run: one per unit and kind, at place 2u + k of the list. -/
def putSigs (t : Nat) (kind : BitVec 2) (l : List Word) (old : List (Nat × Word)) : List (Nat × Word) :=
  (upto 78).foldl (fun a i => if kind.getLsbD (i % 2) then tabSet a 0 ((t * 128 + i / 2) * 2 + i % 2) (l.getD i 0) else a) old

/-- Step 5 of a Sleeve run: the signatures appear, the Sleeve stays in reset and is released as before the run, by R380 or by the
domain reset that waited (R445). A BISTRUN ends. -/
def bistEnd (k : Nat) (l : List Word) (s : State) : State :=
  let b := s.bist k
  let d := domainOf s k
  let s1 := s.setBist k { b with state := 3, step := 0, tend := BitVec.ofNat 48 s.time, rst := false }
  let s2 := { s1 with dbg := { s1.dbg with sigs := putSigs k b.kind l s1.dbg.sigs } }
  let s2 := s2.setBist k { s2.bist k with ctx := none }
  let s3 := match b.ctx with
    | some c => cmdDoneFor ⟨c.1, c.2⟩ 0x8000 0 stOK [] (resetSleeve k s2)
    | none => resetSleeve k s2
  let more := (upto 12).any fun j => domainOf s3 j == d && (s3.bist j).state == 2
  let waits := b.rst || (s3.dbg.bist.any fun e => domainOf s3 e.1 == d && e.2.rst)
  if waits && !more then
    let s4 := { s3 with dbg := { s3.dbg with bist := s3.dbg.bist.map fun e => if domainOf s3 e.1 = d then (e.1, { e.2 with rst := false }) else e } }
    domReset (BitVec.ofNat 4 (2 ^ d)) s4
  else if b.rst then s3.setBist k { s3.bist k with rst := true }
  else settleRelease s3

/-- BIST_STEP_DONE (Table 18.8): steps 2 to 5 of a Sleeve run, those of kinds not selected being passed over. -/
def execBistStepDone (s : SleeveId) (sigs : List (BitVec 64)) (st : State) : Out := keepQueue st <|
  let b := st.bist s
  if b.state ≠ 2 then done st
  else
    let next : Nat := if b.step = 2 then (if b.kind.getLsbD 0 then 3 else 4) else if b.step = 3 then (if b.kind.getLsbD 1 then 4 else 5) else b.step + 1
    if b.step < 5 then done (st.setBist s { b with step := next })
    else
      let l := fillFree 78 (BitVec.ofNat 64) sigs st
      done (bistEnd s l.2 l.1)

/-- BISTRUN (OD 0x8000.00). -/
def execBistrun (x : DictCtx) (target kind : BitVec 8) (s : State) : Out := keepQueue s <|
  done (dictCommand x 0x8000 0 1 true (fun t =>
    if 12 < target.toNat ∨ 3 < kind.toNat then (t, stReserved, [])
    else
      let r := bistGo target.toNat (kind.setWidth 2) t
      let u := if r.2 = 0 ∧ target.toNat < 12 then
          r.1.setBist target.toNat { r.1.bist target.toNat with ctx := some (x.sid, x.reqid) } else r.1
      (u, match r.2 with
        | 0 => if target.toNat = 12 then stOK else stPending
        | 1 => stRefused
        | 3 => stReserved
        | _ => stBusy, [])) s)

/-- BISTDISARM (OD 0x8030.00): STATE[12] returns from 1 to 0. -/
def execBistdisarm (x : DictCtx) (s : State) : Out := keepQueue s <|
  done (dictCommand x 0x8030 0 1 true (fun t =>
    let b := t.bist 12
    (if b.state = 1 then t.setBist 12 { b with state := 0 } else t, stOK, [])) s)

/-- BISTRESULT (R443): the comparison of a unit's signatures with the golden ones of its die's revision. -/
def bistResult (s : State) (t u : Nat) : Nat :=
  let b := s.bist t
  let rev := (fuseMaj (fuseOf s t)).toNat * 256 + (fuseMin (fuseOf s t)).toNat
  let one (k : Nat) : Option Bool := if b.kind.getLsbD k then (Config.golden t u k rev).map fun g => decide (g = rdBistSig s t u k) else some true
  if b.state ≠ 3 ∨ s.own.holder = 0 then 0
  else match one 0, one 1 with
    | some m, some l => if m && l then 1 else if l then 2 else if m then 3 else 4
    | _, _ => 5

/-! ### The test access port -/

def setIr (n : Nat) (s : State) : State := { s with dbg := { s.dbg with ir := BitVec.ofNat 5 n } }

/-- TAP_RESET. -/
def execTapReset (s : State) : Out := keepQueue s <| done (setIr 1 s)

/-- The identification code (Table 18.1). -/
def idcode (s : State) : Word := at_ 28 ((fuseMaj (fuseOf s 12)).setWidth 4) ||| 0xA200A57

/-- IDCODE. -/
def execIdcode (s : State) : Out := keepQueue s <| done ((setIr 1 s).answerW (idcode s))

/-- The boundary register captures the lands, and its update latch takes what was shifted in. -/
def boundary (ir : Nat) (lands shift : BitVec 384) (s : State) : State :=
  { setIr ir s with
    dbg := { (setIr ir s).dbg with bsrIn := lands, bsrOut := shift }
    answer := .bytes (leBytes 48 lands.toNat) }

/-- SAMPLE_PRELOAD and EXTEST (under EXTEST the update latch drives the lands). -/
def execSamplePreload (lands shift : BitVec 384) (s : State) : Out := keepQueue s <| done (boundary 2 lands shift s)
def execExtest (lands shift : BitVec 384) (s : State) : Out := keepQueue s <| done (boundary 3 lands shift s)

/-- BYPASS: the register captures 0 and takes the bit shifted in. -/
def execBypass (tdi : Bool) (s : State) : Out := keepQueue s <|
  done { setIr 0x1F s with dbg := { (setIr 0x1F s).dbg with bypass := tdi }, answer := .word 0 }

/-- SECCHAL (R437 step 1). -/
def execSecchal (s : State) : Out := keepQueue s <|
  let r := newChallenge (setIr 0x12 s)
  done { r.1 with answer := .bytes r.2 }

/-- The unlock status (R438). -/
def unlockStatus (s : State) : Word := cat [at_ 28 s.dbg.tokRes, at_ 0 s.dbg.scope]

/-- SECTOKEN (R437 step 3, R438): the capture returns the unlock status; the update passes the token for verification. -/
def execSectoken (tok : List Byte) (s : State) : Out := keepQueue s <|
  let s1 := (setIr 0x13 s).answerW (unlockStatus s)
  if secdbgOk s = false then done { s1 with dbg := { s1.dbg with tokRes := 4 } }
  else if s.dbg.tok.isSome then done s1
  else
    let l := fillFree 3136 (BitVec.ofNat 8) tok s1
    done (tokenIn l.2 none l.1)

/-- BIST (R444): the capture returns STAT of the target last written; the update writes VEST.BIST.CTL as a controller does. -/
def execBist (v : BitVec 64) (s : State) : Out := keepQueue s <|
  done (wrBistCtl true v ((setIr 0x14 s).answerW (rdBistStat s s.dbg.bTarget.toNat)))

end Sys2Proof.Machine
end

