-- ==== Sys2Proof/Machine/MonCall.lean ====
section
/-! DEFINITION. The monitor calls of Table 3.5 (03 R71, R72), as the monitor serves them. -/

namespace Sys2Proof.Machine

/-- What a call returns: a1, or a status code of Table 3.6 (as its magnitude). -/
abbrev CallResult := State × Except Nat Word

/-- The listed call numbers. -/
def callListed (n : Nat) : Bool :=
  [0x09000000, 0x09000001, 0x09000010, 0x09000011, 0x09000020, 0x09000030].contains n

/-- A buffer lies wholly in non-secure DRAM or CXL memory that the caller's domain reaches (R72). -/
def bufferOk (s : State) (h a len : Nat) : Bool :=
  decide (a + len ≤ 2 ^ 52) && (linesOf a len).all fun n =>
    (regionOf s (64 * n) == .dram || regionOf s (64 * n) == .cxl) && !secureAddr s (64 * n) &&
    domainOk s (domainOf s (hartSleeve h)) (64 * n)

/-- The common checks of R72 in their order, then the call: a7, a6, the arguments, the buffers, and the monitor's policy and shared
resources, which the spec leaves to it: a free choice (log 75). -/
def callChecks (x : Hart) (argsOk bufsOk : Bool) (f : State → CallResult) (s : State) : CallResult :=
  if callListed (x.gx 17).toNat = false then (s, .error 2)
  else if x.gx 16 ≠ 0 ∨ argsOk = false then (s, .error 3)
  else if bufsOk = false then (s, .error 5)
  else match Config.freeNat s.free % 3 with
    | 1 => (s.draw, .error 4)
    | 2 => (s.draw, .error 6)
    | _ => f s.draw

/-- The monitor has been entered by a monitor call, and has not returned (R67). -/
def inCall (x : Hart) : Bool := x.sec && x.priv == 3 && x.c 0x342 == 9

/-- The monitor serves the call of hart `h` whose number is `n`: it writes a0 and a1 and mepc, and returns by UBX.WSWITCH
(R71). A hart about to make the call enters first (R67). -/
def serveCall (h n : Nat) (f : Hart → State → CallResult) (s0 : State) : State :=
  let x0 := s0.hart h
  if inCall x0 = false ∧ isMonCall x0 = false then s0.answerErr
  else
    let num := (x0.gx 17).toNat
    if num ≠ n ∧ callListed num = true then s0.answerErr
    else
      let s := if inCall x0 then s0 else monitorEntry h s0
      let r := f (s.hart h) s
      let st : Word := match r.2 with
        | .ok _ => 0
        | .error e => 0 - BitVec.ofNat 64 e
      let a1 : Option Word := match r.2 with
        | .ok v => some v
        | .error _ => none
      leaveSecure h (r.1.modHart h fun y =>
        let z := (y.setX 10 st).setC 0x341 (y.c 0x341 + 4)
        match a1 with
        | some v => z.setX 11 v
        | none => z)

/-- A call without buffers. -/
def plainCall (f : Hart → State → Word) (x : Hart) (s : State) : CallResult :=
  callChecks x true true (fun s => (s, .ok (f x s))) s

/-- CLOAK_VERSION. -/
def execCloakVersion (h : HartId) (s : State) : Out := keepQueue s <|
  done (byHart h (serveCall h 0x09000000 (plainCall fun _ _ => Config.monitorVersion.setWidth 32 |>.setWidth 64)) s)

/-- CLOAK_PROBE: 1 when the number in a0 is implemented. -/
def execCloakProbe (h : HartId) (s : State) : Out := keepQueue s <|
  done (byHart h (serveCall h 0x09000001 (plainCall fun x _ => if callListed (x.gx 10).toNat then 1 else 0)) s)

/-- HEM_QUERY. -/
def execHemQuery (h : HartId) (s : State) : Out := keepQueue s <|
  done (byHart h (serveCall h 0x09000020 (plainCall fun _ s => rdHem s)) s)

/-- CLAIM_QUERY. -/
def execClaimQuery (h : HartId) (s : State) : Out := keepQueue s <|
  done (byHart h (serveCall h 0x09000030 (plainCall fun _ s => rdClaim s)) s)

/-- ATTEST_REPORT (Table 3.5, R390): the nonce is read and the report written; a poisoned nonce fails the call. -/
def attestCall (h : Nat) (x : Hart) (s : State) : CallResult :=
  let a := (x.gx 10).toNat
  let len := (x.gx 11).toNat
  let nc := (x.gx 12).toNat
  callChecks x (decide (1936 ≤ len)) (bufferOk s h a len && bufferOk s h nc 32) (fun s =>
    let r := cohRead s nc 32
    if r.2 then (s, .error 1) else (cohWrite a (attReport s r.1) false s.draw, .ok 1936)) s
def execAttestReport (h : HartId) (s : State) : Out := keepQueue s <| done (byHart h (serveCall h 0x09000010 (attestCall h)) s)

/-- ALIAS_PUBKEY (Table 3.5). -/
def pubkeyCall (h : Nat) (x : Hart) (s : State) : CallResult :=
  let a := (x.gx 10).toNat
  let len := (x.gx 11).toNat
  callChecks x (decide (1793 ≤ len)) (bufferOk s h a len) (fun s =>
    (cohWrite a ((aliasPub s ++ zeros 1793).take 1793) false s, .ok 1793)) s
def execAliasPubkey (h : HartId) (s : State) : Out := keepQueue s <| done (byHart h (serveCall h 0x09000011 (pubkeyCall h)) s)

end Sys2Proof.Machine
end

