-- ==== Sys2Proof/Machine/Recover.lean ====
section
/-! DEFINITION. Enabling and disabling storage (09 R215), formatting (10 R468), recovery (11 R289 to R293) and its end. -/

namespace Sys2Proof.Machine

/-! ### Formatting (R262, R468) -/

/-- The good erase blocks of a die, lowest address first. -/
def goodBlocks (bad : List Nat) (die n : Nat) : List Nat := (upto n).filter fun a => !bad.contains (ebKey die a)

/-- The bands of a die slot: at each address where every die has a good block that is no spare, or a factory bad block that a
spare of its die, lowest address first, replaces. Answers the spares that remain by position and the bands with their blocks. -/
def formBands (bad : List Nat) (g k : Nat) : List Nat → List (List Nat) → List (List Nat) × List (Nat × List Nat)
  | [], sp => (sp, [])
  | a :: r, sp =>
    let pick (p : Nat) : Option Nat :=
      if bad.contains (ebKey (dieKey g p k) a) then (sp.getD p []).head?
      else if (sp.getD p []).contains a then none else some a
    let eb := (upto 16).filterMap pick
    if eb.length = 16 then
      let sp1 := sp.mapIdx fun p l => l.filter fun x => x ≠ eb.getD p 0
      let y := formBands bad g k r sp1
      (y.1, (bandNo g k a, eb) :: y.2)
    else formBands bad g k r sp

/-- The kinds of the seven fixed bands of a lane group (R249): four system bands, two parity-scratch bands, the escape band. -/
def fixedKinds : List Nat := [4, 4, 4, 4, 3, 3, 5]

/-- A band record as formatted. -/
def freshBand (eb : List Nat) : Band := { Band.none with st := .free, eb := eb }

/-- Format a lane group (R468): factory bad blocks, spares, bands, the seven fixed bands, journaled tables. -/
def formatLg (factory : List Nat) (g : Nat) (s : State) : State :=
  let t := s.lg g
  let n := t.geo.blocks
  let spn := (s.ftl.obj.sparePct * n + 999) / 1000
  let s1 := s.modLg g fun t => { t with fmt := true, spareN := spn, mres := s.ftl.obj.mres, scrUsed := 0, scrSel := false }
  let s2 := (upto t.geo.dies).foldl (fun a k =>
    let spares := (upto 16).map fun p =>
      let l := goodBlocks factory (dieKey g p k) n
      l.drop (l.length - spn)
    let y := formBands factory g k (upto n) spares
    let a1 := (upto 16).foldl (fun b p => (upto n).foldl (fun c x =>
      let key := ebKey (dieKey g p k) x
      let st := if factory.contains key then 3 else if (y.1.getD p []).contains x then 2 else 0
      jotEb key (c.modEblk key fun e => { e with state := st })) b) a
    y.2.foldl (fun b e => b.modBand e.1 fun _ => freshBand e.2) a1) s1
  let mine := ((s2.ftl.maps.bands.filter fun e => bnLg e.1 == g).map (·.1)).take 7
  (mine.zip fixedKinds.zipIdx).foldl (fun a e =>
    let a1 := (upto 16).foldl (fun b p => b.modEblk (bandEb b e.1 p) fun x => { x with ec := x.ec + 1, state := 1 }) a
    a1.modBand e.1 fun b => { b with st := .fixed, kind := e.2.1, seg := e.2.2, slc := true }) s2

/-! ### Replay (R289) -/

/-- Apply a journal record to the maps; each record states new values, so applying it twice changes nothing more (R287). -/
def applyRec (m : Maps) (r : JRec) : Maps :=
  let seg (g : Nat) : SegEnt := tabGet m.segs SegEnt.reset g
  let setSeg (g : Nat) (e : SegEnt) (m : Maps) : Maps := { m with segs := tabSet m.segs SegEnt.reset g e }
  let modBand (b : Nat) (f : Band → Band) (m : Maps) : Maps := { m with bands := tabSet m.bands Band.none b (f (tabGet m.bands Band.none b)) }
  let hasDesc (g : Nat) : Bool := m.descs.any fun d => d.seg == g
  match r.op with
  | .segmap g e =>
    let m1 := if e.busy then m else { m with descs := m.descs.filter fun d => d.seg ≠ g }
    let m2 := if e.v then modBand e.band (fun b => { b with st := .mapped, seg := g, parity := false }) m1 else m1
    setSeg g e m2
  | .slotBind j g bn tid =>
    let m1 := { m with slots := tabSet m.slots LogSlot.reset j ⟨true, g, bn, 0, tid, 0⟩ }
    let m2 := modBand bn (fun b => { b with st := .open_, kind := 2, seg := g, slc := true }) m1
    if m.descs.any fun d => d.seg == g && d.run then
      { m2 with descs := m2.descs.map fun d => if d.seg = g then { d with succ := some j } else d }
    else m2
  | .slotFree j => { m with slots := tabSet m.slots LogSlot.reset j LogSlot.reset }
  | .discard .. => m
  | .mergeStart g succ fromFill dest =>
    let d : FDesc := ⟨g, fromFill, dest, 0, true, succ, r.rseq, false, none, 2, 0⟩
    let m1 := modBand dest (fun b => { b with st := .open_, seg := g, slc := false, parity := true }) m
    let m2 := setSeg g { seg g with busy := true } m1
    if hasDesc g then
      { m2 with descs := m2.descs.map fun x => if x.seg = g then { x with run := true, succ := succ, dest := dest, rseq := r.rseq } else x }
    else { m2 with descs := m2.descs ++ [d] }
  | .mergeDone g oldData oldLog =>
    match m.descs.find? (·.seg = g) with
    | none => m
    | some d =>
      let m1 := setSeg g { seg g with v := true, band := d.dest, busy := false, log := d.succ.isSome, idx := d.succ.getD 0 } m
      let m2 := modBand d.dest (fun b => { b with st := .mapped, parity := false }) { m1 with descs := m1.descs.filter fun x => x.seg ≠ g }
      (oldData.toList ++ oldLog.toList).foldl (fun a b => modBand b (fun b => { b with st := .erase }) a) m2
  | .fillOpen g dest =>
    let d : FDesc := ⟨g, true, dest, 0, false, none, r.rseq, false, none, 2, 0⟩
    let m1 := modBand dest (fun b => { b with st := .open_, kind := 1, seg := g, slc := false, parity := true }) m
    if hasDesc g then m1 else setSeg g { seg g with busy := true } { m1 with descs := m1.descs ++ [d] }
  | .erased bn => modBand bn (fun b => if b.st = .gone then b else { b with st := if 3 ≤ b.kind then .fixed else .free, due := 0 }) m
  | .block k e => { m with ebs := tabSet m.ebs EBlk.reset k e }
  | .bandMap bn pos eb =>
    match eb with
    | some x => modBand bn (fun b => { b with eb := b.eb.set pos x }) m
    | none => dissolve bn m
  | .namespace_ n v => { m with nss := tabSet m.nss Ns.reset n v }
  | .time _ | .checkpoint .. => m

/-- The records after a checkpoint (R289), in JNUM order; none at a gap: a record readable in neither copy, or a missing
number. -/
def replayList (last : Nat) (bad : List Nat) : List JRec → Option (List JRec)
  | [] => some []
  | r :: l =>
    if bad.contains r.jnum ∨ r.jnum ≠ (last + 1) % 2 ^ 32 then none
    else (replayList r.jnum bad l).map (r :: ·)

/-- Records of the journal that follow record `last`. -/
def afterRec (last : Nat) (l : List JRec) : List JRec :=
  if l.any fun r => r.jnum = last then (l.dropWhile fun r => r.jnum ≠ last).drop 1 else l

/-- A unit of a bound log band at recovery: decoded by steps 0 to 3, unreadable, or erased. -/
inductive LogUnit where
  | erased
  | lost
  | unit (u : FUnit)
deriving DecidableEq, Repr

def logUnit (s : State) (bad : List Nat) (bn l : Nat) : LogUnit :=
  match mediaAt s bn (unitPos l) (unitIdx l) with
  | none => .erased
  | some u => if u.bad || bad.contains (unitKey (bandEb s bn (unitPos l)) (unitIdx l)) then .lost else .unit u

/-- Rebuild the page map of slot `j` (R291): the unit with the largest SEQ of each offset; the next free log unit; whether a
unit cannot be decoded. -/
def rebuildPm (bad : List Nat) (j : Nat) (s : State) : State × Bool :=
  let t := s.slot j
  let cap := logCap (s.lg (bnLg t.band)).geo
  let step (a : (State × Bool) × List (Nat × Nat)) (l : Nat) : (State × Bool) × List (Nat × Nat) :=
    match logUnit a.1.1 bad t.band l with
    | .erased => a
    | .lost => ((a.1.1.modSlot j fun x => { x with next := l + 1 }, true), a.2)
    | .unit u =>
      let s1 := a.1.1.modSlot j fun x => { x with next := l + 1 }
      if u.seg = t.seg ∧ u.hdr = false ∧ tabGet a.2 0 u.page < u.seq + 1 then
        ((pmSet j u.page (.unit l) s1, a.1.2), tabSet a.2 0 u.page (u.seq + 1))
      else ((s1, a.1.2), a.2)
  ((upto cap).foldl step ((pmClear j s, false), [])).1

/-- The SEQ of the unit that a page map entry points to. -/
def pmSeq (s : State) (j o : Nat) : Nat :=
  match pmGet s j o with
  | .unit l => (match mediaAt s (s.slot j).band (unitPos l) (unitIdx l) with
    | some u => u.seq + 1
    | none => 0)
  | _ => 0

/-- Replayed DISCARD records set D where their RSEQ exceeds the SEQ of the unit found (R291). -/
def applyDiscards (l : List JRec) (s : State) : State :=
  l.foldl (fun a r => match r.op with
    | .discard j o n => if (a.slot j).bound then (upto n).foldl (fun b i => if pmSeq b j (o + i) ≤ r.rseq then pmSet j (o + i) .disc b else b) a else a
    | _ => a) s

/-- The lowest offset of a fill that is neither programmed nor rebuildable from its stripe parity (R292). -/
def fillNext (s : State) (bad : List Nat) (bn : Nat) : Nat :=
  let n := segBlk (s.lg (bnLg bn)).geo
  match (upto n).find? fun o => (match mediaAt s bn (unitPos o) (unitIdx o) with
      | none => true
      | some u => (u.bad || bad.contains (unitKey (bandEb s bn (unitPos o)) (unitIdx o))) && decide ((s.band bn).mir ≤ unitIdx o)) with
  | some o => o
  | none => n

/-- Resolve one interrupted merge or fill (Table 11.9, R292). A merge restarts at step 1 with a new DEST and keeps its
successor; a fill, and a merge of one, go on from NEXT. -/
def resolveDesc (bad : List Nat) (d : FDesc) (s : State) : State :=
  let g := d.seg
  if d.fill then
    let nx := fillNext s bad d.dest
    let mirrored := (upto (ebu (s.lg (bnLg d.dest)).geo)).filter fun u => stripeDone s d.dest u
    let s1 := s.modBand d.dest fun b => { b with mir := max b.mir mirrored.length }
    let s2 := s1.modDesc g fun d => { d with next := nx, step := 2 }
    let cut := (upto 16).any fun p => (upto (ebu (s.lg (bnLg d.dest)).geo)).any fun u => match mediaAt s d.dest p u with
      | some x => x.bad
      | none => false
    if cut then rebuildBand d.dest s2 else closeCheck d.dest (copyNext g s2)
  else
    let s1 := condemn d.dest s
    match pickFree s1 (maskOfSeg s1 g) true (!hotNow s1 g) with
    | none => s1.modBand d.dest fun b => { b with due := 6 }
    | some nb =>
      let s2 := openBand nb 0 (hotNow s1 g) g false (s1.modSeg g fun e => { e with hot := hotNow s1 g })
      copyNext g (jot (.mergeStart g d.succ false nb) (s2.modDesc g fun d => { d with dest := nb, next := 0, step := 2, rseq := s2.ftl.seq }))

/-- A band is referenced by the maps. -/
def bandUsed (s : State) (bn : Nat) : Bool :=
  (s.ftl.maps.segs.any fun e => e.2.v && e.2.band == bn) || ((boundSlots s).any fun e => e.2.band == bn) ||
    (s.ftl.maps.descs.any fun d => d.dest == bn || (rebBand d).contains bn)

/-- Bands that the recovered maps do not reference return to the free pool and are erased before their next use (R289). -/
def reclaimUnused (s : State) : State :=
  let l := s.ftl.maps.bands.filter fun e => e.2.st ≠ .gone && e.2.st ≠ .fixed
  l.foldl (fun a e =>
    if bandUsed a e.1 then a
    else
      let dirty := e.2.st ≠ .free || (upto 16).any fun p => a.ftl.media.any fun m => m.1 / 1048576 == bandEb a e.1 p
      if dirty then condemn e.1 a else a) s

/-- A merge that a lost log unit forces (R291): it starts at once, whatever MAXOPEN leaves. -/
def mergeUnk (g : Nat) (s : State) : State :=
  let r := mergeStart g false 0 (s.modFtl fun t => { t with maxopenF := openNative s + 1 })
  (r.1.modFtl fun t => { t with maxopenF := s.ftl.maxopenF }).modDesc g fun d => { d with unk := true }

/-! ### Re-ingest (R292) -/

/-- Place a block of the drain as a new write that keeps its SEQ. -/
def placeDrained (g o q : Nat) (data : List Byte) (unrec : Bool) (s : State) : State :=
  let mask := maskOfSeg s g
  let x := prepSeg g o 1 false mask 0 s
  let forced (t : State) : State :=
    let l := (usableLgs t).filter fun k => inMask mask k && decide ((freeBands t k) ≠ [])
    match l.head?, (upto 1024).find? fun j => !(t.slot j).bound with
    | some k, some j =>
      (match pickBand (bandEc t) false (freeBands t k) with
      | some bn =>
        let t1 := (pmClear j (openBand bn 2 (t.seg g).hot g true t)).modSlot j fun _ => ⟨true, g, bn, 0, 0, t.time⟩
        let t2 := jot (.slotBind j g bn 0) t1
        (match t2.desc g with
          | some _ => t2.modDesc g fun d => { d with run := true, succ := some j }
          | none => jotSeg g (t2.modSeg g fun e => { e with log := true, idx := j }))
      | none => t)
    | _, _ => t
  let s1 := if x.2 = .ok then x.1 else forced x.1
  let s2 := if x.2 = .full then
      (match nsOfSeg s1 g with
        | some n => if (s1.ns n).state = 1 then protectNs n s1 else s1
        | none => s1) else s1
  let r := reserveBlk g o 0 data unrec s2
  let id := r.1.pls.nextSlot
  let p : PSlot := ⟨id, g, o, q, data, unrec, 0, r.2.bn, r.2.unit, r.2.log, false, false, 0, none⟩
  let s3 := r.1.modPls fun t => { t with
    nextSlot := id + 1
    slots := (t.slots.map fun x => if x.seg = g ∧ x.off = o then { x with super := true } else x) ++ [p] }
  let s4 := match r.2.log with
    | some j => pmSet j o (.unit r.2.unit) s3
    | none => s3
  issueOp (.progSlot id) r.2.bn (unitPos r.2.unit * 1048576 + unitIdx r.2.unit) none []
    ⟨data, g, false, false, unrec, false, o, q, r.2.bn, false⟩ s4

/-- The rebuilt maps already hold a unit of the offset with GC = 0 and a SEQ at least the entry's, or a DISCARD with a larger
RSEQ covers it. -/
def alreadyHeld (s : State) (recs : List JRec) (e : DrainEnt) : Bool :=
  (match locate s e.seg e.off with
    | .unit bn u _ => (match mediaAt s bn (unitPos u) (unitIdx u) with
      | some x => !x.gc && decide (e.seq ≤ x.seq)
      | none => false)
    | _ => false) ||
  recs.any fun r => match r.op with
    | .discard j o n => decide ((s.slot j).seg = e.seg ∧ o ≤ e.off ∧ e.off < o + n ∧ e.seq < r.rseq)
    | _ => false

/-- One manifest entry (R292). -/
def reingest (recs : List JRec) (bad : List Nat) (s : State) (e : DrainEnt) : State :=
  let live := match nsOfSeg s e.seg with
    | some n => decide ((s.ns n).state = 1 ∨ (s.ns n).state = 2)
    | none => false
  if !live then s
  else if alreadyHeld s recs e then s
  else
    match (if bad.contains e.seq then none else e.data) with
    | some d => placeDrained e.seg e.off e.seq d e.unrec s
    | none => (placeDrained e.seg e.off e.seq [] true s).modPls fun p => { p with unrec := satInc p.unrec }

/-! ### Recovery -/

/-- LAST (Table 11.2), from the drain bands. -/
def drainLast : Option DrainImg → Nat
  | none => 0
  | some d => if d.done then (if d.main then 4 else 1) else if d.manOk then 2 else 3

/-- The largest of a list of numbers. -/
def maxOf (l : List Nat) : Nat := l.foldl max 0

/-- Restore the counters (R290). -/
def restoreCounters (ck : Ckpt) (recs : List JRec) (d : Option DrainImg) (s : State) : State :=
  let seqs := ck.seq :: (recs.map (·.rseq)) ++ (s.ftl.media.map fun e => e.2.seq) ++
    (match d with
      | some d => d.seq :: d.man.map (·.seq)
      | none => [])
  let times := ck.mtime :: (recs.filterMap fun r => match r.op with
    | .time t => some t
    | _ => none) ++ (match d with
      | some d => [d.mtime]
      | none => [])
  s.modFtl fun t => { t with seq := maxOf seqs + 1, mtOff := maxOf times - s.time }

/-- Recovery (R289): the state it leaves, and its outcome (0, or RCAUSE). -/
def recover (m : MediaFacts) (s : State) : State × Nat :=
  let anyFmt := s.ftl.lgs.any fun e => e.2.fmt
  let ok := s.pls.cks.filter fun k => !m.ckBad.contains k.num
  let newLgs (t : State) : List Nat := (usableLgs t).filter fun g => !(t.lg g).fmt
  if anyFmt && !m.sysOk then (s, 4)
  else
    match ok.getLast? with
    | none =>
      if anyFmt then (s, 1)
      else
        let s1 := (newLgs s).foldl (fun a g => formatLg m.factory g a) s
        (s1, 0)
    | some ck =>
      match replayList ck.jnum m.jBad (afterRec ck.jnum s.pls.jrn) with
      | none => (s, 2)
      | some recs0 =>
        if s.pls.drain.isSome && !m.drainOk then (s, 3)
        else
          let lastJ := (recs0.getLast?.map (·.jnum)).getD ck.jnum
          let dj := match s.pls.drain with
            | some d => afterRec lastJ d.jrn
            | none => []
          match replayList lastJ [] dj with
          | none => (s, 2)
          | some recs1 =>
            let recs := recs0 ++ recs1
            let s1 := (s.modMaps fun _ => (recs.foldl applyRec ck.maps)).modPls fun p => { p with
              jnum := (((recs.getLast?.map (·.jnum)).getD ck.jnum) + 1) % 2 ^ 32, ckNum := ck.num
              jrn := p.jrn ++ recs1, last := BitVec.ofNat 4 (drainLast p.drain) }
            let s2 := restoreCounters ck recs s.pls.drain s1
            let pm := (boundSlots s2).foldl (fun a e =>
              let r := rebuildPm m.unitBad e.1 a.1
              (r.1, if r.2 then e.2.seg :: a.2 else a.2)) (s2, [])
            let s3 := applyDiscards recs pm.1
            let s4 := s3.ftl.maps.descs.foldl (fun a d => resolveDesc m.unitBad d a) s3
            let s5 := pm.2.foldl (fun a g =>
              let a1 := mergeUnk g a
              report (mkReport 0x6800 3 0x050 false 16 (leBytes 4 g)) a1) s4
            let s6 := match s.pls.drain with
              | some d => d.man.foldl (reingest recs m.drainBad) s5
              | none => s5
            let s7 := (newLgs s6).foldl (fun a g => formatLg m.factory g a) s6
            let inc := match s.pls.drain with
              | some d => if d.done || d.manOk then s7 else report (mkReport 0x6800 0 0x052 false 8 (leBytes 4 (d.cnt - d.man.length))) s7
              | none => s7
            (tryErases (reclaimUnused inc), 0)

/-- DLIM in bytes (R278). -/
def dlimOf (s : State) : Nat :=
  min 260046848 ((usableLgs s).foldl (fun a g =>
    let t := (s.lg g).geo
    a + 16 * t.planes * 16384 * (4000 / max 1 t.tPS)) 0)

/-- The refusal code of an enable (Table 9.2), 0 when every condition holds. -/
def enableRefusal (s : State) : Nat :=
  if !s.dram.mapLock || !s.dram.pwben then 3
  else if s.cloak.hemAddr.toNat * 2097152 < 0x000110000000 then 4
  else if !s.boot.mediaFw || !s.ftl.rLock then 5
  else if usableLgs s = [] then 6
  else 0

/-- A write of EN = 1 (R215). -/
def storEnable (m : MediaFacts) (s : State) : State :=
  if s.stor.st = 0 ∨ s.stor.st = 7 ∨ (3 ≤ s.stor.st.toNat ∧ s.stor.st.toNat ≤ 6) then
    match enableRefusal s with
    | 0 =>
      let s1 := { s with
        stor := { s.stor with st := 1, dref := false }
        ftl := { s.ftl with maxopenF := s.ftl.obj.maxopen, pm := [], ops := [], maps := Maps.reset } }
      let s2 := s1.modPls fun p => { p with
        slots := [], tail := [], snap := none, recAt := s.time, dlim := dlimOf s1, last := 0, unrec := 0 }
      let r := recover m s2
      r.1.modPls fun p => { p with recRes := r.2 }
    | c => { s with stor := { s.stor with st := BitVec.ofNat 4 c } }
  else s

/-- A write of EN = 0 (R215). -/
def storDisable (s : State) : State :=
  if s.stor.st = 2 then
    if s.stor.pairs.any fun e => e.2.en then { s with stor := { s.stor with dref := true } }
    else { s with stor := { s.stor with en := false, st := 8, dref := false } }
  else s

/-- The facts of an enable when the media return everything. -/
def goodMedia : MediaFacts := ⟨[], [], [], true, true, [], []⟩

/-- STOR_ENABLE (R215). -/
def execStorEnable (who : Agent) (v : BitVec 64) (m : MediaFacts) (s : State) : Out := keepQueue s <| sentBy who s <|
  done (if bit v 63 then storEnable m s else storDisable s)

/-- STOR_DISABLE (R215). -/
def execStorDisable (who : Agent) (v : BitVec 64) (s : State) : Out := keepQueue s <| sentBy who s <|
  done (if bit v 63 then storEnable goodMedia s else storDisable s)

/-- After recovery (R265): the ages grow by OFFTIME, and the first data unit of every closed band is read. -/
def afterRecovery (s : State) : State :=
  let l := (usedBands s).filter fun b => (s.band b).st = .mapped
  let s1 := l.foldl (fun a b => ageBand b s.ftl.offtime a) s
  let s2 := s1.modFtl fun t => { t with offtime := 0 }
  l.foldl (fun a b => issueOp .sample b 1 none [2] FUnit.none a) s2

/-- Segments that belong to no namespace, or to one in STATE 3, are released, and such a deletion reaches STATE 0 (14 R373). -/
def releaseLeft (s : State) : State :=
  let dead (g : Nat) : Bool := match nsOfSeg s g with
    | some n => decide ((s.ns n).state = 3)
    | none => true
  let segs := (s.ftl.maps.segs.map (·.1)).filter dead
  let s1 := segs.foldl (fun a g => releaseSeg g a) s
  (s1.ftl.maps.nss.filter fun e => e.2.state = 3).foldl (fun a e => jotNs e.1 (a.setNs e.1 Ns.reset)) s1

/-- RECOVERY_DONE (R289, R215): with every placed unit released, the drain bands are erased, a checkpoint covers the state,
WT follows LOW, and ST is 0x2; after a failure ST is 0x7 with RCAUSE. The flash mirror becomes available. -/
def execRecoveryDone (s : State) : Out := keepQueue s <|
  if s.stor.st ≠ 1 then done s
  else if s.pls.recRes ≠ 0 then
    done ({ s with stor := { s.stor with st := 7, en := false } }.modPls fun p => { p with
      rcause := BitVec.ofNat 4 p.recRes, recTime := (s.time - p.recAt) / 100000, dlim := 0, slots := [] })
  else if s.pls.slots ≠ [] then done s
  else
    let s1 := { s with stor := { s.stor with st := 2, en := true, wt := s.hold.low } }
    let s2 := releaseLeft (flushTail s1)
    let k := snapshot s2
    let s2 := ckptErase k.num (if s2.pls.drain.isSome then (usableLgs s2).foldl (fun a g => condemn (sysBand s2 g 2) a) s2 else s2)
    let s3 := s2.modPls fun p => { p with
      drain := none, recTime := (s.time - p.recAt) / 100000, cks := [k], ckNum := k.num, jrn := [], jUnits := 0, tail := []
      mapChg := 0, ckAt := s.time, timeAt := s.time }
    let s4 := s3.modFtl fun t => { t with ageAt := s.time, decayAt := s.time }
    done (mirUp (settleMedia (afterRecovery s4)))

/-- STOR_DISABLE_DONE (R295): every dirty slot is released; the journal tail and a checkpoint are written; ST is 0x0. -/
def execStorDisableDone (s : State) : Out := keepQueue s <|
  if s.stor.st = 8 ∧ s.pls.slots = [] then
    let s1 := flushTail (dropOps (fun _ => true) s)
    let k := snapshot s1
    let s2 := s1.modPls fun p => { p with cks := [k], ckNum := k.num, jrn := [], jUnits := 0, tail := [], snap := none, dlim := 0 }
    done { s2 with stor := { s2.stor with st := 0, wt := false } }
  else done s

/-- VEST.PLS.STAT (Table 11.2). -/
def rdPlsStat (s : State) : Word :=
  cat [at_ 60 s.pls.last, at_ 56 s.pls.rcause, at_ 32 (BitVec.ofNat 16 (s.pls.dlim / 1048576)), at_ 16 (BitVec.ofNat 16 (dirtySlots s)),
    at_ 0 s.pls.unrec]

end Sys2Proof.Machine
end

