-- ==== Sys2Proof/Machine/SlvCache.lean ====
section
/-! DEFINITION. Sleeve-cache control (05 R114 to R120): scratch conversion, way power-down, and the drain of merge entries. -/

namespace Sys2Proof.Machine

/-- The ways 15 down to 16 − n: the scratch ways of a COUNT (Table 5.6). -/
def scratchWays (n : Nat) : BitVec 16 := maskOf 16 fun w => decide (16 - n ≤ w)

/-- ERR and nothing else (R115). -/
def l3Err (k : Nat) (e : BitVec 2) (s : State) : State := s.modSlv k fun v => { v with err := e }

/-- A write to SCRATCH.COUNT (R115, Table 5.7, Tables 5.8 and 5.9 step 1). -/
def wrScratch (k : Nat) (w : Word) (s : State) : State :=
  let v := s.slv k
  let n := fld w 0 4
  if v.busy then l3Err k 3 s
  else if 8 < n.toNat ∨ (n ≠ 0 ∧ featOn s 2 = false) then l3Err k 1 s
  else if scratchWays n.toNat &&& v.wayReq ≠ 0 then l3Err k 2 s
  else if n = v.count then l3Err k 0 s
  else
    let up := decide (v.count.toNat < n.toNat)
    s.modSlv k fun v => { v with
      err := 0, busy := true, count := n, convTo := some n.toNat, convStep := 1
      drain := if up then scratchWays n.toNat &&& ~~~ v.scr else v.drain }

/-- Entries of a sleeve-cache way. -/
def wayEnts (s : State) (k w : Nat) : List CLine := ((s.slv k).l3.ents.filter fun e => e.1 % 16 == w).map (·.2)

/-- Every dirty line of a way is written to its home and every line invalidated. -/
def emptyWay (k w : Nat) (s : State) : State := (wayEnts s k w).foldl (fun a e => l3Evict k e a) s

/-- The contents of a scratch way are cleared (R122: unwritten words read as zero), with their merge entries. -/
def clearScratch (k way : Nat) (s : State) : State :=
  let lo := 0x20000000 + k * 0x4000000 + 0x2000000 + way * 0x300000
  let inR (a : Nat) : Bool := decide (lo ≤ a ∧ a < lo + 0x300000)
  let s1 := s.modSlv k fun v => { v with merge := (v.merge.map fun e => (e.1, e.2.filter fun m => !inR (8 * m.word))).filter fun e => e.2 ≠ [] }
  { s1 with dram := { s1.dram with
      mem := s1.dram.mem.filter fun e => !inR e.1
      poison := s1.dram.poison.filter fun e => !inR (64 * e.1) } }

/-- Every copy of a removed-range line in the Sleeve's core caches is invalidated and its dirty data discarded. -/
def dropScratchCopies (k way : Nat) (s : State) : State :=
  let lo := (0x20000000 + k * 0x4000000 + 0x2000000 + way * 0x300000) / 64
  let inR (n : Nat) : Bool := decide (lo ≤ n ∧ n < lo + 0xC000)
  ((s.slv k).sf.filter fun e => inR e.2.line).foldl (fun a e =>
    let b := ((upto 20).filter fun c => e.2.pres.getLsbD c).foldl (fun b c => coreDrop (coreId k c) e.2.line b) a
    sfWrite k e.1 { e.2 with pres := 0 } b) s

/-- The numbers of the scratch ways between two counts. -/
def waysFrom (a b : Nat) : List Nat := (upto 8).filter fun w => decide (a ≤ w ∧ w < b)

/-- SCRATCH_STEP_DONE (Tables 5.8, 5.9): steps 2, 3 and 4 of the conversion. -/
def execScratchStepDone (k : SleeveId) (s : State) : Out := keepQueue s <|
  let v := s.slv k
  match v.convTo with
  | none => done s
  | some n =>
    let old := (upto 16).foldl (fun a w => if v.scr.getLsbD w then a + 1 else a) 0
    let next (s : State) : State := s.modSlv k fun v => { v with convStep := v.convStep + 1 }
    let fin (s : State) : State := s.modSlv k fun v => { v with convTo := none, convStep := 0, busy := false, drain := 0 }
    if old < n then
      match v.convStep with
      | 1 => done (next ((upto 16).foldl (fun a w => if v.drain.getLsbD w then emptyWay k w a else a) s))
      | 2 => done (next ((waysFrom old n).foldl (fun a w => clearScratch k w a) s))
      | _ => done (fin (s.modSlv k fun v => { v with scr := scratchWays n }))
    else if n < old then
      match v.convStep with
      | 1 => done (next ((waysFrom n old).foldl (fun a w => dropScratchCopies k w a) s))
      | _ => done (next (((waysFrom n old).foldl (fun a w => clearScratch k w a) s).modSlv k fun v => { v with scr := scratchWays n }))
    else done (fin s)

/-- BUSY of way power transitions ends with the last way (R119, R120). -/
def wayBusy (k : Nat) (s : State) : State := s.modSlv k fun v => { v with busy := decide (v.drain ≠ 0 ∨ v.powerUp ≠ 0) }

/-- A write to WAYPD.REQ (R115, Table 5.7). -/
def wrWaypd (k : Nat) (w : Word) (s : State) : State :=
  let v := s.slv k
  let r := fld w 0 16
  if v.busy then l3Err k 3 s
  else if r ≠ 0 ∧ featOn s 3 = false then l3Err k 1 s
  else if r &&& v.scr ≠ 0 then l3Err k 2 s
  else if r = v.wayReq then l3Err k 0 s
  else wayBusy k (s.modSlv k fun v => { v with
    err := 0, wayReq := r, drain := r &&& ~~~ v.wayReq, powerUp := v.wayReq &&& ~~~ r })

/-- WAY_DRAIN_DONE (Table 5.10, step 3): no dirty line remains; every line is invalidated and the way powered off. The ways that the
same write powers up are ready first (R120). -/
def execWayDrainDone (k : SleeveId) (w : Fin 16) (s : State) : Out := keepQueue s <|
  let v := s.slv k
  if v.convTo.isSome || decide (v.powerUp ≠ 0) || !v.drain.getLsbD w then done s
  else
    done (wayBusy k ((emptyWay k w s).modSlv k fun v => { v with off := setBit v.off w true, drain := setBit v.drain w false }))

/-- WAY_POWER_UP_DONE (R120): the way rejoins replacement empty. -/
def execWayPowerUpDone (k : SleeveId) (w : Fin 16) (s : State) : Out := keepQueue s <|
  if !(s.slv k).powerUp.getLsbD w then done s
  else done (wayBusy k (s.modSlv k fun v => { v with off := setBit v.off w false, powerUp := setBit v.powerUp w false }))

/-- SLV[s].L3C registers (Table 5.6). -/
def rdL3Scratch (s : State) (k : Nat) : Word := at_ 0 (s.slv k).count
def rdL3Waypd (s : State) (k : Nat) : Word := at_ 0 (s.slv k).wayReq
def rdL3Stat (s : State) (k : Nat) : Word :=
  let v := s.slv k
  cat [at_ 32 v.off, at_ 16 v.scr, at_ 2 v.err, on 0 v.busy]
def rdL3Ecc (s : State) (k : Nat) : Word := cat [at_ 32 (s.slv k).uecnt, at_ 0 (s.slv k).cecnt]
def wrL3Ecc (k : Nat) (w : Word) (s : State) : State :=
  s.modSlv k fun v => { v with uecnt := fld w 32 32, cecnt := fld w 0 32, ceBase := fld w 0 32 }

/-- MERGE_ENTRY_IDLE_DRAIN (R127, R128): the entry of a word drains after its idle bound. Where the drain finds the old word
uncorrectable, the merged bytes are written and the line or granule is poisoned. -/
def execMergeEntryIdleDrain (b : MergeBank) (word : Nat) (s : State) (ue : Bool := false) : Out := keepQueue s <|
  let s1 := drainEntry b word s
  done (if ue && (mergeEnts s b).any (fun e => e.word == word) then homeUe (8 * word) s1 else s1)

end Sys2Proof.Machine
end

