-- ==== Sys2Proof/Machine/Thermal.lean ====
section
/-! DEFINITION. Thermal sensing, the thermal model and caps, thermal shutdown, flow demand and the valve (13 R336 to R343).
Sensor readings are in milli-degrees Celsius; the model is computed in exact rational arithmetic (log 22). -/

namespace Sys2Proof.Machine

/-- HSC's lowering starts at TJ_CTL + 3 °C and lasts until the reading falls below TJ_CTL (R340). -/
def hscLowering (o : ThmObj) (was : Bool) (hot : Int) : Bool :=
  if (o.tjCtl + 3 : Int) * 1000 ≤ hot then true else if hot < (o.tjCtl : Int) * 1000 then false else was

/-- The readings of one Sleeve's four sensors reach its hotspot cap (R340): 105 °C sets HSC to 0. -/
def hotSample (k : Nat) (rs : List Int) (s : State) : State :=
  let hot := maxReading ((rs.drop (4 * k)).take 4)
  plApply k (s.modSlvPwr k fun v => { v with
    hot := hot
    hscLow := hscLowering s.tobj v.hscLow hot
    hsc := if 105000 ≤ hot then 0 else v.hsc })

/-- THERMAL_SENSOR_SAMPLE (R336, R340): the 56 sensors, four of each Sleeve and then eight of the Vest. -/
def execThermalSensorSample (readings : List Int) (s : State) : Out := keepQueue s <|
  let l := fillFree 56 Int.ofNat readings s
  let s1 := { l.1 with thm := { l.1.thm with sensors := l.2, tj := maxReading l.2 } }
  done ((presentSleeves s).foldl (fun a k => hotSample k l.2 a) s1)

/-- Report a coolant fault once per onset (R343). -/
def reportCoolant (fault : Nat) (onset : Bool) (s : State) : State :=
  if onset then report (mkReport 0x8FFF 0 0x045 false 8 (leBytes 1 fault)) s else s

/-- A thermistor reading is out of its range (Table 13.11). -/
def coolantBad (t : Int) : Bool := decide (t < -10000 ∨ 100000 < t)

/-- COOLANT_SAMPLE (R336, R343). -/
def execCoolantSample (tin tout : Int) (s : State) : Out := keepQueue s <|
  let t := s.thm
  let bi := coolantBad tin
  let bo := coolantBad tout
  let s1 := { s with thm := { t with
      tin := tin, tout := tout, tinBad := bi, toutBad := bo, inLow := !bi && decide (tin < 17000) } }
  done (reportCoolant 1 (bo && !t.toutBad) (reportCoolant 0 (bi && !t.tinBad) s1))

/-- FLOW_PULSE (R336, Table 19.8): a pulse shorter than 10 µs is rejected, one of 50 µs or more is counted; for widths
between, which the spec does not settle, the outcome is a free value. -/
def execFlowPulse (widthUs : Nat) (s : State) : Out := keepQueue s <|
  let count := decide (50 ≤ widthUs) || (decide (10 ≤ widthUs) && decide (Config.freeNat s.free % 2 = 1))
  let s0 := if 10 ≤ widthUs ∧ widthUs < 50 then s.draw else s
  if count then
    let t := s0.thm
    done { s0 with thm := { t with
        pulses := s.time :: t.pulses.filter (fun p => decide (s.time < p + 100000000))
        lastPulse := s.time
        noFlow := false } }
  else done s0

/-- Measured flow in L/min (R336): pulses of the last second × 60 ÷ KF. -/
def measFlow (s : State) : Rat :=
  ((s.thm.pulses.filter fun p => decide (s.time < p + 100000000)).length * 60 : Nat) / (s.tobj.kf : Rat)

/-- The inlet temperature the model uses, in °C (Table 13.11). -/
def modelTin (s : State) : Rat := if s.thm.tinBad then 45 else (s.thm.tin : Rat) / 1000

/-- The point of the two-node model: T_J, T_P and F. -/
structure ModelPt where
  tj : Rat
  tp : Rat
  fl : Rat
deriving DecidableEq, Repr

/-- One 10 ms step of R337, with the flow setpoint `sp` that the delay lets through. -/
def modelStep (o : ThmObj) (p tin sp : Rat) (x : ModelPt) : ModelPt :=
  let dt : Rat := 1 / 100
  let cj : Rat := (o.cj : Rat) / 1000
  let r : Rat := (o.rjp : Rat) / 1000
  let cp : Rat := (o.cp : Rat) / 1000
  let cpf : Rat := (o.cpf : Rat) / 1000
  let q := (x.tj - x.tp) / r
  ⟨x.tj + dt * (p - q) / cj, x.tp + dt * (q - cpf * x.fl * (x.tp - tin)) / cp,
    x.fl + 10 * (sp - x.fl) / (o.tauf : Rat)⟩

/-- The setpoint that reaches the flow `i` steps from now: the history delayed by TDLY, then the present setpoint. -/
def delayedSet (o : ThmObj) (hist : List Rat) (cur : Rat) (i : Nat) : Rat :=
  let d := o.tdly / 10
  if i < d then hist.getD (d - i - 1) cur else cur

/-- `n` steps of the forward integration, starting `i` steps from now (R338). -/
def modelRun (o : ThmObj) (p tin : Rat) (hist : List Rat) (cur : Rat) : Nat → Nat → ModelPt → ModelPt
  | 0, _, x => x
  | n + 1, i, x => modelRun o p tin hist cur n (i + 1) (modelStep o p tin (delayedSet o hist cur i) x)

/-- Mean of a list of samples. -/
def meanNat (l : List Nat) : Rat := if l = [] then 0 else (l.foldl (· + ·) 0 : Nat) / (l.length : Rat)

/-- The change of TPL by the first row of Table 13.10 that applies. -/
def tplNext (tpl still : Nat) (h1 h10 h60 : Rat) (full short : Bool) (hotIn : Bool) : Nat :=
  if h1 < 0 then tpl - 1
  else if h10 < 0 ∧ (full || short) = true then tpl - 1
  else if hotIn then min tpl 3
  else if 5 ≤ h1 ∧ 5 ≤ h10 ∧ 0 ≤ h60 ∧ 10 ≤ still then min 7 (tpl + 1)
  else tpl

/-- THERMAL_MODEL_UPDATE (R337 to R339): the 10 ms update: T_J starts from the measured TJ, the headrooms are predicted,
and TPL changes. -/
def execThermalModelUpdate (s : State) : Out := keepQueue s <|
  let t := s.thm
  let o := s.tobj
  let tin := modelTin s
  let pHist := (s.pwr.meas.toNat :: t.pHist).take 1000
  let p := meanNat (pHist.take 10)
  let sp := if t.noFlow then 0 else t.fdem
  let hist := (sp :: t.setHist).take 3001
  let x0 : ModelPt := ⟨(t.tj : Rat) / 1000, if t.pHist = [] then tin else t.tp, if t.noFlow then 0 else t.flowF⟩
  let x1 := modelRun o p tin hist sp 100 0 x0
  let x10 := modelRun o p tin hist sp 900 100 x1
  let x60 := modelRun o p tin hist sp 5000 1000 x10
  let now := modelStep o p tin (delayedSet o hist sp 0) x0
  let ctl : Rat := o.tjCtl
  let n := tplNext t.tpl.toNat t.tplStill (ctl - x1.tj) (ctl - x10.tj) (ctl - x60.tj) (decide (t.duty = 1000)) t.flowShort
    (decide (45000 < t.tin) && !t.tinBad)
  let s1 := { s with thm := { t with
      pHist := pHist, setHist := hist, tp := now.tp, flowF := now.fl
      h1 := ctl - x1.tj, h10 := ctl - x10.tj, h60 := ctl - x60.tj
      tpl := BitVec.ofNat 3 n, tplStill := if n = t.tpl.toNat then t.tplStill + 1 else 0 } }
  done (plApplyAll s1)

/-- HOTSPOT_CAP_TICK (R340): the 1 ms tick of every Sleeve's HSC. -/
def hscTickOne (k : Nat) (s : State) : State :=
  let v := s.slvPwr k
  let v1 :=
    if v.hscLow then { v with hsc := v.hsc - (if v.hsc = 0 then 0 else 1), hscTick := 0 }
    else if v.hot < (s.tobj.tjCtl : Int) * 1000 then
      if 10 ≤ v.hscTick + 1 then { v with hsc := if v.hsc = 7 then 7 else v.hsc + 1, hscTick := 0 }
      else { v with hscTick := v.hscTick + 1 }
    else { v with hscTick := 0 }
  plApply k (s.setSlvPwr k v1)

def execHotspotCapTick (s : State) : Out := keepQueue s <| done ((presentSleeves s).foldl (fun a k => hscTickOne k a) s)

/-- THERMAL_SHUTDOWN (R340): a reading of 110 °C has held for 1 ms. Every hart is halted, deferred requests are
withdrawn, storage is drained if it is enabled. A drain that runs already goes on from its step, and the shutdown ends it
(DESIGN CHOICE, log 141). -/
def execThermalShutdown (sensor : Fin 56) (s : State) : Out := keepQueue s <|
  if s.thm.shut ≠ 0 || s.pwr.pk3 then done s
  else
    let s1 := withdrawAll (stopAllHarts { s with thm := { s.thm with shut := 2, shutSens := sensor } })
    if s1.pls.step ≠ 0 then done (s1.modPls fun p => { p with cause := 2 })
    else if storActive s1 then done (startDrain 2 false s1) else done (thermalFinish s1)

/-- FDEM before clamping is in L/min (R341); FMIN and FMAX are in 0.01 L/min. -/
def flowDemand (o : ThmObj) (p10 tin : Rat) : Rat :=
  let lo : Rat := (o.fmin : Rat) / 100
  let hi : Rat := (o.fmax : Rat) / 100
  let br := (o.tjTgt : Rat) - tin - p10 * ((o.rjp : Rat) / 1000)
  if br ≤ 0 then hi else max lo (min hi (p10 / ((o.cpf : Rat) / 1000 * br)))

/-- FDEM_UPDATE (R341). -/
def execFdemUpdate (s : State) : Out := keepQueue s <|
  let f := if s.thm.noFlow then (s.tobj.fmax : Rat) / 100 else flowDemand s.tobj (meanNat s.thm.pHist) (modelTin s)
  done { s with thm := { s.thm with fdem := f } }

/-- VALVE_UPDATE (R342): manual mode holds MANDUTY; otherwise a PI law in 0.1 % steps between VMIN and 100 %, the
integrator kept within the same limits (DESIGN CHOICE, log 22). -/
def execValveUpdate (s : State) : Out := keepQueue s <|
  let t := s.thm
  let o := s.tobj
  let f := measFlow s
  let e := t.fdem - f
  let lo : Rat := (o.vmin : Rat) / 10
  let integ := max 0 (min 100 (t.integ + e / 10))
  let raw := max lo (min 100 (2 * e + integ))
  let auto : Nat := (raw * 10).floor.toNat
  let duty := if t.noFlow then 1000 else if o.vmode.getLsbD 15 then min 1000 (o.vmode.extractLsb' 0 10).toNat else auto
  let short := decide (duty = 1000) && decide (f < 9 / 10 * t.fdem)
  done { s with thm := { t with
      duty := duty, driven := true, integ := integ
      shortFrom := if short then (if t.shortFrom.isSome then t.shortFrom else some s.time) else none
      flowShort := if t.fdem ≤ f then false else t.flowShort } }

/-- FLOW_SHORT_TIMEOUT (R342): the condition has held for 10 s. -/
def execFlowShortTimeout (s : State) : Out := keepQueue s <|
  if s.thm.shortFrom.isSome then
    done (reportCoolant 3 (!s.thm.flowShort) { s with thm := { s.thm with flowShort := true } })
  else done s

/-- NO_FLOW_TIMEOUT (R343): no pulse for 2 s with duty at VMIN or above. -/
def execNoFlowTimeout (s : State) : Out := keepQueue s <|
  let t := s.thm
  if t.duty < s.tobj.vmin then done s
  else
    let s1 := { s with thm := { t with noFlow := true, flowF := 0, duty := 1000, fdem := (s.tobj.fmax : Rat) / 100, pulses := [] } }
    done (reportCoolant 2 (!t.noFlow) s1)

/-- An integer clamped to 0 to 2^w - 1, and a headroom clamped to an INT8 (fractions rounded down; log 22). -/
def clampNat (w : Nat) (x : Int) : BitVec w := BitVec.ofNat w (min (2 ^ w - 1) x.toNat)
def clampInt8 (x : Rat) : BitVec 8 := BitVec.ofInt 8 (max (-128) (min 127 x.floor))

/-- FLAGS of VEST.THM.STAT. -/
def thmFlags (t : Thm) : BitVec 5 :=
  setBit (setBit (setBit (setBit (setBit 0 0 t.flowShort) 1 t.inLow) 2 t.tinBad) 3 t.toutBad) 4 t.noFlow

/-- VEST.THM.STAT and VEST.THM.PRED (R344). -/
def rdThmStat (s : State) : Word :=
  let t := s.thm
  cat [at_ 48 (thmFlags t), at_ 40 t.tpl, at_ 24 (clampNat 16 (measFlow s * 100).floor), at_ 16 (clampNat 8 (t.tout / 1000)),
    at_ 8 (clampNat 8 (t.tin / 1000)), at_ 0 (clampNat 8 (t.tj / 1000))]
def rdThmPred (s : State) : Word :=
  let t := s.thm
  cat [at_ 32 (clampNat 16 (t.fdem * 100).floor), at_ 16 (clampInt8 t.h60), at_ 8 (clampInt8 t.h10), at_ 0 (clampInt8 t.h1)]

end Sys2Proof.Machine
end

