-- ==== Sys2Proof/Machine/Regs.lean ====
section
/-! DEFINITION. The register file of the package: what every MMIO register reads as, what a write does (R8), where the registers
stand, and the accesses that reach them. -/

namespace Sys2Proof.Machine

/-- VEST.COH.TMO (Table 6.15): values outside the ranges leave both fields. -/
def rdCohTmo (s : State) : Word := cat [at_ 16 s.coh.haTmo, at_ 0 s.coh.slTmo]
def wrCohTmo (v : Word) (s : State) : State :=
  let a := fld v 16 16
  let b := fld v 0 16
  if 10 ≤ a.toNat ∧ a.toNat ≤ 10000 ∧ 1 ≤ b.toNat ∧ b.toNat ≤ 1000 ∧ b.toNat + 10 ≤ a.toNat then
    { s with coh := { s.coh with haTmo := a, slTmo := b } }
  else s

/-- A write of the Pocket's registers. -/
def onPkt (f : Pkt → Pkt) (s : State) : State := { s with pkt := f s.pkt }

/-- A write to VEST.STOR.CTL (R215). -/
def wrStorCtl (v : Word) (s : State) : State := if bit v 63 then storEnable goodMedia s else storDisable s

/-- The value of a register, without the effects that a read has. A write-only register reads as zero (Table 0.4). -/
def regValue (s : State) : Reg → Word
  | .slvwa k => rdSlvwa s k
  | .slvwaImp k => rdSlvwaImp s k
  | .slvstat k => rdSlvstat s k
  | .pkginfo => rdPkginfo s
  | .pkgfeat => rdPkgfeat s
  | .hartmap k => rdHartmap s k
  | .distlo i => rdDist s i 0
  | .disthi i => rdDist s i 8
  | .domcfg => rdDomcfg s
  | .dommem d k => tabGet s.pkg.domMem 0 (4 * d + k)
  | .diefuse k w => rdDiefuse s k w
  | .mtimecmp h => rdMtimecmp s h
  | .hem => rdHem s
  | .monvec => rdMonvec s
  | .wdtctl => rdWdtctl s
  | .wdtstat => rdWdtstat s
  | .wdtkick => 0
  | .claim => rdClaim s
  | .claimcfg => rdClaimcfg s
  | .claimstat => rdClaimstat s
  | .mediaRegion => rdRegion s
  | .monrdy => on 0 s.boot.monrdy
  | .l3cScratch k => rdL3Scratch s k
  | .l3cWaypd k => rdL3Waypd s k
  | .l3cStat k => rdL3Stat s k
  | .l3cEcc k => rdL3Ecc s k
  | .fstop d => fstopWord (s.fstop d)
  | .cohTmo => rdCohTmo s
  | .domrst => 0
  | .fabRegcfg => rdRegcfg s
  | .fabEcc => rdFabEcc s
  | .cuffStat k => rdCuffStat s k
  | .cuffCnt k => rdCuffCnt s k
  | .cuffCfg k => rdCuffCfg s k
  | .chStat n => rdChStat s n
  | .chRh n => rdChRh s n
  | .chEcc n => rdChEcc s n
  | .chErraddr n => rdChErraddr s n
  | .dramScrub => rdScrub s
  | .dramMap => rdDramMap s
  | .dramTop => rdDramTop s
  | .cxlDecRange k => rdCxlRange s k
  | .cxlDecTgt k => rdCxlTgt s k
  | .cxlCfg => rdCxlCfg s
  | .storCtl => rdStorCtl s
  | .storArb => rdArb s
  | .storRl => rdRl s
  | .storPool => rdPool s
  | .storNs n => rdNs s n
  | .sqcCfg q => rdSqcCfg (s.qp q)
  | .sqcNsmask q => (s.qp q).nsmask
  | .sqcStat q => rdSqcStat s q
  | .sqcIntcfg q => rdIntcfg (s.qp q)
  | .sqcIntcoal q => rdIntcoal (s.qp q)
  | .sqcIntstat q => rdIntstat (s.qp q)
  | .sqcIntdisc q => at_ 0 (s.qp q).disc
  | .sqcReserved _ => 0
  | .sqPush _ => 0
  | .sqPushEnd _ => 0
  | .sqStat q => rdSqStat (s.qp q)
  | .cqPop q => cqPeek q s
  | .cqPeek q => cqPeek q s
  | .cqStat q => rdCqStat (s.qp q)
  | .cqMark _ => 0
  | .cqRewind _ => 0
  | .cqRelease _ => 0
  | .qReset _ => 0
  | .qRststat q => rdRststat (s.qp q)
  | .lgStat g => rdLgStat s g
  | .holdCfg => rdHoldCfg s
  | .holdTest => rdHoldTest s
  | .holdStat => rdHoldStat s
  | .holdMeas => rdHoldMeas s
  | .plsStat => rdPlsStat s
  | .actCfg a => rdActCfg s a
  | .actStat a => rdActStat s a
  | .actCnt a => rdActCnt s a
  | .clsPeriod c => rdPeriod s c
  | .clsCap c k => rdCap s c k
  | .beltErr => rdBeltErr s
  | .tenRst => rdTenRst s
  | .tenRststat => rdTenRststat s
  | .tenLogq i => logqOf s i
  | .pl k => rdPl s k
  | .pwrPkg => rdPwrPkg s
  | .slcfg => rdSlcfg s
  | .pwrReq => 0
  | .pwrReqstat => rdPwrReqstat s
  | .wakesrc => s.pwr.wakesrc
  | .pwrState => rdPwrState s
  | .thmStat => rdThmStat s
  | .thmPred => rdThmPred s
  | .bootStat => rdBootStat s
  | .hartrel => rdHartrel s
  | .ownStat => rdOwnStat s
  | .ownCtl m => rdOwnCtl s (mcBit m)
  | .pktPtr => rdPktPtr s.pkt
  | .pktCnt => rdPktCnt s.pkt
  | .pktQ => rdPktQ s.pkt
  | .pktMir => rdPktMir s.pkt
  | .pktCtl => 0
  | .rdptr => at_ 0 s.pkt.rdOff
  | .rddata => (rddataRead s.pkt).2
  | .drop k => at_ 0 (tabGet s.pkt.drops 0 k)
  | .errCls => rdErrCls s.pkt
  | .sramEcc => rdSramEcc s.pkt
  | .errCfg => at_ 0 s.pkt.ceth
  | .errMsi => rdErrMsi s.pkt
  | .pcieCfg p => rdPcieCfg s p
  | .pcieLnk p l => rdPcieLnk s p l
  | .iommuBlk n r => ioBlk s n r
  | .iommuStd o => rdIommuStd s o
  | .bistCtl => rdBistCtl s
  | .bistStat t => rdBistStat s t
  | .bistSig t u k => rdBistSig s t (16 * u + k / 2) (k % 2)

/-- A read of a register: CQ.POP and RDDATA advance (R222, R403). -/
def regRead (r : Reg) (s : State) : State × Word :=
  match r with
  | .cqPop q => cqPop q s
  | .rddata => let x := rddataRead s.pkt; ({ s with pkt := x.1 }, x.2)
  | _ => (s, regValue s r)

/-- A write to a register. Read-only registers ignore it (Table 0.4). -/
def regWrite (who : Agent) (r : Reg) (v : Word) (s : State) : State :=
  match r with
  | .slvwa k => wrSlvwa k v s
  | .domcfg => wrDomcfg v s
  | .dommem d k => wrDommem d k v s
  | .mtimecmp h => wrMtimecmp h v s
  | .hem => wrHem v s
  | .monvec => wrMonvec v s
  | .wdtctl => wrWdtctl v s
  | .wdtstat => wrWdtstat v s
  | .wdtkick => wrWdtkick v s
  | .claim => wrClaim v s
  | .claimcfg => wrClaimcfg v s
  | .mediaRegion => wrRegion v s
  | .monrdy => wrMonrdy v s
  | .l3cScratch k => wrScratch k v s
  | .l3cWaypd k => wrWaypd k v s
  | .l3cEcc k => wrL3Ecc k v s
  | .cohTmo => wrCohTmo v s
  | .domrst => if domrstAllowed s who then domReset (fld v 0 4) s else s
  | .fabRegcfg => wrRegcfg v s
  | .fabEcc => wrFabEcc v s
  | .cuffCnt k => wrCuffCnt k v s
  | .cuffCfg k => wrCuffCfg k v s
  | .chRh n => wrChRh n v s
  | .chEcc n => wrChEcc n v s
  | .chErraddr n => wrChErraddr n v s
  | .dramScrub => wrScrub v s
  | .dramMap => wrDramMap v s
  | .cxlDecRange k => wrCxlRange k v s
  | .cxlDecTgt k => wrCxlTgt k v s
  | .cxlCfg => wrCxlCfg v s
  | .storCtl => wrStorCtl v s
  | .storArb => wrArb v s
  | .storRl => wrRl v s
  | .sqcCfg q => wrSqcCfg q v s
  | .sqcNsmask q => wrNsmask q v s
  | .sqcIntcfg q => wrIntcfg q v s
  | .sqcIntcoal q => wrIntcoal q v s
  | .sqcIntstat q => s.modQp q fun p => { p with sent := fld v 0 32 }
  | .sqcIntdisc q => s.modQp q fun p => { p with disc := fld v 0 32 }
  | .sqPush q => sqPush q v false s
  | .sqPushEnd q => sqPush q v true s
  | .sqStat q => wrSqStat q v s
  | .cqMark q => cqMark q s
  | .cqRewind q => cqRewind q s
  | .cqRelease q => cqRelease q s
  | .qReset q => wrQReset q (bit v 0) s
  | .holdCfg => wrHoldCfg v s
  | .holdTest => wrHoldTest v s
  | .actCfg a => wrAct a v s
  | .actCnt a => wrActCnt a v s
  | .clsPeriod c => wrPeriod c v s
  | .clsCap c k => wrCap c k v s
  | .tenRst => wrTenRst v s
  | .tenLogq i => wrLogq i v s
  | .pl k => wrPl k v s
  | .pwrPkg => wrPwrPkg v s
  | .slcfg => wrSlcfg v s
  | .pwrReq => wrPwrReq who v s
  | .hartrel => wrHartrel who v s
  | .ownCtl m => wrOwnCtl who m v s
  | .pktQ => onPkt (wrPktQ v) s
  | .pktCtl => (match clearAgent s who with
    | some a => if bit v 63 then clearRing a s else s
    | none => s)
  | .rdptr => onPkt (rdptrWrite (fld v 0 22).toNat) s
  | .drop k => onPkt (wrDrop k v) s
  | .errCls => onPkt (wrErrCls v) s
  | .sramEcc => onPkt (wrSramEcc v) s
  | .errCfg => onPkt (wrErrCfg v) s
  | .errMsi => onPkt (wrErrMsi v) s
  | .pcieCfg p => wrPcieCfg p v s
  | .pcieLnk p l => wrPcieLnk p l v s
  | .iommuBlk n r => wrIommuBlk n r v s
  | .iommuStd o => wrIommuStd o v s
  | .bistCtl => wrBistCtl (domrstAllowed s who) v s
  | .sqcReserved _ | .slvwaImp _ | .slvstat _ | .pkginfo | .pkgfeat | .hartmap _ | .distlo _ | .disthi _ | .diefuse .. | .claimstat | .l3cStat _
  | .fstop _ | .cuffStat _ | .chStat _ | .dramTop | .storPool | .storNs _ | .sqcStat _ | .cqPop _ | .cqPeek _ | .cqStat _
  | .qRststat _ | .lgStat _ | .holdStat | .holdMeas | .plsStat | .actStat _ | .beltErr | .tenRststat | .pwrReqstat | .wakesrc
  | .pwrState | .thmStat | .thmPred | .bootStat | .ownStat | .pktPtr | .pktCnt | .pktMir | .rddata | .bistStat _ | .bistSig .. => s

/-! ### Where the registers stand -/

/-- An index below a bound. -/
def idx (n : Nat) [NeZero n] (i : Nat) : Option (Fin n) := if i < n then some (Fin.ofNat n i) else none

/-- The secure page (Table 3.16), by offset. -/
def secureReg (o : Nat) : Option Reg :=
  match o with
  | 0x0 => some .hem | 0x8 => some .monvec | 0x100 => some .wdtctl | 0x108 => some .wdtstat | 0x110 => some .wdtkick
  | 0x200 => some .claim | 0x208 => some .claimcfg | 0x210 => some .claimstat | 0x300 => some .mediaRegion | 0x400 => some .monrdy
  | _ => none

/-- Belt and tenant registers (R312), by offset. -/
def beltReg (o : Nat) : Option Reg :=
  if o < 0x2000 then
    (idx 256 (o / 0x20)).bind fun a => (match o % 0x20 with
      | 0 => some (.actCfg a) | 8 => some (.actStat a) | 0x10 => some (.actCnt a) | _ => none)
  else if o < 0x2300 then
    (idx 6 ((o - 0x2000) / 0x80)).bind fun c =>
      let x := (o - 0x2000) % 0x80
      if x = 0 then some (.clsPeriod c)
      else if x / 8 - 1 < scopesOf c then (idx 8 (x / 8 - 1)).map fun k => .clsCap c k
      else none
  else if o = 0x3000 then some .beltErr
  else if o = 0x4000 then some .tenRst
  else if o = 0x4008 then some .tenRststat
  else if 0x4100 ≤ o then (idx 64 ((o - 0x4100) / 8)).map .tenLogq
  else none

/-- Pocket and error registers (Table 16.6), by offset. -/
def pktReg (o : Nat) : Option Reg :=
  match o with
  | 0x0 => some .pktPtr | 0x8 => some .pktCnt | 0x10 => some .pktQ | 0x18 => some .pktMir | 0x20 => some .pktCtl | 0x28 => some .rdptr
  | 0x30 => some .rddata | 0x200 => some .errCls | 0x208 => some .sramEcc | 0x210 => some .errCfg | 0x218 => some .errMsi
  | _ => if 0x100 ≤ o then (idx 16 ((o - 0x100) / 8)).map .drop else none

/-- Self-test registers (Table 18.9), by offset. -/
def bistReg (o : Nat) : Option Reg :=
  if o = 0 then some .bistCtl
  else if o < 0x1000 then (if 0x100 ≤ o then (idx 13 ((o - 0x100) / 8)).map .bistStat else none)
  else
    (idx 13 ((o - 0x1000) / 0x800)).bind fun t =>
      let x := (o - 0x1000) % 0x800
      (idx 8 (x / 256)).map fun u => .bistSig t u (Fin.ofNat 32 (x / 8))

/-- Storage (R214), by offset from 0x1000_0000. -/
def storReg (o : Nat) : Option Reg :=
  if o < 0x400000 then
    (idx 1024 (o / 0x1000)).bind fun q => (match o % 0x1000 with
      | 0x0 => some (.sqPush q) | 0x8 => some (.sqPushEnd q) | 0x10 => some (.sqStat q) | 0x40 => some (.cqPop q) | 0x48 => some (.cqPeek q)
      | 0x50 => some (.cqStat q) | 0x58 => some (.cqMark q) | 0x60 => some (.cqRewind q) | 0x68 => some (.cqRelease q)
      | 0x100 => some (.qReset q) | 0x108 => some (.qRststat q) | _ => none)
  else if 0x800000 ≤ o ∧ o < 0x801000 then
    (match o - 0x800000 with
      | 0x0 => some .storCtl | 0x8 => some .storArb | 0x10 => some .storRl | 0x18 => some .storPool
      | x => if 0x100 ≤ x then (idx 64 ((x - 0x100) / 8)).map .storNs else none)
  else if 0x810000 ≤ o ∧ o < 0x820000 then
    (idx 1024 ((o - 0x810000) / 0x40)).bind fun q => (match o % 0x40 with
      | 0x0 => some (.sqcCfg q) | 0x8 => some (.sqcNsmask q) | 0x10 => some (.sqcStat q) | 0x18 => some (.sqcIntcfg q)
      | 0x20 => some (.sqcIntcoal q) | 0x28 => some (.sqcIntstat q) | 0x30 => some (.sqcIntdisc q) | 0x38 => some (.sqcReserved q) | _ => none)
  else none

/-- The remaining Vest registers whose offset the spec gives, by offset from 0x0800_0000. -/
def vestReg (o : Nat) : Option Reg :=
  let x := o % 0x10000
  match o / 0x10000 with
  | 0x21 => if x < 0x60 then (idx 12 (x / 8)).map .pl else (match x with
    | 0x100 => some .pwrPkg | 0x108 => some .slcfg | 0x110 => some .pwrReq | 0x118 => some .pwrReqstat | 0x120 => some .wakesrc
    | 0x128 => some .pwrState | 0x200 => some .thmStat | 0x208 => some .thmPred | _ => none)
  | 0x22 => (match x with
    | 0x0 => some .ownStat | 0x8 => some (.ownCtl .e) | 0x10 => some (.ownCtl .w) | 0x100 => some .bootStat | 0x108 => some .hartrel
    | _ => none)
  | 0x24 => (idx 6 (x / 0x1000)).bind fun p =>
    let y := x % 0x1000
    if y = 0 then some (.pcieCfg p) else if 0x10 ≤ y then (idx 4 ((y - 0x10) / 8)).map fun l => .pcieLnk p l else none
  | 0x25 => (idx 4096 x).map .iommuStd
  | 0x26 => (idx 64 (x / 0x100)).map fun n => .iommuBlk n (Fin.ofNat 32 (x / 8))
  | _ => none

/-- The register at an aligned address of Vest MMIO; none is a reserved region. In the blocks that the spec lists whole (R85, R214,
R312, Tables 16.6 and 18.9) every other offset is reserved; elsewhere the spec names registers to which it gives no address. -/
def regAtVest (o : Nat) : Option Reg :=
  if o < 0x100000 then secureReg o
  else if 0x200000 ≤ o ∧ o < 0x210000 then beltReg (o - 0x200000)
  else if 0x230000 ≤ o ∧ o < 0x240000 then pktReg (o - 0x230000)
  else if 0x270000 ≤ o ∧ o < 0x280000 then bistReg (o - 0x270000)
  else if 0x8000000 ≤ o ∧ o < 0x9000000 then storReg (o - 0x8000000)
  else (vestReg o).or (Config.regAt (0x8000000 + o))

/-- The register at an aligned offset of a Sleeve's MMIO (R57, Table 5.6). -/
def regAtSleeve (k o : Nat) : Option Reg :=
  let sl := Fin.ofNat 12 k
  if 0x10000 ≤ o ∧ o < 0x10280 then some (.mtimecmp (Fin.ofNat 960 (80 * k + (o - 0x10000) / 8)))
  else match o with
    | 0x20000 => some (.l3cScratch sl) | 0x20008 => some (.l3cWaypd sl) | 0x20010 => some (.l3cStat sl) | 0x20018 => some (.l3cEcc sl)
    | _ => Config.regAt (0x20000000 + 0x4000000 * k + o)

/-- The queue pair of a register of a data page (Table 9.6). -/
def pageOf : Reg → Option QId
  | .sqPush q | .sqPushEnd q | .sqStat q | .cqPop q | .cqPeek q | .cqStat q | .cqMark q | .cqRewind q | .cqRelease q
  | .qReset q | .qRststat q => some q
  | _ => none

/-- A data page refuses the requester (R219). -/
def regRefused (s : State) (who : Agent) (r : Reg) : Bool :=
  match pageOf r with
  | some q => pageRefused s who q
  | none => false

/-- Bytes of the standard IOMMU file that one access may touch: 4, or 8 at an 8-byte register. -/
def iommuLen (o len : Nat) : Bool := (len == 4 && o % 4 == 0) || (len == 8 && wideReg o)

/-- A read of `len` bytes of MMIO; none where it is treated as a reserved region: no register there, a data page that refuses the
requester, or not an aligned access of 8 bytes (the IOMMU's standard file also takes 4). -/
def mmioRead (who : Agent) (rg : Option Reg) (a len : Nat) (s : State) : Option (State × List Byte) :=
  match rg with
  | some (.iommuStd o) =>
    if iommuLen o len then
      some (s, if len = 8 then leBytes 8 (rdIommuStd s o).toNat else leBytes 4 (rdIow s o).toNat)
    else none
  | some r =>
    if a % 8 ≠ 0 ∨ len ≠ 8 ∨ regRefused s who r = true then none
    else
      let x := regRead r s
      some (x.1, leBytes 8 x.2.toNat)
  | none => none

/-- A write of bytes to MMIO; none where it is treated as a reserved region. -/
def mmioWrite (who : Agent) (rg : Option Reg) (a : Nat) (l : List Byte) (s : State) : Option State :=
  match rg with
  | some (.iommuStd o) =>
    if iommuLen o l.length then
      some (if l.length = 8 then wrIommuStd o (BitVec.ofNat 64 (leNat l)) s else wrIow o (BitVec.ofNat 32 (leNat l)) s)
    else none
  | some r =>
    if a % 8 ≠ 0 ∨ l.length ≠ 8 ∨ regRefused s who r = true then none
    else some (regWrite who r (BitVec.ofNat 64 (leNat l)) s)
  | none => none

/-- A write of bytes in an interrupt file's page (R466): seteipnum_le at offset 0, seteipnum_be at offset 4. -/
def imsicPage (h file off : Nat) (l : List Byte) (s : State) : State :=
  if l.length ≠ 4 then s
  else if off = 0 then imsicSet h file (leNat l) s
  else if off = 4 then imsicSet h file (leNat l.reverse) s
  else s

/-- The register window of a region, for MMIO regions. -/
def regOf : Region → Option (Option Reg)
  | .vestMmio o => some (regAtVest (o / 8 * 8 + (if 0x250000 ≤ o ∧ o < 0x260000 then o % 8 else 0)))
  | .slvMmio k o => some (regAtSleeve k (o / 8 * 8))
  | _ => none

/-! ### REGISTER_WRITE -/

/-- Offset in the secure page of a secure register. -/
def secureOff : Reg → Option Nat
  | .hem => some 0 | .monvec => some 8 | .wdtctl => some 0x100 | .wdtstat => some 0x108 | .wdtkick => some 0x110 | .claim => some 0x200
  | .claimcfg => some 0x208 | .claimstat => some 0x210 | .mediaRegion => some 0x300 | .monrdy => some 0x400
  | _ => none

/-- Offset in its Sleeve window of a Sleeve register, with the Sleeve. -/
def sleeveOff : Reg → Option (Nat × Nat)
  | .l3cScratch k => some (k, 0x20000) | .l3cWaypd k => some (k, 0x20008) | .l3cStat k => some (k, 0x20010) | .l3cEcc k => some (k, 0x20018)
  | .mtimecmp h => some (hartSleeve h, 0x10000 + 8 * (h % 80))
  | _ => none

/-- A write to a named register by an agent, with the refusals of R30, R73, R219 and R36. -/
def regWriteBy (who : Agent) (r : Reg) (v : Word) (s : State) : State :=
  match secureOff r, pageOf r, sleeveOff r with
  | some o, _, _ =>
    if agentSecure s who then regWrite who r v s else faultAgent who true (reportUcs who .world (0x8000000 + o) true s)
  | _, some q, _ => if pageRefused s who q then refusePage who q 0 s else regWrite who r v s
  | _, _, some (k, o) =>
    let a := 0x20000000 + 0x4000000 * k + o
    (match refusal s who (agentSecure s who) true a with
      | some u => faultAgent who true (reportUcs who u a false s)
      | none => regWrite who r v s)
  | _, _, _ => regWrite who r v s

/-- SCRATCH_WRITE and WAYPD_WRITE: writes of a Sleeve's registers, with the refusals of R30 and R36. -/
def execScratchWrite (who : Agent) (k : SleeveId) (v : BitVec 64) (s : State) : Out := keepQueue s <| sentBy who s <|
  done (regWriteBy who (.l3cScratch k) v s)
def execWaypdWrite (who : Agent) (k : SleeveId) (v : BitVec 64) (s : State) : Out := keepQueue s <| sentBy who s <|
  done (regWriteBy who (.l3cWaypd k) v s)

/-- REGISTER_WRITE (R8): a write of a register that has no row of its own; of a CSR, by a CSR instruction of the hart. -/
def execRegisterWrite (who : Agent) (r : RegTarget) (v : BitVec 64) (s : State) : Out := keepQueue s <| sentBy who s <|
  match r with
  | .mmio r => done (regWriteBy who r v s)
  | .csr h n => done (byHart h (csrInstr h n.toNat v) s)

end Sys2Proof.Machine
end

