-- ==== Sys2Proof/Machine/HartMem.lean ====
section
/-! DEFINITION. Accesses of harts to memory and devices: loads, stores, atomics, LR and SC, fences (02 Table 2.3; 05 R103 to R105,
R122 to R128; 06 R144 to R147; 07 R167 to R169; 17 R417, R426). -/

namespace Sys2Proof.Machine

/-! ### Reaching an address -/

def sizeBytes : Size → Nat
  | .b1 => 1 | .b2 => 2 | .b4 => 4 | .b8 => 8

/-- A memory exception with its faulting virtual address. -/
def memTrap (h cause va : Nat) (gva : Bool) (s : State) : State := takeTrap h (plainTrap cause (BitVec.ofNat 64 va) gva) s

/-- The access fault of an access: 1, 5 or 7. -/
def accFault : AccKind → Nat
  | .fetch => 1 | .load => 5 | .store => 7

/-- The misaligned exception of an access. -/
def accMis : AccKind → Nat
  | .store => 6
  | _ => 4

/-- After the translation: the PMP, then the region, world and domain (R30, R64, R73, R77). -/
def permitted? (h : HartId) (a : Acc) (va : Nat) (t : Xl) (s : State) : State × Option Xl :=
  let x := s.hart h
  let s0 := missEv h a.kind t s
  if pmpOk x a.priv a.kind t.pa = false then (memTrap h (accFault a.kind) va a.virt s0, none)
  else match refusal s (.hart h) (accSec x a) (decide (a.kind = .store)) t.pa with
    | some k => (memTrap h (accFault a.kind) va a.virt (reportUcs (.hart h) k t.pa (secureAddr s t.pa) s0), none)
    | none => (s, some t)

/-- A translation has failed: a table read waits, or the fault is taken; unless it arose before the TLBs, in the range check or in a
block register, the first-level TLB has missed. -/
def xlFault (h : HartId) (k : AccKind) (virt : Bool) (va : Nat) (f : WFault) (s : State) : State :=
  if f.wait then s
  else takeWalkFault h k virt va f (if f.cause = 7 ∨ f.blk.isSome = true then s else countTlbMiss h k s)

/-- Reach an address: translate it and check the access. Without a result the access is over: it has trapped, or a table read
waits. -/
def reach (h : HartId) (a : Acc) (va : Nat) (s : State) : State × Option Xl :=
  match translate h a va s with
  | (s1, .error f) => (xlFault h a.kind a.virt va f s1, none)
  | (s1, .ok t) => permitted? h a va t s1

/-- What serves an access: the hart's caches, main memory uncached, an interrupt file, registers, or a root port. -/
inductive Path where
  | cached
  | plain
  | imsic (h file off : Nat)
  | mmio
  | ecam (p : Nat)
  | port (p : Nat)
deriving DecidableEq, Repr

/-- The path of an access (R104, R111, R147): a hart caches main memory of type PMA, and scratch windows of its own Sleeve. -/
def pathOf (s : State) (h : HartId) (t : Xl) : Path :=
  match regionOf s t.pa with
  | .bootRom | .sram | .dram | .cxl => if t.pbmt = 0 then .cached else .plain
  | .scratch k _ _ => if t.pbmt = 0 ∧ k = hartSleeve h then .cached else .plain
  | .imsic g f o => .imsic g f o
  | .ecam p _ => .ecam p
  | .pcie p => .port p
  | _ => .mmio

/-- A misaligned access is performed only in cacheable memory (Table 2.3). -/
def misOk (va n : Nat) (p : Path) : Bool := decide (va % n = 0) || decide (p = .cached)

/-! ### Metering and events -/

/-- The core needs a request for a line. -/
def lineMiss (s : State) (core n : Nat) (own : Bool) : Bool :=
  match coreLook (s.core core) n with
  | some e => own && !decide (e.st = .E ∨ e.st = .M)
  | none => true

/-- Meter the packets of an access at the core (R167 to R169): the access goes on, or it is held and the hart is not ready. -/
def coreMeter (metered : Bool) (h : HartId) (cost : Nat) (c : Instr) (s : State) : State × Bool :=
  if metered = false ∨ cost = 0 then (s, true)
  else match injTake (hartCore h) (agentTid s (.hart h)) cost s with
    | (s1, none) => (s1, true)
    | (s1, some a) => (holdPacket (hartCore h) a cost c (s1.modHart h fun x => { x with heldAcc := true }), false)

/-- Events 0x07 and 0x08 of a demand access to a line. -/
def countMiss (h : HartId) (n : Nat) (s : State) : State :=
  let k := s.core (hartCore h)
  let s1 := if (l1dLook k n).isNone then countEvent h 7 1 s else s
  if (coreLook k n).isNone then countEvent h 8 1 s1 else s1

/-- One training of a stream list (R105): the stream of the page takes the line, newest first. -/
def trainList (cap h n : Nat) (l : List Stream) : List Stream :=
  let pg := n / 64
  match l.find? fun e => e.page == pg with
  | some e =>
    let d : Int := (n : Int) - (e.last : Int)
    (⟨pg, h, n, d, if d = e.stride then e.conf + 1 else 0⟩ :: l.filter fun e => e.page != pg)
  | none => (⟨pg, h, n, 0, 0⟩ :: l).take cap

/-- Committed demand accesses of harts that allow it train the prefetchers (R105, Table 5.3). -/
def train (h : HartId) (n : Nat) (s : State) : State :=
  let c := ubxcctlOf s h
  s.modCore (hartCore h) fun k => { k with
    str1 := if bit c 2 then trainList 16 h n k.str1 else k.str1
    str2 := if bit c 3 then trainList 32 h n k.str2 else k.str2 }

/-! ### Cached and uncached lines -/

/-- A line cannot be written at its home now: a transaction is active, or an LR holds its snoops back. -/
def homeWait (s : State) (n : Nat) : Bool := lineBusy s n || s.harts.any fun e => e.2.resv == some n && e.2.resHold.isSome

/-- Read the lines of an access through the caches. -/
def cachedRead (h : HartId) (a len : Nat) (s : State) : State × List CLine :=
  (linesOf a len).foldl (fun x n => let r := readLine h n (countMiss h n x.1); (r.1, x.2 ++ [r.2])) (s, [])

/-- The bytes of an access from its lines. -/
def gather (a len : Nat) (l : List CLine) : List Byte :=
  (upto len).map fun i => match l.find? fun e => e.line == (a + i) / 64 with
    | some e => e.data.extractLsb' (8 * ((a + i) % 64)) 8
    | none => 0

/-- Bytes of an access that lie in line `n`, as a mask and as a line. -/
def partMask (a len n : Nat) : BitVec 64 := maskOf 64 fun i => decide (a ≤ 64 * n + i ∧ 64 * n + i < a + len)
def partLine (a : Nat) (b : List Byte) (n : Nat) : LineData := lineOfBytes ((upto 64).map fun i => if a ≤ 64 * n + i then b.getD (64 * n + i - a) 0 else 0)

/-- Write bytes through the caches: each line is owned first; a narrow write leaves its poison. -/
def cachedWrite (h : HartId) (a : Nat) (b : List Byte) (s : State) : State :=
  (linesOf a b.length).foldl (fun x n =>
    let r := ownLine h n (countMiss h n x)
    clearResv n (some h.val) (putOwned h { r.2 with data := mergeLine r.2.data (partLine a b n) (partMask a b.length n) } r.1)) s

/-- Write bytes within a line at its home. -/
def plainStore (a : Nat) (b : List Byte) (s : State) : State := putLine (a / 64) (partMask a b.length (a / 64)) (partLine a b (a / 64)) false s

/-! ### Root ports -/

/-- The lowest tag that no waiting request of a port uses. -/
def freeTag (s : State) (p : Nat) : BitVec 12 :=
  BitVec.ofNat 12 (((upto 4096).find? fun t => !(s.port p).wait.any fun w => w.1 == BitVec.ofNat 12 t).getD 0)

/-- The configuration space of a port's own functions: bus 0, device 0 (Table 17.2). -/
def ownSpace (a : Nat) : Bool := decide ((a - 0x14000000) % 0x1000000 < 0x8000)

/-- The kind of an access at a port. -/
def ioAcc : IoWhat → AccKind
  | .load .. => .load
  | _ => .store

/-- A hart's access waits at a port for its completion; through a link that is down or contained it ends in an error. -/
def portWait (h : HartId) (p : Nat) (x : Xl) (va : Nat) (gva : Bool) (len : Nat) (w : IoWhat) (s : State) : State :=
  let l := winLink s p x.pa
  if linkServes s p l then
    let t := freeTag s p
    (s.modHart h fun y => { y with io := some ⟨t, BitVec.ofNat 64 va, gva, len, w, x⟩ }).modPort p fun y =>
      { y with wait := y.wait ++ [(t, (.hart h, x.pa))] }
  else
    let c := match w with
      | .load .. => 5
      | _ => 7
    memTrap h c va gva (reportIo p l (.hart h) x.pa (missEv h (ioAcc w) x s))

/-! ### Registers and forms -/

/-- The value that a load writes for the bytes it read. -/
def loadVal (k : LoadKind) (z : Size) (v : Nat) : Word :=
  match k with
  | .signed | .hlv => sextTo64 (8 * sizeBytes z) v
  | .fp => if z = .b4 then 0xFFFFFFFF00000000 ||| BitVec.ofNat 64 v else BitVec.ofNat 64 v
  | _ => BitVec.ofNat 64 v

/-- The floating-point state becomes dirty. -/
def fsDirty (x : Hart) : Hart :=
  let y := x.maskC 0x300 0x6000 0x6000
  if x.virt then y.maskC 0x200 0x6000 0x6000 else y

/-- A load writes its destination. -/
def loadPut (k : LoadKind) (z : Size) (rd : XReg) (v : Nat) (x : Hart) : Hart :=
  if k = .fp then fsDirty (x.setF rd (loadVal k z v)) else x.setX rd (loadVal k z v)

/-- The floating-point unit is off. -/
def fpOff (x : Hart) : Bool := fld (x.c 0x300) 13 2 == 0 || (x.virt && fld (x.c 0x200) 13 2 == 0)

/-- A form of a load or store that no instruction of the profile has, or one whose unit is off. -/
def loadIll (x : Hart) (k : LoadKind) (z : Size) : Bool :=
  match k with
  | .unsigned | .hlvu => decide (z = .b8)
  | .hlvx => decide (z = .b1 ∨ z = .b8)
  | .fp => decide (z = .b1 ∨ z = .b2) || fpOff x
  | _ => false
def storeIll (x : Hart) (k : StoreKind) (z : Size) : Bool := decide (k = .fp) && (decide (z = .b1 ∨ z = .b2) || fpOff x)

/-- The compressed forms (C.LW, C.LD, C.FLD and the stores). -/
def loadC (k : LoadKind) (z : Size) : Bool := (decide (k = .signed) && decide (z = .b4 ∨ z = .b8)) || (decide (k = .fp) && decide (z = .b8))
def storeC (k : StoreKind) (z : Size) : Bool := (decide (k = .int) && decide (z = .b4 ∨ z = .b8)) || (decide (k = .fp) && decide (z = .b8))

/-- HLV, HLVX and HSV: a virtual-instruction exception with V = 1; in U-mode only with hstatus.HU. -/
def hypGate (h : HartId) (inst : Word) (s : State) : Option State :=
  let x := s.hart h
  if x.virt then some (virtInstr h inst s)
  else if x.priv = 0 ∧ bit (x.c 0x600) 9 = false then some (illegalInstr h inst s)
  else none

def isHlv : LoadKind → Bool
  | .hlv | .hlvu | .hlvx => true
  | _ => false

/-- The width field of a load, store or AMO, log2 of its bytes. -/
def sizeCode : Size → Nat
  | .b1 => 0 | .b2 => 1 | .b4 => 2 | .b8 => 3

/-- The bits of a load as far as its command carries them: the opcode, the width, and the destination; of HLV and HLVX all but the
base register; of a compressed load the quadrant alone. -/
def loadInst (s : State) (k : LoadKind) (z : Size) (rd : XReg) (c : Bool) : Word :=
  let w := sizeCode z
  let std (op f3 : Nat) : Word := openInst s 0x7FFF (BitVec.ofNat 64 (f3 * 2 ^ 12 + rd.val * 2 ^ 7 + op))
  let hlv (q : Nat) : Word := openInst s 0xFFF07FFF (BitVec.ofNat 64 ((0x30 + 2 * w) * 2 ^ 25 + q * 2 ^ 20 + 4 * 2 ^ 12 + rd.val * 2 ^ 7 + 0x73))
  if c then openInst s 0 0 &&& 0xFFFF
  else match k with
    | .signed => std 3 w
    | .unsigned => std 3 (4 + w)
    | .fp => std 7 w
    | .hlv => hlv 0
    | .hlvu => hlv 1
    | .hlvx => hlv 3

/-- The bits of a store: the opcode, the width and the source; of HSV all but the base register. -/
def storeInst (s : State) (k : StoreKind) (z : Size) (r : XReg) (c : Bool) : Word :=
  let w := sizeCode z
  let std (op : Nat) : Word := openInst s 0x01F0707F (BitVec.ofNat 64 (r.val * 2 ^ 20 + w * 2 ^ 12 + op))
  if c then openInst s 0 0 &&& 0xFFFF
  else match k with
    | .int => std 0x23
    | .fp => std 0x27
    | .hsv => openInst s 0xFFF07FFF (BitVec.ofNat 64 ((0x31 + 2 * w) * 2 ^ 25 + r.val * 2 ^ 20 + 4 * 2 ^ 12 + 0x73))

/-- The length of an instruction. -/
def ilen (c : Bool) : Nat := if c then 2 else 4

/-! ### Loads -/

/-- A load has its bytes. -/
def loadDone (h : HartId) (k : LoadKind) (z : Size) (rd : XReg) (len : Nat) (t : Xl) (b : List Byte) (s : State) : State :=
  retire h len (fillTlbs h .load t (s.modHart h (loadPut k z rd (leNat b))))

/-- The first poisoned line of an access. -/
def firstPoison (l : List CLine) : Option Nat := (l.find? fun e => e.poison).map (·.line)

/-- A load through the caches. -/
def loadCached (metered : Bool) (h : HartId) (cmd : Instr) (k : LoadKind) (z : Size) (rd : XReg) (va len : Nat) (gva : Bool) (t : Xl)
    (s1 : State) : State :=
  let n := sizeBytes z
  let ls := linesOf t.pa n
  if ls.any fun m => lineWait s1 (hartCore h) m false then s1
  else match coreMeter metered h (ls.filter fun m => lineMiss s1 (hartCore h) m false).length cmd s1 with
    | (s2, false) => s2
    | (s2, true) =>
      let r := cachedRead h t.pa n s2
      match firstPoison r.2 with
      | some m => memTrap h 5 (va + (64 * m - t.pa)) gva
        (reportUcs (.hart h) .load (max t.pa (64 * m)) (secureAddr s1 t.pa) (missEv h .load t r.1))
      | none => loadDone h k z rd len t (gather t.pa n r.2) (train h (t.pa / 64) r.1)

/-- A load that no cache serves. -/
def loadUncached (h : HartId) (k : LoadKind) (z : Size) (rd : XReg) (va len : Nat) (gva : Bool) (t : Xl) (p : Path) (s : State) : State :=
  let n := sizeBytes z
  match p with
  | .cached => s
  | .plain =>
    let r := cohRead s t.pa n
    if r.2 then memTrap h 5 va gva (reportUcs (.hart h) .load t.pa (secureAddr s t.pa) (missEv h .load t s)) else loadDone h k z rd len t r.1 s
  | .imsic .. => loadDone h k z rd len t (zeros n) s
  | .mmio =>
    (match mmioRead (.hart h) ((regOf (regionOf s t.pa)).getD none) t.pa n s with
    | none => memTrap h 5 va gva (reportUcs (.hart h) .reserved t.pa false (missEv h .load t s))
    | some (s1, b) => loadDone h k z rd len t b s1)
  | .ecam p =>
    if ownSpace t.pa then loadDone h k z rd len t ((upto n).map fun i => Config.portSpace (t.pa + i)) s
    else portWait h p t va gva len (.load k z rd) s
  | .port p => portWait h p t va gva len (.load k z rd) s

/-- A load of a hart. -/
def doLoad (metered : Bool) (h : HartId) (k : LoadKind) (z : Size) (rd : XReg) (va : Word) (c : Bool) (s : State) : State :=
  let x := s.hart h
  let v := va.toNat
  let n := sizeBytes z
  let cmd : Instr := .load h k z rd va c []
  if loadIll x k z then illegalInstr h (loadInst s k z rd c) s
  else match (if isHlv k then hypGate h (loadInst s k z rd c) s else none) with
    | some s' => s'
    | none =>
      let a := if isHlv k then accHyp x .load (decide (k = .hlvx)) else accOf x .load
      if v % n ≠ 0 ∧ v / 4096 ≠ (v + n - 1) / 4096 then memTrap h 4 v a.virt s
      else match reach h a v s with
        | (s1, none) => s1
        | (s1, some t) =>
          let p := pathOf s1 h t
          if p = .cached then loadCached metered h cmd k z rd v (ilen c) a.virt t s1
          else if v % n ≠ 0 then memTrap h 4 v a.virt (missEv h .load t s1)
          else if p = .plain ∧ lineBusy s1 (t.pa / 64) = true then s1
          else match coreMeter metered h 1 cmd s1 with
            | (s2, false) => s2
            | (s2, true) => loadUncached h k z rd v (ilen c) a.virt t p s2

/-- An instruction of a hart whose reads find errors of the arrays: it goes on unless one of them stops the hart. -/
def byHartMeet (h : HartId) (errs : List ArrErr) (f : State → State) (s : State) : State :=
  byHart h (fun s =>
    let s1 := meet errs s
    if (s1.hart h).stopped then s1 else f s1) s

/-- LOAD: the loads of RV64, the floating-point loads and HLV and HLVX. A load that has no compressed form is 4 bytes long. -/
def execLoad (h : HartId) (k : LoadKind) (z : Size) (rd : XReg) (va : BitVec 64) (c : Bool) (errs : List ArrErr) (s : State) : Out := keepQueue s <|
  done (byHartMeet h errs (doLoad true h k z rd va (c && loadC k z)) s)

/-! ### Stores -/

/-- The bytes that a store writes. -/
def storeBytes (x : Hart) (k : StoreKind) (z : Size) (r : XReg) : List Byte :=
  leBytes (sizeBytes z) (match k with
    | .fp => (x.fx r).toNat
    | _ => (x.gx r).toNat)

/-- A store retires. -/
def storeDone (h : HartId) (len : Nat) (t : Xl) (s : State) : State := retire h len (fillTlbs h .store t s)

/-- A store through the caches. -/
def storeCached (metered : Bool) (h : HartId) (cmd : Instr) (b : List Byte) (len : Nat) (t : Xl) (s1 : State) : State :=
  let ls := linesOf t.pa b.length
  if ls.any fun m => lineWait s1 (hartCore h) m true then s1
  else match coreMeter metered h (ls.filter fun m => lineMiss s1 (hartCore h) m true).length cmd s1 with
    | (s2, false) => s2
    | (s2, true) => storeDone h len t (train h (t.pa / 64) (cachedWrite h t.pa b s2))

/-- A store that no cache serves. Posted writes to a window of a link that is down are dropped (Table 17.7). -/
def storeUncached (h : HartId) (b : List Byte) (va len : Nat) (gva : Bool) (t : Xl) (p : Path) (s : State) : State :=
  match p with
  | .cached => s
  | .plain => storeDone h len t (plainStore t.pa b s)
  | .imsic g f o => storeDone h len t (if hartFailed s g then s else imsicPage g f o b s)
  | .mmio =>
    (match mmioWrite (.hart h) ((regOf (regionOf s t.pa)).getD none) t.pa b (storeDone h len t s) with
    | none => memTrap h 7 va gva (reportUcs (.hart h) .reserved t.pa false (missEv h .store t s))
    | some s1 => s1)
  | .ecam p =>
    if ownSpace t.pa then storeDone h len t s
    else portWait h p t va gva len .store s
  | .port p =>
    if linkServes s p (winLink s p t.pa) then storeDone h len t s else storeDone h len t (logAer p s)

/-- A store of a hart. -/
def doStore (metered : Bool) (h : HartId) (k : StoreKind) (z : Size) (rs2 : XReg) (va : Word) (c : Bool) (s : State) : State :=
  let x := s.hart h
  let v := va.toNat
  let n := sizeBytes z
  let cmd : Instr := .store h k z rs2 va c []
  if storeIll x k z then illegalInstr h (storeInst s k z rs2 c) s
  else match (if k = .hsv then hypGate h (storeInst s k z rs2 c) s else none) with
    | some s' => s'
    | none =>
      let a := if k = .hsv then accHyp x .store false else accOf x .store
      let b := storeBytes x k z rs2
      if v % n ≠ 0 ∧ v / 4096 ≠ (v + n - 1) / 4096 then memTrap h 6 v a.virt s
      else match reach h a v s with
        | (s1, none) => s1
        | (s1, some t) =>
          let p := pathOf s1 h t
          if p = .cached then storeCached metered h cmd b (ilen c) t s1
          else if v % n ≠ 0 then memTrap h 6 v a.virt (missEv h .store t s1)
          else if p = .plain ∧ homeWait s1 (t.pa / 64) = true then s1
          else match coreMeter metered h 1 cmd s1 with
            | (s2, false) => s2
            | (s2, true) => storeUncached h b v (ilen c) a.virt t p s2

/-- STORE: the stores of RV64, the floating-point stores and HSV. A store that has no compressed form is 4 bytes long. -/
def execStore (h : HartId) (k : StoreKind) (z : Size) (rs2 : XReg) (va : BitVec 64) (c : Bool) (errs : List ArrErr) (s : State) : Out := keepQueue s <|
  done (byHartMeet h errs (doStore true h k z rs2 va (c && storeC k z)) s)

/-! ### Atomics (R144, Table 6.11) -/

/-- Where an AMO executes. -/
inductive AmoPlace where
  | l1d
  | home
  | slice
  | port (p : Nat)
  | nowhere
deriving DecidableEq, Repr

def amoPlace (s : State) (h : HartId) (op : AmoOp) (t : Xl) : AmoPlace :=
  match regionOf s t.pa with
  | .scratch k _ _ => if t.pbmt = 0 ∧ k = hartSleeve h then .l1d else .slice
  | .bootRom | .sram | .dram | .cxl => if t.pbmt = 0 ∧ t.fa = false then .l1d else .home
  | .pcie p => if op = .swap ∨ op = .add then .port p else .nowhere
  | _ => .nowhere

/-- The value an AMO or LR returns: the word form is sign-extended. -/
def amoVal (dbl : Bool) (v : Word) : Word := if dbl then v else sextTo64 32 v.toNat

/-- The operand's place in a line. -/
def lineField (d : LineData) (a n : Nat) : Word := BitVec.ofNat 64 (leNat ((upto n).map fun i => d.extractLsb' (8 * (a % 64 + i)) 8))

/-- An AMO has its old value. -/
def amoDone (h : HartId) (dbl : Bool) (rd : XReg) (old : Word) (t : Xl) (s : State) : State :=
  retire h 4 (fillTlbs h .store t (s.modHart h fun x => x.setX rd (amoVal dbl old)))

/-- An AMO meets poison: nothing is written. -/
def amoPoison (h : HartId) (va : Nat) (t : Xl) (gva : Bool) (s : State) : State :=
  memTrap h 7 va gva (reportUcs (.hart h) .amo t.pa (secureAddr s t.pa) (missEv h .store t s))

/-- An AMO in the L1D. -/
def amoL1d (metered : Bool) (h : HartId) (cmd : Instr) (op : AmoOp) (dbl : Bool) (rd rs2 : XReg) (va : Nat) (gva : Bool) (t : Xl) (s : State) : State :=
  let n := t.pa / 64
  let z := if dbl then 8 else 4
  if lineWait s (hartCore h) n true then s
  else match coreMeter metered h (if lineMiss s (hartCore h) n true then 1 else 0) cmd s with
    | (s1, false) => s1
    | (s1, true) =>
      let r := ownLine h n (countMiss h n s1)
      if r.2.poison then amoPoison h va t gva r.1
      else
        let old := lineField r.2.data t.pa z
        let b := leBytes z (amoNew op dbl old ((s1.hart h).gx rs2)).toNat
        let e := { r.2 with data := mergeLine r.2.data (partLine t.pa b n) (partMask t.pa z n) }
        amoDone h dbl rd old t (train h n (clearResv n (some h.val) (putOwned h e r.1)))

/-- An AMO at the home of a line: copies are recalled and the line is left uncached; at a slice, its own cores' copies go. -/
def amoHome (h : HartId) (slice : Bool) (op : AmoOp) (dbl : Bool) (rd rs2 : XReg) (va : Nat) (gva : Bool) (t : Xl) (s : State) : State :=
  let n := t.pa / 64
  let z := if dbl then 8 else 4
  let v := (s.hart h).gx rs2
  if slice then
    let d := curLine s n
    if d.2 then amoPoison h va t gva s
    else
      let old := lineField d.1 t.pa z
      amoDone h dbl rd old t (plainStore t.pa (leBytes z (amoNew op dbl old v).toNat) s)
  else
    let s1 := dirErase n (invalAll n 12 s)
    if linePoison s1 n then amoPoison h va t gva s1
    else
      let r := atomAt op dbl t.pa v (clearResv n none s1)
      amoDone h dbl rd r.2 t r.1

/-- An AMO of a hart. -/
def doAmo (metered : Bool) (h : HartId) (op : AmoOp) (dbl : Bool) (aqrl : BitVec 2) (rd rs2 : XReg) (va : Word) (s : State) : State :=
  let v := va.toNat
  let z := if dbl then 8 else 4
  let a := accOf (s.hart h) .store
  let cmd : Instr := .amo h op dbl aqrl rd rs2 va []
  if v % z ≠ 0 then memTrap h 6 v a.virt s
  else match reach h a v s with
    | (s1, none) => s1
    | (s1, some t) =>
      match amoPlace s1 h op t with
      | .l1d => amoL1d metered h cmd op dbl rd rs2 v a.virt t s1
      | .nowhere => memTrap h 7 v a.virt (missEv h .store t s1)
      | .port p =>
        (match coreMeter metered h 1 cmd s1 with
        | (s2, false) => s2
        | (s2, true) => portWait h p t v a.virt 4 (.amo dbl rd) s2)
      | p =>
        if homeWait s1 (t.pa / 64) then s1
        else match coreMeter metered h 1 cmd s1 with
          | (s2, false) => s2
          | (s2, true) => amoHome h (decide (p = .slice)) op dbl rd rs2 v a.virt t s2

/-- AMO (R144). The aq and rl bits order it; a model that performs one command at a time shows no other order. -/
def execAmo (h : HartId) (op : AmoOp) (dbl : Bool) (aqrl : BitVec 2) (rd rs2 : XReg) (va : BitVec 64) (s : State) (errs : List ArrErr := []) : Out := keepQueue s <|
  done (byHartMeet h errs (doAmo true h op dbl aqrl rd rs2 va) s)

/-- LR of a hart (R145). -/
def doLr (metered : Bool) (h : HartId) (dbl : Bool) (rd : XReg) (va : Word) (s : State) : State :=
  let v := va.toNat
  let z := if dbl then 8 else 4
  let a := accOf (s.hart h) .load
  if v % z ≠ 0 then memTrap h 4 v a.virt s
  else match reach h a v s with
    | (s1, none) => s1
    | (s1, some t) =>
      let n := t.pa / 64
      if pathOf s1 h t ≠ .cached then memTrap h 5 v a.virt (missEv h .load t s1)
      else if lineWait s1 (hartCore h) n false then s1
      else match coreMeter metered h (if lineMiss s1 (hartCore h) n false then 1 else 0) (.lr h dbl rd va []) s1 with
        | (s2, false) => s2
        | (s2, true) =>
          let r := readLine h n (countMiss h n s2)
          if r.2.poison then memTrap h 5 v a.virt (reportUcs (.hart h) .load t.pa (secureAddr s t.pa) (missEv h .load t r.1))
          else
            let s3 := (train h n r.1).modHart h fun x =>
              { x.setX rd (amoVal dbl (lineField r.2.data t.pa z)) with resv := some n, resHold := some (s.time + 6) }
            retire h 4 (fillTlbs h .load t s3)

/-- LR: a reservation on the line, and a snoop hold of 60 ns. -/
def execLr (h : HartId) (dbl : Bool) (rd : XReg) (va : BitVec 64) (s : State) (errs : List ArrErr := []) : Out := keepQueue s <|
  done (byHartMeet h errs (doLr true h dbl rd va) s)

/-- SC of a hart (R145): it stores while the reservation on the line holds; in every case the reservation ends. -/
def doSc (metered : Bool) (h : HartId) (dbl : Bool) (rd rs2 : XReg) (va : Word) (s : State) : State :=
  let v := va.toNat
  let z := if dbl then 8 else 4
  let a := accOf (s.hart h) .store
  if v % z ≠ 0 then memTrap h 6 v a.virt s
  else match reach h a v s with
    | (s1, none) => s1
    | (s1, some t) =>
      let n := t.pa / 64
      let fin (r : Word) (s : State) : State :=
        retire h 4 (fillTlbs h .store t (s.modHart h fun x => { x.setX rd r with resv := none, resHold := none }))
      if pathOf s1 h t ≠ .cached then memTrap h 7 v a.virt (missEv h .store t s1)
      else if (s1.hart h).resv ≠ some n then fin 1 s1
      else if lineWait s1 (hartCore h) n true then s1
      else match coreMeter metered h (if lineMiss s1 (hartCore h) n true then 1 else 0) (.sc h dbl rd rs2 va []) s1 with
        | (s2, false) => s2
        | (s2, true) => fin 0 (train h n (cachedWrite h t.pa (leBytes z ((s.hart h).gx rs2).toNat) s2))

/-- SC. -/
def execSc (h : HartId) (dbl : Bool) (rd rs2 : XReg) (va : BitVec 64) (s : State) (errs : List ArrErr := []) : Out := keepQueue s <|
  done (byHartMeet h errs (doSc true h dbl rd rs2 va) s)

/-- RESERVATION_HOLD_EXPIRE (R145): the L1D no longer holds back snoops of the line. -/
def execReservationHoldExpire (h : HartId) (s : State) : Out := keepQueue s <| done (s.modHart h fun x => { x with resHold := none })

/-! ### Fences and prefetches -/

/-- FENCE (R146): orders the hart's accesses; in a model that performs one command at a time it only retires. -/
def execFence (h : HartId) (_pred _succ : BitVec 4) (_tso : Bool) (s : State) : Out := keepQueue s <| done (byHart h (retire h 4) s)

/-- The L1I lines of a core are discarded. -/
def dropL1i (h : HartId) (s : State) : State :=
  let core := hartCore h
  (s.core core).l1i.ents.foldl (fun a e => l1Gone core (l3Mask a h) e.2 a) (s.modCore core fun k => { k with l1i := { k.l1i with ents := [] } })

/-- FENCE_I (Table 2.3). -/
def execFenceI (h : HartId) (s : State) : Out := keepQueue s <| done (byHart h (fun s => retire h 4 (dropL1i h s)) s)

/-- The access that a prefetch stands for. -/
def prefAcc : PrefetchKind → AccKind
  | .r => .load | .w => .store | .i => .fetch

/-- A prefetch whose access is permitted fills the line (R104, R109); otherwise, or without allowance, it is dropped (R169). -/
def doPrefetch (h : HartId) (k : PrefetchKind) (va : Nat) (s : State) : State :=
  let a := accOf (s.hart h) (prefAcc k)
  match translate h a va s with
  | (s1, .error f) => if f.wait || decide (f.cause = 7) || f.blk.isSome then s1 else countTlbMiss h a.kind s1
  | (s1, .ok t) =>
    let n := t.pa / 64
    let own := decide (k = .w)
    let x := s1.hart h
    if pmpOk x a.priv a.kind t.pa = false ∨ (refusal s1 (.hart h) (accSec x a) own t.pa).isSome ∨ pathOf s1 h t ≠ .cached ∨
        lineWait s1 (hartCore h) n own = true then s1
    else match (if lineMiss s1 (hartCore h) n own then injTake (hartCore h) (agentTid s1 (.hart h)) 1 s1 else (s1, none)) with
      | (s2, some _) => s2
      | (s2, none) =>
        fillTlbs h a.kind t (match k with
          | .r => (readLine h n s2).1
          | .w => (ownLine h n s2).1
          | .i => (fetchLine h n s2).1)

/-- A prefetch instruction. -/
def prefetchInstr (h : HartId) (k : PrefetchKind) (rs1 : XReg) (off : BitVec 12) (s : State) : State :=
  retire h 4 (doPrefetch h k ((s.hart h).gx rs1 + (off &&& 0xFE0).signExtend 64).toNat s)

/-- PREFETCH: never traps. -/
def execPrefetch (h : HartId) (k : PrefetchKind) (rs1 : XReg) (off : BitVec 12) (s : State) (errs : List ArrErr := []) : Out := keepQueue s <|
  done (byHartMeet h errs (prefetchInstr h k rs1 off) s)

/-- PREFETCHER_ISSUE (R105): a trained stream prefetches a line of its page, under the masks and the allowance of the hart that
trained it. R104 has a data prefetch fill the L1D and the L2; the L2 stream prefetcher fills the L2 alone. DESIGN CHOICE (log 140). -/
def execPrefetcherIssue (c : CoreId) (l2 : Bool) (stream line : Nat) (s : State) : Out := keepQueue s <|
  let k := s.core c
  match (if l2 then k.str2 else k.str1)[stream]? with
  | none => done s
  | some e =>
    let h : HartId := Fin.ofNat 960 e.hart
    let x := s.hart h
    let a := 64 * line
    if line / 64 ≠ e.page ∨ corePresent s c = false ∨ tabGet s.pwr.coreSl 0 c.val ≠ 0 ∨ x.heldAcc = true ∨
        (refusal s (.hart h) x.sec false a).isSome ∨ pathOf s h ⟨a, 0, false, [], [], [], [], false⟩ ≠ .cached ∨ lineWait s c line false = true then done s
    else match (if lineMiss s c line false then injTake c (agentTid s (.hart h)) 1 s else (s, none)) with
      | (s1, some _) => done s1
      | (s1, none) => done (if l2 then (walkLine h line s1).1 else (readLine h line s1).1)

end Sys2Proof.Machine
end

