-- ==== Sys2Proof/Machine/Cbo.lean ====
section
/-! DEFINITION. Cache-block operations: the standard forms, the .LV forms and the set-and-way forms (05 R109 to R113). -/

namespace Sys2Proof.Machine

inductive CboOp where | clean | inval | flush
deriving DecidableEq, Repr

/-! ### Permission to execute -/

/-- What the envcfg registers say of an instruction: illegal, a virtual instruction, or allowed; and whether any of them turns
CBO.INVAL into a flush. The field has width `w` at bit `lo`. -/
inductive CboGate where | illegal | virt | go (flush : Bool)
deriving DecidableEq, Repr

def cboGate (x : Hart) (lo w : Nat) : CboGate :=
  let f (r : Nat) : Nat := (fld (x.c r) lo w).toNat
  let m := f 0x30A
  let sv := f 0x10A
  let hv := f 0x60A
  let userV := decide (x.priv = 0)
  if x.priv = 3 then .go false
  else if m = 0 ∨ (x.virt = false ∧ userV = true ∧ sv = 0) then .illegal
  else if x.virt ∧ (hv = 0 ∨ (userV = true ∧ sv = 0)) then .virt
  else .go (w = 2 && (m == 1 || (userV && sv == 1) || (x.virt && hv == 1)))

/-- The gate of an operation: CBIE for CBO.INVAL, CBCFE for the others. -/
def cboGateOf (x : Hart) (o : CboOp) : CboGate := if o = .inval then cboGate x 4 2 else cboGate x 6 1

/-- CBO.INVAL as performed. -/
def cboDo (o : CboOp) (flush : Bool) : CboOp := if o = .inval ∧ flush = true then .flush else o

/-- Reach the line of a CBO: a load or a store to it must be permitted; faults are those of a store. -/
def reachCbo (h : HartId) (va : Nat) (s : State) : State × Option Xl :=
  let x := s.hart h
  let chk (a : Acc) (t : Xl) (s : State) : State × Option Xl :=
    let y := s.hart h
    if pmpOk y a.priv .load t.pa = false ∧ pmpOk y a.priv .store t.pa = false then (memTrap h 7 va a.virt s, none)
    else match refusal s (.hart h) (accSec y a) false t.pa with
      | some k => (memTrap h 7 va a.virt (reportUcs (.hart h) k t.pa (secureAddr s t.pa) s), none)
      | none => (s, some t)
  match translate h (accOf x .load) va s with
  | (s1, .ok t) => chk (accOf x .load) t s1
  | (s1, .error f) =>
    if f.wait then (s1, none)
    else match translate h (accOf x .store) va s1 with
      | (s2, .ok t) => chk (accOf x .store) t s2
      | (s2, .error g) => (if g.wait then s2 else takeWalkFault h .store (accOf x .store).virt va g s2, none)

/-! ### Effects -/

/-- The dirty data of a Sleeve goes home; the Sleeve keeps the line clean. -/
def cleanSlv (n k : Nat) (s : State) : State :=
  let sc := (scratchSlv n).isSome
  let dirty := if sc then (match ownerCore s k n with
      | some x => decide (x.2.st = .M)
      | none => false) else decide (slvLevel s k n = .M)
  if dirty = false then s
  else match slvData s k n with
    | none => s
    | some d =>
      let s1 := memPut n d.1 d.2 s
      let s2 := match ownerCore s1 k n with
        | some x => s1.modCore (coreId k x.1) (coreSetSt n .E)
        | none => s1
      let s3 := l3Mod k n (fun e => { e with st := if e.st = .M then .E else e.st }) s2
      match sfFind s3 k n with
      | some x => sfWrite k x.1 { x.2 with st := .E } s3
      | none => s3

/-- Every copy of a line in a Sleeve goes, dirty data to its home or discarded; the home learns of it. -/
def flushSlv (n k : Nat) (s : State) : State :=
  match scratchSlv n with
  | some _ =>
    let s1 := match ownerCore s k n with
      | some x => if x.2.st = .M then memPut n x.2.data x.2.poison s else s
      | none => s
    slvDrop k n s1
  | none => if slvLevel s k n = .I then s else homeEvC k n (snoopInval n s k)
def invalSlv (n k : Nat) (s : State) : State :=
  match scratchSlv n with
  | some _ => slvDrop k n s
  | none => if slvLevel s k n = .I then s else homeEvC k n (slvDrop k n s)

/-- An operation on a whole Sleeve (LEVEL 2). -/
def opSlv (o : CboOp) (n k : Nat) (s : State) : State :=
  match o with
  | .clean => cleanSlv n k s
  | .flush => flushSlv n k s
  | .inval => invalSlv n k s

/-- The operation on every cache of the hart's domain (R109); only the owning Sleeve caches a scratch-window line (R111). -/
def opDomain (h : HartId) (o : CboOp) (n : Nat) (s : State) : State :=
  match scratchSlv n with
  | some k => opSlv o n k s
  | none => (domSleeves s (domainOf s (hartSleeve h))).foldl (fun a k => opSlv o n k a) s

/-- LEVEL 1: the dirty data of a core goes to the sleeve cache, or home where no way takes it. -/
def cleanCore (h : HartId) (n : Nat) (s : State) : State :=
  let core := hartCore h
  let k := hartSleeve h
  match coreLook (s.core core) n with
  | none => s
  | some e =>
    if e.st ≠ .M then s
    else if (scratchSlv n).isSome then (memPut n e.data e.poison s).modCore core (coreSetSt n .E)
    else
      let r := l3Put k (l3Mask s h) { e with st := .M } (s.modCore core (coreSetSt n .S))
      if r.2 then r.1 else cleanSlv n k s

/-- The core gives the line up, with its dirty data (flush) or without. -/
def dropCore (h : HartId) (flush : Bool) (n : Nat) (s : State) : State :=
  let core := hartCore h
  match coreLook (s.core core) n with
  | none => s
  | some e =>
    let e' := if e.st = .M ∧ flush = false then { e with st := .E } else e
    slvGiveUp (hartSleeve h) (core % 20) (l3Mask s h) e' false (coreDrop core n s)

/-- LEVEL 0: the L1s of a core. Dirty data goes to the L2. -/
def cleanL1 (h : HartId) (n : Nat) (s : State) : State :=
  let core := hartCore h
  match l1dLook (s.core core) n with
  | some e => if e.st = .M then l2Put core (l2Ways s h) (l3Mask s h) e s else s
  | none => s
def dropL1 (h : HartId) (flush : Bool) (n : Nat) (s : State) : State :=
  let core := hartCore h
  match coreLook (s.core core) n with
  | none => s
  | some e =>
    let s1 := if flush then cleanL1 h n s else s
    let s2 := dropResv core n (s1.modCore core fun k => { k with l1d := cDel k.l1d 8 (l1dT n) n, l1i := cDel k.l1i 4 (l1iT n) n })
    l1Gone core (l3Mask s h) { e with st := if e.st = .M then .E else e.st } s2

/-- An operation at a level (Table 5.4). -/
def opLevel (h : HartId) (o : CboOp) (lvl n : Nat) (s : State) : State :=
  match lvl, o with
  | 0, .clean => cleanL1 h n s
  | 0, .flush => dropL1 h true n s
  | 0, .inval => dropL1 h false n s
  | 1, .clean => cleanCore h n s
  | 1, .flush => dropCore h true n s
  | 1, .inval => dropCore h false n s
  | 2, o => match scratchSlv n with
    | some k => if k = hartSleeve h then opSlv o n k s else s
    | none => opSlv o n (hartSleeve h) s
  | _, o => opDomain h o n s

/-- A cache-block or set-and-way operation leaves the pseudo-LRU trees as they are (R107). -/
def untouched (h : HartId) (f : State → State) (s : State) : State :=
  let k := s.core (hartCore h)
  let v := s.slv (hartSleeve h)
  ((f s).modCore (hartCore h) fun x => { x with
    l1d := { x.l1d with plru := k.l1d.plru }
    l1i := { x.l1i with plru := k.l1i.plru }
    l2 := { x.l2 with plru := k.l2.plru } }).modSlv (hartSleeve h) fun x => { x with l3 := { x.l3 with plru := v.l3.plru } }

/-- A CBO reaches its line and acts at a level. Regions that no cache holds are not acted on. -/
def doCbo (h : HartId) (o : CboOp) (lvl : Nat) (inst va : Word) (s : State) : State :=
  match cboGateOf (s.hart h) o with
  | .illegal => illegalInstr h inst s
  | .virt => virtInstr h inst s
  | .go fl =>
    match reachCbo h va.toNat s with
    | (s1, none) => s1
    | (s1, some t) =>
      let n := t.pa / 64
      if cacheable (regionOf s1 t.pa) = false then retire h 4 (fillTlbs h .load t s1)
      else if homeWait s1 n then s1
      else retire h 4 (fillTlbs h .load t (untouched h (opLevel h (cboDo o fl) lvl n) s1))

/-- The bits of a CBO instruction and of a vendor cache instruction. -/
def cboInst (imm : Nat) (rs1 : XReg) : Word := BitVec.ofNat 64 (imm * 2 ^ 20 + rs1.val * 2 ^ 15 + 0x200F)
def ubxInst (f7 f3 : Nat) (rs1 rs2 : Nat) : Word := BitVec.ofNat 64 (f7 * 2 ^ 25 + rs2 * 2 ^ 20 + rs1 * 2 ^ 15 + f3 * 2 ^ 12 + 0x0B)

/-- CBO_CLEAN, CBO_INVAL and CBO_FLUSH (R109). -/
def stdCbo (h : HartId) (o : CboOp) (imm : Nat) (rs1 : XReg) (s : State) : State :=
  byHart h (fun s => doCbo h o 3 (cboInst imm rs1) ((s.hart h).gx rs1) s) s
def execCboClean (h : HartId) (rs1 : XReg) (s : State) : Out := keepQueue s <| done (stdCbo h .clean 1 rs1 s)
def execCboInval (h : HartId) (rs1 : XReg) (s : State) : Out := keepQueue s <| done (stdCbo h .inval 0 rs1 s)
def execCboFlush (h : HartId) (rs1 : XReg) (s : State) : Out := keepQueue s <| done (stdCbo h .flush 2 rs1 s)

/-- UBX_CBO_CLEAN_LV, UBX_CBO_INVAL_LV and UBX_CBO_FLUSH_LV (R110): a nonzero reserved bit of rs2 is illegal. -/
def doLv (h : HartId) (o : CboOp) (f7 : Nat) (rs1 rs2 : XReg) (s : State) : State :=
  let x := s.hart h
  let i := ubxInst f7 1 rs1.val rs2.val
  if 4 ≤ (x.gx rs2).toNat then illegalInstr h i s else doCbo h o (x.gx rs2).toNat i (x.gx rs1) s
def lvCbo (h : HartId) (o : CboOp) (f7 : Nat) (rs1 rs2 : XReg) (s : State) : State := byHart h (doLv h o f7 rs1 rs2) s
def execUbxCboCleanLv (h : HartId) (rs1 rs2 : XReg) (s : State) : Out := keepQueue s <| done (lvCbo h .clean 1 rs1 rs2 s)
def execUbxCboInvalLv (h : HartId) (rs1 rs2 : XReg) (s : State) : Out := keepQueue s <| done (lvCbo h .inval 2 rs1 rs2 s)
def execUbxCboFlushLv (h : HartId) (rs1 rs2 : XReg) (s : State) : Out := keepQueue s <| done (lvCbo h .flush 3 rs1 rs2 s)

/-! ### CBO.ZERO -/

/-- CBO.ZERO of a hart (R109): ownership of the line in the L1D, and 64 zero bytes; uncached memory is written at its home. Other
regions refuse it. -/
def doZero (metered : Bool) (h : HartId) (rs1 : XReg) (s : State) : State :=
  let x := s.hart h
  let i := cboInst 4 rs1
  let va := (x.gx rs1).toNat
  let a := accOf x .store
  match cboGate x 7 1 with
  | .illegal => illegalInstr h i s
  | .virt => virtInstr h i s
  | .go _ =>
    match reach h a va s with
    | (s1, none) => s1
    | (s1, some t) =>
      let n := t.pa / 64
      let fin (s : State) : State := retire h 4 (fillTlbs h .store t s)
      match pathOf s1 h t with
      | .cached =>
        if lineWait s1 (hartCore h) n true then s1
        else (match coreMeter metered h (if lineMiss s1 (hartCore h) n true then 1 else 0) (.cboZero h rs1) s1 with
          | (s2, false) => s2
          | (s2, true) =>
            fin (untouched h (fun s =>
              let r := ownLine h n s
              clearResv n (some h.val) (putOwned h { r.2 with data := 0, poison := false } r.1)) (countMiss h n s2)))
      | .plain =>
        if homeWait s1 n then s1
        else (match coreMeter metered h 1 (.cboZero h rs1) s1 with
          | (s2, false) => s2
          | (s2, true) => fin (putLine n (BitVec.allOnes 64) 0 false s2))
      | _ => memTrap h 7 va a.virt s1

/-- CBO_ZERO. -/
def execCboZero (h : HartId) (rs1 : XReg) (s : State) : Out := keepQueue s <| done (byHart h (doZero true h rs1) s)

/-! ### Set and way (R112, R113) -/

/-- The sets and ways of an array. -/
def cswGeom : Nat → Nat × Nat
  | 0 => (64, 8) | 1 => (128, 4) | 2 => (2048, 8) | _ => (3072, 16)

/-- The operand of a set-and-way operation names an entry (Table 5.5). -/
def cswOk (v : Word) : Bool :=
  let c := (fld v 0 2).toNat
  let g := cswGeom c
  v &&& 0xFFFFFFFFF000F00C == 0 && decide ((fld v 16 12).toNat < g.1 ∧ (fld v 4 4).toNat < g.2) &&
    (c == 3 || fld v 8 4 == 0)

/-- An entry of the L1D. -/
def cswL1d (h : HartId) (o : CboOp) (n : Nat) (e : CLine) (s : State) : State :=
  let core := hartCore h
  let s1 := if o ≠ .inval ∧ e.st = .M then l2Put core (l2Ways s h) (l3Mask s h) e s else s
  if o = .clean then s1
  else
    let s2 := dropResv core n (s1.modCore core fun k => { k with l1d := cDel k.l1d 8 (l1dT n) n })
    l1Gone core (l3Mask s h) { e with st := if e.st = .M then .E else e.st } s2

/-- An entry of the L1I. -/
def cswL1i (h : HartId) (o : CboOp) (n : Nat) (e : CLine) (s : State) : State :=
  let core := hartCore h
  if o = .clean then s else l1Gone core (l3Mask s h) e (s.modCore core fun k => { k with l1i := cDel k.l1i 4 (l1iT n) n })

/-- An entry of the L2. While the L1D holds newer data of the line, the L2's older copy has nothing to write. -/
def cswL2 (h : HartId) (o : CboOp) (n : Nat) (e : CLine) (s : State) : State :=
  let core := hartCore h
  let newer : Bool := match l1dLook (s.core core) n with
    | some d => decide (d.data ≠ e.data ∨ d.poison ≠ e.poison)
    | none => false
  let dirty := decide (e.st = .M) && !newer
  let s1 := if o ≠ .inval ∧ dirty = true then cleanCore h n s else s
  if o = .clean then s1
  else
    let s2 := s1.modCore core fun k => { k with l2 := cDel k.l2 8 (l2T n) n }
    let st := if e.st = .M then (if o = .flush then LState.S else .E) else e.st
    l1Gone core (l3Mask s h) { e with st := st } s2

/-- An entry of the sleeve cache. -/
def cswL3 (k : Nat) (o : CboOp) (n : Nat) (e : CLine) (s : State) : State :=
  match o with
  | .clean => if e.st = .M then cleanSlv n k s else s
  | .flush => l3Evict k e s
  | .inval => l3Evict k { e with st := if e.st = .M then .E else e.st } s

/-- A set-and-way operation: M-mode only; it acts on the line that occupies the entry. -/
def doCsw (h : HartId) (o : CboOp) (f7 : Nat) (rs1 : XReg) (s : State) : State :=
  let x := s.hart h
  let v := x.gx rs1
  if x.priv ≠ 3 ∨ cswOk v = false then illegalInstr h (ubxInst f7 0 rs1.val 0) s
  else
    let set := (fld v 16 12).toNat
    let w := (fld v 4 4).toNat
    let k := s.core (hartCore h)
    let sl := s.slv (hartSleeve h)
    let act (e : Option CLine) (f : Nat → CLine → State → State) : State :=
      match e with
      | some e => if lineBusy s e.line then s else retire h 4 (untouched h (f e.line e) s)
      | none => retire h 4 s
    match (fld v 0 2).toNat with
    | 0 => act (tabFind (set * 8 + w) k.l1d.ents) (cswL1d h o)
    | 1 => act (tabFind (set * 4 + w) k.l1i.ents) (cswL1i h o)
    | 2 => act (tabFind (set * 8 + w) k.l2.ents) (cswL2 h o)
    | _ => if sl.scr.getLsbD w || sl.off.getLsbD w then retire h 4 s
      else act (tabFind (((fld v 8 4).toNat * 3072 + set) * 16 + w) sl.l3.ents) (cswL3 (hartSleeve h) o)

/-- UBX_CSW_CLEAN, UBX_CSW_INVAL and UBX_CSW_FLUSH. -/
def execUbxCswClean (h : HartId) (rs1 : XReg) (s : State) : Out := keepQueue s <| done (byHart h (doCsw h .clean 1 rs1) s)
def execUbxCswInval (h : HartId) (rs1 : XReg) (s : State) : Out := keepQueue s <| done (byHart h (doCsw h .inval 2 rs1) s)
def execUbxCswFlush (h : HartId) (rs1 : XReg) (s : State) : Out := keepQueue s <| done (byHart h (doCsw h .flush 3 rs1) s)

end Sys2Proof.Machine
end

