-- ==== Sys2Proof/Machine/Issue.lean ====
section
/-! DEFINITION. Issue and slot sharing, instruction fetch, conditional branches and wrong-path execution (02 R38 to R44, R49 to R54,
R60). -/

namespace Sys2Proof.Machine

/-! ### Instructions that have issued -/

/-- The bytes of an instruction that its fetch reads at least. -/
def fetchLen : IssueInstr → Nat
  | .compute _ c _ _ | .mem _ c | .jump c _ _ | .indirect c _ _ => ilen c
  | .custom _ => 4
  | .alone | .trapping _ | .branch => 2

/-- A computing instruction writes its register, and raises its floating-point flags. -/
def computePut (k : ExecCls) (w : Option RegWrite) (fl : BitVec 5) (x : Hart) : Hart :=
  let y := match w with
    | some r => if r.fp then x.setF r.rd r.val else x.setX r.rd r.val
    | none => x
  if k = .fp then fsDirty (y.setC 3 (y.c 3 ||| at_ 0 fl)) else y

/-- An instruction of the load and store units. -/
def doMem (h : HartId) (op : MemOp) (c : Bool) (s : State) : State :=
  let r (q : XReg) : Word := (s.hart h).gx q
  match op with
  | .load k z rd va => doLoad true h k z rd va (c && loadC k z) s
  | .store k z rs2 va => doStore true h k z rs2 va (c && storeC k z) s
  | .cbo .clean q => doCbo h .clean 3 (cboInst 1 q) (r q) s
  | .cbo .inval q => doCbo h .inval 3 (cboInst 0 q) (r q) s
  | .cbo .flush q => doCbo h .flush 3 (cboInst 2 q) (r q) s
  | .cbo .zero q => doZero true h q s
  | .prefetch k q off => prefetchInstr h k q off s

/-- An instruction in a custom opcode (R60, R61, Table 2.14): one of the vendor instructions, or an illegal instruction. -/
def doCustom (h : HartId) (w : BitVec 32) (s : State) : State :=
  let rs1 : XReg := (w.extractLsb' 15 5).toFin
  let rs2 : XReg := (w.extractLsb' 20 5).toFin
  let one := w &&& 0xFFF07FFF
  let two := w &&& 0xFE007FFF
  if one = 0x0200000B then doCsw h .clean 1 rs1 s
  else if one = 0x0400000B then doCsw h .inval 2 rs1 s
  else if one = 0x0600000B then doCsw h .flush 3 rs1 s
  else if two = 0x0200100B then doLv h .clean 1 rs1 rs2 s
  else if two = 0x0400100B then doLv h .inval 2 rs1 rs2 s
  else if two = 0x0600100B then doLv h .flush 3 rs1 rs2 s
  else if w = 0x0200200B then doWswitch h s
  else illegalInstr h (w.setWidth 64) s

/-- The bits of a floating-point instruction that its offer does not carry: all but the low two. -/
def fpInst (c : Bool) (s : State) : Word := if c then openInst s 0 0 &&& 0xFFFF else openInst s 3 3

/-- A committed instruction that has issued is performed. One that issues alone is performed by its own command. -/
def doItem (h : HartId) (i : IssueInstr) (s : State) : State :=
  match i with
  | .compute k c w fl =>
    if k = .fp ∧ fpOff (s.hart h) = true then illegalInstr h (fpInst c s) s else retire h (ilen c) (s.modHart h (computePut k w fl))
  | .mem op c => doMem h op c s
  | .custom w => doCustom h w s
  | .trapping t => takeTrap h ⟨t.cause, t.tval, t.tval2, (s.hart h).virt && memExc t.cause, false, none⟩ s
  | .jump c rd t =>
    let link := (s.hart h).pc + BitVec.ofNat 64 (ilen c)
    (retire h (ilen c) s).modHart h fun x => { x.setX rd link with pc := t, ras := rasMove x false (hintPush rd link) x.ras }
  | .alone | .branch | .indirect .. => s

/-- The instructions that have issued are performed in order, until one waits, traps, or ends the mode that the hart runs in. -/
def runRest (h : HartId) : Nat → State → State
  | 0, s => s
  | n + 1, s =>
    match (s.hart h).rest with
    | [] => s
    | i :: r =>
      let s1 := if hartRuns s h then actHart h (doItem h i) s else s
      if (s1.hart h).rest.length ≤ r.length then runRest h n s1 else s1

/-! ### Fetch -/

/-- Fetch at an address: the fetch is over, or it waits or has trapped. A line that misses the core is metered as a table read is. -/
def fetchAt (h : HartId) (va : Nat) (s : State) : State × Bool :=
  let a := accOf (s.hart h) .fetch
  match reach h a va s with
  | (s1, none) => (s1, false)
  | (s1, some t) =>
    let n := t.pa / 64
    let bad (s : State) : State × Bool :=
      (memTrap h 1 va a.virt (reportUcs (.hart h) .fetch t.pa (secureAddr s t.pa) (missEv h .fetch t s)), false)
    match pathOf s1 h t with
    | .cached =>
      if lineWait s1 (hartCore h) n false then (s1, false)
      else (match walkMeter h n s1 with
        | (s2, false) => (s2, false)
        | (s2, true) =>
          let s3 := if (coreLook (s2.core (hartCore h)) n).isNone then countEvent h 8 1 s2 else s2
          let r := fetchLine h n s3
          if r.2.poison then bad r.1 else (fillTlbs h .fetch t r.1, true))
    | .plain => if (curLine s1 n).2 then bad s1 else (fillTlbs h .fetch t s1, true)
    | _ => (memTrap h 1 va a.virt (missEv h .fetch t s1), false)

/-- An instruction that crosses a line is fetched in two parts. -/
def crosses (pc len : Nat) : Bool := decide (pc / 64 ≠ (pc + len - 1) / 64)

/-- The hart's next instruction is fetched. -/
def fetchInstr (h : HartId) (len : Nat) (s : State) : State × Bool :=
  let pc := (s.hart h).pc.toNat
  match fetchAt h pc s with
  | (s1, false) => (s1, false)
  | (s1, true) => if crosses pc len then fetchAt h (pc + 2) s1 else (s1, true)

/-- On the predicted path (Table 2.5): the translation is in the TLBs and the line in the L1I, and the fetch raises nothing. -/
def fetchHit (s : State) (h : HartId) (va : Nat) : Bool :=
  let x := s.hart h
  let a := accOf x .fetch
  match xlateHit s h a va with
  | none => false
  | some t => pmpOk x a.priv a.kind t.pa && (refusal s (.hart h) (accSec x a) false t.pa).isNone && decide (pathOf s h t = .cached) &&
    (match l1iLook (s.core (hartCore h)) (t.pa / 64) with
      | some e => !e.poison
      | none => false)

/-! ### The predicted path (R52, R53, Table 2.5) -/

/-- A wrong-path load probes the tags: the lines that it places in the speculative fill buffer beside those there, two at most; none
when the load waits or would raise an exception. -/
def specLoad (s : State) (h : HartId) (k : LoadKind) (z : Size) (va : Nat) : Option (List Nat) :=
  let x := s.hart h
  let n := sizeBytes z
  let a := if isHlv k then accHyp x .load (decide (k = .hlvx)) else accOf x .load
  if loadIll x k z || (isHlv k && (hypGate h 0 s).isSome) || (decide (va % n ≠ 0) && decide (va / 4096 ≠ (va + n - 1) / 4096)) then none
  else
    match xlateHit s h a va with
    | none => none
    | some t =>
      if pmpOk x a.priv a.kind t.pa = false ∨ (refusal s (.hart h) (accSec x a) false t.pa).isSome ∨ pathOf s h t ≠ .cached then none
      else (linesOf t.pa n).foldl (fun b m => b.bind fun l =>
        match l1dLook (s.core (hartCore h)) m, l2Look (s.core (hartCore h)) m with
        | some e, _ => if e.poison then none else some l
        | none, some e => if e.poison then none else some ((m :: l.filter (· ≠ m)).take 2)
        | none, none => none) (some x.specFill)

/-- An instruction of the predicted path issues, or stops the path; a store or cache-block operation does both: it is held in the
store queue. -/
def issueSpec (h : HartId) (i : IssueInstr) (s : State) : State × Bool :=
  let x := s.hart h
  let stop : State × Bool := (s.modHart h fun x => { x with wrongStop := true }, false)
  let go (next : Word) (last : Bool) (f : Hart → Hart) : State × Bool :=
    (s.modHart h fun x => { f x with
      wrong := x.wrong + 1
      path := x.path ++ [i]
      specPc := next
      wrongStop := last || decide (8 ≤ x.wrong + 1) }, true)
  let pc := x.specPc.toNat
  let after (c : Bool) : Word := x.specPc + BitVec.ofNat 64 (ilen c)
  if fetchHit s h pc = false ∨ (crosses pc (fetchLen i) = true ∧ fetchHit s h (pc + 2) = false) then stop
  else match i with
    | .compute k c _ _ => if k = .fp ∧ fpOff x = true then stop else go (after c) false id
    | .jump _ _ t => go t false id
    | .mem (.load k z _ va) c =>
      (match specLoad s h k z va.toNat with
      | some l => go (after c) false fun x => { x with specFill := l }
      | none => stop)
    | .mem (.store k z _ _) c => if storeIll x k z then stop else go (after c) true id
    | .mem (.cbo ..) c | .mem (.prefetch ..) c => go (after c) true id
    | _ => stop

/-- An instruction issues: on the predicted path while an indirect is unresolved, else as a committed one, which is fetched first.
Whether it has filled a slot. -/
def issueInstr (h : HartId) (i : IssueInstr) (s : State) : State × Bool :=
  if (s.hart h).indir.isSome then issueSpec h i s
  else match fetchInstr h (fetchLen i) s with
    | (s1, false) => (s1, false)
    | (s1, true) =>
      let s2 := countEvent h 1 1 s1
      match i with
      | .branch => (s2.modHart h fun x => { x with fetchStop := true }, true)
      | .indirect c rd rs1 => (issueIndirect h (ilen c) rd rs1 s2, true)
      | _ => (runRest h 1 (s2.modHart h fun x => { x with rest := [i] }), true)

/-! ### The handshake (R39, R40, Table 2.1) -/

def issueCls : IssueInstr → IClass
  | .compute .alu .. => .alu
  | .compute .mul .. => .mul
  | .compute .div .. => .div
  | .compute .fp .. => .fp
  | .compute .zkn .. => .zkn
  | .mem (.load ..) _ => .load
  | .mem _ _ => .store
  | .alone | .custom _ | .trapping _ => .alone
  | .branch | .jump .. | .indirect .. => .branch

/-- Two classes may share a handshake (Table 2.1). -/
def pairOk (a b : IClass) : Bool :=
  a != .alone && b != .alone && (a != b || a == .alu || a == .load)

/-- A hart can offer (R40): it issues, with nothing issued that waits, or is on a predicted path that has not stopped; a hart that
steps issues none there. -/
def canOffer (s : State) (h : Nat) : Bool :=
  let x := s.hart h
  hartRuns s h && x.rest == [] && !x.wrongStop && !(x.indir.isSome && bit (x.c 0x7B0) 2)

/-- The instruction that a hart offers first, and the next one. -/
def offerOf (s : State) (h : Nat) : Offer → Option IssueInstr
  | .notReady => none
  | .ready i _ => if canOffer s h then some i else none
def nextOf : Offer → Option IssueInstr
  | .notReady => none
  | .ready _ j => j

/-- What a handshake has issued so far: the harts, with the classes of their instructions. -/
structure Slots where
  st  : State
  got : List (Nat × IClass)

/-- One hart is considered: it fills a slot if one is left, the classes may share the handshake, and the instruction issues. -/
def considerHart (h : HartId) (i : Option IssueInstr) (a : Slots) : Slots :=
  match i with
  | none => a
  | some i =>
    if a.got.length < 2 ∧ (a.got.all fun g => pairOk (issueCls i) g.2) = true then
      match issueInstr h i a.st with
      | (s1, true) => ⟨s1, a.got ++ [(h.val, issueCls i)]⟩
      | (s1, false) => { a with st := s1 }
    else a

/-- A slot is left after every ready hart has offered: the first of them in the order, which has issued alone, may place its next
instruction. -/
def secondOffer (next : Nat → Option IssueInstr) (a : Slots) : Slots :=
  match a.got with
  | [(h, _)] => if canOffer a.st h && !bit ((a.st.hart h).c 0x7B0) 2 then considerHart (Fin.ofNat 960 h) (next h) a else a
  | _ => a

/-- Counts of a handshake for one hart: mcycle and the events 0x02, 0x03 and 0x0B. -/
def countHandshake (paced : Bool) (h : Nat) (ready : Bool) (s : State) : State :=
  let s1 := s.modHart h fun x => if bit (x.c 0x320) 0 then x else x.setC 0xB00 (x.c 0xB00 + 1)
  let s2 := if ready then s1 else countEvent h 2 1 s1
  let s3 := if (s.hart h).fetchStop && (s.hart h).indir.isNone then countEvent h 3 1 s2 else s2
  if paced then countEvent h 0xB 1 s3 else s3

/-- Hart `t` of a core. -/
def coreHart (c : CoreId) (t : Nat) : HartId := Fin.ofNat 960 (4 * c + t)

/-- The instructions of a hart that have issued and wait are tried again. -/
def goOn (h : HartId) (s : State) : State := runRest h (s.hart h).rest.length s

/-- The handshakes of a core complete: its Sleeve and the core are in no sleep state that withholds them (R38, R55). -/
def handshakes (s : State) (c : CoreId) : Bool :=
  corePresent s c && tabGet s.pwr.coreSl 0 c.val == 0 && decide ((s.slvPwr (c / 20)).sl = 0)

/-- ISSUE_HANDSHAKE (R38, R39): the harts of a core are considered in round-robin order. While the core is in a sleep state the
handshake is withheld. -/
def execIssueHandshake (c : CoreId) (o0 o1 o2 o3 : Offer) (paced : Bool) (s : State) (errs : List ArrErr := []) : Out := keepQueue s <|
  if handshakes s c = false then done s
  else
    let offer (t : Nat) : Offer := [o0, o1, o2, o3].getD t .notReady
    let first := (s.core c).rr % 4
    let order := (upto 4).map fun i => (first + i) % 4
    let s0 := (upto 4).foldl (fun a t => goOn (coreHart c t) a) (meet errs s)
    let s1 := (upto 4).foldl (fun a t => countHandshake paced (4 * c + t) (offerOf s0 (4 * c + t) (offer t)).isSome a) s0
    let r := order.foldl (fun a t => considerHart (coreHart c t) (offerOf s0 (4 * c + t) (offer t)) a) ⟨s1, []⟩
    let r2 := secondOffer (fun h => nextOf (offer (h % 4))) r
    done (r2.st.modCore c fun k => { k with rr := (first + 1) % 4 })

/-! ### Resolution -/

/-- BRANCH_RESOLVE (R43): fetch restarts at the taken target or the fall-through address. -/
def execBranchResolve (h : HartId) (target : BitVec 64) (s : State) : Out := keepQueue s <|
  let x := s.hart h
  if x.fetchStop && x.indir.isNone then
    done (stepDone h x ((retire h 0 s).modHart h fun y => { y with fetchStop := false, pc := target }))
  else done s

/-- A line of the speculative fill buffer is installed in the L1D as an ordinary fill. -/
def installFill (h : HartId) (s : State) (n : Nat) : State :=
  if (l1dLook (s.core (hartCore h)) n).isSome || lineWait s (hartCore h) n false then s
  else match (if lineMiss s (hartCore h) n false then injTake (hartCore h) (agentTid s (.hart h)) 1 s else (s, none)) with
    | (s1, some _) => s1
    | (s1, none) => (readLine h n s1).1

/-- The indirect retires: its link is written, its target taken and shifted into the history (R46). -/
def indirectDone (h : HartId) (c : Checkpoint) (target : Word) (s : State) : State :=
  (retire h 0 s).modHart h fun x => { x.setX c.rd (c.pc + BitVec.ofNat 64 c.len) with
    indir := none
    wrong := 0
    wrongStop := false
    specFill := []
    specPc := 0
    path := []
    fetchStop := false
    pc := target
    hist := histNext c.hist target }

/-- INDIRECT_RESOLVE (R50, R53): a correct prediction installs the speculative fills and commits the path, whose instructions are then
performed in order; otherwise the path is squashed and the hart repaired. -/
def execIndirectResolve (h : HartId) (target : BitVec 64) (s : State) : Out := keepQueue s <|
  let x := s.hart h
  match x.indir with
  | none => done s
  | some c =>
    let s1 := indirectDone h c target (itbUpdate h c.hist c.pc target s)
    if c.pred && decide (c.target = target) then
      let s2 := x.specFill.reverse.foldl (installFill h) (countEvent h 1 x.wrong s1)
      done (stepDone h x (runRest h x.path.length (s2.modHart h fun y => { y with rest := x.path })))
    else
      let s2 := s1.modHart h fun y => { y with ras := rasMove x c.pop c.push c.ras }
      done (stepDone h x (if c.pred then countEvent h 6 x.wrong (countEvent h 5 1 s2) else s2))

end Sys2Proof.Machine
end

