-- ==== Sys2Proof/Machine/Io.lean ====
section
/-! DEFINITION. I/O packets at their targets and requesters (07 R160; 17 R417, R426; 16 R466), and the commands of the regulators
and the Belt that let held packets go on (07 R168 to R170; 12 R309). -/

namespace Sys2Proof.Machine

/-! ### I/O packets -/

/-- A request refused at its target: for a hart an access fault, else an error completion. -/
def ioRefuse (p : IoPkt) (write : Bool) (k : UcsKind) (s : State) : State :=
  faultAgent p.who write (reportUcs p.who k p.addr (secureAddr s p.addr) s)

/-- A request for a port is sent through its link; through a link that is down or contained it ends in an error. -/
def ioToPort (p : IoPkt) (q : Nat) (write : Bool) (s : State) : State :=
  let l := winLink s q p.addr
  if linkServes s q l then s.modPort q fun x => { x with wait := x.wait ++ [(p.tag, (p.who, p.addr))] }
  else faultAgent p.who write (reportIo q l p.who p.addr s)

/-- An I/O packet of Table 7.5 by its command, byte count and data. -/
def ioPkt (s : State) (cmd : Nat) (p : IoPkt) (n : Nat) (op : Word) (data : List Byte) : Packet := ioPacket s cmd p.who p.addr n p.tag op data

/-- IORD: a read of registers answers at once; a read of a window or of configuration space waits for its completion. Main memory
is not read by this packet (Table 7.5). -/
def ioReadReq (p : IoPkt) (n : Nat) (s : State) : State :=
  match refusal s p.who (agentSecure s p.who) false p.addr with
  | some k => ioRefuse p false k s
  | none =>
    match regionOf s p.addr with
    | .imsic .. => { s with answer := .bytes (zeros n) }
    | .ecam q _ =>
      if ownSpace p.addr then { s with answer := .bytes ((upto n).map fun i => Config.portSpace (p.addr + i)) }
      else ioToPort p q false s
    | .pcie q => ioToPort p q false s
    | r =>
      match mmioRead p.who ((regOf r).getD none) p.addr n s with
      | some (s1, b) => { s1 with answer := .bytes b }
      | none => ioRefuse p false .reserved s
def execIord (p : IoPkt) (n : Nat) (s : State) : Out := keepQueue s <| done (onPacket (ioPkt s 0x48 p n 0 []) s (ioReadReq p n))

/-- A write at a register or an interrupt file; `ok` is what the target answers. -/
def ioWriteReg (p : IoPkt) (data : List Byte) (ok : State → State) (s : State) : State :=
  match regionOf s p.addr with
  | .imsic h f o => ok (if hartFailed s h then s else imsicPage h f o data s)
  | r =>
    match mmioWrite p.who ((regOf r).getD none) p.addr data s with
    | some s1 => ok s1
    | none => ioRefuse p true .reserved s

/-- IOWR: a posted write. To a window of a link that is down or contained it is dropped (Table 17.7). -/
def ioPosted (p : IoPkt) (data : List Byte) (s : State) : State :=
  match refusal s p.who (agentSecure s p.who) true p.addr with
  | some k => ioRefuse p true k s
  | none =>
    match regionOf s p.addr with
    | .ecam q _ | .pcie q => if ownSpace p.addr || linkServes s q (winLink s q p.addr) then s else logAer q s
    | _ => ioWriteReg p data id s
def execIowr (p : IoPkt) (data : List Byte) (s : State) : Out := keepQueue s <|
  done (onPacket (ioPkt s 0x40 p data.length 0 data) s (ioPosted p data))

/-- A write is complete: IoCpl with status 0 (Table 7.4). -/
def ioOk (s : State) : State := { s with answer := .status 0 [] }

/-- IOWRNP: a write that needs a completion. -/
def ioWriteNp (p : IoPkt) (data : List Byte) (s : State) : State :=
  match refusal s p.who (agentSecure s p.who) true p.addr with
  | some k => ioRefuse p true k s
  | none =>
    match regionOf s p.addr with
    | .ecam q _ => if ownSpace p.addr then ioOk s else ioToPort p q true s
    | .pcie q => ioToPort p q true s
    | _ => ioWriteReg p data ioOk s
def execIowrnp (p : IoPkt) (data : List Byte) (s : State) : Out := keepQueue s <|
  done (onPacket (ioPkt s 0x49 p data.length 0 data) s (ioWriteNp p data))

/-- OP of an atomic packet: the funct5 of the AMO and its width (Table 7.4). -/
def amoCode (op : AmoOp) (dbl : Bool) : Word :=
  let f : BitVec 5 := match op with
    | .add => 0x00
    | .swap => 0x01
    | .xor => 0x04
    | .or => 0x08
    | .and => 0x0C
    | .min => 0x10
    | .max => 0x14
    | .minu => 0x18
    | .maxu => 0x1C
  cat [on 5 dbl, at_ 0 f]

/-- IOATOM: to a PCIe window, as an AtomicOp for AMOSWAP and AMOADD; elsewhere not performed (Table 6.11). -/
def ioAtomic (p : IoPkt) (op : AmoOp) (s : State) : State :=
  match refusal s p.who (agentSecure s p.who) true p.addr with
  | some k => ioRefuse p true k s
  | none =>
    match regionOf s p.addr with
    | .pcie q => if op = .swap ∨ op = .add then ioToPort p q true s else faultAgent p.who true s
    | _ => faultAgent p.who true s
def execIoatom (p : IoPkt) (op : AmoOp) (dbl : Bool) (v : BitVec 64) (s : State) : Out := keepQueue s <|
  let n := if dbl then 8 else 4
  done (onPacket (ioPkt s 0x4A p n (amoCode op dbl) (leBytes n v.toNat)) s (ioAtomic p op))

/-- The port at which a request with a tag waits. -/
def waitingAt (s : State) (tag : BitVec 12) (dest : Agent) : Option (Nat × Nat) :=
  (upto 6).findSome? fun q => ((s.port q).wait.find? fun w => w.1 == tag && w.2.1 == dest).map fun w => (q, w.2.2)

/-- A hart's waiting access completes. -/
def hartIoDone (h : HartId) (tag : BitVec 12) (data : List Byte) (s : State) : State :=
  match (s.hart h).io with
  | none => s
  | some io =>
    if io.tag ≠ tag then s
    else
      let s1 := s.modHart h fun x => { x with io := none }
      let put (f : Hart → Hart) : State := goOn h (retire h io.len (fillTlbs h (ioAcc io.what) io.xl (s1.modHart h f)))
      match io.what with
      | .load k z rd => put (loadPut k z rd (leNat (data.take (sizeBytes z))))
      | .amo dbl rd => put fun x => x.setX rd (amoVal dbl (BitVec.ofNat 64 (leNat (data.take (if dbl then 8 else 4)))))
      | .store => put id

/-- A completion arrives for a request that waits at a port: an error status ends it as Table 17.7 says. One that answers no
waiting request changes nothing. -/
def ioComplete (tag : BitVec 12) (dest : Agent) (status : BitVec 8) (data : List Byte) (s : State) : State :=
  match waitingAt s tag dest with
  | none => s
  | some (q, a) =>
    let s1 := s.modPort q fun x => { x with wait := x.wait.erase (tag, (dest, a)) }
    if status ≠ 0 then endIoError q (winLink s q a) dest tag a s1
    else match dest with
      | .hart h => hartIoDone h tag data s1
      | _ => { s1 with answer := if data = [] then .status 0 [] else .bytes data }

/-- A completion's packet, from the port at which its request waits. -/
def cplFor (s : State) (tag : BitVec 12) (dest : Agent) (status : BitVec 8) (data : List Byte) : Packet :=
  cplPacket (portNode (((waitingAt s tag dest).map (·.1)).getD 0)) dest tag status data

/-- IOCPL and IOCPLD. -/
def execIocpl (tag : BitVec 12) (dest : Agent) (status : BitVec 8) (s : State) : Out := keepQueue s <|
  done (onPacket (cplFor s tag dest status []) s (ioComplete tag dest status []))
def execIocpld (tag : BitVec 12) (dest : Agent) (status : BitVec 8) (data : List Byte) (s : State) : Out := keepQueue s <|
  done (onPacket (cplFor s tag dest status data) s (ioComplete tag dest status data))

/-- The Msi packet in flight with an address and a value. -/
def msiFlight (s : State) (addr : Nat) (v : BitVec 32) : Option Flight :=
  s.fab.mesh.flights.find? fun f => decide (f.pkt.cmd = 0x41 ∧ f.pkt.line = addr / 64 ∧ (fld f.pkt.hw2 0 8).toNat = addr % 64) &&
    f.pkt.units == byteUnits (leBytes 4 v.toNat)

/-- The agent that a node of the Vest stands for: a root port's devices, else the package's own engines. -/
def nodeAgent (n : Nat) : Agent :=
  match (upto 6).find? fun p => portNode p == n with
  | some p => .device (Fin.ofNat 6 p) 0 0
  | none => .power

/-- An Msi at an interrupt file: writes to files of harts whose domain has fail-stopped are discarded (R149). Elsewhere it meets a
reserved region: posted, it has no completion, and is reported (R30). -/
def msiAt (who : Agent) (addr : Nat) (v : BitVec 32) (s : State) : State :=
  match regionOf s addr with
  | .imsic h f o => if hartFailed s h then s else imsicPage h f o (leBytes 4 v.toNat) s
  | _ => reportUcs who .reserved addr (secureAddr s addr) s

/-- MSI_WRITE (R466): an Msi packet reaches an interrupt file. -/
def execMsiWrite (addr : Nat) (v : BitVec 32) (s : State) : Out := keepQueue s <|
  match msiFlight s addr v with
  | some f => done (onPacket f.pkt s (msiAt (nodeAgent f.pkt.srcN) addr v))
  | none => done (msiAt .power addr v s)

/-! ### Packets that go on -/

/-- A hart's held access is performed, uncharged; the instructions that have issued after it follow. -/
def runHart (h : HartId) (f : State → State) (s : State) : State :=
  let s1 := s.modHart h fun x => { x with heldAcc := false }
  if hartRuns s1 h && (s1.hart h).indir.isNone then goOn h (actHart h f s1) else s1

/-- A command whose packet a regulator or the Belt held goes on. -/
def runCmd (s : State) (c : Instr) : State :=
  match c with
  | .load h k z rd va c _ => runHart h (doLoad false h k z rd va c) s
  | .store h k z r va c _ => runHart h (doStore false h k z r va c) s
  | .amo h op d q rd r va _ => runHart h (doAmo false h op d q rd r va) s
  | .lr h d rd va _ => runHart h (doLr false h d rd va) s
  | .sc h d rd r va _ => runHart h (doSc false h d rd r va) s
  | .cboZero h r => runHart h (doZero false h r) s
  | c => runInbound c s

/-- What a regulator held goes on: a walk's table read is sent when the instruction that needs it runs again. -/
def runReleased (s : State) (p : HeldPkt) : State :=
  match p with
  | .cmd c => runCmd s c
  | .walk h n => s.modHart h fun x => { x with heldAcc := false, walkPaid := some n }
  | .area id i data => match s.stor.cmds.find? fun c => c.id == id && c.opc == 1 && c.todo.contains i with
    | some c => putArea c i data s
    | none => s
  | .source id => runWrite id (modCmd id (fun c => { c with metered := true }) s)

/-- REGULATOR_GRANT (R168): a grant adds allowance, and the held packets that it covers go on, oldest first. -/
def execRegulatorGrant (pt : InjPoint) (a : Fin 256) (s : State) : Out := keepQueue s <|
  let x := grantUnits (pointNo pt) a s
  done (x.2.foldl runReleased x.1)

/-- An item that the Belt releases. -/
def runItem (s : State) (i : HeldItem) : State :=
  match i.what with
  | .item => s
  | .cmd c => runCmd s c
  | .txn n => serveLine .vest n s
  | .op id => releaseOp id (if (s.act i.act).cls = 3 && (s.act i.act).active then some i.act else none) i.bor s

/-- BELT_PERIOD_BOUNDARY (R309): a class period ends; at a boundary of class 0 the regulators' packets follow (R168). -/
def execBeltPeriodBoundary (c : Fin 6) (s : State) : Out := keepQueue s <|
  let x := beltBoundary c s
  let s1 := x.2.foldl runItem x.1
  if c.val = 0 then
    let y := regulBoundary s1
    done (y.2.foldl runReleased y.1)
  else done s1

end Sys2Proof.Machine
end

