-- ==== Sys2Proof/Machine/Objects.lean ====
section
/-! DEFINITION. The objects of the Akale dictionary (14 R356, R359, R364 to R373; Tables 10.18, 11.12, 12.11, 13.12, 14.11 to 14.13,
15.14, 16.11 and 18.10): their attributes, what they read as, and what a write does. -/

namespace Sys2Proof.Machine

/-! ### Kinds -/

/-- Data types (Table 14.5): integers of `n` bytes, byte strings, arrays of 16-bit integers. -/
inductive OTy where
  | bool
  | u (n : Nat)
  | i (n : Nat)
  | oct (n : Nat)
  | arr (n : Nat)
  | vstr
  | cmd
deriving DecidableEq, Repr

inductive OAcc where | ro | rw | wo | const
deriving DecidableEq, Repr

/-- What an object stands for. -/
inductive Od where
  | lit (b : List Byte)
  /-- A register, or a field of one. -/
  | reg (r : Reg)
  | fld (r : Reg) (lo w : Nat)
  | vestuid | fwver | mac | lladdr
  /-- The Static communication objects, PORT first. -/
  | net (i : Nat)
  | idletmo | sessions | authfail
  | keyHash (k : Nat) | keyLevel (k : Nat) | keyEn (k : Nat)
  | diefuse (k : Nat)
  | plcur (s : Nat)
  /-- OD 0x3200.0i. -/
  | thm (i : Nat)
  | lacepd
  | holdok | rectime
  | storst
  | nsinfo (n : Nat)
  /-- Media management objects, in the order of Table 10.18. -/
  | media (i : Nat)
  | offtime
  | thr (e : Nat)
  | lifeUsed | spareLeft | exhausted | waf | reqsize | regoff (i : Nat) | lgstat (g i : Nat)
  | activeN | heldN | loguse
  | retained
  | devidcert | aliascert | fwinfo (i : Nat) | svnfuse (t : Nat) | tokepoch
  | bistsig (t u : Nat) | bistres (t u : Nat)
  | command
deriving DecidableEq, Repr

/-- An object: what it is, type, access, level (0 Basic, 1 Expert, 2 Service), class (0 none, 1 Static, 2 Quiesce, 3 Live), the
feature it belongs to, and its default where it has one. -/
structure Obj where
  od   : Od
  ty   : OTy
  acc  : OAcc
  lvl  : Nat
  cls  : Nat
  feat : Option Nat
  dflt : List Byte
deriving DecidableEq, Repr

/-- Read-only objects; settings with a default; commands. -/
def oRo (o : Od) (t : OTy) (lvl : Nat) : Option Obj := some ⟨o, t, .ro, lvl, 0, none, []⟩
def tyLen : OTy → Nat
  | .bool => 1 | .u n => n | .i n => n | .oct n => n | .arr n => 2 * n | .vstr => 255 | .cmd => 0
def oRw (o : Od) (t : OTy) (lvl cls d : Nat) : Option Obj := some ⟨o, t, .rw, lvl, cls, none, leBytes (tyLen t) d⟩
def oCmd (lvl cls : Nat) (feat : Option Nat) : Option Obj := some ⟨.command, .cmd, .wo, lvl, cls, feat, []⟩
def oConst (t : OTy) (b : List Byte) : Option Obj := some ⟨.lit b, t, .const, 0, 0, none, b⟩

/-- Communication (Table 14.11): "Yalrun" and "YL-UA200". -/
def objNet (x b : Nat) : Option Obj :=
  match x, b with
  | 0x1000, 1 => oConst .vstr (ascii [0x59, 0x61, 0x6C, 0x72, 0x75, 0x6E])
  | 0x1000, 2 => oConst .vstr (ascii [0x59, 0x4C, 0x2D, 0x55, 0x41, 0x32, 0x30, 0x30])
  | 0x1000, 3 => oRo .vestuid (.oct 8) 0
  | 0x1001, 1 => oConst (.u 2) (leBytes 2 0x100)
  | 0x1001, 2 => oRo .fwver (.u 4) 0
  | 0x1010, 1 => oRo .mac (.oct 6) 0
  | 0x1010, 2 => oRo .lladdr (.oct 16) 0
  | 0x1010, 3 => oRw (.net 0) (.u 2) 1 1 24817
  | 0x1011, 1 => oRw (.net 1) .bool 1 1 1
  | 0x1011, 2 => some ⟨.net 2, .u 1, .rw, 1, 1, none, []⟩
  | 0x1011, 3 => oRw (.net 3) (.u 1) 1 1 8
  | 0x1011, 4 => oRw (.net 4) (.u 1) 1 1 0
  | 0x1011, 5 => oRw (.net 5) (.u 1) 1 1 32
  | 0x1020, 1 => oConst (.u 1) [8]
  | 0x1020, 2 => oRw .idletmo (.u 2) 1 3 60
  | 0x1020, 3 => oRo .sessions (.u 1) 0
  | 0x1020, 4 => oRo .authfail (.u 4) 0
  | 0x1040, 0 => oCmd 1 0 none
  | _, _ =>
    if 0x1030 ≤ x ∧ x < 0x1040 then
      match b with
      | 1 => oRw (.keyHash (x - 0x1030)) (.oct 32) 1 3 0
      | 2 => oRw (.keyLevel (x - 0x1030)) (.u 1) 1 3 0
      | 3 => oRw (.keyEn (x - 0x1030)) .bool 1 3 0
      | _ => none
    else none

/-- Package and topology (Table 14.12, R33). -/
def objPkg (x b : Nat) : Option Obj :=
  match x with
  | 0x2000 => (match b with
    | 1 => oRo (.reg .pkginfo) (.u 8) 0
    | 2 => oRo (.reg .pkgfeat) (.u 4) 0
    | _ => none)
  | 0x2001 => (idx 12 (b - 1)).bind fun k => oRo (.reg (.slvstat k)) (.u 8) 0
  | 0x2002 => if b ≤ 13 then oRo (.diefuse (b - 1)) (.oct 32) 1 else none
  | 0x2003 => (idx 12 (b - 1)).bind fun k => oRo (.reg (.hartmap k)) (.u 4) 0
  | 0x2004 => (idx 12 (b - 1)).bind fun k => oRw (.reg (.slvwa k)) (.u 8) 1 1 0
  | 0x2005 => if b = 1 then oRw (.reg .domcfg) (.u 8) 1 1 0 else none
  | 0x2006 => if b ≤ 16 then some ⟨.reg (.dommem (Fin.ofNat 4 ((b - 1) / 4)) (Fin.ofNat 4 (b - 1))), .u 8, .rw, 1, 1, some 9, zeros 8⟩ else none
  | 0x2007 => if b = 5 then oCmd 1 0 none else (idx 4 (b - 1)).bind fun d => oRo (.reg (.fstop d)) (.u 8) 0
  | 0x2020 => if b = 1 then some ⟨.reg .dramMap, .u 8, .rw, 1, 1, none, []⟩ else none
  | 0x2021 => (idx 12 (b - 1)).bind fun n => oRo (.reg (.chStat n)) (.u 8) 0
  | 0x2022 => (idx 12 (b - 1)).bind fun n => some ⟨.reg (.chRh n), .u 8, .rw, 1, 3, none, leBytes 8 (rdChRh State.reset n).toNat⟩
  | 0x2023 => if b = 1 then some ⟨.reg .dramScrub, .u 8, .rw, 1, 3, none, leBytes 8 (rdScrub State.reset).toNat⟩ else none
  | _ =>
    if 0x2010 ≤ x ∧ x < 0x2020 ∧ b ≤ 16 then
      oRo (if b ≤ 8 then .fld (.distlo (Fin.ofNat 16 (x - 0x2010))) (8 * (b - 1)) 8 else .fld (.disthi (Fin.ofNat 16 (x - 0x2010))) (8 * (b - 9)) 8) (.u 1) 0
    else none

/-- Power, thermal and holdup (Tables 13.12, 11.12). -/
def objPwr (x b : Nat) : Option Obj :=
  match x with
  | 0x3010 => if b = 0 then oRw (.fld .pwrPkg 0 10) (.u 2) 0 3 750 else none
  | 0x3100 => (match b with
    | 1 => some ⟨.reg .slcfg, .u 8, .rw, 1, 3, none, leBytes 8 (rdSlcfg State.reset).toNat⟩
    | 2 => oRo (.reg .wakesrc) (.u 8) 0
    | _ => none)
  | 0x3101 => if b = 0 then oCmd 1 3 none else none
  | 0x3102 => if b = 0 then oCmd 1 3 none else none
  | 0x3200 =>
    if 1 ≤ b ∧ b ≤ 4 then oRw (.thm b) (.u 4) 1 2 ([40000, 40, 1400000, 69700].getD (b - 1) 0)
    else if 5 ≤ b ∧ b ≤ 7 then oRw (.thm b) (.u 2) 1 2 ([3000, 500, 1000].getD (b - 5) 0)
    else if b = 8 ∨ b = 9 then oRw (.thm b) (.u 1) 1 3 (if b = 8 then 100 else 85)
    else if 10 ≤ b ∧ b ≤ 13 then oRw (.thm b) (.u 2) 1 3 ([20, 300, 100, 0].getD (b - 10) 0)
    else none
  | 0x3201 => (match b with
    | 1 => oRo (.fld .thmPred 0 8) (.i 1) 0
    | 2 => oRo (.fld .thmPred 8 8) (.i 1) 0
    | 3 => oRo (.fld .thmPred 16 8) (.i 1) 0
    | 4 => oRo (.fld .thmStat 40 3) (.u 1) 0
    | _ => none)
  | 0x3202 => (match b with
    | 1 => oRo (.fld .thmPred 32 16) (.u 2) 0
    | 2 => oRo (.fld .thmStat 0 8) (.u 2) 0
    | 3 => oRo (.fld .thmStat 8 8) (.u 2) 0
    | 4 => oRo (.fld .thmStat 16 8) (.u 2) 0
    | 5 => oRo (.fld .thmStat 24 16) (.u 2) 0
    | 6 => oRo (.fld .thmStat 48 5) (.u 1) 0
    | _ => none)
  | 0x3300 => (match b with
    | 1 => oRw (.fld .holdCfg 40 12) (.u 2) 1 2 0
    | 2 => oRw (.fld .holdCfg 28 12) (.u 2) 1 2 0
    | 3 => oRw (.fld .holdCfg 16 12) (.u 2) 1 2 0
    | 4 => oRw (.fld .holdCfg 0 16) (.u 2) 1 2 0
    | 5 => oRw (.fld .holdTest 16 8) (.u 1) 1 2 20
    | 6 => oRw (.fld .holdTest 0 16) (.u 2) 1 2 100
    | _ => none)
  | 0x3301 => (match b with
    | 1 => oRo (.fld .holdStat 0 20) (.u 4) 0
    | 2 => oRo .holdok (.u 1) 0
    | 3 => oRo (.fld .holdStat 32 16) (.u 2) 1
    | 4 => oRo (.fld .holdStat 20 12) (.u 2) 1
    | 5 => oRo (.fld .holdMeas 0 16) (.u 2) 1
    | 6 => oRo (.fld .holdStat 58 3) (.u 1) 1
    | _ => none)
  | 0x3302 => if b = 0 then oCmd 1 3 none else none
  | 0x3400 => if b = 1 then oRw .lacepd (.u 1) 1 3 0 else none
  | _ => (idx 12 (x - 0x3000)).bind fun k =>
    if x < 0x3000 then none
    else match b with
      | 1 => oRw (.fld (.pl k) 0 3) (.u 1) 0 3 4
      | 2 => oRo (.plcur k) (.u 1) 0
      | _ => none

/-- The places of the media management objects: index, subindex, bytes, default, lower and upper bound, and whether Static. -/
def mediaTab : List (Nat × Nat × Nat × Nat × Nat × Nat × Bool) :=
  [(0x4200, 1, 1, 16, 4, 64, true), (0x4200, 2, 1, 2, 1, 8, true), (0x4200, 3, 2, 32, 1, 512, false), (0x4200, 4, 2, 64, 2, 4096, false),
   (0x4200, 5, 2, 16, 1, 4095, false), (0x4200, 6, 2, 1000, 10, 60000, false)] ++
  [(0x4201, 1, 1, 32, 1, 255, false), (0x4201, 2, 1, 8, 0, 64, false), (0x4201, 3, 2, 1, 1, 720, false),
   (0x4202, 1, 4, 4000, 100, 460800, false), (0x4202, 2, 4, 16000, 100, 460800, false), (0x4202, 3, 4, 64000, 100, 460800, false)] ++
  [(0x4203, 1, 2, 25, 25, 200, true), (0x4203, 2, 2, 200, 20, 10000, false), (0x4203, 3, 1, 100, 50, 150, false),
   (0x4204, 1, 4, 2160, 24, 87600, false), (0x4204, 2, 4, 1080, 24, 87600, false), (0x4204, 3, 4, 8760, 24, 87600, false)] ++
  [(0x4205, 1, 4, 200000, 1000, 16000000, false), (0x4205, 2, 4, 60000, 1000, 16000000, false), (0x4205, 3, 4, 2000000, 1000, 16000000, false)]

/-- Storage (Tables 14.13, 10.18, 11.12). -/
def objStor (x b : Nat) : Option Obj :=
  match x with
  | 0x4000 => (match b with
    | 1 => oRw (.reg .storCtl) (.u 8) 1 3 0
    | 2 => oRo .storst (.u 1) 0
    | 3 => some ⟨.reg .storArb, .u 8, .rw, 1, 3, none, leBytes 8 (rdArb State.reset).toNat⟩
    | _ => none)
  | 0x4001 | 0x4002 | 0x4003 => if b = 0 then oCmd 1 0 none else none
  | 0x4004 => if 1 ≤ b ∧ b ≤ 64 then oRo (.nsinfo (b - 1)) (.oct 24) 0 else none
  | 0x4206 => if b = 0 then some ⟨.offtime, .u 4, .wo, 0, 3, none, zeros 4⟩ else none
  | 0x4280 => (match b with
    | 1 => oRo .lifeUsed (.u 1) 0
    | 2 => oRo .spareLeft (.u 1) 0
    | 3 => oRo .exhausted (.u 1) 0
    | 4 => oRo .waf (.u 4) 0
    | _ => none)
  | 0x4281 => if b = 1 then oRo .reqsize (.u 8) 1 else if 2 ≤ b ∧ b ≤ 6 then oRo (.regoff (b - 2)) (.u 8) 1 else none
  | 0x4300 => (match b with
    | 1 => oRo (.fld .plsStat 32 16) (.u 2) 1
    | 2 => oRo (.fld .plsStat 16 16) (.u 2) 1
    | 3 => oRo (.fld .plsStat 60 4) (.u 1) 0
    | 4 => oRo (.fld .plsStat 56 4) (.u 1) 0
    | 5 => oRo .rectime (.u 4) 0
    | 6 => oRo (.fld .plsStat 0 16) (.u 2) 0
    | _ => none)
  | _ =>
    if 0x4290 ≤ x ∧ x < 0x4298 then (if 1 ≤ b ∧ b ≤ 3 then oRo (.lgstat (x - 0x4290) b) (.u 4) 0 else none)
    else if 0x4400 ≤ x ∧ x < 0x44A0 then (if b = 1 then some ⟨.thr (x - 0x4400), .oct 16, .rw, 1, 3, none, leBytes 16 (Config.partThr (x - 0x4400)).toNat⟩ else none)
    else match (mediaTab.zipIdx).find? fun e => e.1.1 == x && e.1.2.1 == b with
      | some ((_, _, n, d, _, _, st), i) => oRw (.media i) (.u n) 1 (if st then 1 else 3) d
      | none => none

/-- Tenants and the Belt (Table 12.11). -/
def objBelt (x b : Nat) : Option Obj :=
  match x with
  | 0x5000 => (match b with
    | 1 => oCmd 1 3 none
    | 2 => oRo (.reg .tenRst) (.u 8) 0
    | 3 => oRo (.reg .tenRststat) (.u 8) 1
    | _ => none)
  | 0x5001 => if b = 0 then oCmd 0 3 none else none
  | 0x5002 => (idx 6 (b - 1)).bind fun c => some ⟨.fld (.clsPeriod c) 0 14, .u 2, .rw, 1, 3, none, leBytes 2 (rdPeriod State.reset c).toNat⟩
  | 0x5200 => (match b with
    | 1 => oRo .activeN (.u 2) 0
    | 2 => oRo .heldN (.u 2) 0
    | _ => none)
  | 0x5380 => if b = 0 then oRo .loguse (.arr 4096) 1 else none
  | _ =>
    if 0x5010 ≤ x ∧ x < 0x5016 then
      (idx 8 (b - 1)).bind fun k => some ⟨.fld (.clsCap (Fin.ofNat 6 (x - 0x5010)) k) 0 32, .u 4, .rw, 1, 3, none, []⟩
    else if 0x5100 ≤ x ∧ x < 0x5200 then
      let a := Fin.ofNat 256 (x - 0x5100)
      (match b with
      | 1 => some ⟨.reg (.actCfg a), .u 8, .rw, 1, 2, none, leBytes 8 (rdActCfg State.reset a).toNat⟩
      | 2 => oRo (.reg (.actStat a)) (.u 8) 1
      | 3 => oRo (.reg (.actCnt a)) (.u 8) 1
      | _ => none)
    else if 0x5300 ≤ x ∧ x < 0x5340 ∧ b = 0 then oRw (.reg (.tenLogq (Fin.ofNat 64 (x - 0x5300)))) (.u 8) 1 3 1024
    else none

/-- Errors and the Pocket (Table 16.11). -/
def objErr (x b : Nat) : Option Obj :=
  match x, b with
  | 0x6000, 1 => oRo (.reg .pktPtr) (.u 8) 0
  | 0x6000, 2 => oRo (.reg .pktCnt) (.u 8) 0
  | 0x6000, 3 => oRo (.reg .pktQ) (.u 8) 1
  | 0x6000, 4 => oRo (.reg .pktMir) (.u 8) 1
  | 0x6001, b => (idx 16 (b - 1)).bind fun k => if b = 0 then none else oRw (.reg (.drop k)) (.u 4) 1 3 0
  | 0x6002, 1 => oRo (.reg .errCls) (.u 8) 0
  | 0x6002, 2 => oRo (.reg .sramEcc) (.u 8) 0
  | 0x6002, 3 => oRw (.fld .errCfg 0 16) (.u 2) 1 3 64
  | 0x6002, 4 => oRw (.reg .errMsi) (.u 8) 1 3 0x0C00000000000000
  | 0x6003, 0 => oRo .retained (.oct 256) 0
  | 0x6010, 0 => oCmd 0 0 none
  | 0x6011, 0 => oCmd 1 0 none
  | 0x6012, 0 => oCmd 1 0 none
  | _, _ => none

/-- Security (Table 15.14). -/
def objSec (x b : Nat) : Option Obj :=
  match x, b with
  | 0x7000, 0 => oCmd 0 0 none
  | 0x7001, 1 => oRo .devidcert (.oct 3192) 0
  | 0x7001, 2 => oRo .aliascert (.oct 3192) 0
  | 0x7010, b => if 1 ≤ b ∧ b ≤ 6 then oRo (.fwinfo (b - 1)) (.oct 80) 0 else none
  | 0x7011, 1 => oRo (.reg .bootStat) (.u 8) 0
  | 0x7018, b => if 1 ≤ b ∧ b ≤ 5 then oRo (.svnfuse b) (.u 1) 0 else none
  | 0x7019, 0 => oCmd 1 0 none
  | 0x7020, 0 => oCmd 1 0 none
  | 0x7021, 0 => oCmd 1 0 none
  | 0x7030, 1 => oRo .tokepoch (.u 1) 0
  | 0x7030, 2 => oCmd 1 0 none
  | 0x7031, 0 => oCmd 1 0 (some 8)
  | 0x7032, 0 => oCmd 1 0 (some 8)
  | 0x7100, 1 => oRo (.reg .ownStat) (.u 8) 0
  | 0x7100, 2 => oCmd 1 0 none
  | _, _ => none

/-- Units of a self-test target (Table 18.7). -/
def bistUnits (t : Nat) : Nat := if t < 12 then 39 else 128

/-- Test (Table 18.10). -/
def objTest (x b : Nat) : Option Obj :=
  match x with
  | 0x8000 => if b = 0 then oCmd 1 3 none else none
  | 0x8001 => (idx 13 (b - 1)).bind fun t => some ⟨.reg (.bistStat t), .u 8, .ro, 0, 0, none, zeros 8⟩
  | 0x8030 => if b = 0 then oCmd 1 3 none else none
  | _ =>
    if 0x8010 ≤ x ∧ x < 0x801D then (if 1 ≤ b ∧ b ≤ bistUnits (x - 0x8010) then oRo (.bistsig (x - 0x8010) (b - 1)) (.oct 16) 1 else none)
    else if 0x8020 ≤ x ∧ x < 0x802D then
      (if 1 ≤ b ∧ b ≤ bistUnits (x - 0x8020) then some ⟨.bistres (x - 0x8020) (b - 1), .u 1, .ro, 0, 0, none, [0]⟩ else none)
    else none

/-- The listed objects. Indexed register objects exist from subindex 1. -/
def objAt (x b : Nat) : Option Obj :=
  if b = 0 ∧ [0x2001, 0x2002, 0x2003, 0x2004, 0x2006, 0x2007, 0x2021, 0x2022, 0x5002, 0x8001].contains x = true then none
  else if b = 0 ∧ (0x2010 ≤ x ∧ x < 0x2020 ∨ 0x5010 ≤ x ∧ x < 0x5016) then none
  else match x / 0x1000 with
    | 1 => objNet x b
    | 2 => objPkg x b
    | 3 => objPwr x b
    | 4 => objStor x b
    | 5 => objBelt x b
    | 6 => objErr x b
    | 7 => objSec x b
    | 8 => objTest x b
    | _ => none

/-- The highest subindex of an index whose subindices are numbered; for OD 0x2007 the count of domains (R370). -/
def subTop (x : Nat) : Option Nat :=
  if (objAt x 1).isNone then none
  else if x = 0x2007 then some 4
  else (upto 129).reverse.find? fun b => (objAt x b).isSome

/-- The object at an index and subindex (R356): an unlisted subindex 0 is a constant holding the highest subindex. -/
def objOf (index : BitVec 16) (sub : BitVec 8) : Option Obj :=
  match objAt index.toNat sub.toNat with
  | some o => some o
  | none => if sub = 0 then (subTop index.toNat).bind fun n => oConst (.u 1) (leBytes 1 n) else none

/-! ### Reads -/

/-- The MAC address, first byte first (R347), and the link-local address: the MAC by modified EUI-64. -/
def macBytes (s : State) : List Byte := 2 :: ((leBytes 5 (vestUid s)).reverse)
def llBytes (s : State) : List Byte :=
  let m := macBytes s
  ascii [0xFE, 0x80] ++ zeros 6 ++ [0] ++ (m.drop 1).take 2 ++ ascii [0xFF, 0xFE] ++ m.drop 3

/-- LIFE_USED: the mean erase count of the usable lane groups as a percentage of RATED_PE. -/
def lifeUsed (s : State) : Nat :=
  let gs := usableLgs s
  let n := gs.foldl (fun a g => a + 16 * (s.lg g).geo.dies * (s.lg g).geo.blocks) 0
  let one (g : Nat) : Rat :=
    let t := (s.ftl.maps.ebs.filter fun e => e.1 / 4096 / 256 == g).foldl (fun a e => a + e.2.ec) 0
    (t * 100 : Nat) / ((s.lg g).geo.rated : Rat)
  if n = 0 then 0 else min 255 ((gs.foldl (fun a g => a + one g) 0) / (n : Rat)).floor.toNat

/-- SPARE_LEFT: the percentage of format-time spares left on the poorest die. -/
def spareLeft (s : State) : Nat :=
  (usableLgs s).foldl (fun a g => (upto (16 * (s.lg g).geo.dies)).foldl (fun a i =>
    let n := (s.lg g).spareN
    min a (if n = 0 then 0 else (dieSpares s (dieKey g (i / (s.lg g).geo.dies) (i % (s.lg g).geo.dies))).length * 100 / n)) a) 100

/-- WAF × 1000; free while no tenant unit has been programmed. -/
def wafOf (s : State) : Nat := if s.ftl.tenU = 0 then Config.freeNat s.free else s.ftl.progU * 1000 / s.ftl.tenU

/-- A media management object. -/
def mediaVal (o : MediaObj) (i : Nat) : Nat :=
  match i with
  | 0 => o.maxopen | 1 => o.mres | 2 => o.logLow | 3 => o.freeBg | 4 => o.freeLow | 5 => o.fillIdle | 6 => o.hotTh | 7 => o.hintW
  | 8 => o.decay | 9 => o.gcb.getD 0 0 | 10 => o.gcb.getD 1 0 | 11 => o.gcb.getD 2 0 | 12 => o.sparePct | 13 => o.wlGap | 14 => o.eolPe
  | 15 => o.retTh.getD 0 0 | 16 => o.retTh.getD 1 0 | 17 => o.retTh.getD 2 0 | 18 => o.rdTh.getD 0 0 | 19 => o.rdTh.getD 1 0
  | _ => o.rdTh.getD 2 0
def mediaSet (i v : Nat) (o : MediaObj) : MediaObj :=
  match i with
  | 0 => { o with maxopen := v } | 1 => { o with mres := v } | 2 => { o with logLow := v } | 3 => { o with freeBg := v }
  | 4 => { o with freeLow := v } | 5 => { o with fillIdle := v } | 6 => { o with hotTh := v } | 7 => { o with hintW := v }
  | 8 => { o with decay := v } | 9 => { o with gcb := o.gcb.set 0 v } | 10 => { o with gcb := o.gcb.set 1 v }
  | 11 => { o with gcb := o.gcb.set 2 v } | 12 => { o with sparePct := v } | 13 => { o with wlGap := v } | 14 => { o with eolPe := v }
  | 15 => { o with retTh := o.retTh.set 0 v } | 16 => { o with retTh := o.retTh.set 1 v } | 17 => { o with retTh := o.retTh.set 2 v }
  | 18 => { o with rdTh := o.rdTh.set 0 v } | 19 => { o with rdTh := o.rdTh.set 1 v } | _ => { o with rdTh := o.rdTh.set 2 v }

/-- A thermal object. -/
def thmVal (o : ThmObj) (i : Nat) : Nat :=
  match i with
  | 1 => o.cj | 2 => o.rjp | 3 => o.cp | 4 => o.cpf | 5 => o.tauf | 6 => o.tdly | 7 => o.kf | 8 => o.tjCtl | 9 => o.tjTgt
  | 10 => o.fmin | 11 => o.fmax | 12 => o.vmin | _ => o.vmode.toNat
def thmSet (i v : Nat) (o : ThmObj) : ThmObj :=
  match i with
  | 1 => { o with cj := v } | 2 => { o with rjp := v } | 3 => { o with cp := v } | 4 => { o with cpf := v } | 5 => { o with tauf := v }
  | 6 => { o with tdly := v } | 7 => { o with kf := v } | 8 => { o with tjCtl := v } | 9 => { o with tjTgt := v } | 10 => { o with fmin := v }
  | 11 => { o with fmax := v } | 12 => { o with vmin := v } | _ => { o with vmode := BitVec.ofNat 16 v &&& 0x83FF }
/-- Ranges of the thermal objects (Table 13.12). -/
def thmOk (o : ThmObj) (i v : Nat) : Bool :=
  let r (lo hi : Nat) : Bool := decide (lo ≤ v ∧ v ≤ hi)
  match i with
  | 1 => r 1000 10000000 | 2 => r 5 1000 | 3 => r 100000 100000000 | 4 => r 10000 100000 | 5 => r 100 30000 | 6 => r 100 30000
  | 7 => r 10 60000 | 8 => r 80 103 | 9 => r 50 100 && decide (v < o.tjCtl) | 10 => r 1 2000 | 11 => r 1 2000 | 12 => r 0 1000
  | _ => decide (v % 1024 ≤ 1000)

/-- A communication object. -/
def netVal (c : NetCfg) (i : Nat) : Nat :=
  match i with
  | 0 => c.port.toNat | 1 => (if c.plcaen then 1 else 0) | 2 => c.nodeid.toNat | 3 => c.nodecnt.toNat | 4 => c.burst.toNat | _ => c.totmr.toNat
def netSet (i v : Nat) (c : NetCfg) : NetCfg :=
  match i with
  | 0 => { c with port := BitVec.ofNat 16 v } | 1 => { c with plcaen := decide (v = 1) } | 2 => { c with nodeid := BitVec.ofNat 8 v }
  | 3 => { c with nodecnt := BitVec.ofNat 8 v } | 4 => { c with burst := BitVec.ofNat 8 v } | _ => { c with totmr := BitVec.ofNat 8 v }
def netOk (i v : Nat) : Bool :=
  match i with
  | 0 => decide (1024 ≤ v) | 2 => decide (v ≤ 254) | 3 => decide (1 ≤ v) | 5 => decide (1 ≤ v) | _ => true

/-- A client key table entry. -/
def clientKey (keys : List (Nat × KeyEnt)) (k : Nat) : KeyEnt := tabGet keys ⟨zeros 32, 0, false⟩ k
def keyEnt (s : State) (k : Nat) : KeyEnt := clientKey s.adp.keys k
def setKeyEnt (k : Nat) (v : KeyEnt) (s : State) : State := { s with adp := { s.adp with keys := tabSet s.adp.keys ⟨zeros 32, 0, false⟩ k v } }

/-- The DevID certificate (Table 15.11). -/
def devidCert (s : State) : List Byte :=
  (leBytes 4 0x54434255 ++ leBytes 1 1 ++ leBytes 1 1 ++ zeros 2 ++ leBytes 8 (vestUid s) ++ zeros 64 ++ leBytes 32 Config.caHash.toNat ++
    Config.falconPub devidSeed ++ zeros 7 ++ Config.caSig ++ zeros 3192).take 3192

/-- The retained slot, its secure payload as zeros (R413). -/
def retainedBytes (s : State) : List Byte :=
  match s.pkt.retained with
  | some g => (wordsBytes (portWords g) ++ zeros 256).take 256
  | none => zeros 256

/-- The bytes an object reads as. -/
def odRead (s : State) (ty : OTy) : Od → List Byte
  | .lit b => b
  | .reg r => leBytes (tyLen ty) (regValue s r).toNat
  | .fld r lo w => leBytes (tyLen ty) ((regValue s r).toNat / 2 ^ lo % 2 ^ w)
  | .vestuid => leBytes 8 (vestUid s)
  | .fwver => leBytes 4 (((imgOf s (if s.own.holder = 2 then 2 else 1)).map (·.fwver)).getD 0)
  | .mac => macBytes s
  | .lladdr => if s.adp.dad = 2 then zeros 16 else llBytes s
  | .net i => leBytes (tyLen ty) (netVal s.adp.cfg i)
  | .idletmo => leBytes 2 s.adp.idletmo.toNat
  | .sessions => leBytes 1 s.adp.sessions.length
  | .authfail => leBytes 4 s.adp.authfail.toNat
  | .keyHash k => (keyEnt s k).hash
  | .keyLevel k => leBytes 1 (keyEnt s k).level.toNat
  | .keyEn k => leBytes 1 (if (keyEnt s k).en then 1 else 0)
  | .diefuse k => leBytes 32 ((upto 4).foldl (fun a w => a + (rdDiefuse s (Fin.ofNat 13 k) (Fin.ofNat 4 w)).toNat * 2 ^ (64 * w)) 0)
  | .plcur k => [Config.plcurByte (s.slvPwr k).cur (fld (rdPl s k) 16 3) (fld (rdPl s k) 20 4)]
  | .thm i => leBytes (tyLen ty) (thmVal s.tobj i)
  | .lacepd => leBytes 1 (if s.lace.lacepd then 1 else 0)
  | .holdok => leBytes 1 (if s.hold.low then 0 else 1)
  | .rectime => leBytes 4 s.pls.recTime
  | .storst => leBytes 1 s.stor.st.toNat
  | .nsinfo n =>
    let v := s.ns n
    leBytes 1 v.state ++ leBytes 1 v.lgmask.toNat ++ zeros 6 ++ leBytes 8 (v.nseg * v.segblk) ++ leBytes 4 v.sbase ++ leBytes 4 v.nseg
  | .media i => leBytes (tyLen ty) (mediaVal s.ftl.obj i)
  | .offtime => []
  | .thr e => (tabFind e s.ftl.obj.thr).getD (leBytes 16 (Config.partThr e).toNat)
  | .lifeUsed => leBytes 1 (lifeUsed s)
  | .spareLeft => leBytes 1 (spareLeft s)
  | .exhausted => leBytes 1 ((upto 8).foldl (fun a g => a + if lgServes s g && lgExhausted s g then 2 ^ g else 0) 0)
  | .waf => leBytes 4 (wafOf s)
  | .reqsize => leBytes 8 (reqSize s)
  | .regoff i => leBytes 8 (regionOff s i)
  | .lgstat g i => leBytes 4 (if i = 1 then (freeBands s g).length else if i = 2 then (s.lg g).grown else (s.lg g).unrec)
  | .activeN => leBytes 2 ((upto 256).filter fun a => (s.act a).active).length
  | .heldN => leBytes 2 ((upto 256).filter (actHeld s)).length
  | .loguse => ((upto 4096).map fun t => leBytes 2 (tidSlots s (BitVec.ofNat 12 t)).length).flatten
  | .retained => retainedBytes s
  | .devidcert => devidCert s
  | .aliascert => (s.boot.aliasCert ++ zeros 3192).take 3192
  | .fwinfo i => imageRecord s i
  | .svnfuse t => leBytes 1 (svnFuse s t)
  | .tokepoch => leBytes 1 s.boot.epoch
  | .bistsig t u => leBytes 8 (rdBistSig s t u 0).toNat ++ leBytes 8 (rdBistSig s t u 1).toNat
  | .bistres t u => leBytes 1 (bistResult s t u)
  | .command => []

/-- OPTS.PEND (R364): a Static value is held and not yet in force. A register that a lock validates is not in force before it. -/
def odPend (s : State) : Od → Bool
  | .net i => decide (netVal s.adp.cfg i ≠ netVal s.adp.cfgF i)
  | .reg (.slvwa k) => s.pkg.slvHeld.getLsbD k && decide (rdSlvwa s k ≠ 0)
  | .reg .domcfg => !s.pkg.domLock && decide (s.pkg.dom ≠ 0)
  | .reg (.dommem d k) => !s.pkg.domLock && decide (tabGet s.pkg.domMem 0 (4 * d + k) ≠ 0)
  | .reg .dramMap => !s.dram.mapLock && decide (rdDramMap s ≠ rdDramMap State.reset)
  | .media 0 => decide (s.ftl.obj.maxopen ≠ s.ftl.maxopenF)
  | .media 1 => (usableLgs s).any fun g => decide ((s.lg g).mres ≠ s.ftl.obj.mres)
  | .media 12 => (usableLgs s).any fun g =>
    decide ((s.lg g).spareN ≠ (s.ftl.obj.sparePct * (s.lg g).geo.blocks + 999) / 1000)
  | _ => false

/-! ### Writes -/

/-- Reserved encodings of a register word (R7), for the registers that objects mirror. -/
def regOk (s : State) (r : Reg) (v : Word) : Bool :=
  let f (lo w : Nat) : Nat := (fld v lo w).toNat
  match r with
  | .dramMap => decide (f 2 3 < 5)
  | .chRh n => (!bit v 18 || drfmOk (s.chan n)) && decide (f 16 2 = 1 ∨ f 16 2 = 2) && decide (256 ≤ f 0 16 ∧ f 0 16 ≤ 16384)
  | .dramScrub => decide (1 ≤ f 0 8 ∧ f 0 8 ≤ 168)
  | .storArb => decide (f 16 8 ≠ 0 ∧ f 8 8 ≠ 0 ∧ f 0 8 ≠ 0)
  | .clsPeriod _ => decide (1 ≤ f 0 14 ∧ f 0 14 ≤ 10000)
  | .tenLogq _ => decide (1 ≤ f 0 11 ∧ f 0 11 ≤ 1024)
  | .pwrPkg => decide (450 ≤ f 0 10 ∧ f 0 10 ≤ 750)
  | .slcfg => decide (f 16 16 ≤ 10000 ∧ f 4 2 ≠ 3) && (decide (f 0 3 ≤ 3) || (decide (f 0 3 = 4) && featOn s 4))
  | .errCfg => decide (f 0 16 ≠ 0)
  | .errMsi => decide (f 36 10 < 960 ∧ f 0 8 ≠ 0)
  | .holdCfg => decide (f 40 12 = 0 ∨ f 28 12 < f 40 12)
  | .holdTest => decide (2 ≤ f 16 8 ∧ f 16 8 ≤ 100 ∧ 100 ≤ f 0 16 ∧ f 0 16 ≤ 10000)
  | .actCfg a => !(actWritten a v (s.act a)).2
  | _ => true

/-- A register word with one field replaced. -/
def withFld (s : State) (r : Reg) (lo w v : Nat) : Word :=
  let o := regValue s r
  let m : Word := BitVec.ofNat 64 ((2 ^ w - 1) * 2 ^ lo)
  (o &&& ~~~m) ||| BitVec.ofNat 64 (v * 2 ^ lo)

/-- The value is in the object's range (check 6 of Table 14.7). -/
def odOk (s : State) (ty : OTy) (b : List Byte) (o : Od) : Bool :=
  let v := leNat b
  match o with
  | .reg r => regOk s r (BitVec.ofNat 64 v)
  | .fld r lo w => decide (v < 2 ^ w) && regOk s r (withFld s r lo w v)
  | .net i => netOk i v && (decide (ty ≠ .bool) || decide (v ≤ 1))
  | .idletmo => decide (5 ≤ v ∧ v ≤ 3600)
  | .keyLevel _ => decide (v ≤ 1)
  | .keyEn _ => decide (v ≤ 1)
  | .thm i => thmOk s.tobj i v
  | .lacepd => decide (v ≤ 1)
  | .media i => match mediaTab[i]? with
    | some (_, _, _, _, lo, hi, _) => decide (lo ≤ v ∧ v ≤ hi)
    | none => false
  | .offtime => decide (v ≤ 876000)
  | _ => true

/-- The mirrored field is read-only under its lock (check 7). -/
def odLocked (s : State) : Od → Bool
  | .reg (.slvwa k) => s.pkg.waLock.getLsbD k
  | .reg .domcfg => s.pkg.domLock
  | .reg (.dommem _ _) => s.pkg.domLock
  | .reg .dramMap => s.dram.mapLock
  | _ => false

/-- The owning block is idle, or a Belt write meets no rejection of R313 (check 8, Table 14.9). -/
def odIdle (s : State) (b : List Byte) : Od → Bool
  | .fld .holdCfg _ _ => storDisabled s
  | .fld .holdTest _ _ => storDisabled s
  | .thm i => decide (7 < i) || s.tobj.vmode.getLsbD 15
  | .reg (.actCfg a) => actReject s a (s.act a) (actWritten a (BitVec.ofNat 64 (leNat b)) (s.act a)).1 == 0
  | _ => true

/-- Write an object. The dictionary is served by a management controller, which is the agent of its register writes. -/
def odWrite (b : List Byte) (s : State) : Od → State
  | .reg r => regWrite (.mc .e) r (BitVec.ofNat 64 (leNat b)) s
  | .fld r lo w => regWrite (.mc .e) r (withFld s r lo w (leNat b)) s
  | .net i => { s with adp := { s.adp with cfg := netSet i (leNat b) s.adp.cfg } }
  | .idletmo => { s with adp := { s.adp with idletmo := BitVec.ofNat 16 (leNat b) } }
  | .keyHash k => setKeyEnt k { keyEnt s k with hash := b } s
  | .keyLevel k => setKeyEnt k { keyEnt s k with level := BitVec.ofNat 8 (leNat b) } s
  | .keyEn k => setKeyEnt k { keyEnt s k with en := decide (leNat b = 1) } s
  | .thm i => { s with tobj := thmSet i (leNat b) s.tobj }
  | .lacepd => { s with lace := { s.lace with lacepd := decide (leNat b = 1) } }
  | .media i => s.modFtl fun t => { t with obj := mediaSet i (leNat b) t.obj }
  | .offtime => s.modFtl fun t => { t with offtime := leNat b }
  | .thr e => s.modFtl fun t => { t with obj := { t.obj with thr := tabInsert e b t.obj.thr } }
  | _ => s

end Sys2Proof.Machine
end

