-- ==== Sys2Proof/Machine/Adp.lean ====
section
/-! DEFINITION. The dictionary's protocol (14): datagrams and their reassembly, session establishment, reads and writes of
objects, subscriptions, and the command message. -/

namespace Sys2Proof.Machine

/-! ### The management network (R347) -/

/-- DUPLICATE_ADDRESS_DETECTION: the outcome of the detection that runs since the last reset of the management subsystem. -/
def execDuplicateAddressDetection (dup : Bool) (s : State) : Out := keepQueue s <|
  if s.pins.inReset ∨ s.adp.dad ≠ 0 then done s
  else if dup then done (report (mkReport 0x9003 0 0x075 false 8 []) { s with adp := { s.adp with dad := 2 } })
  else done { s with adp := { s.adp with dad := 1 } }

/-- NEIGHBOR_SOLICITATION: answered with the MAC address when it is for the device's link-local address. -/
def execNeighborSolicitation (_src : NetAddr) (target : BitVec 128) (s : State) : Out := keepQueue s <|
  done { s with answer := if s.adp.dad = 1 ∧ target = BitVec.ofNat 128 (leNat (llBytes s).reverse) then .bytes (macBytes s) else .none }

/-- ICMPV6_ECHO_REQUEST: the reply returns the payload. -/
def execIcmpv6EchoRequest (_src : NetAddr) (payload : List Byte) (s : State) : Out := keepQueue s <|
  done { s with answer := if s.adp.dad = 1 then .bytes payload else .none }

/-! ### Requests (R358, R359) -/

/-- The session level of a request that is executed. -/
def lvlOf (w : Session) : Nat := w.level.toNat

/-- Checks 1 to 4 of Table 14.7 for a read: the object, or the status of the check that fails. -/
def readCheck (s : State) (lvl : Nat) (index : BitVec 16) (sub : BitVec 8) : Obj ⊕ Nat :=
  match objOf index sub with
  | none => .inr stNoObject
  | some o =>
    if (match o.feat with
      | some f => !featOn s f
      | none => false) then .inr stNotSupported
    else if lvl < o.lvl then .inr stLevelDenied
    else if o.acc = .wo then .inr stAccessDenied
    else .inl o

/-- An entry read: PEND, STATUS and VALUE. -/
def readEntry (s : State) (lvl : Nat) (e : DictEntry) : Bool × Nat × List Byte :=
  match readCheck s lvl e.index e.sub with
  | .inl o => (odPend s o.od, stOK, odRead s o.ty o.od)
  | .inr st => (false, st, [])

/-- LEN fits the type (check 5). -/
def lenOk (t : OTy) (n : Nat) : Bool :=
  match t with
  | .vstr => decide (n ≤ 255)
  | t => decide (n = tyLen t)

/-- The checks of Table 14.7 for a write: the object, or the status of the check that fails. -/
def writeCheck (s : State) (lvl : Nat) (e : DictEntry) : Obj ⊕ Nat :=
  match objOf e.index e.sub with
  | none => .inr stNoObject
  | some o =>
    if (match o.feat with
      | some f => !featOn s f
      | none => false) then .inr stNotSupported
    else if lvl < o.lvl then .inr stLevelDenied
    else if o.acc = .ro ∨ o.acc = .const ∨ o.od = .command then .inr stAccessDenied
    else if !lenOk o.ty e.value.length then .inr stTypeMismatch
    else if !odOk s o.ty e.value o.od then .inr stReserved
    else if odLocked s o.od then .inr stLocked
    else if !odIdle s e.value o.od then .inr stNotQuiesced
    else .inl o

/-- What a rejected write leaves behind and answers: a rejection under R313 is recorded in VEST.BELT.ERR, whose CODE is the
VALUE; any other has no effect (Table 14.8). -/
def rejected (e : DictEntry) (st : Nat) (s : State) : State × List Byte :=
  match decide (st = stNotQuiesced), objOf e.index e.sub with
  | true, some ⟨.reg (.actCfg a), _, _, _, _, _, _⟩ =>
    let t := wrAct a.val (BitVec.ofNat 64 (leNat e.value)) s
    (t, leBytes 1 t.belt.errCode.toNat)
  | _, _ => (s, [])

/-- The answer to an entry: PEND, STATUS, VALUE. -/
def ansBytes (e : DictEntry) (a : Bool × Nat × List Byte) : List Byte := entryBytes e.index e.sub a.1 a.2.1 a.2.2

/-- Apply an entry that passed its checks. -/
def applyEntry (o : Obj) (e : DictEntry) (s : State) : State × (Bool × Nat × List Byte) :=
  let t := odWrite e.value s o.od
  (t, (odPend t o.od, stOK, []))

/-- A single write: checked, applied. -/
def writeOne (lvl : Nat) (e : DictEntry) (s : State) : State × (Bool × Nat × List Byte) :=
  match writeCheck s lvl e with
  | .inl o => applyEntry o e s
  | .inr st =>
    let r := rejected e st s
    (r.1, (false, st, r.2))

/-- The entries of an MREAD, up to the one that fits in 8,192 B; the rest carry TOO_LARGE (R358). `room` is what is left after
8 B are set aside for each entry. -/
def fitEntries : Nat → List (Bool × Nat × List Byte) → List (Bool × Nat × List Byte)
  | _, [] => []
  | room, a :: r =>
    let n := (pad8 a.2.2).length
    if n ≤ room then a :: fitEntries (room - n) r
    else (a :: r).map fun _ => (false, stTooLarge, [])

def fitResponse (l : List (Bool × Nat × List Byte)) : List (Bool × Nat × List Byte) := fitEntries (8192 - 8 - 8 * l.length) l

/-- Answer a request, entry by entry. -/
def answerAll (x : DictCtx) (es : List DictEntry) (l : List (Bool × Nat × List Byte)) (s : State) : State :=
  { respond x (List.zipWith ansBytes es l) s with answer := .multi (l.map fun a => (a.2.1, a.2.2)) }

/-- A request that is executed once (R362): `body` gives the state and the answers of the entries. -/
def request (x : DictCtx) (es : List DictEntry) (body : Nat → State → State × List (Bool × Nat × List Byte)) (s : State) : State :=
  match reqState s x with
  | .fresh w =>
    let r := body (lvlOf w) s
    answerAll x es (fitResponse r.2) r.1
  | r => reqNotRun x (es.map fun e => (e.index, e.sub)) r s

/-- Entries read. A free value that a read returns is drawn once. -/
def readAll (es : List DictEntry) (lvl : Nat) (s : State) : State × List (Bool × Nat × List Byte) :=
  (s.draw, es.map (readEntry s lvl))

/-- The number of entries of a multi-entry request is 1 to 64; a request with another is malformed, and discarded. -/
def countOk (es : List DictEntry) : Bool := decide (1 ≤ es.length ∧ es.length ≤ 64)

/-- ADP_READ. -/
def execAdpRead (x : DictCtx) (e : DictEntry) (s : State) : Out := keepQueue s <| done (request x [e] (readAll [e]) s)

/-- ADP_WRITE. -/
def execAdpWrite (x : DictCtx) (e : DictEntry) (s : State) : Out := keepQueue s <|
  done (request x [e] (fun lvl t => let r := writeOne lvl e t
    (r.1, [r.2])) s)

/-- MREAD. -/
def execMread (x : DictCtx) (es : List DictEntry) (s : State) : Out := keepQueue s <|
  if countOk es then done (request x es (readAll es) s) else done { s with answer := .none }

/-- Entries applied in request order; from one that is no longer quiesced on, nothing is applied (R359). -/
def applyAll (lvl : Nat) : List DictEntry → State → State × List (Bool × Nat × List Byte)
  | [], s => (s, [])
  | e :: r, s =>
    match objOf e.index e.sub with
    | none => (s, (e :: r).map fun _ => (false, stNotPerformed, []))
    | some o =>
      if odIdle s e.value o.od then
        let a := applyEntry o e s
        let b := applyAll lvl r a.1
        (b.1, a.2 :: b.2)
      else
        let a := rejected e stNotQuiesced s
        (a.1, (false, stNotQuiesced, a.2) :: r.map fun _ => (false, stNotPerformed, []))

/-- The check phase of an MWRITE that fails: the failing entries answer, the rest are not performed. -/
def failAll (lvl : Nat) (s0 : State) : List DictEntry → State → State × List (Bool × Nat × List Byte)
  | [], s => (s, [])
  | e :: r, s =>
    match writeCheck s0 lvl e with
    | .inl _ =>
      let b := failAll lvl s0 r s
      (b.1, (false, stNotPerformed, []) :: b.2)
    | .inr st =>
      let a := rejected e st s
      let b := failAll lvl s0 r a.1
      (b.1, (false, st, a.2) :: b.2)

/-- Every entry passes every check. -/
def allPass (lvl : Nat) (es : List DictEntry) (s : State) : Bool :=
  es.all fun e => match writeCheck s lvl e with
    | .inl _ => true
    | .inr _ => false

/-- MWRITE. -/
def execMwrite (x : DictCtx) (es : List DictEntry) (s : State) : Out := keepQueue s <|
  if countOk es then
    done (request x es (fun lvl t => if allPass lvl es t then applyAll lvl es t else failAll lvl t es t) s)
  else done { s with answer := .none }

/-! ### DESCRIBE (R362) -/

/-- The place of a type among the codes, and its element count. -/
def tyIx : OTy → Nat
  | .bool => 0 | .u n => n | .i n => 8 + n | .oct _ => 17 | .arr _ => 18 | .vstr => 19 | .cmd => 20
def tyCount : OTy → Nat
  | .oct n => n | .arr n => n | _ => 1
def accIx : OAcc → Nat
  | .ro => 0 | .rw => 1 | .wo => 2 | .const => 3

/-- VALUE of an answer. -/
def describeValue (o : Obj) : List Byte :=
  [Config.typeCode (tyIx o.ty)] ++ leBytes 2 (tyCount o.ty) ++ [Config.accessCode (accIx o.acc)] ++ leBytes 1 o.lvl ++ leBytes 1 o.cls ++ zeros 2 ++ o.dflt

def describeEntry (s : State) (lvl : Nat) (e : DictEntry) : Bool × Nat × List Byte :=
  match objOf e.index e.sub with
  | none => (false, stNoObject, [])
  | some o =>
    if (match o.feat with
      | some f => !featOn s f
      | none => false) then (false, stNotSupported, [])
    else if lvl < o.lvl then (false, stLevelDenied, [])
    else (false, stOK, describeValue o)

/-- DESCRIBE. -/
def execDescribe (x : DictCtx) (es : List DictEntry) (s : State) : Out := keepQueue s <|
  if countOk es then done (request x es (fun lvl t => (t, es.map (describeEntry t lvl))) s) else done { s with answer := .none }

/-! ### Subscriptions (R360) -/

/-- An identifier not in use: the first from a free value on that is neither 0 nor listed. -/
def freshId (w : Nat) (start : BitVec w) (used : List (BitVec w)) : BitVec w :=
  (((upto (used.length + 2)).map fun k => start + BitVec.ofNat w k).find? fun i => decide (i ≠ 0) && !used.contains i).getD 1

/-- MODE and INT of a SUBSCRIBE are in range; INT = 0 stands for the default of MODE 0. -/
def subInt (mode : BitVec 8) (int : BitVec 32) : Option Nat :=
  if mode = 0 ∧ int = 0 then some 100
  else if mode.toNat ≤ 1 ∧ 10 ≤ int.toNat ∧ int.toNat ≤ 60000 then some int.toNat
  else none

/-- SUBSCRIBE: the entry is checked as a read; at most 64 subscriptions a session and 256 in all. -/
def subscribeBody (x : DictCtx) (e : DictEntry) (mode : BitVec 8) (int : BitVec 32) (lvl : Nat) (s : State) :
    State × List (Bool × Nat × List Byte) :=
  match readCheck s lvl e.index e.sub with
  | .inr st => (s, [(false, st, [])])
  | .inl o =>
    match subInt mode int with
    | none => (s, [(false, stReserved, [])])
    | some n =>
      if 64 ≤ (s.adp.subs.filter (·.sid = x.sid)).length ∨ 256 ≤ s.adp.subs.length then (s, [(false, stExhausted, [])])
      else
        let id := freshId 16 ((Config.freeWord s.free).setWidth 16) (s.adp.subs.map (·.id))
        let dst := ((findSession s x.sid).map (·.src)).getD ⟨0, 0⟩
        let sb : Sub := ⟨id, x.sid, dst, e.index, e.sub, mode, n, odRead s o.ty o.od⟩
        let t := s.draw
        ({ t with adp := { t.adp with subs := t.adp.subs ++ [sb] } }, [(false, stOK, leBytes 2 id.toNat)])
def execSubscribe (x : DictCtx) (e : DictEntry) (mode : BitVec 8) (int : BitVec 32) (s : State) : Out := keepQueue s <|
  done (request x [e] (subscribeBody x e mode int) s)

/-- UNSUBSCRIBE: a subscription of the session ends. -/
def execUnsubscribe (x : DictCtx) (sub : BitVec 16) (s : State) : Out := keepQueue s <|
  let hit := s.adp.subs.find? fun b => b.id = sub ∧ b.sid = x.sid
  let e : DictEntry := match hit with
    | some b => ⟨b.index, b.sub, []⟩
    | none => ⟨0, 0, []⟩
  done (request x [e] (fun _ t =>
    if hit.isSome then
      ({ t with adp := { t.adp with subs := t.adp.subs.filter fun b => ¬ (b.id = sub ∧ b.sid = x.sid) } }, [(false, stOK, [])])
    else (t, [(false, stNoObject, [])])) s)

/-- NOTIFY: a subscription falls due; the value sent is the current one. How often it changed since the last NOTIFY the model does
not watch: the count is a free value, at least 1 when the value differs. -/
def execNotify (sub : BitVec 16) (s : State) : Out := keepQueue s <|
  match s.adp.subs.find? (·.id = sub) with
  | none => done s
  | some b =>
    let lvl := ((findSession s b.sid).map lvlOf).getD 0
    let a := readEntry s lvl ⟨b.index, b.sub, []⟩
    let c := (Config.freeWord s.free).toNat % 65536
    let n := if a.2.2 = b.value then c else max 1 c
    let t := s.draw
    let t1 := { t with adp := { t.adp with subs := t.adp.subs.map fun q => if q.id = sub then { q with value := a.2.2 } else q } }
    done (sendIn b.sid b.dst 0x21 (leBytes 2 sub.toNat ++ leBytes 2 n ++ ansBytes ⟨b.index, b.sub, []⟩ a) t1)

/-! ### COMMAND (R361) -/

/-- The state a meaning answers. -/
def outState (o : Out) (s : State) : State :=
  match o with
  | .next t => t
  | _ => s

/-- Refuse a command object with a status, after the checks of its feature and level. -/
def cmdRefuse (x : DictCtx) (e : DictEntry) (st : Nat) (s : State) : State :=
  match objOf e.index e.sub with
  | none => dictCommand x e.index e.sub 0 true (fun t => (t, stNoObject, [])) s
  | some o => dictCommand x e.index e.sub o.lvl (match o.feat with
      | some f => featOn s f
      | none => true) (fun t => (t, st, [])) s

/-- Run a command whose arguments are `n` bytes. -/
def cmdLen (x : DictCtx) (e : DictEntry) (n : Nat) (o : Out) (s : State) : State :=
  if e.value.length = n then outState o s else cmdRefuse x e stTypeMismatch s

/-- The boot flash reads of FWCHECK: how they went the spec leaves to the device; a free value. -/
def freeFacts (n : Nat) : ImageFacts := ⟨Config.freeNat n % 2 == 0, Config.freeNat (n + 1) % 2 == 0⟩

/-- The argument of `w` bits at byte `o`. -/
def argAt (b : List Byte) (o w : Nat) : BitVec w := BitVec.ofNat w (leNat ((b.drop o).take (w / 8)))

/-- The command objects of 0x1000 to 0x4FFF. -/
def runLow (x : DictCtx) (e : DictEntry) (s : State) : State :=
  let b := e.value
  match e.index.toNat with
  | 0x1040 => cmdLen x e 0 (execMgmtrst x s) s
  | 0x2007 => cmdLen x e 1 (execDomrst x (argAt b 0 8) s) s
  | 0x3101 => cmdLen x e 2 (execPwrreq x (argAt b 0 8) (argAt b 1 8) s) s
  | 0x3102 => cmdLen x e 0 (execPkgoff x s) s
  | 0x3302 => cmdLen x e 0 (execHoldTest x s) s
  | 0x4001 => cmdLen x e 6 (execNscreate x (argAt b 0 8) (argAt b 1 32) (argAt b 5 8) s) s
  | 0x4002 => cmdLen x e 5 (execNsresize x (argAt b 0 8) (argAt b 1 32) s) s
  | _ => cmdLen x e 1 (execNsdelete x (argAt b 0 8) s) s

/-- The command objects of 0x5000 to 0x6FFF and of 0x8000. -/
def runMid (x : DictCtx) (e : DictEntry) (s : State) : State :=
  let b := e.value
  match e.index.toNat with
  | 0x5000 => cmdLen x e 2 (execTenreset x (argAt b 0 16) s) s
  | 0x5001 => cmdLen x e 4 (execShare x (argAt b 0 16) (argAt b 2 8) (argAt b 3 8) s) s
  | 0x6010 => cmdLen x e 6 (execPktread x (argAt b 0 32) (argAt b 4 16) s) s
  | 0x6011 => cmdLen x e 5 (execMirread x (argAt b 0 8) (argAt b 1 32) s) s
  | 0x6012 => cmdLen x e 0 (execPktclear x s) s
  | 0x8000 => cmdLen x e 2 (execBistrun x (argAt b 0 8) (argAt b 1 8) s) s
  | _ => cmdLen x e 0 (execBistdisarm x s) s

/-- The command objects of 0x7000. -/
def runSec (x : DictCtx) (e : DictEntry) (s : State) : State :=
  let b := e.value
  match e.index.toNat with
  | 0x7000 => cmdLen x e 32 (execAttest x b s) s
  | 0x7019 => cmdLen x e 1 (execSvncommit x (argAt b 0 8) s) s
  | 0x7020 =>
    if 7 ≤ b.length then outState (execFwwrite x (argAt b 0 8) (argAt b 1 8) (argAt b 2 32) (b.drop 6) s) s
    else cmdRefuse x e stTypeMismatch s
  | 0x7021 => cmdLen x e 2 (execFwcheck x (argAt b 0 8) (argAt b 1 8) (freeFacts s.free) { s with free := s.free + 2 }) s
  | 0x7030 => cmdLen x e 0 (execTokrevoke x s) s
  | 0x7031 => cmdLen x e 0 (execDbgchal x s) s
  | 0x7032 => outState (execDbgunlock x b s) s
  | _ => cmdLen x e 0 (execHandover x s) s

/-- COMMAND: the command object that the entry names, with the arguments in its VALUE. -/
def runCommand (x : DictCtx) (e : DictEntry) (s : State) : State :=
  match objOf e.index e.sub with
  | none => cmdRefuse x e stNoObject s
  | some o =>
    if o.od ≠ .command then cmdRefuse x e stAccessDenied s
    else if e.index.toNat < 0x5000 then runLow x e s
    else if 0x7000 ≤ e.index.toNat ∧ e.index.toNat < 0x8000 then runSec x e s
    else runMid x e s
def execCommand (x : DictCtx) (e : DictEntry) (s : State) : Out := keepQueue s <| done (runCommand x e s)

/-! ### Sessions (R350 to R355) -/

/-- The port answers: the address is held, a management controller holds the token, and the alias key exists. -/
def adpServes (s : State) : Bool := decide (s.adp.dad = 1) && decide (s.own.holder ≠ 0) && s.boot.keys

/-- Counts of 10 ns in 60 s. -/
def sixty : Nat := 6000000000

/-- A handshake fails (R355): ERROR, AUTHFAIL, a record that folds by address, and a block after the eighth failure of an address
within 60 s. -/
def failHandshake (src : NetAddr) (code : Nat) (s : State) : State :=
  let s1 := sendPlain src 0x30 0 (leBytes 1 code) s
  let s2 := report (mkReport 0x9003 0 0x074 false 24 ((leBytes 16 src.ip.toNat).reverse ++ leBytes 1 code)) s1
  let fs := (src.ip, s.time) :: s.adp.fails.filter fun f => decide (s.time < f.2 + sixty)
  let full := decide (8 ≤ (fs.filter fun f => f.1 = src.ip).length)
  { s2 with adp := { s2.adp with
      authfail := satInc s2.adp.authfail
      fails := if full then fs.filter (fun f => f.1 ≠ src.ip) else fs
      blocked := if full then (src.ip, s.time) :: s2.adp.blocked else s2.adp.blocked } }

/-- A signature in its 1,280 B field. -/
def sigField (g : List Byte) : List Byte := (g ++ zeros 1280).take 1280

/-- DEVICE_HELLO (Table 14.3): a fresh nonce and session ID, the encapsulated secret, and the alias-key signature over TH1. -/
def deviceHello (src : NetAddr) (body : List Byte) (s : State) : State :=
  let nonce := (Config.random s.free 32 ++ zeros 32).take 32
  let enc := Config.mlkemEncaps (sl body 40 1568) (s.free + 1)
  let sid := freshId 32 ((Config.freeWord (s.free + 2)).setWidth 32) (s.adp.sessions.map (·.sid) ++ s.adp.hs.map (·.sid))
  let dh := nonce ++ leBytes 4 sid.toNat ++ zeros 4 ++ (enc.1 ++ zeros 1568).take 1568
  let th1 := Config.shake256 (body ++ dh) 64
  let sig := sigField (Config.falconSign (aliasSeed s) th1 (s.free + 3))
  let h : Handshake := ⟨src, sid, BitVec.ofNat 8 (leNat (sl body 32 1)), th1, sig, enc.2, s.time, s.adp.keys⟩
  let t : State := { s with free := s.free + 4, adp := { s.adp with hs := s.adp.hs ++ [h] } }
  sendPlain src 0x02 sid (dh ++ sig) t

/-- CLIENT_HELLO. A fifth handshake at once is discarded. -/
def clientHello (src : NetAddr) (body : List Byte) (s : State) : State :=
  if !adpServes s then { s with answer := .none }
  else if s.adp.blocked.any fun b => b.1 = src.ip then sendPlain src 0x30 0 [0x07] s
  else if body.length ≠ 1608 ∨ 2 < leNat (sl body 32 1) then failHandshake src 0x06 s
  else if 4 ≤ s.adp.hs.length then { s with answer := .none }
  else deviceHello src body s
def execClientHello (src : NetAddr) (body : List Byte) (s : State) : Out := keepQueue s <| done (clientHello src body s)

/-- The handshake is over: the session with its keys (R351), and SESSION_OK. -/
def openSession (src : NetAddr) (h : Handshake) (th2 : List Byte) (s : State) : State :=
  let km := Config.kmac256 h.secret th2 64 adpKeys
  let w : Session := {
    sid := h.sid
    level := h.level
    src := src
    kc2d := km.take 32
    kd2c := km.drop 32
    rxSeq := 0
    txSeq := 0
    rxCnt := 0
    maxReq := 0
    kept := []
    start := s.time
    last := s.time
    idle := s.adp.idletmo.toNat }
  let t := { s with adp := { s.adp with sessions := s.adp.sessions ++ [w] } }
  sendIn h.sid src 0x04 (leBytes 1 0 ++ leBytes 1 h.level.toNat ++ zeros 2 ++ leBytes 4 s.adp.idletmo.toNat) t

/-- A client key is in a key table at a level (R352). -/
def keyListed (keys : List (Nat × KeyEnt)) (pub : List Byte) (level : Nat) : Bool :=
  (upto 16).any fun k => (clientKey keys k).en && decide ((clientKey keys k).hash = Config.shake256 pub 32) && decide (level ≤ (clientKey keys k).level.toNat)

/-- Enrolment by the strap is open (R352). -/
def enrolOpen (s : State) (level : Nat) : Bool :=
  decide (level = 1) && s.pins.straps.adpEnroll && !s.adp.enrolled && !((upto 16).any fun k => (keyEnt s k).en && decide ((keyEnt s k).level = 1))

/-- CLIENT_AUTH of a Basic or Expert client: public key, 7 reserved bytes, signature over TH2. -/
def authKey (src : NetAddr) (h : Handshake) (body : List Byte) (s : State) : State :=
  let pub := sl body 0 1793
  let th2 := Config.shake256 (h.th1 ++ h.sig ++ body.take 1800) 64
  let enrol := enrolOpen s h.level.toNat
  if body.length ≠ 3080 then failHandshake src 0x06 s
  else if !keyListed h.keys pub h.level.toNat && !enrol then failHandshake src 0x02 s
  else if !Config.falconVerify pub th2 (sl body 1800 1280) then failHandshake src 0x03 s
  else if 8 ≤ s.adp.sessions.length then failHandshake src 0x04 s
  else
    let t : State := if keyListed h.keys pub h.level.toNat then s
      else
        let t := setKeyEnt 0 ⟨Config.shake256 pub 32, 1, true⟩ s
        { t with adp := { t.adp with enrolled := true } }
    openSession src h th2 t

/-- CLIENT_AUTH of a Service client: token length, service token, padding, signature over TH2 by the token's SUBJECT. -/
def authToken (src : NetAddr) (h : Handshake) (body : List Byte) (s : State) : State :=
  let n := leNat (sl body 0 2)
  let p := (2 + n + 7) / 8 * 8
  let tok := sl body 2 n
  let th2 := Config.shake256 (h.th1 ++ h.sig ++ body.take p) 64
  if body.length ≠ p + 1280 then failHandshake src 0x06 s
  else if !tokenOk s 1 1800 tok then failHandshake src 0x05 s
  else if !Config.falconVerify (sl tok 24 1793) th2 (sl body p 1280) then failHandshake src 0x03 s
  else if 8 ≤ s.adp.sessions.length then failHandshake src 0x04 s
  else openSession src h th2 s

/-- CLIENT_AUTH: the handshake it names ends, in a session or in ERROR; without one it is discarded. -/
def clientAuth (src : NetAddr) (sid : BitVec 32) (body : List Byte) (s : State) : State :=
  match s.adp.hs.find? (·.sid = sid) with
  | none => { s with answer := .none }
  | some h =>
    let t := { s with adp := { s.adp with hs := s.adp.hs.filter (·.sid ≠ sid) } }
    if h.level.toNat < 2 then authKey src h body t else authToken src h body t
def execClientAuth (src : NetAddr) (sid : BitVec 32) (body : List Byte) (s : State) : Out := keepQueue s <| done (clientAuth src sid body s)

/-- HANDSHAKE_TIMEOUT: the handshake that has waited 1 s, the oldest, is discarded. -/
def execHandshakeTimeout (s : State) : Out := keepQueue s <| done { s with adp := { s.adp with hs := s.adp.hs.drop 1 } }

/-- AUTH_BLOCK_EXPIRE: the 60 s of a blocked address are over. -/
def execAuthBlockExpire (ip : BitVec 128) (s : State) : Out := keepQueue s <|
  done { s with adp := { s.adp with blocked := s.adp.blocked.filter fun b => b.1 ≠ ip } }

/-- SESSION_CLOSE from the client: answered, and the session ends. The spec gives the message no body: one free byte. -/
def sessionClose (sid : BitVec 32) (s : State) : State :=
  match findSession s sid with
  | none => { s with answer := .none }
  | some w => endSession sid (sendIn sid w.src 0x05 [(Config.freeWord s.free).setWidth 8] s.draw)
def execSessionClose (sid : BitVec 32) (s : State) : Out := keepQueue s <| done (sessionClose sid s)
/-- SESSION_IDLE_TIMEOUT and SESSION_LIFETIME_EXPIRE. -/
def execSessionIdleTimeout (sid : BitVec 32) (s : State) : Out := keepQueue s <| done (endSession sid s)
def execSessionLifetimeExpire (sid : BitVec 32) (s : State) : Out := keepQueue s <| done (endSession sid s)

/-! ### Datagrams (R348, R349, R353) -/

/-- The entries of a request body and what follows them; `none` when it is cut short. -/
def parseEntries : Nat → List Byte → Option (List DictEntry × List Byte)
  | 0, b => some ([], b)
  | n + 1, b =>
    let len := leNat (sl b 4 2)
    let p := (len + 7) / 8 * 8
    if b.length < 8 + p then none
    else (parseEntries n (b.drop (8 + p))).map fun r => (⟨argAt b 0 16, argAt b 2 8, sl b 8 len⟩ :: r.1, r.2)

/-- A complete request is given to its meaning by its TYPE; one that does not parse is discarded. -/
def deliverRequest (sid : BitVec 32) (type : Nat) (body : List Byte) (s : State) : State :=
  let x : DictCtx := ⟨sid, argAt body 0 32⟩
  let none' : State := { s with answer := .none }
  if body.length < 8 then none'
  else if type = 0x15 then (if body.length < 10 then none' else outState (execUnsubscribe x (argAt body 8 16) s) s)
  else match parseEntries (leNat (sl body 4 1)) (body.drop 8) with
    | none => none'
    | some (es, rest) =>
      match type, es with
      | 0x10, [e] => outState (execAdpRead x e s) s
      | 0x11, [e] => outState (execAdpWrite x e s) s
      | 0x12, es => outState (execMread x es s) s
      | 0x13, es => outState (execMwrite x es s) s
      | 0x14, [e] => if rest.length < 8 then none' else outState (execSubscribe x e (argAt rest 0 8) (argAt rest 4 32) s) s
      | 0x16, [e] => runCommand x e s
      | 0x17, es => outState (execDescribe x es s) s
      | _, _ => none'

/-- A complete message. -/
def deliverMsg (src : NetAddr) (sid : BitVec 32) (type : Nat) (body : List Byte) (s : State) : State :=
  match type with
  | 0x01 => clientHello src body s
  | 0x03 => clientAuth src sid body s
  | 0x05 => sessionClose sid s
  | _ => deliverRequest sid type body s

/-- A message under reassembly is the one a fragment belongs to: the same SID, TYPE and MLEN; without a session, the same source. -/
def samePartial (src : NetAddr) (sid : BitVec 32) (type mlen : Nat) (p : Partial) : Bool :=
  decide (p.sid = sid) && p.type == type && p.mlen == mlen && (decide (sid ≠ 0) || decide (p.src = src))

/-- The fragments of a message in order. -/
def joined (n : Nat) (fs : List (Nat × List Byte)) : List Byte := ((upto n).map fun i => (tabFind i fs).getD []).flatten

/-- A fragment of a valid datagram: kept, or the message is complete and is delivered. At most 8 messages are partial. -/
def reassemble (src : NetAddr) (sid : BitVec 32) (type mlen fidx fcnt : Nat) (frag : List Byte) (s : State) : State :=
  let old := s.adp.partials.find? (samePartial src sid type mlen)
  let rest := s.adp.partials.filter fun p => !samePartial src sid type mlen p
  let fs := tabInsert fidx frag ((old.map (·.frags)).getD [])
  if fs.length = fcnt then deliverMsg src sid type (joined fcnt fs) { s with adp := { s.adp with partials := rest } }
  else if old.isNone ∧ 8 ≤ rest.length then { s with answer := .none }
  else
    let p : Partial := ⟨src, sid, type, mlen, fcnt, fs, (old.map (·.since)).getD s.time⟩
    let ps := if old.isSome then s.adp.partials.map (fun q => if samePartial src sid type mlen q then p else q) else s.adp.partials ++ [p]
    { s with adp := { s.adp with partials := ps }, answer := .none }

/-- A header is well-formed (Table 14.1), and the datagram has the length its fragment needs; `tag` is 32 for a tagged message. -/
def adpHeaderOk (b : List Byte) (tag : Nat) : Bool :=
  let mlen := leNat (sl b 16 2)
  let fidx := leNat (sl b 18 1)
  let fcnt := leNat (sl b 19 1)
  decide (24 ≤ b.length) && leNat (sl b 0 2) == 0x5044 && leNat (sl b 2 1) == 1 && decide (1 ≤ mlen ∧ mlen ≤ 8192) &&
    fcnt == (mlen + 1395) / 1396 && decide (fidx < fcnt) &&
    b.length == 24 + (if fidx + 1 < fcnt then 1396 else mlen - 1396 * (fcnt - 1)) + tag

/-- A datagram of a session: its tag and sequence number are checked (R353), and the session's counters and idle time advance. It is
the last one when 2^32 have come. -/
def sessionDatagram (src : NetAddr) (sid : BitVec 32) (b : List Byte) (s : State) : State :=
  match findSession s sid with
  | none => { s with answer := .none }
  | some w =>
    let d := b.take (b.length - 32)
    let seq := leNat (sl b 8 8)
    if b.drop (b.length - 32) ≠ Config.kmac256 w.kc2d d 32 adpMsg ∨ seq ≤ w.rxSeq then { s with answer := .none }
    else
      let t := modSession sid (fun w => { w with
        rxSeq := seq
        rxCnt := w.rxCnt + 1
        src := src
        last := s.time }) s
      let t1 := reassemble src sid (leNat (sl b 3 1)) (leNat (sl b 16 2)) (leNat (sl b 18 1)) (leNat (sl b 19 1)) (d.drop 24) t
      if 2 ^ 32 ≤ w.rxCnt + 1 then endSession sid t1 else t1

/-- DATAGRAM_RECEIVE. -/
def datagramReceive (src : NetAddr) (b : List Byte) (s : State) : State :=
  let type := leNat (sl b 3 1)
  let sid : BitVec 32 := argAt b 4 32
  if !adpServes s then { s with answer := .none }
  else if type = 0x01 ∨ type = 0x03 then
    if adpHeaderOk b 0 && (decide (type = 0x03) || decide (sid = 0)) then
      reassemble src sid type (leNat (sl b 16 2)) (leNat (sl b 18 1)) (leNat (sl b 19 1)) (b.drop 24) s
    else { s with answer := .none }
  else if adpHeaderOk b 32 && (decide (type = 0x05) || decide (0x10 ≤ type ∧ type ≤ 0x17)) then sessionDatagram src sid b s
  else { s with answer := .none }
def execDatagramReceive (src : NetAddr) (bytes : List Byte) (s : State) : Out := keepQueue s <| done (datagramReceive src bytes s)

/-- REASSEMBLY_TIMEOUT: the partial message that has waited 200 ms, the oldest, is discarded. -/
def execReassemblyTimeout (s : State) : Out := keepQueue s <| done { s with adp := { s.adp with partials := s.adp.partials.drop 1 } }

end Sys2Proof.Machine
end

