-- ==== Sys2Proof/Machine/Debug.lean ====
section
/-! DEFINITION. Debug modules, halting and resuming, abstract commands, system bus access and triggers (18 R428 to R436). The
registers of a module are those of the RISC-V Debug Specification 1.0, with the options of Table 18.3. -/

namespace Sys2Proof.Machine

def State.dm (s : State) (m : Nat) : DbgMod := tabGet s.dbg.mods DbgMod.reset m
def State.setDm (s : State) (m : Nat) (v : DbgMod) : State := { s with dbg := { s.dbg with mods := tabSet s.dbg.mods DbgMod.reset m v } }
def State.modDm (s : State) (m : Nat) (f : DbgMod → DbgMod) : State := s.setDm m (f (s.dm m))

/-- The hart that local index `i` of a module names (Table 18.2); the Vest's harts are numbered from 960. -/
def dmHart (m i : Nat) : Nat := if m < 12 then 80 * m + i else 960 + i
/-- The module and local index of a hart. -/
def hartDm (h : Nat) : Nat × Nat := if h < 960 then (h / 80, h % 80) else (12, h - 960)
/-- The harts that a module serves. -/
def dmCount (m : Nat) : Nat := if m < 12 then 80 else 19

/-- How local index `i` of a module is reported (Table 18.4). -/
def dmAvail (s : State) (m i : Nat) : Nat := if i < dmCount m then dbgAvail s (dmHart m i) else 0
def dmHalted (s : State) (m i : Nat) : Bool := dmAvail s m i == 2 && (s.hart (dmHart m i)).halted

/-- The selected local indices: hartsel, and with hasel the hart array mask. -/
def selected (d : DbgMod) : List Nat :=
  let a := d.hartsel.toNat
  if d.hasel then a :: ((upto 80).filter fun i => d.mask.getLsbD i && i != a) else [a]

/-! ### Halt and resume (R432 to R434) -/

/-- The scope of a hart sleeps: its Sleeve in SL3 or SL4, or its core in SL2. -/
def sleepScope (s : State) (h : Nat) : Option Scope :=
  if 960 ≤ h then none
  else if (s.slvPwr (hartSleeve h)).sl ≠ 0 then some (.sleeve (Fin.ofNat 12 (hartSleeve h)))
  else if coreSl s (hartCore h) = 2 then some (.core (Fin.ofNat 240 (hartCore h)))
  else none

/-- A debug request to a hart whose core is in SL1 wakes the core (Table 18.11). -/
def wakeSl1 (h : Nat) (s : State) : State :=
  if h < 960 ∧ coreSl s (hartCore h) = 1 then startWake (.core (Fin.ofNat 240 (hartCore h))) 7 s else s

/-- A halt request: it stays pending while the secure world holds it, or while its scope wakes. -/
def haltReq (h : Nat) (s : State) : State :=
  if dbgAvail s h ≠ 2 ∨ (s.hart h).halted = true then s
  else
    match sleepScope s h with
    | some sc => startWake sc 7 (s.modHart h fun x => { x with haltPend := true })
    | none => wakeSl1 h (if dbgHold s h then s.modHart h fun x => { x with haltPend := true } else enterDebug h 3 s)

/-- HALT_REQUEST (R434). -/
def execHaltRequest (h : HartId) (s : State) : Out := keepQueue s <| done (haltReq h s)

/-- A halted hart leaves debug mode: to dpc, in the mode that dcsr names. -/
def resumeHart (h : Nat) (s : State) : State :=
  let x := s.hart h
  let d := x.c 0x7B0
  let prv := fld d 0 2
  let st := x.c 0x300
  let x1 := { x with
    pc := x.c 0x7B1
    priv := prv
    virt := bit d 5 && decide (prv ≠ 3)
    halted := false
    haltPend := false
    prog := false }
  let s1 := s.setHart h (if prv = 3 then x1 else x1.setC 0x300 (st &&& ~~~(on 17 true)))
  let k := hartDm h
  wakeSl1 h (s1.modDm k.1 fun m => { m with resumeAck := setBit m.resumeAck k.2 true })

/-- A resume request, with the members of the resume group. -/
def resumeReq (h : Nat) (s : State) : State :=
  if dbgAvail s h ≠ 2 ∨ (s.hart h).halted = false then s
  else
    let g := tabGet s.dbg.resGrp 0 h
    let s1 := resumeHart h s
    if g = 0 then s1
    else s1.dbg.resGrp.foldl (fun a e =>
      if e.2 = g ∧ e.1 ≠ h ∧ dbgAvail a e.1 = 2 ∧ (a.hart e.1).halted = true then resumeHart e.1 a else a) s1

/-- RESUME_REQUEST (R434). -/
def execResumeRequest (h : HartId) (s : State) : Out := keepQueue s <| done (resumeReq h s)

/-! ### ndmreset (Table 18.3) -/

/-- The rest of the package forgets a Sleeve that is reset: its transactions, packets, waiting accesses and directory entries. -/
def forgetSleeve (k : Nat) (s : State) : State :=
  let mine (l : Level) (a : Nat) : Bool := match l with
    | .vest => a == k
    | .sleeve j => j.val == k
  let c := s.coh
  let inS (a : Nat) : Bool := a == k
  let coh := { c with
    txns := c.txns.filter fun t => !mine t.lvl t.req
    queue := c.queue.filter fun t => !mine t.lvl t.req
    mshr := c.mshr.filter fun m => !mine m.lvl m.agent
    late := c.late.filter fun m => !mine m.lvl m.dest
    wbs := c.wbs.filter fun w => !mine w.lvl w.agent
    dir := c.dir.filterMap fun e => (scanEntry inS e.2).map fun v => (e.1, v) }
  dropWaits inS { s with
    coh := coh
    dram := { s.dram with poison := scanPoison inS c.dir s.dram.poison }
    fab := { s.fab with
      held := s.fab.held.filter fun e => !((heldHart e).map (· / 20) == some k)
      mesh := { s.fab.mesh with
        flights := s.fab.mesh.flights.filter fun f => f.die ≠ k ∧ nodeDie f.pkt.srcN ≠ k ∧ nodeDie f.pkt.dst ≠ k } } }

/-- ndmreset of a module is set or cleared: in a Sleeve module it holds the Sleeve in reset; in the Vest module it has no effect. -/
def ndmReset (m : Nat) (on_ : Bool) (s : State) : State :=
  let s1 := s.modDm m fun d => { d with ndm := on_ }
  if m = 12 ∨ slvPresent s m = false then s1
  else if on_ && !(s.dm m).ndm then
    forgetSleeve m (resetSleeve m (s1.modDm m fun d => { d with haveReset := BitVec.allOnes 80 }))
  else if !on_ && (s.dm m).ndm then settleRelease s1
  else s1

/-- NDMRESET. -/
def execNdmreset (m : ModuleId) (on_ : Bool) (s : State) : Out := keepQueue s <| done (ndmReset m on_ s)

/-! ### Abstract commands (Table 18.3) -/

/-- A register of a halted hart by abstract register number; none where the hart has no such register. CSRs are reached with the
rights of M-mode, and the debug CSRs with them. -/
def absRead (s : State) (h regno : Nat) : Option Word :=
  let x := s.hart h
  let xm : Hart := { x with priv := 3, virt := false }
  if regno < 0x1000 then
    if (0x7B0 ≤ regno ∧ regno ≤ 0x7B3) ∨ (csrCheck xm regno false).isNone then some (csrRead (s.setHart h xm) h regno) else none
  else if regno < 0x1020 then some (x.gx (Fin.ofNat 32 regno))
  else if regno < 0x1040 then some (x.fx (Fin.ofNat 32 regno))
  else none

def absWrite (h regno : Nat) (v : Word) (s : State) : Option State :=
  let x := s.hart h
  let xm : Hart := { x with priv := 3, virt := false }
  let back (a : State) : State := a.modHart h fun y => { y with priv := x.priv, virt := x.virt }
  if regno < 0x1000 then
    if 0x7B0 ≤ regno ∧ regno ≤ 0x7B3 then some (s.setHart h (csrWrite s x regno v))
    else if (csrCheck xm regno true).isSome then none
    else if regno = 0x5C0 then some (back (wrBpc h v (s.setHart h xm)))
    else if regno = 0x5C1 then some (back (wrBpkey h v (s.setHart h xm)))
    else some (back (s.setHart h (csrWrite s xm regno v)))
  else if regno < 0x1020 then some (s.setHart h (x.setX (Fin.ofNat 32 regno) v))
  else if regno < 0x1040 then some (s.setHart h (x.setF (Fin.ofNat 32 regno) v))
  else none

/-- The argument of an abstract command. A 32-bit access has no value for the upper half: the Debug Specification leaves it open. -/
def absArg (s : State) (d : DbgMod) (size : Nat) : Word :=
  let hi : Word := if size = 3 then d.data1.setWidth 64 else (Config.freeWord s.free) >>> 32
  hi <<< 32 ||| d.data0.setWidth 64

/-- A hart of the module runs the program buffer: the module is busy. -/
def dmBusy (s : State) (m : Nat) : Bool := (upto (dmCount m)).any fun i => (s.hart (dmHart m i)).prog

/-- The command error of a module: its own, or 3 after an exception in a program buffer. -/
def cmderrOf (s : State) (m : Nat) : BitVec 3 :=
  if (s.dm m).cmderr = 0 ∧ ((upto (dmCount m)).any fun i => (s.hart (dmHart m i)).progExc) = true then 3 else (s.dm m).cmderr

/-- The harts of a module forget what `f` takes away of their programs. -/
def onPrograms (m : Nat) (f : Hart → Hart) (s : State) : State :=
  (upto (dmCount m)).foldl (fun a i =>
    let x := a.hart (dmHart m i)
    if x.prog || x.progExc then a.setHart (dmHart m i) (f x) else a) s

/-- postexec: a hart of the hart map runs the program buffer from now on: its instruction commands are those of the buffer, until an
EBREAK or an exception ends it. The command table gives the Vest's own processors no instructions: there the buffer ends at once. -/
def postExec (cmd : BitVec 32) (h : Nat) (s : State) : State :=
  wakeSl1 h (if cmd.getLsbD 18 && decide (h < 960) then s.modHart h fun x => { x with prog := true } else s)

/-- A command, a program buffer or data register is touched while a program runs: cmderr 1. -/
def busyErr (m : Nat) (s : State) : State := if cmderrOf s m = 0 then s.modDm m fun d => { d with cmderr := 1 } else s

/-- Run an abstract command: Access Register with aarsize 32 or 64. Other types, sizes and postincrement end with cmderr 2, a hart that
is not halted with 4, a register that the hart does not have with 3; a command while a program buffer runs with 1. -/
def abstractCmd (m : Nat) (cmd : BitVec 32) (s0 : State) : State :=
  let s := s0.modDm m fun d => { d with cmd := cmd }
  let d := s.dm m
  let err (e : BitVec 3) : State := s.modDm m fun d => { d with cmderr := e }
  let size := (cmd.extractLsb' 20 3).toNat
  let regno := (cmd.extractLsb' 0 16).toNat
  let i := d.hartsel.toNat
  let h := dmHart m i
  if cmderrOf s0 m ≠ 0 then s0
  else if dmBusy s0 m then busyErr m s0
  else if cmd.extractLsb' 24 8 ≠ 0 ∨ cmd.getLsbD 23 = true ∨ cmd.getLsbD 19 = true then err 2
  else if cmd.getLsbD 17 = false then (if dmHalted s m i then postExec cmd h s else err 4)
  else if size ≠ 2 ∧ size ≠ 3 then err 2
  else if dmHalted s m i = false then err 4
  else if cmd.getLsbD 16 then
    match absWrite h regno (absArg s d size) s with
    | some t => postExec cmd h t.draw
    | none => err 3
  else
    match absRead s h regno with
    | some v => postExec cmd h (s.modDm m fun e => { e with data0 := fld v 0 32, data1 := if size = 3 then fld v 32 32 else e.data1 })
    | none => err 3

/-- ABSTRACT_COMMAND (R431). -/
def execAbstractCommand (m : ModuleId) (cmd : BitVec 32) (s : State) : Out := keepQueue s <| done (abstractCmd m cmd s)

/-! ### System bus access (R436) -/

/-- End a system bus access with an error. -/
def sbEnd (m : Nat) (e : BitVec 3) (s : State) : State := s.modDm m fun d => { d with sbErr := e, sbBusy := false }
/-- End it with success: sbaddress moves on with sbautoincrement. -/
def sbDone (m n : Nat) (data : Option Word) (s : State) : State :=
  s.modDm m fun d => { d with
    sbBusy := false
    sbData := data.getD d.sbData
    sbAddr := if d.sbInc then d.sbAddr + BitVec.ofNat 64 n else d.sbAddr }

/-- A system bus access: refused or misaligned with its sberror, waiting while a transaction holds the line (or where nothing on the
mesh answers), else performed. -/
def sbRun (m : ModuleId) (wr : Bool) (s : State) : State :=
  let d := s.dm m
  let n := 2 ^ d.sbAcc.toNat
  let a := d.sbAddr.toNat % 2 ^ 52
  let who := Agent.debug m
  let sec := agentSecure s who
  let r := regionOf s a
  let busy : State := s.modDm m fun d => { d with sbBusy := true }
  let data := leBytes n d.sbData.toNat
  let mmio (rg : Option Reg) : State :=
    if wr then
      match mmioWrite who rg a data s with
      | some t => sbDone m n none t
      | none => sbEnd m 2 (reportUcs who .reserved a (secureAddr s a) s)
    else
      match mmioRead who rg a n s with
      | some t => sbDone m n (some (BitVec.ofNat 64 (leNat t.2))) t.1
      | none => sbEnd m 2 (reportUcs who .reserved a (secureAddr s a) s)
  if 3 < d.sbAcc.toNat then sbEnd m 4 s
  else if a % n ≠ 0 then sbEnd m 3 s
  else match refusal s who sec wr a with
    | some k => sbEnd m 2 (reportUcs who k a (secureAddr s a) s)
    | none =>
      if cacheable r then
        if lineBusy s (a / 64) then busy
        else if wr then sbDone m n none (cohWrite a data false s)
        else
          let x := cohRead s a n
          if x.2 then sbEnd m 7 s else sbDone m n (some (BitVec.ofNat 64 (leNat x.1))) s
      else match r with
        | .imsic h f o => if wr then sbDone m n none (imsicPage h f o data s) else sbDone m n (some 0) s
        | _ => (match regOf r with
          | some rg => mmio rg
          | none => busy)

/-- SYSTEM_BUS_ACCESS (R436); none starts while an error stands. -/
def execSystemBusAccess (m : ModuleId) (wr : Bool) (s : State) : Out := keepQueue s <|
  if (s.dm m).sbErr ≠ 0 ∨ (s.dm m).sbBusyErr = true then done s else done (sbRun m wr s)

/-- SYSTEM_BUS_TIMEOUT (Table 18.6): no completion within 100 µs. -/
def execSystemBusTimeout (m : ModuleId) (s : State) : Out := keepQueue s <| if (s.dm m).sbBusy then done (sbEnd m 1 s) else done s

/-- An access that a DMI write or read starts: an error stands, or the bus is busy. -/
def sbStart (m : ModuleId) (wr : Bool) (s : State) : State :=
  let d := s.dm m
  if d.sbBusy then s.modDm m fun d => { d with sbBusyErr := true }
  else if d.sbErr ≠ 0 ∨ d.sbBusyErr = true then s
  else sbRun m wr s

/-! ### The registers of a debug module -/

/-- The mask of harts below 32 · n + 32 that are halted, from index 32 · n. -/
def haltWord (s : State) (m n : Nat) : BitVec 32 := maskOf 32 fun i => dmHalted s m (32 * n + i)

/-- dmstatus of the selected harts. -/
def dmstatus (s : State) (m : Nat) : Word :=
  let d := s.dm m
  let l := selected d
  let pair (hi : Nat) (p : Nat → Bool) : Word := cat [on hi (l.all p), on (hi - 1) (l.any p)]
  cat [on 22 true, pair 19 (fun i => d.haveReset.getLsbD i), pair 17 (fun i => d.resumeAck.getLsbD i), pair 15 (fun i => dmAvail s m i == 0),
    pair 13 (fun i => dmAvail s m i == 1), pair 11 (fun i => dmAvail s m i == 2 && !(s.hart (dmHart m i)).halted), pair 9 (dmHalted s m),
    on 7 true, on 5 true, 3]

/-- sbcs. -/
def rdSbcs (d : DbgMod) : Word :=
  cat [at_ 29 (1 : BitVec 3), on 22 d.sbBusyErr, on 21 d.sbBusy, on 20 d.sbRonA, at_ 17 d.sbAcc, on 16 d.sbInc, on 15 d.sbRonD, at_ 12 d.sbErr,
    at_ 5 (52 : BitVec 7), 0xF]

/-- A module register as it reads. -/
def dmRead (s : State) (m r : Nat) : Word :=
  let d := s.dm m
  let one := dmHart m d.hartsel.toNat
  if d.active = false ∧ r ≠ 0x1D ∧ r ≠ 0x11 then 0
  else if r = 0x04 then at_ 0 d.data0
  else if r = 0x05 then at_ 0 d.data1
  else if r = 0x10 then cat [on 26 d.hasel, at_ 16 (d.hartsel.extractLsb' 0 10), at_ 6 (d.hartsel.extractLsb' 10 10), on 1 d.ndm, on 0 d.active]
  else if r = 0x11 then dmstatus s m
  else if r = 0x12 then at_ 20 (2 : BitVec 4)
  else if r = 0x13 then at_ 0 (maskOf 32 fun i => decide (i < 3) && haltWord s m i != 0)
  else if r = 0x14 then at_ 0 d.hawsel
  else if r = 0x15 then at_ 0 (d.mask.extractLsb' (32 * d.hawsel.toNat) 32)
  else if r = 0x16 then cat [at_ 24 (8 : BitVec 5), on 12 (dmBusy s m), at_ 8 (cmderrOf s m), 2]
  else if r = 0x1D then (if m = 11 then 0 else BitVec.ofNat 64 (if m = 12 then 0x200 else (m + 2) * 0x200))
  else if 0x20 ≤ r ∧ r < 0x28 then at_ 0 (tabGet d.progbuf 0 (r - 0x20))
  else if r = 0x32 then
    cat [on 11 d.grpRes, at_ 2 (BitVec.ofNat 5 (if d.grpRes then tabGet s.dbg.resGrp 0 one else tabGet s.dbg.haltGrp 0 one))]
  else if r = 0x38 then rdSbcs d
  else if r = 0x39 then at_ 0 (fld d.sbAddr 0 32)
  else if r = 0x3A then at_ 0 (fld d.sbAddr 32 32)
  else if r = 0x3C then at_ 0 (fld d.sbData 0 32)
  else if r = 0x3D then at_ 0 (fld d.sbData 32 32)
  else if r = 0x40 then at_ 0 (haltWord s m (d.hartsel.toNat / 32))
  else 0

/-- What dmcontrol asks of the selected harts. -/
def dmHarts (m : Nat) (v : BitVec 32) (s : State) : State :=
  let d := s.dm m
  let l := (selected d).filter fun i => dmAvail s m i != 0
  let each (f : Nat → State → State) (t : State) : State := l.foldl (fun a i => f (dmHart m i) a) t
  let clear (t : State) : State := each (fun h a => a.modHart h fun x => { x with haltPend := x.haltPend && x.resetHalt }) t
  let s1 := if v.getLsbD 31 then each haltReq s else clear s
  let s2 := if v.getLsbD 30 && !v.getLsbD 31 then
      each resumeReq (s1.modDm m fun e => { e with resumeAck := l.foldl (fun a i => setBit a i false) e.resumeAck })
    else s1
  let s3 := if v.getLsbD 28 then s2.modDm m fun e => { e with haveReset := (selected d).foldl (fun a i => setBit a i false) e.haveReset } else s2
  if v.getLsbD 2 then each (fun h a => a.modHart h fun x => { x with resetHalt := false }) s3
  else if v.getLsbD 3 then each (fun h a => a.modHart h fun x => { x with resetHalt := true }) s3
  else s3

/-- A write of dmcontrol: dmactive = 0 resets the module. -/
def wrDmcontrol (m : Nat) (v : BitVec 32) (s : State) : State :=
  if v.getLsbD 0 = false then onPrograms m (fun x => { (if x.prog then endProgram false x else x) with progExc := false }) ((ndmReset m false s).setDm m DbgMod.reset)
  else if (s.dm m).active = false then s.modDm m fun d => { d with active := true }
  else
    let s1 := s.modDm m fun d => { d with hasel := v.getLsbD 26, hartsel := v.extractLsb' 6 10 ++ v.extractLsb' 16 10 }
    ndmReset m (v.getLsbD 1) (dmHarts m v s1)

/-- A write of dmcs2: the group of the selected harts (0: none, 1 to 16). -/
def wrDmcs2 (m : Nat) (v : BitVec 32) (s : State) : State :=
  let res := v.getLsbD 11
  let g := (v.extractLsb' 2 5).toNat
  let s1 := s.modDm m fun d => { d with grpRes := res }
  if v.getLsbD 1 && !v.getLsbD 0 && decide (g ≤ 16) then
    let put (t : List (Nat × Nat)) : List (Nat × Nat) := (selected (s1.dm m)).foldl (fun a i => tabSet a 0 (dmHart m i) g) t
    if res then { s1 with dbg := { s1.dbg with resGrp := put s1.dbg.resGrp } } else { s1 with dbg := { s1.dbg with haltGrp := put s1.dbg.haltGrp } }
  else s1

/-- A write of sbcs. -/
def wrSbcs (m : Nat) (v : BitVec 32) (s : State) : State :=
  s.modDm m fun d => { d with
    sbBusyErr := d.sbBusyErr && !v.getLsbD 22
    sbRonA := v.getLsbD 20
    sbAcc := v.extractLsb' 17 3
    sbInc := v.getLsbD 16
    sbRonD := v.getLsbD 15
    sbErr := d.sbErr &&& ~~~(v.extractLsb' 12 3) }

/-- The low or high half of a word replaced. -/
def putHalf (hi : Bool) (v : BitVec 32) (w : Word) : Word := if hi then v ++ fld w 0 32 else fld w 32 32 ++ v

/-- The registers of the abstract commands: data0, data1, abstractcs, command, progbuf. -/
def touchesProgram (r : Nat) : Bool := r == 0x04 || r == 0x05 || r == 0x16 || r == 0x17 || decide (0x20 ≤ r ∧ r < 0x28)

/-- A module register written. -/
def dmWrite (m : ModuleId) (r : Nat) (v : BitVec 32) (s : State) : State :=
  if r = 0x10 then wrDmcontrol m v s
  else if (s.dm m).active = false then s
  else if dmBusy s m && touchesProgram r then busyErr m s
  else if r = 0x04 then s.modDm m fun d => { d with data0 := v }
  else if r = 0x05 then s.modDm m fun d => { d with data1 := v }
  else if r = 0x14 then s.modDm m fun d => { d with hawsel := BitVec.ofNat 15 (v.toNat % 4) }
  else if r = 0x15 then s.modDm m fun d => { d with mask := (upto 32).foldl (fun a i => setBit a (32 * d.hawsel.toNat + i) (v.getLsbD i)) d.mask }
  else if r = 0x16 then
    onPrograms m (fun x => { x with progExc := false }) (s.modDm m fun d => { d with cmderr := cmderrOf s m &&& ~~~(v.extractLsb' 8 3) })
  else if r = 0x17 then abstractCmd m v s
  else if 0x20 ≤ r ∧ r < 0x28 then s.modDm m fun d => { d with progbuf := tabSet d.progbuf 0 (r - 0x20) v }
  else if r = 0x32 then wrDmcs2 m v s
  else if r = 0x38 then wrSbcs m v s
  else if (s.dm m).sbBusy && decide (0x39 ≤ r ∧ r ≤ 0x3D) then s.modDm m fun d => { d with sbBusyErr := true }
  else if r = 0x39 then
    let s1 := s.modDm m fun d => { d with sbAddr := putHalf false v d.sbAddr }
    if (s1.dm m).sbRonA then sbStart m false s1 else s1
  else if r = 0x3A then s.modDm m fun d => { d with sbAddr := putHalf true v d.sbAddr }
  else if r = 0x3C then sbStart m true (s.modDm m fun d => { d with sbData := putHalf false v d.sbData })
  else if r = 0x3D then s.modDm m fun d => { d with sbData := putHalf true v d.sbData }
  else s

/-! ### The transport (R428, R429) -/

/-- dtmcs as it reads: version 1, abits 16, dmistat, idle 2. -/
def dtmcs (s : State) : Word := cat [at_ 12 (2 : BitVec 3), at_ 10 s.dbg.dmistat, at_ 4 (16 : BitVec 6), 1]

/-- DTMCS: dmireset (bit 16) and dtmhardreset (bit 17) clear the sticky status. -/
def execDtmcs (shift : BitVec 32) (s : State) : Out := keepQueue s <|
  let s1 := (setIr 0x10 s).answerW (dtmcs s)
  if shift.getLsbD 16 || shift.getLsbD 17 then done { s1 with dbg := { s1.dbg with dmistat := 0 } } else done s1

/-- The module of a DMI address: the Vest at 0, Sleeve k at (k + 1) × 0x200. -/
def dmiModule (a : Nat) : Option ModuleId := if a < 0x200 then some 12 else if a < 0x1A00 then some (Fin.ofNat 13 (a / 0x200 - 1)) else none

/-- The read of a DMI register: reading sbdata0 may start the next access. -/
def dmiRead (m : ModuleId) (r : Nat) (s : State) : State × Word :=
  let v := dmRead s m r
  let d := s.dm m
  if r = 0x3C ∧ d.active = true ∧ d.sbBusy = true then (s.modDm m fun d => { d with sbBusyErr := true }, v)
  else if r = 0x3C ∧ d.active = true ∧ d.sbRonD = true then (sbStart m false s, v)
  else if d.active && dmBusy s m && touchesProgram r && r != 0x16 then (busyErr m s, v)
  else (s, v)

/-- DMI (R429, R432): the capture returns the last access; the update performs the next one. While the status is busy or failed no access
is performed; the module of a Sleeve in SL3 or SL4 answers busy and wakes it. -/
def execDmi (shift : BitVec 50) (s : State) : Out := keepQueue s <|
  let op := (shift.extractLsb' 0 2).toNat
  let v := shift.extractLsb' 2 32
  let a := shift.extractLsb' 34 16
  let s1 := (setIr 0x11 s).answerW (cat [at_ 34 s.dbg.dmiAddr, at_ 2 s.dbg.dmiData, at_ 0 s.dbg.dmistat])
  let keep (w : BitVec 32) (t : State) : State := { t with dbg := { t.dbg with dmiAddr := a, dmiData := w } }
  if s.dbg.dmistat ≠ 0 ∨ (op ≠ 1 ∧ op ≠ 2) then done s1
  else match dmiModule a.toNat with
    | none => done (keep 0 s1)
    | some m =>
      if m.val < 12 ∧ (s.slvPwr m).sl ≠ 0 then
        done (startWake (.sleeve (Fin.ofNat 12 m.val)) 7 { s1 with dbg := { s1.dbg with dmistat := 3 } })
      else if op = 1 then
        let x := dmiRead m (a.toNat % 0x200) s1
        done (keep (fld x.2 0 32) x.1)
      else done (keep v (dmWrite m (a.toNat % 0x200) v s1))

/-! ### Triggers (R435, Table 18.5) -/

/-- The comparison of mcontrol6: equal, at least, below, and the masked low and high halves. -/
def trigCmp (mtch : Nat) (v d : Word) : Bool :=
  match mtch with
  | 0 => v == d
  | 2 => decide (d.toNat ≤ v.toNat)
  | 3 => decide (v.toNat < d.toNat)
  | 4 => fld v 0 32 &&& fld d 32 32 == fld d 0 32
  | 5 => fld v 32 32 &&& fld d 32 32 == fld d 0 32
  | _ => false

/-- The mode that the hart's current trap handler interrupted. -/
def originMode (x : Hart) : Bool × BitVec 2 :=
  if x.virt then (true, at1 (bit (x.c 0x200) 8))
  else if x.priv = 3 then (bit (x.c 0x300) 39, fld (x.c 0x300) 11 2)
  else (bit (x.c 0x600) 7, at1 (bit (x.c 0x300) 8))
where
  /-- A one-bit previous mode. -/
  at1 (b : Bool) : BitVec 2 := if b then 1 else 0

/-- A trigger matches an event. -/
def trigMatch (x : Hart) (t : Trig) (ev : TrigEvent) : Bool :=
  let d := t.data1
  let mcontrol (en : Nat) (va data : Word) : Bool :=
    bit d en && trigMode d 24 23 6 4 3 x.virt x.priv && trigCmp (fld d 7 4).toNat (if bit d 21 then data else va) t.data2
  let o := originMode x
  match (fld d 60 4).toNat, ev with
  | 6, .exec => !bit d 21 && mcontrol 2 x.pc 0
  | 6, .load va v => mcontrol 0 va v
  | 6, .store va v => mcontrol 1 va v
  | 3, .icount => bit d 8 && trigMode d 26 25 9 7 6 x.virt x.priv
  | 4, .interrupt n => trigMode d 12 11 9 7 6 o.1 o.2 && bit t.data2 n
  | 5, .exception n => trigMode d 12 11 9 7 6 o.1 o.2 && bit t.data2 n
  | _, _ => false

/-- The trigger chains with the next one. -/
def trigChain (x : Hart) (i : Nat) : Bool := let d := (x.trig i).data1
  fld d 60 4 == 6 && bit d 11

/-- The first trigger of the chain that ends at `i`. -/
def chainStart (x : Hart) : Nat → Nat
  | 0 => 0
  | i + 1 => if trigChain x i then chainStart x i else i + 1

/-- The action of a trigger: 0 breakpoint exception, 1 debug mode (only where debug mode owns it). -/
def trigAction (t : Trig) : Nat := if fld t.data1 60 4 = 6 then (fld t.data1 12 4).toNat else (fld t.data1 0 6).toNat

/-- A breakpoint exception of a trigger would be lost in its own handler: machine mode with interrupts off, or S and VS mode likewise
where they take breakpoints. -/
def trigReentrant (x : Hart) : Bool :=
  if x.priv = 3 then !bit (x.c 0x300) 3
  else if x.priv = 1 ∧ x.virt = false then bit (x.c 0x302) 3 && !bit (x.c 0x300) 1
  else if x.priv = 1 then bit (x.c 0x302) 3 && bit (x.c 0x602) 3 && !bit (x.c 0x200) 1
  else false

/-- Mark a trigger as hit; a pending count is taken. -/
def trigHit (x : Hart) (i : Nat) : Hart :=
  let t := x.trig i
  let d := t.data1
  let d1 : Word := match (fld d 60 4).toNat with
    | 6 => (d &&& ~~~(on 25 true)) ||| on 22 true
    | 3 => (d &&& ~~~(on 8 true)) ||| on 24 true
    | _ => d ||| on 58 true
  { x with trigs := tabSet x.trigs ⟨0, 0, 0⟩ i { t with data1 := d1 } }

/-- The trap value of a trigger's breakpoint. -/
def trigTval (x : Hart) : TrigEvent → Word
  | .exec => x.pc
  | .load va _ | .store va _ => va
  | _ => 0

/-- TRIGGER_FIRE (R435): every trigger of the chain that ends at `t` matches, and its action is taken. None matches while the secure
world is locked (R433), in debug mode, or on a path not yet committed. -/
def execTriggerFire (h : HartId) (t : Fin 4) (ev : TrigEvent) (s : State) : Out := keepQueue s <|
  let x := s.hart h
  let start := chainStart x t
  let all := (upto (t.val + 1)).all fun i => decide (i < start) || trigMatch x (x.trig i) ev
  let tr := x.trig t
  if hartRuns s h = false ∨ x.halted = true ∨ x.indir.isSome = true ∨ dbgHold s h = true ∨ trigChain x t = true ∨ all = false then done s
  else
    let s1 := (upto (t.val + 1)).foldl (fun a i => if i < start then a else a.modHart h fun y => trigHit y i) s
    match trigAction tr with
    | 0 => if trigReentrant x then done s else done (takeTrap h (plainTrap 3 (trigTval x ev) x.virt) s1)
    | 1 => if bit tr.data1 59 then done (enterDebug h 2 s1) else done s
    | _ => done s

end Sys2Proof.Machine
end

