-- ==== Sys2Proof/Machine/LacePort.lean ====
section
/-! DEFINITION. The Lace port (13 R334, R335): matches, indexed registers, commands and the I3C CCCs. -/

namespace Sys2Proof.Machine

/-- The static address: 0b10110 and the two strap bits (R335). -/
def laceStatic (s : State) : BitVec 7 := 0b1011000#7 ||| s.lace.staticLow.setWidth 7

/-- The address matches the static or the dynamic address. -/
def laceHit (s : State) (a : BitVec 7) : Bool := decide (a = laceStatic s) || decide (s.lace.dyn = some a)

/-- PSTATE (Table 13.9, R340, Table 19.12). -/
def laceState (s : State) : Nat :=
  if s.thm.shut ≠ 0 || (s.pwr.pk3 && decide (s.pwr.pk3Cause = 2)) then 5
  else if s.pwr.pk3 then 3
  else if s.pins.inReset then 4
  else s.pwr.pk

/-- A Lace register (Table 13.9); CMD and unlisted indices read 0. -/
def laceReg (s : State) (i : Nat) : Byte :=
  match i with
  | 0 => 0xA2
  | 1 => BitVec.ofNat 8 (laceState s)
  | 2 => s.pwr.wakesrc.extractLsb' 0 8
  | 4 => s.lace.cmdstat
  | 5 => if s.pwr.pk3 then 0xFF else clampNat 8 (s.thm.tj / 1000)
  | _ => 0

/-- The package wake of an acknowledged match (R335): it ends PK3 or starts the wake of a package state. -/
def laceWake (s : State) : State :=
  let s1 := { s with lace := { s.lace with wake := true } }
  if s1.pwr.pk3 then leavePk3 8 s1 else startWake .package 8 s1

/-- LACE_MATCH (R335): acknowledged (answer 1) in every state, and the package wakes; otherwise not acknowledged. -/
def execLaceMatch (addr : BitVec 7) (s : State) : Out := keepQueue s <|
  if laceHit s addr then done ((laceWake s).answerW 1) else done { s with answer := .none }

/-- CMD 0x5A (Table 13.9): only while LACEPD is 1; CMDSTAT holds the outcome. -/
def lacePk3 (s : State) : State :=
  if s.lace.lacepd then
    let r := packageOff .lace none s
    { r.1 with lace := { r.1.lace with cmdstat := BitVec.ofNat 8 r.2 } }
  else s

/-- A byte written to a Lace register: only CMD takes writes; other values are ignored. -/
def laceWrite (i : Nat) (b : Byte) (s : State) : State :=
  if i = 3 then (if b = 0x01 then laceWake s else if b = 0x5A then lacePk3 s else s) else s

/-- The bytes that follow the index in a private write, from that index upward. -/
def laceWrites : Nat → List Byte → State → State
  | _, [], s => s
  | i, b :: r, s => laceWrites (i + 1) r (laceWrite i b s)

/-- LACE_INDEX_WRITE (R335): the first byte sets the index; later bytes write from it. The answer is what a read that
follows returns: the registers from that index on. -/
def execLaceIndexWrite (idx : BitVec 8) (rest : List Byte) (s : State) : Out := keepQueue s <|
  let s1 := laceWrites idx.toNat rest { s with lace := { s.lace with index := idx } }
  done { s1 with answer := .bytes ((upto (6 - idx.toNat)).map fun i => laceReg s1 (idx.toNat + i)) }

/-- LACE_CMD_WAKE (R335). -/
def execLaceCmdWake (s : State) : Out := keepQueue s <| done (laceWrite 3 0x01 s)

/-- LACE_CMD_PK3 (R333). -/
def execLaceCmdPk3 (s : State) : Out := keepQueue s <| done (laceWrite 3 0x5A s)

/-- SETDASA (R334): a port that holds no dynamic address takes one when its static address is named. -/
def execSetdasa (st dyn : BitVec 7) (s : State) : Out := keepQueue s <|
  if st = laceStatic s ∧ s.lace.dyn = none then done { s with lace := { s.lace with dyn := some dyn } } else done s

/-- ENTDAA (R334): a port that holds no dynamic address takes the one assigned. -/
def execEntdaa (dyn : BitVec 7) (s : State) : Out := keepQueue s <|
  if s.lace.dyn = none then done { s with lace := { s.lace with dyn := some dyn } } else done s

/-- RSTDAA (R334). -/
def execRstdaa (s : State) : Out := keepQueue s <| done { s with lace := { s.lace with dyn := none } }

/-- GETPID, GETBCR, GETDCR (R334): constants of the part, most significant byte first for the PID. -/
def execGetpid (s : State) : Out := keepQueue s <| done { s with answer := .bytes (leBytes 6 Config.lacePid.toNat).reverse }
def execGetbcr (s : State) : Out := keepQueue s <| done { s with answer := .bytes [Config.laceBcr] }
def execGetdcr (s : State) : Out := keepQueue s <| done { s with answer := .bytes [Config.laceDcr] }

/-- GETSTATUS (R334): the target status, a free value: the spec gives no content. -/
def execGetstatus (s : State) : Out := keepQueue s <|
  done { s.draw with answer := .bytes (leBytes 2 (Config.freeWord s.free).toNat) }

end Sys2Proof.Machine
end

