-- ==== Sys2Proof/Machine/Reboot.lean ====
section
/-! DEFINITION. The lands that hold package reset, the AON power-on reset, and the end of package reset (19 R450, R453 to R457,
R465). -/

namespace Sys2Proof.Machine

/-- A drain runs. -/
def draining (s : State) : Bool := decide (s.pls.step ≠ 0)

/-- A condition of R454 begins: package reset is asserted, unless it already is. -/
def assertReset (s : State) : State := if s.pins.inReset then s else packageReset false false s

/-- RESET_N_LOW: a drain that runs completes, and package reset then holds (Table 19.12). -/
def execResetNLow (s : State) : Out := keepQueue s <|
  let s1 := { s with pins := { s.pins with resetNLow := true, evRstN := true } }
  done (if draining s then s1 else assertReset s1)

/-- RESET_N_HIGH. -/
def execResetNHigh (s : State) : Out := keepQueue s <| done { s with pins := { s.pins with resetNLow := false } }

/-- The rails on the holdup bus (Table 19.4). -/
def onHoldBus : Rail → Bool
  | .vddVest | .vddqD01 | .vccqNf | .vddaPll | .vddioMgt | .vddAon | .vddioAon => true
  | _ => false

def isSlvRail : Rail → Bool
  | .vinSlv _ => true
  | _ => false

/-- RAIL_OUT_OF_TOLERANCE: a Sleeve rail holds nothing (the Sleeve reports the loss of its supply, R457). The rails that are not on the
holdup bus fall with main power, and a drain runs on without them. -/
def execRailOutOfTolerance (r : Rail) (s : State) : Out := keepQueue s <|
  let s1 := { s with pins := { s.pins with railBad := if s.pins.railBad.contains r then s.pins.railBad else s.pins.railBad ++ [r] } }
  done (if isSlvRail r || (draining s && !onHoldBus r) then s1 else assertReset s1)

/-- RAIL_IN_TOLERANCE. -/
def execRailInTolerance (r : Rail) (s : State) : Out := keepQueue s <|
  done { s with pins := { s.pins with railBad := s.pins.railBad.filter fun q => q ≠ r } }

/-- REFCLK_LOSS and REFCLK_VALID. -/
def execRefclkLoss (s : State) : Out := keepQueue s <| done (assertReset { s with pins := { s.pins with refclkOk := false } })
def execRefclkValid (s : State) : Out := keepQueue s <| done { s with pins := { s.pins with refclkOk := true } }

/-- AON_OSCILLATOR_STABLE. -/
def execAonOscillatorStable (s : State) : Out := keepQueue s <| done { s with pins := { s.pins with oscStable := true } }

/-- AON_POWER_ON_RESET (Table 19.12): every domain, AON included, is reset and the values held in AON are lost. Non-volatile contents
stay; the oscillator must start again; VDD_AON is out of tolerance until it is reported in. -/
def execAonPowerOnReset (s : State) : Out := keepQueue s <|
  let t := packageReset false false s
  done { t with
    pins := { Pins.reset with
      resetNLow := s.pins.resetNLow
      railBad := if s.pins.railBad.contains .vddAon then s.pins.railBad else s.pins.railBad ++ [.vddAon]
      oscStable := false
      refclkOk := s.pins.refclkOk
      pwrfailLow := s.pins.pwrfailLow
      vinLow := s.pins.vinLow }
    pwr := Pwr.reset
    lace := Lace.reset
    pkt := { Pkt.reset with mir0 := s.pkt.mir0, mir1 := s.pkt.mir1, mseq := s.pkt.mseq }
    cloak := Cloak.reset
    dbg := Dbg.reset
    adp := Adp.reset 0
    time := 0 }

/-- The reset cause of the BOOT record (R455): the first, in the order 0, 1, 4, 3, 2, 5, whose event has occurred. For a reset that none
of them caused (a rail or REFCLK alone) the spec gives no code: a free value. -/
def bootCause (p : Pins) (n : Nat) : Nat :=
  if p.evPor then 0 else if p.evWdt then 1 else if p.evThm then 4 else if p.evPf then 3 else if p.evPk3 then 2
  else if p.evRstN then 5 else Config.freeNat n % 256

/-- PACKAGE_RESET_END (R454, R450, R379): with no condition left, the straps are sampled, the BOOT record is the first report, and the
boot sequence starts. -/
def execPackageResetEnd (straps : Straps) (s : State) : Out := keepQueue s <|
  if s.pins.inReset = false ∨ resetHeld s then done s
  else
    let c := bootCause s.pins s.free
    let s1 := { s with
      pins := { s.pins with
        inReset := false
        intReset := none
        evPor := false
        evWdt := false
        evThm := false
        evPf := false
        evPk3 := false
        evRstN := false
        straps := straps }
      lace := { s.lace with staticLow := straps.laceAdr }
      adp := Adp.reset straps.t1sNode
      boot := { s.boot with step := 2 }
      free := s.free + 1 }
    done (report (mkReport 0 0 0x001 false 8 (leBytes 1 c)) s1)

end Sys2Proof.Machine
end

