-- ==== Sys2Proof/Machine/Dispatch.lean ====
section
/-! DEFINITION. One arm per command: each a direct call of its meaning, or rejected by name. -/

namespace Sys2Proof.Machine

def exec (i : Instr) (s : State) : Host.Outcome State Fault Refusal :=
  match i with
  | .registerWrite who r v => Sys2Proof.Machine.execRegisterWrite who r v s
  | .fuseRead blocks waImp => Sys2Proof.Machine.execFuseRead blocks waImp s
  | .cuffTrainStepDone slv lanes => Sys2Proof.Machine.execCuffTrainStepDone slv lanes s
  | .cuffTrainTimeout slv => Sys2Proof.Machine.execCuffTrainTimeout slv s
  | .domcfgLock who v => Sys2Proof.Machine.execDomcfgLock who v s
  | .slvwaLock who slv v => Sys2Proof.Machine.execSlvwaLock who slv v s
  | .issueHandshake c o0 o1 o2 o3 paced errs => Sys2Proof.Machine.execIssueHandshake c o0 o1 o2 o3 paced s errs
  | .branchResolve h target => Sys2Proof.Machine.execBranchResolve h target s
  | .indirectResolve h target => Sys2Proof.Machine.execIndirectResolve h target s
  | .bpcModeWrite h v => Sys2Proof.Machine.execBpcModeWrite h v s
  | .rasflush h => Sys2Proof.Machine.execRasflush h s
  | .itbflush h => Sys2Proof.Machine.execItbflush h s
  | .bpkeyWrite h v => Sys2Proof.Machine.execBpkeyWrite h v s
  | .mtimecmpMatch h => Sys2Proof.Machine.execMtimecmpMatch h s
  | .interruptTake h => Sys2Proof.Machine.execInterruptTake h s
  | .load h kind sz rd va c errs => Sys2Proof.Machine.execLoad h kind sz rd va c errs s
  | .store h kind sz rs2 va c errs => Sys2Proof.Machine.execStore h kind sz rs2 va c errs s
  | .amo h op dbl aqrl rd rs2 va errs => Sys2Proof.Machine.execAmo h op dbl aqrl rd rs2 va s errs
  | .lr h dbl rd va errs => Sys2Proof.Machine.execLr h dbl rd va s errs
  | .sc h dbl rd rs2 va errs => Sys2Proof.Machine.execSc h dbl rd rs2 va s errs
  | .reservationHoldExpire h => Sys2Proof.Machine.execReservationHoldExpire h s
  | .fence h pred succ tso => Sys2Proof.Machine.execFence h pred succ tso s
  | .fenceI h => Sys2Proof.Machine.execFenceI h s
  | .wfi h => Sys2Proof.Machine.execWfi h s
  | .ecall h => Sys2Proof.Machine.execEcall h s
  | .monitorCall h => Sys2Proof.Machine.execMonitorCall h s
  | .secureTrap h t => Sys2Proof.Machine.execSecureTrap h t s
  | .ubxWswitch h => Sys2Proof.Machine.execUbxWswitch h s
  | .cboClean h rs1 => Sys2Proof.Machine.execCboClean h rs1 s
  | .cboInval h rs1 => Sys2Proof.Machine.execCboInval h rs1 s
  | .cboFlush h rs1 => Sys2Proof.Machine.execCboFlush h rs1 s
  | .cboZero h rs1 => Sys2Proof.Machine.execCboZero h rs1 s
  | .prefetch h kind rs1 off errs => Sys2Proof.Machine.execPrefetch h kind rs1 off s errs
  | .ubxCboCleanLv h rs1 rs2 => Sys2Proof.Machine.execUbxCboCleanLv h rs1 rs2 s
  | .ubxCboInvalLv h rs1 rs2 => Sys2Proof.Machine.execUbxCboInvalLv h rs1 rs2 s
  | .ubxCboFlushLv h rs1 rs2 => Sys2Proof.Machine.execUbxCboFlushLv h rs1 rs2 s
  | .ubxCswClean h rs1 => Sys2Proof.Machine.execUbxCswClean h rs1 s
  | .ubxCswInval h rs1 => Sys2Proof.Machine.execUbxCswInval h rs1 s
  | .ubxCswFlush h rs1 => Sys2Proof.Machine.execUbxCswFlush h rs1 s
  | .sfenceVma h rs1 rs2 => Sys2Proof.Machine.execSfenceVma h rs1 rs2 s
  | .hfenceVvma h rs1 rs2 => Sys2Proof.Machine.execHfenceVvma h rs1 rs2 s
  | .hfenceGvma h rs1 rs2 => Sys2Proof.Machine.execHfenceGvma h rs1 rs2 s
  | .blockRegWrite h b v => Sys2Proof.Machine.execBlockRegWrite h b v s
  | .prefetcherIssue c l2 stream line => Sys2Proof.Machine.execPrefetcherIssue c l2 stream line s
  | .hemWrite who v => Sys2Proof.Machine.execHemWrite who v s
  | .hemScanDone => Sys2Proof.Machine.execHemScanDone s
  | .monrdySet who => Sys2Proof.Machine.execMonrdySet who s
  | .cloakVersion h => Sys2Proof.Machine.execCloakVersion h s
  | .cloakProbe h => Sys2Proof.Machine.execCloakProbe h s
  | .attestReport h => Sys2Proof.Machine.execAttestReport h s
  | .aliasPubkey h => Sys2Proof.Machine.execAliasPubkey h s
  | .hemQuery h => Sys2Proof.Machine.execHemQuery h s
  | .claimQuery h => Sys2Proof.Machine.execClaimQuery h s
  | .wdtCtlWrite who v => Sys2Proof.Machine.execWdtCtlWrite who v s
  | .wdtKick who v => Sys2Proof.Machine.execWdtKick who v s
  | .wdtWarn => Sys2Proof.Machine.execWdtWarn s
  | .wdtExpire => Sys2Proof.Machine.execWdtExpire s
  | .wdtDrainDeadline => Sys2Proof.Machine.execWdtDrainDeadline s
  | .claimWrite who v => Sys2Proof.Machine.execClaimWrite who v s
  | .claimBoundExpire b => Sys2Proof.Machine.execClaimBoundExpire b s
  | .scratchWrite who slv v => Sys2Proof.Machine.execScratchWrite who slv v s
  | .scratchStepDone slv => Sys2Proof.Machine.execScratchStepDone slv s
  | .waypdWrite who slv v => Sys2Proof.Machine.execWaypdWrite who slv v s
  | .wayDrainDone slv w => Sys2Proof.Machine.execWayDrainDone slv w s
  | .wayPowerUpDone slv w => Sys2Proof.Machine.execWayPowerUpDone slv w s
  | .mergeEntryIdleDrain b word ue => Sys2Proof.Machine.execMergeEntryIdleDrain b word s ue
  | .rds l fr line => Sys2Proof.Machine.execRds l fr line s
  | .rdc l fr line => Sys2Proof.Machine.execRdc l fr line s
  | .rdo l fr line => Sys2Proof.Machine.execRdo l fr line s
  | .upg l fr line => Sys2Proof.Machine.execUpg l fr line s
  | .rdcur who line errs => Sys2Proof.Machine.execRdcur who line s errs
  | .wrfull who line data poison => Sys2Proof.Machine.execWrfull who line data poison s
  | .wrpart who line mask data poison => Sys2Proof.Machine.execWrpart who line mask data poison s
  | .atomh who op dbl addr v => Sys2Proof.Machine.execAtomh who op dbl addr v s
  | .atomf who op dbl addr v => Sys2Proof.Machine.execAtomf who op dbl addr v s
  | .snpfwds l holder req line errs => Sys2Proof.Machine.execSnpfwds l holder req line s errs
  | .snpfwdo l holder req line errs => Sys2Proof.Machine.execSnpfwdo l holder req line s errs
  | .snpcur holder req line errs => Sys2Proof.Machine.execSnpcur holder req line s errs
  | .snpi l holder line errs => Sys2Proof.Machine.execSnpi l holder line s errs
  | .rspfwdf l fr line => Sys2Proof.Machine.execRspfwdf l fr line s
  | .rspfwdi l fr line => Sys2Proof.Machine.execRspfwdi l fr line s
  | .rspcur fr line => Sys2Proof.Machine.execRspcur fr line s
  | .rspi l fr line => Sys2Proof.Machine.execRspi l fr line s
  | .rspwb l fr line => Sys2Proof.Machine.execRspwb l fr line s
  | .evc l fr line => Sys2Proof.Machine.execEvc l fr line s
  | .cmp l dest line => Sys2Proof.Machine.execCmp l dest line s
  | .wback l dest line => Sys2Proof.Machine.execWback l dest line s
  | .evack l dest line => Sys2Proof.Machine.execEvack l dest line s
  | .data l dest line st data poison => Sys2Proof.Machine.execData l dest line st data poison s
  | .datahome l fr line data poison => Sys2Proof.Machine.execDatahome l fr line data poison s
  | .wbm l fr line data poison => Sys2Proof.Machine.execWbm l fr line data poison s
  | .wbk fr line data poison => Sys2Proof.Machine.execWbk fr line data poison s
  | .wbc slv c line data poison => Sys2Proof.Machine.execWbc slv c line data poison s
  | .sliceTimeout slv line => Sys2Proof.Machine.execSliceTimeout slv line s
  | .haTimeout ha line => Sys2Proof.Machine.execHaTimeout ha line s
  | .failstopScanDone d => Sys2Proof.Machine.execFailstopScanDone d s
  | .domainReset who v => Sys2Proof.Machine.execDomainReset who v s
  | .iowr p data => Sys2Proof.Machine.execIowr p data s
  | .msiWrite addr v => Sys2Proof.Machine.execMsiWrite addr v s
  | .iord p n => Sys2Proof.Machine.execIord p n s
  | .iowrnp p data => Sys2Proof.Machine.execIowrnp p data s
  | .ioatom p op dbl v => Sys2Proof.Machine.execIoatom p op dbl v s
  | .iocpl tag dest status => Sys2Proof.Machine.execIocpl tag dest status s
  | .iocpld tag dest status data => Sys2Proof.Machine.execIocpld tag dest status data s
  | .regulatorGrant pt a => Sys2Proof.Machine.execRegulatorGrant pt a s
  | .cuffDataFlit slv toVest f err ecc => Sys2Proof.Machine.execCuffDataFlit slv toVest f s err ecc
  | .cuffControlFlit slv toVest f err => Sys2Proof.Machine.execCuffControlFlit slv toVest f s err
  | .cuffVersionMsg slv toVest crcOk map sel => Sys2Proof.Machine.execCuffVersionMsg slv toVest crcOk map sel s
  | .cuffRepairMsg slv toVest crcOk nakSeq => Sys2Proof.Machine.execCuffRepairMsg slv toVest crcOk nakSeq s
  | .cuffAckTimeout slv vestSide => Sys2Proof.Machine.execCuffAckTimeout slv vestSide s
  | .repairPauseDone slv lanes => Sys2Proof.Machine.execRepairPauseDone slv lanes s
  | .sleeveSupplyLoss slv => Sys2Proof.Machine.execSleeveSupplyLoss slv s
  | .timebaseCheck slv slip => Sys2Proof.Machine.execTimebaseCheck slv slip s
  | .dramBringupStart dpc => Sys2Proof.Machine.execDramBringupStart dpc s
  | .dramStepDone n spd => Sys2Proof.Machine.execDramStepDone n spd s
  | .dramStepTimeout n why => Sys2Proof.Machine.execDramStepTimeout n why s
  | .dqsOscCheck n drift => Sys2Proof.Machine.execDqsOscCheck n drift s
  | .dramMapLock who v => Sys2Proof.Machine.execDramMapLock who v s
  | .dramRequest n rq => Sys2Proof.Machine.execDramRequest n rq s
  | .dramReadAgeExpire n => Sys2Proof.Machine.execDramReadAgeExpire n s
  | .refsbDue n rank bank => Sys2Proof.Machine.execRefsbDue n rank bank s
  | .dimmTempSample n t => Sys2Proof.Machine.execDimmTempSample n t s
  | .actTableClear => Sys2Proof.Machine.execActTableClear s
  | .patrolScrubRead n err => Sys2Proof.Machine.execPatrolScrubRead n err s
  | .cxlDecCommit who k v => Sys2Proof.Machine.execCxlDecCommit who k v s
  | .cxlDecDecommit who k v => Sys2Proof.Machine.execCxlDecDecommit who k v s
  | .cxlRecallDone => Sys2Proof.Machine.execCxlRecallDone s
  | .cxlMemTimeout p l => Sys2Proof.Machine.execCxlMemTimeout p l s
  | .cxlLinkDown p l => Sys2Proof.Machine.execCxlLinkDown p l s
  | .storEnable who v m => Sys2Proof.Machine.execStorEnable who v m s
  | .recoveryDone => Sys2Proof.Machine.execRecoveryDone s
  | .storDisable who v => Sys2Proof.Machine.execStorDisable who v s
  | .storDisableDone => Sys2Proof.Machine.execStorDisableDone s
  | .sqcEnable who q v => Sys2Proof.Machine.execSqcEnable who q v s
  | .sqcDisable who q v => Sys2Proof.Machine.execSqcDisable who q v s
  | .sqPush who q w => Sys2Proof.Machine.execSqPush who q w s
  | .sqPushend who q w => Sys2Proof.Machine.execSqPushend who q w s
  | .cqPop who q ecc => Sys2Proof.Machine.execCqPop who q ecc s
  | .cqMark who q => Sys2Proof.Machine.execCqMark who q s
  | .cqRewind who q => Sys2Proof.Machine.execCqRewind who q s
  | .cqRelease who q => Sys2Proof.Machine.execCqRelease who q s
  | .queueReset who q => Sys2Proof.Machine.execQueueReset who q s
  | .queueResetDrop who q => Sys2Proof.Machine.execQueueResetDrop who q s
  | .commandAdmit bad ce => Sys2Proof.Machine.execCommandAdmit bad s ce
  | .nop id => Sys2Proof.Machine.execNop id s
  | .read id => Sys2Proof.Machine.execRead id s
  | .write id => Sys2Proof.Machine.execWrite id s
  | .discard id => Sys2Proof.Machine.execDiscard id s
  | .flush id => Sys2Proof.Machine.execFlush id s
  | .commandComplete id fail => Sys2Proof.Machine.execCommandComplete id s fail
  | .flashBringup => Sys2Proof.Machine.execFlashBringup s
  | .flashBringupDone pop => Sys2Proof.Machine.execFlashBringupDone pop s
  | .flashReadDone id decoded => Sys2Proof.Machine.execFlashReadDone id decoded s
  | .flashProgramDone id ok => Sys2Proof.Machine.execFlashProgramDone id ok s
  | .flashEraseDone id ok => Sys2Proof.Machine.execFlashEraseDone id ok s
  | .mergeStart g => Sys2Proof.Machine.execMergeStart g s
  | .mergeMapDurable g => Sys2Proof.Machine.execMergeMapDurable g s
  | .fillIdleExpire g => Sys2Proof.Machine.execFillIdleExpire g s
  | .rwcDecay => Sys2Proof.Machine.execRwcDecay s
  | .dieFail lg pos slot => Sys2Proof.Machine.execDieFail lg pos slot s
  | .ageUpdate => Sys2Proof.Machine.execAgeUpdate s
  | .holdEnergyUpdate vnow => Sys2Proof.Machine.execHoldEnergyUpdate vnow s
  | .holdTestStart who v => Sys2Proof.Machine.execHoldTestStart who v s
  | .holdTestDaily => Sys2Proof.Machine.execHoldTestDaily s
  | .holdTestChargeTimeout => Sys2Proof.Machine.execHoldTestChargeTimeout s
  | .holdTestStepDone uv => Sys2Proof.Machine.execHoldTestStepDone uv s
  | .powerFailDetect src => Sys2Proof.Machine.execPowerFailDetect src s
  | .drainStepDone bad => Sys2Proof.Machine.execDrainStepDone s bad
  | .journalTimeRecord => Sys2Proof.Machine.execJournalTimeRecord s
  | .checkpointStart => Sys2Proof.Machine.execCheckpointStart s
  | .msiCoalesceTimeout q => Sys2Proof.Machine.execMsiCoalesceTimeout q s
  | .beltCharge item ue => Sys2Proof.Machine.execBeltCharge item s ue
  | .beltPeriodBoundary c => Sys2Proof.Machine.execBeltPeriodBoundary c s
  | .actCfgWrite who a v => Sys2Proof.Machine.execActCfgWrite who a v s
  | .tenantReset who v => Sys2Proof.Machine.execTenantReset who v s
  | .plReqWrite who slv v => Sys2Proof.Machine.execPlReqWrite who slv v s
  | .plTransitionDone slv => Sys2Proof.Machine.execPlTransitionDone slv s
  | .powerLimiterTick meas => Sys2Proof.Machine.execPowerLimiterTick meas s
  | .sleepEnter sc => Sys2Proof.Machine.execSleepEnter sc s
  | .sleepEntryDone sc => Sys2Proof.Machine.execSleepEntryDone sc s
  | .knownEventWake sc => Sys2Proof.Machine.execKnownEventWake sc s
  | .wakeSource sc src => Sys2Proof.Machine.execWakeSource sc src s
  | .wakeStepReady sc => Sys2Proof.Machine.execWakeStepReady sc s
  | .powerUp who b => Sys2Proof.Machine.execPowerUp who b s
  | .clockStop who b => Sys2Proof.Machine.execClockStop who b s
  | .powerOff who b => Sys2Proof.Machine.execPowerOff who b s
  | .powerReqDone b => Sys2Proof.Machine.execPowerReqDone b s
  | .pkgoff x => Sys2Proof.Machine.execPkgoff x s
  | .mgmtWakePacket => Sys2Proof.Machine.execMgmtWakePacket s
  | .laceMatch addr => Sys2Proof.Machine.execLaceMatch addr s
  | .laceIndexWrite idx rest => Sys2Proof.Machine.execLaceIndexWrite idx rest s
  | .laceCmdWake => Sys2Proof.Machine.execLaceCmdWake s
  | .laceCmdPk3 => Sys2Proof.Machine.execLaceCmdPk3 s
  | .setdasa st dyn => Sys2Proof.Machine.execSetdasa st dyn s
  | .entdaa dyn => Sys2Proof.Machine.execEntdaa dyn s
  | .rstdaa => Sys2Proof.Machine.execRstdaa s
  | .getpid => Sys2Proof.Machine.execGetpid s
  | .getbcr => Sys2Proof.Machine.execGetbcr s
  | .getdcr => Sys2Proof.Machine.execGetdcr s
  | .getstatus => Sys2Proof.Machine.execGetstatus s
  | .thermalSensorSample readings => Sys2Proof.Machine.execThermalSensorSample readings s
  | .coolantSample tin tout => Sys2Proof.Machine.execCoolantSample tin tout s
  | .flowPulse widthUs => Sys2Proof.Machine.execFlowPulse widthUs s
  | .thermalModelUpdate => Sys2Proof.Machine.execThermalModelUpdate s
  | .hotspotCapTick => Sys2Proof.Machine.execHotspotCapTick s
  | .thermalShutdown sensor => Sys2Proof.Machine.execThermalShutdown sensor s
  | .fdemUpdate => Sys2Proof.Machine.execFdemUpdate s
  | .valveUpdate => Sys2Proof.Machine.execValveUpdate s
  | .flowShortTimeout => Sys2Proof.Machine.execFlowShortTimeout s
  | .noFlowTimeout => Sys2Proof.Machine.execNoFlowTimeout s
  | .duplicateAddressDetection dup => Sys2Proof.Machine.execDuplicateAddressDetection dup s
  | .datagramReceive src bytes => Sys2Proof.Machine.execDatagramReceive src bytes s
  | .reassemblyTimeout => Sys2Proof.Machine.execReassemblyTimeout s
  | .clientHello src body => Sys2Proof.Machine.execClientHello src body s
  | .clientAuth src sid body => Sys2Proof.Machine.execClientAuth src sid body s
  | .handshakeTimeout => Sys2Proof.Machine.execHandshakeTimeout s
  | .authBlockExpire ip => Sys2Proof.Machine.execAuthBlockExpire ip s
  | .sessionClose sid => Sys2Proof.Machine.execSessionClose sid s
  | .sessionIdleTimeout sid => Sys2Proof.Machine.execSessionIdleTimeout sid s
  | .sessionLifetimeExpire sid => Sys2Proof.Machine.execSessionLifetimeExpire sid s
  | .adpRead x e => Sys2Proof.Machine.execAdpRead x e s
  | .adpWrite x e => Sys2Proof.Machine.execAdpWrite x e s
  | .mread x es => Sys2Proof.Machine.execMread x es s
  | .mwrite x es => Sys2Proof.Machine.execMwrite x es s
  | .subscribe x e mode int => Sys2Proof.Machine.execSubscribe x e mode int s
  | .unsubscribe x sub => Sys2Proof.Machine.execUnsubscribe x sub s
  | .notify sub => Sys2Proof.Machine.execNotify sub s
  | .command x e => Sys2Proof.Machine.execCommand x e s
  | .describe x es => Sys2Proof.Machine.execDescribe x es s
  | .mgmtrst x => Sys2Proof.Machine.execMgmtrst x s
  | .mcReloadDone e w => Sys2Proof.Machine.execMcReloadDone e w s
  | .nscreate x nsid nseg lgmask => Sys2Proof.Machine.execNscreate x nsid nseg lgmask s
  | .nsresize x nsid nseg => Sys2Proof.Machine.execNsresize x nsid nseg s
  | .nsdelete x nsid => Sys2Proof.Machine.execNsdelete x nsid s
  | .domrst x mask => Sys2Proof.Machine.execDomrst x mask s
  | .pwrreq x op target => Sys2Proof.Machine.execPwrreq x op target s
  | .holdTest x => Sys2Proof.Machine.execHoldTest x s
  | .tenreset x tid => Sys2Proof.Machine.execTenreset x tid s
  | .share x tid cls pct => Sys2Proof.Machine.execShare x tid cls pct s
  | .packageResetEnd straps => Sys2Proof.Machine.execPackageResetEnd straps s
  | .bootStepDone f => Sys2Proof.Machine.execBootStepDone f s
  | .ownClaim m => Sys2Proof.Machine.execOwnClaim m s
  | .claimWindowClose => Sys2Proof.Machine.execClaimWindowClose s
  | .ownTake m => Sys2Proof.Machine.execOwnTake m s
  | .ownRelease m => Sys2Proof.Machine.execOwnRelease m s
  | .ownAlive m => Sys2Proof.Machine.execOwnAlive m s
  | .presenceTimeout m => Sys2Proof.Machine.execPresenceTimeout m s
  | .holderAbsentTimeout => Sys2Proof.Machine.execHolderAbsentTimeout s
  | .disagreeTimeout => Sys2Proof.Machine.execDisagreeTimeout s
  | .hartrelSet who v => Sys2Proof.Machine.execHartrelSet who v s
  | .aliasKeygenDone => Sys2Proof.Machine.execAliasKeygenDone s
  | .attest x nonce => Sys2Proof.Machine.execAttest x nonce s
  | .svncommit x ty => Sys2Proof.Machine.execSvncommit x ty s
  | .fwwrite x ty slot off data => Sys2Proof.Machine.execFwwrite x ty slot off data s
  | .fwcheck x ty slot f => Sys2Proof.Machine.execFwcheck x ty slot f s
  | .tokrevoke x => Sys2Proof.Machine.execTokrevoke x s
  | .dbgchal x => Sys2Proof.Machine.execDbgchal x s
  | .dbgunlock x tok => Sys2Proof.Machine.execDbgunlock x tok s
  | .handover x => Sys2Proof.Machine.execHandover x s
  | .challengeLapse => Sys2Proof.Machine.execChallengeLapse s
  | .errorReport r => Sys2Proof.Machine.execErrorReport r s
  | .pocketRecordWrite => Sys2Proof.Machine.execPocketRecordWrite s
  | .pocketMsiHoldoffExpire => Sys2Proof.Machine.execPocketMsiHoldoffExpire s
  | .mirrorFlushTimeout => Sys2Proof.Machine.execMirrorFlushTimeout s
  | .pocketClear who => Sys2Proof.Machine.execPocketClear who s
  | .rdptrWrite who v => Sys2Proof.Machine.execRdptrWrite who v s
  | .rddataRead who => Sys2Proof.Machine.execRddataRead who s
  | .pktread x off mx => Sys2Proof.Machine.execPktread x off mx s
  | .mirread x copy unit => Sys2Proof.Machine.execMirread x copy unit s
  | .pktclear x => Sys2Proof.Machine.execPktclear x s
  | .inboundMemWrite rq data ep => Sys2Proof.Machine.execInboundMemWrite rq data ep s
  | .inboundMemRead rq n errs => Sys2Proof.Machine.execInboundMemRead rq n s errs
  | .inboundAtomic rq op v cmp => Sys2Proof.Machine.execInboundAtomic rq op v cmp s
  | .inboundMsi rq v => Sys2Proof.Machine.execInboundMsi rq v s
  | .intxMessage p => Sys2Proof.Machine.execIntxMessage p s
  | .iommuBlockWrite who n r v => Sys2Proof.Machine.execIommuBlockWrite who n r v s
  | .completionTimeout p l => Sys2Proof.Machine.execCompletionTimeout p l s
  | .surpriseLinkDown p l => Sys2Proof.Machine.execSurpriseLinkDown p l s
  | .dpcRelease who p l => Sys2Proof.Machine.execDpcRelease who p l s
  | .tapReset => Sys2Proof.Machine.execTapReset s
  | .idcode => Sys2Proof.Machine.execIdcode s
  | .samplePreload lands shift => Sys2Proof.Machine.execSamplePreload lands shift s
  | .extest lands shift => Sys2Proof.Machine.execExtest lands shift s
  | .dtmcs shift => Sys2Proof.Machine.execDtmcs shift s
  | .dmi shift => Sys2Proof.Machine.execDmi shift s
  | .secchal => Sys2Proof.Machine.execSecchal s
  | .sectoken tok => Sys2Proof.Machine.execSectoken tok s
  | .bist v => Sys2Proof.Machine.execBist v s
  | .bypass tdi => Sys2Proof.Machine.execBypass tdi s
  | .tokenVerifyDone => Sys2Proof.Machine.execTokenVerifyDone s
  | .haltRequest h => Sys2Proof.Machine.execHaltRequest h s
  | .resumeRequest h => Sys2Proof.Machine.execResumeRequest h s
  | .abstractCommand m cmd => Sys2Proof.Machine.execAbstractCommand m cmd s
  | .ndmreset m on => Sys2Proof.Machine.execNdmreset m on s
  | .systemBusAccess m wr => Sys2Proof.Machine.execSystemBusAccess m wr s
  | .triggerFire h t ev => Sys2Proof.Machine.execTriggerFire h t ev s
  | .bistGo who v => Sys2Proof.Machine.execBistGo who v s
  | .bistStepDone slv sigs => Sys2Proof.Machine.execBistStepDone slv sigs s
  | .bistrun x target kind => Sys2Proof.Machine.execBistrun x target kind s
  | .bistdisarm x => Sys2Proof.Machine.execBistdisarm x s
  | .resetNLow => Sys2Proof.Machine.execResetNLow s
  | .railOutOfTolerance r => Sys2Proof.Machine.execRailOutOfTolerance r s
  | .aonPowerOnReset => Sys2Proof.Machine.execAonPowerOnReset s
  | .refclkLoss => Sys2Proof.Machine.execRefclkLoss s
  | .pwrfailRelease src => Sys2Proof.Machine.execPwrfailRelease src s
  | .flashTempSample lg temps => Sys2Proof.Machine.execFlashTempSample lg temps s
  | .xret h sret => Sys2Proof.Machine.execXret h sret s
  | .ebreak h compressed => Sys2Proof.Machine.execEbreak h compressed s
  | .linkUp p l cxl width speed noPoison => Sys2Proof.Machine.execLinkUp p l cxl width speed s noPoison
  | .atsTranslationRequest rq => Sys2Proof.Machine.execAtsTranslationRequest rq s
  | .ptmRequest p => Sys2Proof.Machine.execPtmRequest p s
  | .iommuCommandQueue who tail => Sys2Proof.Machine.execIommuCommandQueue who tail s
  | .neighborSolicitation src target => Sys2Proof.Machine.execNeighborSolicitation src target s
  | .icmpv6EchoRequest src payload => Sys2Proof.Machine.execIcmpv6EchoRequest src payload s
  | .systemBusTimeout m => Sys2Proof.Machine.execSystemBusTimeout m s
  | .resetNHigh => Sys2Proof.Machine.execResetNHigh s
  | .railInTolerance r => Sys2Proof.Machine.execRailInTolerance r s
  | .refclkValid => Sys2Proof.Machine.execRefclkValid s
  | .aonOscillatorStable => Sys2Proof.Machine.execAonOscillatorStable s

end Sys2Proof.Machine
end

