-- ==== Sys2Proof/Machine/Idle.lean ====
section
/-! DEFINITION. What an idle step does (log 3, log 120). -/

namespace Sys2Proof.Machine

/-- Packets and items of withdrawn activities go on (Table 12.9, steps 3 and 5). -/
def passAll (s : State) : State :=
  let s1 : State := { s with fab := { s.fab with passed := [] }, belt := { s.belt with passed := [] } }
  s.belt.passed.foldl runItem (s.fab.passed.foldl runReleased s1)

/-- An idle step: the package timebase advances by one count of 10 ns (R56), the meshes and the Cuffs take one round, and what waited in
the homes and at the Belt goes on. -/
def idle (s : State) : State := { passAll (cohTick (cuffTick (meshTick { s with time := s.time + 1 }))) with pending := s.pending }

end Sys2Proof.Machine
end

