-- ==== Sys2Proof/WellFormed.lean ====
section
/-! DEFINITION. Well-formed commands: the operands are of the kind the interface carries. A list has the length of what it stands for
(thirteen fuse blocks, twelve channels, fifty-six sensors, ...), a compressed load or store is one that exists, and the length of a
device's request is within the limits of Table 17.3. A meaning runs on any other command too: the values that a list lacks are open. -/

namespace Sys2Proof

open Sys2Proof.Machine

def Instr.wellFormed (i : Instr) : Bool :=
  match i with
  | .registerWrite _ _ _ => true
  | .fuseRead blocks waImp => decide (blocks.length = 13 ∧ waImp.length = 12)
  | .cuffTrainStepDone _ _ => true
  | .cuffTrainTimeout _ => true
  | .domcfgLock _ _ => true
  | .slvwaLock _ _ _ => true
  | .issueHandshake _ _ _ _ _ _ _ => true
  | .branchResolve _ _ => true
  | .indirectResolve _ _ => true
  | .bpcModeWrite _ _ => true
  | .rasflush _ => true
  | .itbflush _ => true
  | .bpkeyWrite _ _ => true
  | .mtimecmpMatch _ => true
  | .interruptTake _ => true
  | .load _ kind sz _ _ c _ => !c || loadC kind sz
  | .store _ kind sz _ _ c _ => !c || storeC kind sz
  | .amo _ _ _ _ _ _ _ _ => true
  | .lr _ _ _ _ _ => true
  | .sc _ _ _ _ _ _ => true
  | .reservationHoldExpire _ => true
  | .fence _ _ _ _ => true
  | .fenceI _ => true
  | .wfi _ => true
  | .ecall _ => true
  | .monitorCall _ => true
  | .secureTrap _ _ => true
  | .ubxWswitch _ => true
  | .cboClean _ _ => true
  | .cboInval _ _ => true
  | .cboFlush _ _ => true
  | .cboZero _ _ => true
  | .prefetch _ _ _ _ _ => true
  | .ubxCboCleanLv _ _ _ => true
  | .ubxCboInvalLv _ _ _ => true
  | .ubxCboFlushLv _ _ _ => true
  | .ubxCswClean _ _ => true
  | .ubxCswInval _ _ => true
  | .ubxCswFlush _ _ => true
  | .sfenceVma _ _ _ => true
  | .hfenceVvma _ _ _ => true
  | .hfenceGvma _ _ _ => true
  | .blockRegWrite _ _ _ => true
  | .prefetcherIssue _ _ _ _ => true
  | .hemWrite _ _ => true
  | .hemScanDone => true
  | .monrdySet _ => true
  | .cloakVersion _ => true
  | .cloakProbe _ => true
  | .attestReport _ => true
  | .aliasPubkey _ => true
  | .hemQuery _ => true
  | .claimQuery _ => true
  | .wdtCtlWrite _ _ => true
  | .wdtKick _ _ => true
  | .wdtWarn => true
  | .wdtExpire => true
  | .wdtDrainDeadline => true
  | .claimWrite _ _ => true
  | .claimBoundExpire _ => true
  | .scratchWrite _ _ _ => true
  | .scratchStepDone _ => true
  | .waypdWrite _ _ _ => true
  | .wayDrainDone _ _ => true
  | .wayPowerUpDone _ _ => true
  | .mergeEntryIdleDrain _ _ _ => true
  | .rds _ _ _ => true
  | .rdc _ _ _ => true
  | .rdo _ _ _ => true
  | .upg _ _ _ => true
  | .rdcur _ _ _ => true
  | .wrfull _ _ _ _ => true
  | .wrpart _ _ _ _ _ => true
  | .atomh _ _ _ _ _ => true
  | .atomf _ _ _ _ _ => true
  | .snpfwds _ _ _ _ _ => true
  | .snpfwdo _ _ _ _ _ => true
  | .snpcur _ _ _ _ => true
  | .snpi _ _ _ _ => true
  | .rspfwdf _ _ _ => true
  | .rspfwdi _ _ _ => true
  | .rspcur _ _ => true
  | .rspi _ _ _ => true
  | .rspwb _ _ _ => true
  | .evc _ _ _ => true
  | .cmp _ _ _ => true
  | .wback _ _ _ => true
  | .evack _ _ _ => true
  | .data _ _ _ _ _ _ => true
  | .datahome _ _ _ _ _ => true
  | .wbm _ _ _ _ _ => true
  | .wbk _ _ _ _ => true
  | .wbc _ _ _ _ _ => true
  | .sliceTimeout _ _ => true
  | .haTimeout _ _ => true
  | .failstopScanDone _ => true
  | .domainReset _ _ => true
  | .iowr _ _ => true
  | .msiWrite _ _ => true
  | .iord _ _ => true
  | .iowrnp _ _ => true
  | .ioatom _ _ _ _ => true
  | .iocpl _ _ _ => true
  | .iocpld _ _ _ _ => true
  | .regulatorGrant _ _ => true
  | .cuffDataFlit _ _ _ _ _ => true
  | .cuffControlFlit _ _ _ _ => true
  | .cuffVersionMsg _ _ _ _ _ => true
  | .cuffRepairMsg _ _ _ _ => true
  | .cuffAckTimeout _ _ => true
  | .repairPauseDone _ _ => true
  | .sleeveSupplyLoss _ => true
  | .timebaseCheck _ _ => true
  | .dramBringupStart dpc => decide (dpc.length = 12)
  | .dramStepDone _ _ => true
  | .dramStepTimeout _ _ => true
  | .dqsOscCheck _ _ => true
  | .dramMapLock _ _ => true
  | .dramRequest _ _ => true
  | .dramReadAgeExpire _ => true
  | .refsbDue _ _ _ => true
  | .dimmTempSample _ _ => true
  | .actTableClear => true
  | .patrolScrubRead _ _ => true
  | .cxlDecCommit _ _ _ => true
  | .cxlDecDecommit _ _ _ => true
  | .cxlRecallDone => true
  | .cxlMemTimeout _ _ => true
  | .cxlLinkDown _ _ => true
  | .storEnable _ _ _ => true
  | .recoveryDone => true
  | .storDisable _ _ => true
  | .storDisableDone => true
  | .sqcEnable _ _ _ => true
  | .sqcDisable _ _ _ => true
  | .sqPush _ _ _ => true
  | .sqPushend _ _ _ => true
  | .cqPop _ _ _ => true
  | .cqMark _ _ => true
  | .cqRewind _ _ => true
  | .cqRelease _ _ => true
  | .queueReset _ _ => true
  | .queueResetDrop _ _ => true
  | .commandAdmit _ _ => true
  | .nop _ => true
  | .read _ => true
  | .write _ => true
  | .discard _ => true
  | .flush _ => true
  | .commandComplete _ _ => true
  | .flashBringup => true
  | .flashBringupDone pop => decide (pop.length = 8)
  | .flashReadDone _ _ => true
  | .flashProgramDone _ _ => true
  | .flashEraseDone _ _ => true
  | .mergeStart _ => true
  | .mergeMapDurable _ => true
  | .fillIdleExpire _ => true
  | .rwcDecay => true
  | .dieFail _ _ _ => true
  | .ageUpdate => true
  | .holdEnergyUpdate _ => true
  | .holdTestStart _ _ => true
  | .holdTestDaily => true
  | .holdTestChargeTimeout => true
  | .holdTestStepDone _ => true
  | .powerFailDetect _ => true
  | .drainStepDone _ => true
  | .journalTimeRecord => true
  | .checkpointStart => true
  | .msiCoalesceTimeout _ => true
  | .beltCharge _ _ => true
  | .beltPeriodBoundary _ => true
  | .actCfgWrite _ _ _ => true
  | .tenantReset _ _ => true
  | .plReqWrite _ _ _ => true
  | .plTransitionDone _ => true
  | .powerLimiterTick _ => true
  | .sleepEnter _ => true
  | .sleepEntryDone _ => true
  | .knownEventWake _ => true
  | .wakeSource _ _ => true
  | .wakeStepReady _ => true
  | .powerUp _ _ => true
  | .clockStop _ _ => true
  | .powerOff _ _ => true
  | .powerReqDone _ => true
  | .pkgoff _ => true
  | .mgmtWakePacket => true
  | .laceMatch _ => true
  | .laceIndexWrite _ _ => true
  | .laceCmdWake => true
  | .laceCmdPk3 => true
  | .setdasa _ _ => true
  | .entdaa _ => true
  | .rstdaa => true
  | .getpid => true
  | .getbcr => true
  | .getdcr => true
  | .getstatus => true
  | .thermalSensorSample readings => decide (readings.length = 56)
  | .coolantSample _ _ => true
  | .flowPulse _ => true
  | .thermalModelUpdate => true
  | .hotspotCapTick => true
  | .thermalShutdown _ => true
  | .fdemUpdate => true
  | .valveUpdate => true
  | .flowShortTimeout => true
  | .noFlowTimeout => true
  | .duplicateAddressDetection _ => true
  | .datagramReceive _ _ => true
  | .reassemblyTimeout => true
  | .clientHello _ _ => true
  | .clientAuth _ _ _ => true
  | .handshakeTimeout => true
  | .authBlockExpire _ => true
  | .sessionClose _ => true
  | .sessionIdleTimeout _ => true
  | .sessionLifetimeExpire _ => true
  | .adpRead _ _ => true
  | .adpWrite _ _ => true
  | .mread _ _ => true
  | .mwrite _ _ => true
  | .subscribe _ _ _ _ => true
  | .unsubscribe _ _ => true
  | .notify _ => true
  | .command _ _ => true
  | .describe _ _ => true
  | .mgmtrst _ => true
  | .mcReloadDone _ _ => true
  | .nscreate _ _ _ _ => true
  | .nsresize _ _ _ => true
  | .nsdelete _ _ => true
  | .domrst _ _ => true
  | .pwrreq _ _ _ => true
  | .holdTest _ => true
  | .tenreset _ _ => true
  | .share _ _ _ _ => true
  | .packageResetEnd _ => true
  | .bootStepDone _ => true
  | .ownClaim _ => true
  | .claimWindowClose => true
  | .ownTake _ => true
  | .ownRelease _ => true
  | .ownAlive _ => true
  | .presenceTimeout _ => true
  | .holderAbsentTimeout => true
  | .disagreeTimeout => true
  | .hartrelSet _ _ => true
  | .aliasKeygenDone => true
  | .attest _ _ => true
  | .svncommit _ _ => true
  | .fwwrite _ _ _ _ _ => true
  | .fwcheck _ _ _ _ => true
  | .tokrevoke _ => true
  | .dbgchal _ => true
  | .dbgunlock _ _ => true
  | .handover _ => true
  | .challengeLapse => true
  | .errorReport _ => true
  | .pocketRecordWrite => true
  | .pocketMsiHoldoffExpire => true
  | .mirrorFlushTimeout => true
  | .pocketClear _ => true
  | .rdptrWrite _ _ => true
  | .rddataRead _ => true
  | .pktread _ _ _ => true
  | .mirread _ _ _ => true
  | .pktclear _ => true
  | .inboundMemWrite rq bs _ => devLenOk rq bs.length 512
  | .inboundMemRead rq n _ => devLenOk rq n 4096
  | .inboundAtomic _ _ _ _ => true
  | .inboundMsi _ _ => true
  | .intxMessage _ => true
  | .iommuBlockWrite _ _ _ _ => true
  | .completionTimeout _ _ => true
  | .surpriseLinkDown _ _ => true
  | .dpcRelease _ _ _ => true
  | .tapReset => true
  | .idcode => true
  | .samplePreload _ _ => true
  | .extest _ _ => true
  | .dtmcs _ => true
  | .dmi _ => true
  | .secchal => true
  | .sectoken tok => decide (tok.length = 3136)
  | .bist _ => true
  | .bypass _ => true
  | .tokenVerifyDone => true
  | .haltRequest _ => true
  | .resumeRequest _ => true
  | .abstractCommand _ _ => true
  | .ndmreset _ _ => true
  | .systemBusAccess _ _ => true
  | .triggerFire _ _ _ => true
  | .bistGo _ _ => true
  | .bistStepDone _ sigs => decide (sigs.length = 78)
  | .bistrun _ _ _ => true
  | .bistdisarm _ => true
  | .resetNLow => true
  | .railOutOfTolerance _ => true
  | .aonPowerOnReset => true
  | .refclkLoss => true
  | .pwrfailRelease _ => true
  | .flashTempSample _ temps => decide (temps.length = 16)
  | .xret _ _ => true
  | .ebreak _ _ => true
  | .linkUp _ _ _ _ _ _ => true
  | .atsTranslationRequest _ => true
  | .ptmRequest _ => true
  | .iommuCommandQueue _ _ => true
  | .neighborSolicitation _ _ => true
  | .icmpv6EchoRequest _ _ => true
  | .systemBusTimeout _ => true
  | .resetNHigh => true
  | .railInTolerance _ => true
  | .refclkValid => true
  | .aonOscillatorStable => true

end Sys2Proof
end

