-- ==== Sys2Proof/Safety.lean ====
section
/-! DEFINITION. What counts as a safe state of the block, in the terms that statements use. -/

namespace Sys2Proof

open Sys2Proof.Machine

/-- Every command that waits is well-formed. -/
def queueOk (s : State) : Bool := s.pending.all Instr.wellFormed

/-- An outcome is a next state. -/
def answersNext (o : Host.Outcome State Fault Refusal) : Prop := ∃ t, o = .next t

/-- A hart issues its own instructions, with no prediction outstanding, nothing issued that waits, and single-stepping off (R39, R49,
R433). -/
def hartIssues (s : State) (h : Nat) : Bool :=
  hartRuns s h && !(s.hart h).prog && (s.hart h).indir.isNone && (s.hart h).rest == [] && !bit ((s.hart h).c 0x7B0) 2

/-- The counts that a handshake of a core makes for its four harts: `rdy` says which of them offer (R38, R39). -/
def handshakeCounts (p : Bool) (c : CoreId) (rdy : Nat → Bool) (s : State) : State :=
  (upto 4).foldl (fun a t => countHandshake p (4 * c + t) (rdy t) a) s

/-- The keys of a table rise strictly: the form in which a hart holds its CSRs and registers. -/
def tabRising {α : Type} : Tab α → Bool
  | [] => true
  | e :: r => tabAbove e.1 r

/-- The code of a caching agent's request (Table 7.5). -/
def reqCode : ReqKind → Nat
  | .rds => 1 | .rdc => 2 | .rdo => 3 | _ => 4

/-- No request queues at the homes, and no transaction for a line is active at a level. -/
def lineIdle (l : Level) (n : Nat) (s : State) : Prop := s.coh.queue = [] ∧ txnOf s l n = none

/-- What a dictionary command leaves when it ends at `t` with a status and a result: its response sent and kept, and the answer. -/
def cmdAnswered (x : DictCtx) (index : BitVec 16) (sub : BitVec 8) (st : Nat) (v : List Byte) (t : State) : State :=
  { respond x [entryBytes index sub false st v] t with answer := .status st v }

/-- What a dictionary command leaves that starts at `t` and ends later: it is remembered for CMD_DONE, and answered PENDING. -/
def cmdPended (x : DictCtx) (index : BitVec 16) (sub : BitVec 8) (t : State) : State :=
  cmdAnswered x index sub stPending [] { t with adp := { t.adp with pend := t.adp.pend ++ [⟨x.sid, x.reqid, index, sub⟩] } }

/-- The Pocket's ingress queue keeps its bounds (R405, R407): at most 48 shared entries, and at most one reserved entry of a class. -/
def ingressOk (p : Pkt) : Prop :=
  (p.queue.filter fun e => !e.rsvd).length ≤ 48 ∧
  ∀ k : Nat, (p.queue.filter fun e => e.rsvd && srcCls e.rpt == k).length ≤ 1

end Sys2Proof
end

