-- ==== Sys2Proof/Certificates/Slice0/Obligations.lean ====
section
/-! DEFINITION. The statements about the block, for the provers: general ones first, then one for each family of commands. A family
statement says, for each of its commands, the hypotheses on the state and the operands under which the command has its own effect, and
the next state it then answers; what the next state does not name is unchanged. -/

open Sys2Proof Sys2Proof.Machine

/-- A step runs the command at the front of the queue. For every command c, queue rest and state s: a step of s with c in
front of rest is exec of c on s with the queue rest. On an empty queue the step is the idle step, which leaves the queue
empty; where no packet is in a mesh, no Cuff is trained, no request or snoop waits at a home and no item of the Belt or the
regulators is to go on, it advances the timebase by one count and changes nothing else (the model's choice: logs 3 and 120).
(R56, 01_package_topology.md) -/
def Obligations.StepRunsTheFrontCommand : Prop :=
  (∀ (c : Instr) (rest : List Instr) (s : State),
    step { s with pending := c :: rest } = exec c { s with pending := rest }) ∧
  (∀ s : State, s.pending = [] → step s = .next (idle s) ∧ (idle s).pending = []) ∧
  (∀ s : State, s.pending = [] → s.fab.mesh.flights = [] → s.fab.passed = [] → s.belt.passed = [] →
    (∀ k, k < 12 → bandUp s k = false) → s.coh.queue = [] → s.coh.late = [] → s.coh.txns = [] →
    step s = .next { s with time := s.time + 1 })

/-- Every command answers a next state, and keeps the queue. For every command, well-formed or not, and every state: the
command answers a next state (it neither faults nor is refused), and that state has the queue the command was given: a
command's effect is on everything but the queue. (R6, R8, INDEX.md) -/
def Obligations.WellFormedCommandsAnswer : Prop :=
  (∀ (c : Instr) (s : State), answersNext (exec c s)) ∧
  (∀ (c : Instr) (s : State) (r : Refusal), exec c s ≠ .refused r) ∧
  (∀ (c : Instr) (s t : State), exec c s = .next t → t.pending = s.pending)

/-- From a state whose waiting commands are well-formed every step goes on, to such a state. For every state whose waiting
commands are all well-formed, the step answers a next state (it neither faults nor refuses), and the commands that wait in
that state are well-formed: exactly the rest of the queue. (R6, R8, INDEX.md) -/
def Obligations.StepKeepsTheQueueWellFormed : Prop :=
  ∀ s : State, queueOk s = true → ∃ t, step s = .next t ∧ t.pending = s.pending.tail ∧ queueOk t = true

/-- The state after reset meets the invariant, with package reset asserted. After reset no command waits, so every waiting
command is well-formed; package reset is asserted and none of its conditions holds, so a PACKAGE_RESET_END ends it (the
model's choice of starting point: the notes name the log entry). (R454, 19_pins_and_electrical.md) -/
def Obligations.ResetHasAnEmptyReadyQueue : Prop :=
  State.reset.pending = [] ∧ queueOk State.reset = true ∧ State.reset.pins.inReset = true ∧ resetHeld State.reset = false

/-- The sparse tables that hold registers and memory are canonical, and read what was last written. For every table in
canonical form (keys strictly rising, no entry equal to the default) and every key and value: a write keeps the form; the key
written reads as the value; every other key reads as before. Two tables in canonical form that read the same at every key are
equal data. (R5, R6, 05_cache_hierarchy.md, 08_memory_controllers.md) -/
def Obligations.SparseTablesAreCanonicalMemories : Prop :=
  (∀ (t : Tab Word) (d : Word) (k : Nat) (v : Word), tabWf d t = true →
    tabWf d (tabSet t d k v) = true ∧ tabGet (tabSet t d k v) d k = v ∧
      ∀ j, j ≠ k → tabGet (tabSet t d k v) d j = tabGet t d j) ∧
  (∀ (t : Tab LineData) (d : LineData) (k : Nat) (v : LineData), tabWf d t = true →
    tabWf d (tabSet t d k v) = true ∧ tabGet (tabSet t d k v) d k = v ∧
      ∀ j, j ≠ k → tabGet (tabSet t d k v) d j = tabGet t d j) ∧
  (∀ (t u : Tab LineData) (d : LineData), tabWf d t = true → tabWf d u = true →
    (∀ k, tabGet t d k = tabGet u d k) → t = u)

/-- The pins that hold package reset: what each event on them does. RESET_N low and high, REFCLK loss and return, a stable AON
oscillator, a rail back in tolerance or out of it, and the release of a power-failure input each set or clear their own
condition. A condition that begins outside package reset resets the package, except that a running drain completes first where
Table 19.12 says so. Everything not named is unchanged. A fall of VDD_AON resets the AON domain as well. It says where these
complete with their own effect: resetNLow, resetNHigh, railOutOfTolerance, railInTolerance, refclkLoss, refclkValid,
aonOscillatorStable, pwrfailRelease, aonPowerOnReset. (R454, R465, R457, 19_pins_and_electrical.md) -/
def Obligations.PackageResetConditions : Prop :=
  (∀ s : State, s.pls.step ≠ 0 → exec .resetNLow s = .next { s with pins := { s.pins with resetNLow := true, evRstN := true } }) ∧
  (∀ s : State, s.pls.step = 0 → s.pins.inReset = true →
    exec .resetNLow s = .next { s with pins := { s.pins with resetNLow := true, evRstN := true } }) ∧
  (∀ s : State, s.pls.step = 0 → s.pins.inReset = false → ∃ t, exec .resetNLow s = .next t ∧
    t.pins = { s.pins with resetNLow := true, evRstN := true, inReset := true } ∧
    t.harts = [] ∧ t.dram = Dram.reset ∧ t.stor = Stor.reset ∧ t.own = Own.reset ∧
    t.pkt.retained = s.pkt.retained ∧ t.ftl.media = s.ftl.media ∧ t.boot.flash = s.boot.flash ∧ t.time = s.time) ∧
  (∀ s : State, exec .resetNHigh s = .next { s with pins := { s.pins with resetNLow := false } }) ∧
  (∀ (s : State) (r : Rail), s.pins.inReset = true → r ∉ s.pins.railBad →
    exec (.railOutOfTolerance r) s = .next { s with pins := { s.pins with railBad := s.pins.railBad ++ [r] } }) ∧
  (∀ (s : State) (k : SleeveId), .vinSlv k ∉ s.pins.railBad →
    exec (.railOutOfTolerance (.vinSlv k)) s = .next { s with pins := { s.pins with railBad := s.pins.railBad ++ [.vinSlv k] } }) ∧
  (∀ (s : State) (r : Rail), exec (.railInTolerance r) s =
    .next { s with pins := { s.pins with railBad := s.pins.railBad.filter fun q => q ≠ r } }) ∧
  (∀ s : State, s.pins.inReset = false → ∃ t, exec .refclkLoss s = .next t ∧
    t.pins = { s.pins with refclkOk := false, inReset := true } ∧ resetHeld t = true ∧ t.harts = [] ∧ t.ftl.media = s.ftl.media) ∧
  (∀ s : State, s.pins.inReset = true → exec .refclkLoss s = .next { s with pins := { s.pins with refclkOk := false } }) ∧
  (∀ s : State, exec .refclkValid s = .next { s with pins := { s.pins with refclkOk := true } }) ∧
  (∀ s : State, exec .aonOscillatorStable s = .next { s with pins := { s.pins with oscStable := true } }) ∧
  (∀ s : State, exec (.pwrfailRelease .vinSns) s = .next { s with pins := { s.pins with vinLow := false } }) ∧
  (∀ s : State, s.pwr.pk3 = false →
    exec (.pwrfailRelease .pwrfailN) s = .next { s with pins := { s.pins with pwrfailLow := false } }) ∧
  (∀ s : State, ∃ t, exec .aonPowerOnReset s = .next t ∧ t.pins.inReset = true ∧ t.pins.evPor = true ∧ t.pins.oscStable = false ∧
    t.pkt.retained = none ∧ t.pwr = Pwr.reset ∧ t.lace = Lace.reset ∧ t.dbg = Dbg.reset ∧ t.time = 0 ∧
    t.pkt.mir0 = s.pkt.mir0 ∧ t.pkt.mir1 = s.pkt.mir1 ∧ t.ftl.media = s.ftl.media ∧ t.boot.flash = s.boot.flash ∧ t.boot.svn = s.boot.svn)

/-- The reset cause in the BOOT record is the first event in the order 0, 1, 4, 3, 2, 5. With package reset asserted and no
condition holding it, PACKAGE_RESET_END ends it: it samples the straps, starts the boot sequence and reports a BOOT record
whose cause is the first of the codes 0 (AON power-on reset), 1 (watchdog), 4 (thermal shutdown), 3 (power-fail drain), 2
(exit from PK3), 5 (RESET_N low), in that order, whose event has occurred; the events are then forgotten. It says where these
complete with their own effect: packageResetEnd. (R455) -/
def Obligations.ResetCauseIsTheFirstEvent : Prop :=
  ∀ (s : State) (straps : Straps) (c : Nat) (b : Bool), s.pins.inReset = true → resetHeld s = false →
    [(0, s.pins.evPor), (1, s.pins.evWdt), (4, s.pins.evThm), (3, s.pins.evPf), (2, s.pins.evPk3), (5, s.pins.evRstN)].find? (·.2)
      = some (c, b) →
    exec (.packageResetEnd straps) s = .next { s with
      pins := { s.pins with inReset := false, intReset := none, evPor := false, evWdt := false, evThm := false, evPf := false,
                            evPk3 := false, evRstN := false, straps := straps }
      lace := { s.lace with staticLow := straps.laceAdr }
      adp := Adp.reset straps.t1sNode
      boot := { s.boot with step := 2 }
      free := s.free + 1
      pkt := pktIngress (mkReport 0 0 0x001 false 8 [BitVec.ofNat 8 c]) s.time s.pkt }

/-- Writes to VEST.DOMCFG and VEST.SLVWA, and their locks. Writes of an agent that can send them: a hart only while it issues
instructions. A write to VEST.DOMCFG without LOCK sets DOM; with LOCK it is validated (Table 1.13): the first condition that
fails becomes CFGERR, otherwise the domains are locked, CFGERR clears, DOM is the written value and the coherence timeouts
take force. Once locked no write has effect. A write to VEST.SLVWA sets the implemented workaround bits, and LOCK freezes the
register. None of the writes touches the identity blocks, the EXCL codes, the fabric or the Pocket. It says where these
complete with their own effect: domcfgLock, slvwaLock. (R26, R34, R364, 01_package_topology.md) -/
def Obligations.DomainAndWorkaroundLocks : Prop :=
  (∀ (s : State) (a : Agent) (v : Word), agentRuns s a = true → s.pkg.domLock = true → exec (.domcfgLock a v) s = .next s) ∧
  (∀ (s : State) (a : Agent) (v : Word), agentRuns s a = true → s.pkg.domLock = false → bit v 63 = false →
    exec (.domcfgLock a v) s = .next { s with pkg := { s.pkg with dom := fld v 0 24 } }) ∧
  (∀ (s : State) (a : Agent) (v : Word), agentRuns s a = true → s.pkg.domLock = false → bit v 63 = true → domValidate s (fld v 0 24) ≠ 0 →
    exec (.domcfgLock a v) s = .next { s with pkg := { s.pkg with cfgErr := BitVec.ofNat 3 (domValidate s (fld v 0 24)) } }) ∧
  (∀ (s : State) (a : Agent) (v : Word), agentRuns s a = true → s.pkg.domLock = false → bit v 63 = true → domValidate s (fld v 0 24) = 0 →
    ∃ t, exec (.domcfgLock a v) s = .next t ∧ t.pkg.domLock = true ∧ t.pkg.cfgErr = 0 ∧ t.pkg.dom = fld v 0 24 ∧
      t.coh.haTmoF = s.coh.haTmo ∧ t.coh.slTmoF = s.coh.slTmo ∧
      t.pkg.dieFuse = s.pkg.dieFuse ∧ t.pkg.excl = s.pkg.excl ∧ t.fab = s.fab ∧ t.pkt = s.pkt ∧ t.pins = s.pins) ∧
  (∀ (s : State) (a : Agent) (k : SleeveId) (v : Word), agentRuns s a = true → s.pkg.waLock.getLsbD k = true → exec (.slvwaLock a k v) s = .next s) ∧
  (∀ (s : State) (a : Agent) (k : SleeveId) (v : Word), agentRuns s a = true → s.pkg.waLock.getLsbD k = false →
    ∃ t, exec (.slvwaLock a k v) s = .next t ∧
      t.pkg.wa = tabSet s.pkg.wa 0 k (fld v 0 63 &&& tabGet s.pkg.waImp 0 k) ∧ t.pkg.waLock = setBit s.pkg.waLock k (bit v 63) ∧
      t.pkg.dom = s.pkg.dom ∧ t.pkg.excl = s.pkg.excl ∧ t.fab = s.fab ∧ t.pkt = s.pkt ∧ t.pins = s.pins)

/-- The fuse read stores the identity blocks and makes checks 1 to 4 for every Sleeve. The first FUSE_READ, with a good Vest
block, stores the thirteen blocks as read (a Sleeve whose supply is out of tolerance reads all ones). A Sleeve that fails one
of checks 1 to 4 is excluded with the code of the first check that fails; a Sleeve that passes all four keeps its EXCL code
and its Cuff starts training at step 2, attempt 1. With a bad Vest block nothing but that block is stored, and no Sleeve is
decided. It says where these complete with their own effect: fuseRead. (R17, R18, R19, R20, R457, 01_package_topology.md) -/
def Obligations.FuseReadAndAdmission : Prop :=
  (∀ (s : State) (blocks : List (BitVec 256)) (waImp : List (BitVec 63)), blocks.length = 13 → waImp.length = 12 →
    s.pkg.fuseRead = false → vestFuseOk (blocks.getD 12 0) = false →
    exec (.fuseRead blocks waImp) s = .next { s with
      pkg := { s.pkg with dieFuse := tabSet [] 0 12 (blocks.getD 12 0), fuseRead := true, vestBad := true } }) ∧
  (∀ (s : State) (blocks : List (BitVec 256)) (waImp : List (BitVec 63)), blocks.length = 13 → waImp.length = 12 →
    s.pkg.fuseRead = false → vestFuseOk (blocks.getD 12 0) = true →
    ∃ t, exec (.fuseRead blocks waImp) s = .next t ∧ t.pkg.fuseRead = true ∧ fuseOf t 12 = blocks.getD 12 0 ∧
      ∀ k : SleeveId, fuseOf t k = blockRead s k (blocks.getD k 0) ∧
        (admissionCheck (blocks.getD 12 0) (blockRead s k (blocks.getD k 0)) k ≠ 0 →
          exclOf t k = BitVec.ofNat 4 (admissionCheck (blocks.getD 12 0) (blockRead s k (blocks.getD k 0)) k)) ∧
        (admissionCheck (blocks.getD 12 0) (blockRead s k (blocks.getD k 0)) k = 0 →
          exclOf t k = exclOf s k ∧ (t.cuff k).state = 1 ∧ (t.cuff k).step = 2 ∧ (t.cuff k).attempt = 1))

/-- Cuff training, lane repair, loss and the timebase check. A training step that completes starts the next one; step 5 keeps
the modules whose lanes work and remaps at most four lanes each, step 7 records the version map. A step that overruns its
bound ends the attempt: the next attempt starts at step 2 up to the third; after it a Sleeve being admitted is excluded with
cause 5, and a retraining link is lost. A repair pause ends with the lanes remapped and both ends replaying, or, with no
usable module, in a retrain from step 3 (the model's choice: log 119). Loss of a present Sleeve's supply takes the main band
down with fail-stop cause 6. The timebase check reloads a copy that differs by more than one count and reports it; what the
harts read never goes back (R56). Only the named Cuff's fields change where the next state is written out. It says where these
complete with their own effect: cuffTrainStepDone, cuffTrainTimeout, repairPauseDone, sleeveSupplyLoss, timebaseCheck. (R172,
R173, R177, R178, R179, R180, R185, 07_fabric_and_cuffs.md) -/
def Obligations.CuffTraining : Prop :=
  (∀ (s : State) (k : SleeveId) (l : LaneFails), (s.cuff k).step ∉ [0, 5, 7, 8] →
    exec (.cuffTrainStepDone k l) s = .next (s.setCuff k { s.cuff k with step := (s.cuff k).step + 1 })) ∧
  (∀ (s : State) (k : SleeveId) (l : LaneFails), (s.cuff k).step = 5 → (laneRepair s l).1 ≠ 0 →
    exec (.cuffTrainStepDone k l) s =
      .next (s.setCuff k { s.cuff k with mods := (laneRepair s l).1, repaired := (laneRepair s l).2, step := 6 })) ∧
  (∀ (s : State) (k : SleeveId) (l : LaneFails), (s.cuff k).step = 7 →
    versionSel (fuseVmap (fuseOf s 12)) (fuseVmap (fuseOf s k)) ≠ 0 →
    exec (.cuffTrainStepDone k l) s = .next (s.setCuff k { s.cuff k with vermap := fuseVmap (fuseOf s k), step := 8 })) ∧
  (∀ (s : State) (k : SleeveId), (s.cuff k).step ≠ 0 → (s.cuff k).attempt < 3 →
    exec (.cuffTrainTimeout k) s = .next ((s.setCuff k { s.cuff k with
      state := if (s.cuff k).isRetrain then 4 else 1, step := 2, attempt := (s.cuff k).attempt + 1, phyOn := true, lpow := 0
      ackTmoF := (s.cuff k).ackTmo, retryLimF := (s.cuff k).retryLim }).modCuff k fun x => { x with state := (s.cuff k).state })) ∧
  (∀ (s : State) (k : SleeveId), (s.cuff k).step ≠ 0 → 3 ≤ (s.cuff k).attempt → (s.cuff k).isRetrain = false →
    exec (.cuffTrainTimeout k) s = .next { exclude k 5 s with pending := s.pending }) ∧
  (∀ (s : State) (k : SleeveId), (s.cuff k).step ≠ 0 → 3 ≤ (s.cuff k).attempt → (s.cuff k).isRetrain = true →
    exec (.cuffTrainTimeout k) s = .next { cuffLost k s with pending := s.pending }) ∧
  (∀ (s : State) (k : SleeveId) (l : LaneFails), (s.cuff k).state = 3 → (laneRepair s l).1 ≠ 0 →
    exec (.repairPauseDone k l) s = .next (s.setCuff k { resumeEnds
      { s.cuff k with mods := (laneRepair s l).1, repaired := (laneRepair s l).2 } with state := 2 })) ∧
  (∀ (s : State) (k : SleeveId) (l : LaneFails), (s.cuff k).state = 3 → (laneRepair s l).1 = 0 →
    exec (.repairPauseDone k l) s = .next { reportCuff k 1 0 (trainStart k 3 1 true (s.setCuff k
      { s.cuff k with mods := 0, repaired := (laneRepair s l).2, retrain := satInc (s.cuff k).retrain })) with pending := s.pending }) ∧
  (∀ (s : State) (k : SleeveId) (l : LaneFails), (s.cuff k).state ≠ 3 → exec (.repairPauseDone k l) s = .next s) ∧
  (∀ (s : State) (k : SleeveId), slvPresent s k = true →
    exec (.sleeveSupplyLoss k) s = .next { failStopSleeve k 6 (0x50 + k) none
      { s.setCuff k { s.cuff k with state := 5, step := 0 } with
        pkg := { s.pkg with cuffUp := setBit s.pkg.cuffUp k false, cuffVer := tabSet s.pkg.cuffVer 0 k 0 } } with pending := s.pending }) ∧
  (∀ (s : State) (k : SleeveId) (slip : Int), slvPresent s k = true → -1 ≤ (s.cuff k).tbOff + slip → (s.cuff k).tbOff + slip ≤ 1 →
    exec (.timebaseCheck k slip) s = .next (s.setCuff k { s.cuff k with
      tbOff := (s.cuff k).tbOff + slip, tbMin := max (s.cuff k).tbMin (s.time + (s.cuff k).tbOff) })) ∧
  (∀ (s : State) (k : SleeveId) (slip : Int), slvPresent s k = true →
    ((s.cuff k).tbOff + slip < -1 ∨ 1 < (s.cuff k).tbOff + slip) →
    exec (.timebaseCheck k slip) s = .next (reportCuff k 2 0 (s.setCuff k (loadTime s.time
      { s.cuff k with tbMin := max (s.cuff k).tbMin (s.time + (s.cuff k).tbOff) }))))

/-- Flits, acknowledgements and replay on an active Cuff. On an active link a data flit that its sender may send (a new one
with credits and a place in the replay buffer of 128 that takes the next SEQ, or the next of a replay) is held in the sender's
replay buffer and reaches the other side with the errors of the link. A flit with a good CRC and the expected SEQ is accepted:
the expected number advances, its units are taken, then its ACK, CRD and NAK; any other is discarded and the expected number
is sent as NAK. Nothing else is sent. A good control flit brings ACK, CRD and NAK only; a bad one changes nothing. ACK takes
acknowledged flits out of the replay buffer. An acknowledgement timeout of an end with unacknowledged flits replays from the
oldest, and counts; at RETRY_LIMIT the pause or retrain starts. A repair message starts the repair pause under version 2. A
version message stores the other end's map; the Vest shows the Sleeve's. It says where these complete with their own effect:
cuffDataFlit, cuffControlFlit, cuffAckTimeout, cuffRepairMsg, cuffVersionMsg. (R164, R174, R175, R176, R178, R179,
07_fabric_and_cuffs.md) -/
def Obligations.CuffFlitsAndReplay : Prop :=
  (∀ (s : State) (k : SleeveId) (v : Bool) (f err : BitVec 2048) (r : EccResult) (e : LinkEnd), bandUp s k = true → (flitOf f).ftype = 0 →
    flitCrcOk f = true → sendData? (flitOf f) (endOf (s.cuff k) (!v)) = some e →
    exec (.cuffDataFlit k v f err r) s = .next { bufferEcc r (recvData k v (flitOf (f ^^^ err)) (flitCrcOk (f ^^^ err))
      (s.setCuff k (setEnd (s.cuff k) (!v) e))) with pending := s.pending }) ∧
  (∀ (s : State) (k : SleeveId) (v : Bool) (f err : BitVec 2048) (r : EccResult), sendData? (flitOf f) (endOf (s.cuff k) (!v)) = none →
    exec (.cuffDataFlit k v f err r) s = .next s) ∧
  (∀ (f : Flit) (e : LinkEnd), e.again = none → f.seq = e.nextSeq → e.replay.length < 128 → (∀ v, v < 6 → f.units v ≤ linkCredit e v) →
    sendData? f e = some { e with
      nextSeq := f.seq + 1, replay := e.replay ++ [f], sent := (upto 6).foldl (fun a v => ctrAdd a v (f.units v)) e.sent }) ∧
  (∀ (f : Flit) (e : LinkEnd), e.again = none → (f.seq ≠ e.nextSeq ∨ 128 ≤ e.replay.length ∨ ∃ v, v < 6 ∧ linkCredit e v < f.units v) →
    sendData? f e = none) ∧
  (∀ (s : State) (k : Nat) (v : Bool) (f : Flit), f.seq = (endOf (s.cuff k) v).expSeq →
    recvData k v f true s = takeControl k v f ((upto 7).foldl (slotIn k v f) (s.setCuff k (setEnd (s.cuff k) v
      { endOf (s.cuff k) v with expSeq := (endOf (s.cuff k) v).expSeq + 1, nak := none })))) ∧
  (∀ (s : State) (k : Nat) (v good : Bool) (f : Flit), (good = false ∨ f.seq ≠ (endOf (s.cuff k) v).expSeq) →
    recvData k v f good s = s.setCuff k (setEnd (s.cuff k) v { endOf (s.cuff k) v with nak := some (endOf (s.cuff k) v).expSeq })) ∧
  (∀ (f : Flit) (e : LinkEnd) (q : Flit), q ∈ (takeAck f e).replay ↔ q ∈ e.replay ∧ 2048 ≤ (f.ack - q.seq).toNat) ∧
  (∀ (s : State) (k : SleeveId) (v : Bool) (f err : BitVec 2048), bandUp s k = true → flitCrcOk (f ^^^ err) = true →
    (flitOf (f ^^^ err)).ftype = 1 →
    exec (.cuffControlFlit k v f err) s = .next { takeControl k v (flitOf (f ^^^ err)) s with pending := s.pending }) ∧
  (∀ (s : State) (k : SleeveId) (v : Bool) (f err : BitVec 2048), flitCrcOk (f ^^^ err) = false →
    exec (.cuffControlFlit k v f err) s = .next s) ∧
  (∀ (s : State) (k : SleeveId) (v : Bool) (q : Flit) (l : List Flit), bandUp s k = true → (endOf (s.cuff k) v).replay = q :: l →
    (endOf (s.cuff k) v).replays < (s.cuff k).retryLimF.toNat →
    exec (.cuffAckTimeout k v) s = .next (s.setCuff k { setEnd (s.cuff k) v
      { endOf (s.cuff k) v with replays := (endOf (s.cuff k) v).replays + 1, again := some q.seq } with
      replay := satInc (s.cuff k).replay })) ∧
  (∀ (s : State) (k : SleeveId) (v : Bool) (q : Flit) (l : List Flit), bandUp s k = true → (endOf (s.cuff k) v).replay = q :: l →
    (s.cuff k).retryLimF.toNat ≤ (endOf (s.cuff k) v).replays →
    exec (.cuffAckTimeout k v) s = .next { retryLimitHit k (s.setCuff k (setEnd (s.cuff k) v
      { endOf (s.cuff k) v with nakSeen := some q.seq })) with pending := s.pending }) ∧
  (∀ (s : State) (k : SleeveId) (v : Bool) (n : BitVec 12), (s.cuff k).state = 2 → 2 ≤ (tabGet s.pkg.cuffVer 0 k.val).toNat →
    exec (.cuffRepairMsg k v true n) s = .next (reportCuff k 0 (repairedCount (s.cuff k).repaired) (s.setCuff k
      { setEnd (s.cuff k) v { endOf (s.cuff k) v with nakSeen := some n } with state := 3, repair := satInc (s.cuff k).repair }))) ∧
  (∀ (s : State) (k : SleeveId) (map sel : BitVec 8), (s.cuff k).step ≠ 7 →
    exec (.cuffVersionMsg k true true map sel) s = .next (s.setCuff k
      { s.cuff k with vest := { (s.cuff k).vest with verSeen := map, selSeen := sel }, vermap := map })) ∧
  (∀ (s : State) (k : SleeveId) (map sel : BitVec 8), (s.cuff k).step ≠ 7 →
    exec (.cuffVersionMsg k false true map sel) s = .next (s.setCuff k
      { s.cuff k with sleeve := { (s.cuff k).sleeve with verSeen := map, selSeen := sel } }))

/-- The home agent of an address is the exclusive or of its seven fields, one value for a whole 4 KiB page. For every 52-bit
address A the home agent of A's line is A[17:12] xor A[23:18] xor A[29:24] xor A[35:30] xor A[41:36] xor A[47:42] xor A[51:48]
(the last extended by two zero bits), a value from 0 to 63; two addresses of one 4 KiB page have the same home agent. (R130)
-/
def Obligations.HomeAgentOfAnAddress : Prop :=
  (∀ a : BitVec 52, homeAgent (a.toNat / 64) = (a.extractLsb' 12 6 ^^^ a.extractLsb' 18 6 ^^^ a.extractLsb' 24 6 ^^^ a.extractLsb' 30 6 ^^^
    a.extractLsb' 36 6 ^^^ a.extractLsb' 42 6 ^^^ (a.extractLsb' 48 4).zeroExtend 6).toNat) ∧
  (∀ a : BitVec 52, homeAgent (a.toNat / 64) < 64) ∧
  (∀ a b : BitVec 52, a.toNat / 4096 = b.toNat / 4096 → homeAgent (a.toNat / 64) = homeAgent (b.toNat / 64))

/-- Where the interrupt files of every hart lie, and the reserved ranges around them. For each of the 960 hart numbers h, the
page at 0x6000_0000 + h × 0x1000 is h's machine-level file (file 0), the page at 0x6040_0000 + h × 0x8000 its supervisor-level
file (file 1), and the page at 0x6040_0000 + h × 0x8000 + g × 0x1000 its guest file g from 1 to 7 (file 1 + g); where hart h
is absent the page is a reserved region. Addresses from 0x6220_0000 to 0x7FFF_FFFF and from 0x603C_0000 to 0x603F_FFFF are
reserved. (R31) -/
def Obligations.InterruptFileAddresses : Prop :=
  (∀ (s : State) (h o : Nat), h < 960 → o < 0x1000 →
    regionOf s (0x60000000 + h * 0x1000 + o) = (if hartPresent s h then .imsic h 0 o else .reserved) ∧
    regionOf s (0x60400000 + h * 0x8000 + o) = (if hartPresent s h then .imsic h 1 o else .reserved)) ∧
  (∀ (s : State) (h g o : Nat), h < 960 → 1 ≤ g → g ≤ 7 → o < 0x1000 →
    regionOf s (0x60400000 + h * 0x8000 + g * 0x1000 + o) = (if hartPresent s h then .imsic h (1 + g) o else .reserved)) ∧
  (∀ (s : State) (a : Nat), (0x62200000 ≤ a ∧ a ≤ 0x7FFFFFFF) ∨ (0x603C0000 ≤ a ∧ a ≤ 0x603FFFFF) → regionOf s a = .reserved)

/-- The issue handshake of a core, branch resolution and the branch-prediction registers of a hart. A handshake of a present,
awake core in which no hart offers counts for its four harts and advances the round-robin pointer by one. With one ready hart
whose fetch succeeds, its instruction counts as issued and is then performed, as runRest performs what a hart has issued: a
computing instruction writes its register and retires. BRANCH_RESOLVE restarts the stopped fetch at the target and retires the
branch. INDIRECT_RESOLVE of an unpredicted or wrongly predicted indirect goes to the resolved target, updates the target
buffer, repairs the return stack from the checkpoint, moves the path history and, after a wrong prediction, counts it; of a
correctly predicted one it installs the speculative fills and performs the path in order. In M-mode (or with MLOCK clear)
RASFLUSH empties the return stack and history, ITBFLUSH empties the core's target buffer, a ubxbpc write does both parts its
bits name, and a ubxbpkey write stores K; each retires one 4-byte instruction. Other harts and everything outside the hart
(and the core's buffer) are unchanged. It says where these complete with their own effect: issueHandshake, branchResolve,
indirectResolve, rasflush, itbflush, bpcModeWrite, bpkeyWrite. (R38, R39, R40, R43, R45, R46, R47, R49, R50, R51, R53,
02_u3_core.md) -/
def Obligations.BranchesAndPrediction : Prop :=
  (∀ (s : State) (c : CoreId) (p : Bool), handshakes s c = true → (∀ t, t < 4 → (s.hart (coreHart c t)).rest = []) →
    exec (.issueHandshake c .notReady .notReady .notReady .notReady p []) s = .next
      { (handshakeCounts p c (fun _ => false) s).modCore c (fun k => { k with rr := ((s.core c).rr % 4 + 1) % 4 })
        with pending := s.pending }) ∧
  (∀ (s u : State) (c : CoreId) (i : IssueInstr) (p : Bool), handshakes s c = true → (∀ t, t < 4 → (s.hart (coreHart c t)).rest = []) →
    canOffer s (4 * c) = true → ((handshakeCounts p c (· == 0) s).hart (coreHart c 0)).indir = none →
    (∀ cc rd rs1, i ≠ .indirect cc rd rs1) → i ≠ .branch →
    fetchInstr (coreHart c 0) (fetchLen i) (handshakeCounts p c (· == 0) s) = (u, true) →
    exec (.issueHandshake c (.ready i none) .notReady .notReady .notReady p []) s = .next
      { (runRest (coreHart c 0) 1 ((countEvent (coreHart c 0) 1 1 u).modHart (coreHart c 0) fun x => { x with rest := [i] })).modCore c
          (fun k => { k with rr := ((s.core c).rr % 4 + 1) % 4 }) with pending := s.pending }) ∧
  (∀ (s : State) (h : HartId) (k : ExecCls) (cc : Bool) (w : Option RegWrite) (fl : BitVec 5) (r : List IssueInstr),
    (s.hart h).rest = .compute k cc w fl :: r → hartRuns s h = true →
    (s.hart h).prog = false → bit ((s.hart h).c 0x7B0) 2 = false → (k = .fp → fpOff (s.hart h) = false) →
    runRest h 1 s = retire h (ilen cc) (s.modHart h (computePut k w fl))) ∧
  (∀ (s : State) (h : HartId) (w : Word), (s.hart h).fetchStop = true → (s.hart h).indir = none → bit ((s.hart h).c 0x7B0) 2 = false →
    exec (.branchResolve h w) s = .next ((retire h 0 s).modHart h fun y => { y with fetchStop := false, pc := w })) ∧
  (∀ (s : State) (h : HartId) (w : Word) (c : Checkpoint), (s.hart h).indir = some c → c.pred = false →
    bit ((s.hart h).c 0x7B0) 2 = false →
    exec (.indirectResolve h w) s = .next { (indirectDone h c w (itbUpdate h c.hist c.pc w s)).modHart h (fun y =>
      { y with ras := rasMove (s.hart h) c.pop c.push c.ras }) with pending := s.pending }) ∧
  (∀ (s : State) (h : HartId) (w : Word) (c : Checkpoint), (s.hart h).indir = some c → c.pred = true → c.target ≠ w →
    bit ((s.hart h).c 0x7B0) 2 = false →
    exec (.indirectResolve h w) s = .next { countEvent h 6 (s.hart h).wrong (countEvent h 5 1
      ((indirectDone h c w (itbUpdate h c.hist c.pc w s)).modHart h fun y =>
        { y with ras := rasMove (s.hart h) c.pop c.push c.ras })) with pending := s.pending }) ∧
  (∀ (s : State) (h : HartId) (w : Word) (c : Checkpoint), (s.hart h).indir = some c → c.pred = true → c.target = w →
    bit ((s.hart h).c 0x7B0) 2 = false →
    exec (.indirectResolve h w) s = .next { runRest h (s.hart h).path.length (((s.hart h).specFill.reverse.foldl (installFill h)
      (countEvent h 1 (s.hart h).wrong (indirectDone h c w (itbUpdate h c.hist c.pc w s)))).modHart h fun y =>
        { y with rest := (s.hart h).path }) with pending := s.pending }) ∧
  (∀ (s : State) (h : HartId), hartIssues s h = true → csrCheck (s.hart h) 0x5C0 true = none →
    ((s.hart h).priv = 3 ∨ bit ((s.hart h).c 0x5C0) 7 = false) →
    exec (.rasflush h) s = .next (retire h 4 (s.setHart h { s.hart h with ras := [], hist := 0 }))) ∧
  (∀ (s : State) (h : HartId), hartIssues s h = true → csrCheck (s.hart h) 0x5C0 true = none →
    ((s.hart h).priv = 3 ∨ bit ((s.hart h).c 0x5C0) 7 = false) →
    exec (.itbflush h) s = .next (retire h 4 (s.setCore (hartCore h) { s.core (hartCore h) with itb := [] }))) ∧
  (∀ (s : State) (h : HartId) (v : Word), hartIssues s h = true → csrCheck (s.hart h) 0x5C0 true = none →
    redirect (s.hart h).virt 0x5C0 = 0x5C0 →
    exec (.bpcModeWrite h v) s = .next { retire h 4 (wrBpc h v s) with pending := s.pending }) ∧
  (∀ (s : State) (h : HartId) (v : Word), hartIssues s h = true → csrCheck (s.hart h) 0x5C1 true = none →
    redirect (s.hart h).virt 0x5C1 = 0x5C1 →
    exec (.bpkeyWrite h v) s = .next (retire h 4 (s.setHart h ((s.hart h).setC 0x5C1 v))))

/-- Taking a trap into M-mode. Taking a trap into M-mode, by a hart with no prediction outstanding whose CSRs are held in
rising order: mepc holds the program counter, mcause the cause with the interrupt bit, mtval the trap value, mstatus has MIE
0, MPIE the old MIE and MPP the old mode; the hart is in M-mode with V 0; its program counter is E + 0x100 while SEC is 1, and
otherwise the vector that mtvec gives. SEC, the general and floating-point registers stay; the reservation ends. No other
hart, no memory and no cache changes. (R42, R66, R67, R68, 03_cloak_secure_world.md) -/
def Obligations.TrapEntryToMachineMode : Prop :=
  ∀ (s : State) (h : Nat) (intr : Bool) (t : Trap), (s.hart h).indir = none → tabRising (s.hart h).csr = true → t.walk = none →
    (s.hart h).inReset = false →
    let x := s.hart h
    let u := enterTrap h 3 intr t s
    let y := u.hart h
    y.priv = 3 ∧ y.virt = false ∧ y.c 0x341 = x.pc ∧ y.c 0x342 = (BitVec.ofNat 64 t.cause ||| on 63 intr) ∧ y.c 0x343 = t.tval ∧
    y.c 0x34B = t.tval2 ∧
    bit (y.c 0x300) 3 = false ∧ bit (y.c 0x300) 7 = bit (x.c 0x300) 3 ∧ mppOf y = x.priv ∧
    y.pc = (if x.sec then monEntry s + 0x100 else vectorOf (x.c 0x305) intr t.cause) ∧
    y.sec = x.sec ∧ y.x = x.x ∧ y.f = x.f ∧ y.resv = none ∧ y.wfi = false ∧
    (∀ j, j ≠ h → u.hart j = s.hart j) ∧ u.dram = s.dram ∧ u.cores = s.cores ∧ u.slvs = s.slvs ∧ u.coh = s.coh ∧ u.cloak = s.cloak

/-- Environment calls, breakpoints, monitor calls, returns, WFI and the timer. A hart that issues takes an ordinary
environment call for an ECALL that is no monitor call (cause 8, 9, 10 or 11 by mode), enters the monitor for one that is
(M-mode, SEC 1, the entry E, return stack and history empty), and takes a breakpoint for EBREAK where dcsr does not send it to
debug mode. MRET in M-mode outside the secure world and SRET in S-mode perform their return and retire; UBX.WSWITCH in the
secure world leaves it. WFI retires, and waits while no enabled interrupt is pending. An interrupt that is takeable is taken;
MTIP follows the comparison of time with MTIMECMP. A secure trap goes through the same entry. It says where these complete
with their own effect: ecall, monitorCall, secureTrap, ebreak, xret, ubxWswitch, wfi, interruptTake, mtimecmpMatch. (R42, R57,
R66, R67, R68, R69, R145, 02_u3_core.md, 03_cloak_secure_world.md) -/
def Obligations.TrapsReturnsAndWaits : Prop :=
  (∀ (s : State) (h : HartId), hartIssues s h = true → isMonCall (s.hart h) = false →
    exec (.ecall h) s = .next { takeTrap h (plainTrap
      (if (s.hart h).priv = 3 then 11 else if (s.hart h).priv = 1 then (if (s.hart h).virt then 10 else 9) else 8) 0 false) s
      with pending := s.pending }) ∧
  (∀ (s : State) (h : HartId), hartIssues s h = true → isMonCall (s.hart h) = true →
    exec (.monitorCall h) s = .next { (enterTrap h 3 false (plainTrap 9 0 false) s).modHart h (fun x =>
      { x with ras := [], hist := 0, sec := true, pc := monEntry s }) with pending := s.pending }) ∧
  (∀ (s : State) (h : HartId) (t : TrapInfo), hartIssues s h = true → (s.hart h).sec = true → (s.hart h).priv = 3 →
    exec (.secureTrap h t) s = .next { enterTrap h 3 false ⟨t.cause, t.tval, t.tval2, (s.hart h).virt && memExc t.cause, false, none⟩ s
      with pending := s.pending }) ∧
  (∀ (s : State) (h : HartId) (c : Bool), hartIssues s h = true → (s.hart h).priv = 3 → (s.hart h).virt = false →
    bit ((s.hart h).c 0x7B0) 15 = false →
    exec (.ebreak h c) s = .next { enterTrap h 3 false (plainTrap 3 (s.hart h).pc false) s with pending := s.pending }) ∧
  (∀ (s : State) (h : HartId), hartIssues s h = true → (s.hart h).priv = 3 → (s.hart h).sec = false →
    (s.hart h).haltPend = false →
    exec (.xret h false) s = .next { haltIfPending h (s.setHart h (mretState (countInst 1 (s.hart h)))) with pending := s.pending }) ∧
  (∀ (s : State) (h : HartId), hartIssues s h = true → (s.hart h).priv = 1 → (s.hart h).virt = false → (s.hart h).sec = false →
    bit ((s.hart h).c 0x300) 22 = false →
    exec (.xret h true) s = .next { haltIfPending h (s.setHart h (sretHs (countInst 1 (s.hart h)))) with pending := s.pending }) ∧
  (∀ (s : State) (h : HartId), hartIssues s h = true → (s.hart h).sec = true →
    exec (.ubxWswitch h) s = .next { leaveSecure h s with pending := s.pending }) ∧
  (∀ (s : State) (h : HartId), hartIssues s h = true → (s.hart h).priv = 3 → (s.hart h).virt = false →
    exec (.wfi h) s = .next (if mipOf (s.hart h) &&& (s.hart h).c 0x304 = 0
      then (retire h 4 s).modHart h fun y => { y with wfi := true } else retire h 4 s)) ∧
  (∀ (s : State) (h : HartId) (i mode : Nat), hartPresent s h = true → (s.hart h).inReset = false → (s.hart h).halted = false →
    (s.hart h).stopped = false → (s.slvPwr (hartSleeve h)).sl = 0 → takeable (s.hart h) = some (i, mode) →
    exec (.interruptTake h) s = .next { enterTrap h mode true (plainTrap i 0 false) s with pending := s.pending }) ∧
  (∀ (s : State) (h : HartId), exec (.mtimecmpMatch h) s = .next (s.setHart h { s.hart h with
    mtip := decide ((tabGet s.mtimecmp (BitVec.allOnes 64) h).toNat ≤ (timeOf s h).toNat) }))

/-- The general registers of a hart, and a load or a store of a hart through its caches. Register x0 discards writes and reads
as zero. A write of another register, in a hart whose registers are held in canonical form, is what it reads as afterwards;
every other register, the floating-point registers, the CSRs and the program counter are unchanged. A hart that issues, on an
aligned access of a form the profile has, whose translation succeeds and is permitted, to cacheable memory whose lines do not
wait and whose packets the injection regulator passes: a load without poison writes its destination with the bytes of its
lines (extended by its form) and retires; a store writes its bytes into the lines it owns and retires. Errors that the arrays
show (Table 5.12) are met before the access, which then goes on unless they stop the hart. An uncached path performs the
access at its home, register or port in the same way. It says where these complete with their own effect: load, store. (R42,
R86, R103, R104, R128, R167, R168, 02_u3_core.md, 05_cache_hierarchy.md) -/
def Obligations.CachedLoadsAndStores : Prop :=
  (∀ (x : Hart) (v : Word), x.setX 0 v = x ∧ x.gx 0 = 0) ∧
  (∀ (x : Hart) (r : XReg) (v : Word), tabWf 0 x.x = true → r ≠ 0 →
    (x.setX r v).gx r = v ∧ (∀ q, q ≠ r → (x.setX r v).gx q = x.gx q) ∧ (x.setX r v).f = x.f ∧ (x.setX r v).csr = x.csr ∧
    (x.setX r v).pc = x.pc ∧ tabWf 0 (x.setX r v).x = true) ∧
  (∀ (s s1 s2 : State) (h : HartId) (k : LoadKind) (z : Size) (rd : XReg) (va : Word) (c : Bool) (t : Xl),
    hartIssues s h = true → (c = true → loadC k z = true) → loadIll (s.hart h) k z = false → isHlv k = false →
    va.toNat % sizeBytes z = 0 → reach h (accOf (s.hart h) .load) va.toNat s = (s1, some t) → pathOf s1 h t = .cached →
    ((linesOf t.pa (sizeBytes z)).any fun m => lineWait s1 (hartCore h) m false) = false →
    coreMeter true h ((linesOf t.pa (sizeBytes z)).filter fun m => lineMiss s1 (hartCore h) m false).length
      (.load h k z rd va c []) s1 = (s2, true) →
    firstPoison (cachedRead h t.pa (sizeBytes z) s2).2 = none →
    exec (.load h k z rd va c []) s = .next { retire h (ilen c) (fillTlbs h .load t ((train h (t.pa / 64)
      (cachedRead h t.pa (sizeBytes z) s2).1).modHart h
        (loadPut k z rd (leNat (gather t.pa (sizeBytes z) (cachedRead h t.pa (sizeBytes z) s2).2))))) with pending := s.pending }) ∧
  (∀ (s s1 s2 : State) (h : HartId) (k : LoadKind) (z : Size) (rd : XReg) (va : Word) (c : Bool) (t : Xl),
    hartIssues s h = true → (c = true → loadC k z = true) → loadIll (s.hart h) k z = false → isHlv k = false →
    va.toNat % sizeBytes z = 0 → reach h (accOf (s.hart h) .load) va.toNat s = (s1, some t) → pathOf s1 h t = .plain →
    lineBusy s1 (t.pa / 64) = false → coreMeter true h 1 (.load h k z rd va c []) s1 = (s2, true) →
    (cohRead s2 t.pa (sizeBytes z)).2 = false →
    exec (.load h k z rd va c []) s = .next { retire h (ilen c) (fillTlbs h .load t (s2.modHart h
      (loadPut k z rd (leNat (cohRead s2 t.pa (sizeBytes z)).1)))) with pending := s.pending }) ∧
  (∀ (s s1 s2 : State) (h : HartId) (k : StoreKind) (z : Size) (rs2 : XReg) (va : Word) (c : Bool) (t : Xl),
    hartIssues s h = true → (c = true → storeC k z = true) → storeIll (s.hart h) k z = false → k ≠ .hsv →
    va.toNat % sizeBytes z = 0 → reach h (accOf (s.hart h) .store) va.toNat s = (s1, some t) → pathOf s1 h t = .cached →
    ((linesOf t.pa (sizeBytes z)).any fun m => lineWait s1 (hartCore h) m true) = false →
    coreMeter true h ((linesOf t.pa (sizeBytes z)).filter fun m => lineMiss s1 (hartCore h) m true).length
      (.store h k z rs2 va c []) s1 = (s2, true) →
    exec (.store h k z rs2 va c []) s = .next { retire h (ilen c) (fillTlbs h .store t (train h (t.pa / 64)
      (cachedWrite h t.pa (storeBytes (s.hart h) k z rs2) s2))) with pending := s.pending }) ∧
  (∀ (s : State) (h : HartId) (k : LoadKind) (w : StoreKind) (z : Size) (r : XReg) (va : Word) (c : Bool) (errs : List ArrErr),
    hartIssues s h = true → ((meet errs s).hart h).stopped = false →
    exec (.load h k z r va c errs) s = .next { doLoad true h k z r va (c && loadC k z) (meet errs s) with pending := s.pending } ∧
    exec (.store h w z r va c errs) s = .next { doStore true h w z r va (c && storeC w z) (meet errs s) with pending := s.pending })

/-- AMO, LR and SC, fences, and the end of a reservation's snoop hold. For a hart that issues, on an aligned address whose
translation succeeds and is permitted. LR to cacheable memory without poison writes its destination, sets the reservation to
the line and holds its snoops back for 60 ns. SC without the reservation on its line writes 1 and ends the reservation,
storing nothing; with it, it stores, writes 0 and ends it. An AMO in the L1D replaces the old value by the operation's result
in an owned line and returns the old value. FENCE retires; FENCE.I also discards the core's L1I lines. Errors that the arrays
show are met before the access. The end of the hold clears it and nothing else. It says where these complete with their own
effect: lr, sc, amo, reservationHoldExpire, fence, fenceI. (R144, R145, 06_coherence.md) -/
def Obligations.AtomicsAndReservations : Prop :=
  (∀ (s s1 s2 : State) (h : HartId) (dbl : Bool) (rd : XReg) (va : Word) (t : Xl),
    hartIssues s h = true → va.toNat % (if dbl then 8 else 4) = 0 → reach h (accOf (s.hart h) .load) va.toNat s = (s1, some t) →
    pathOf s1 h t = .cached → lineWait s1 (hartCore h) (t.pa / 64) false = false →
    coreMeter true h (if lineMiss s1 (hartCore h) (t.pa / 64) false then 1 else 0) (.lr h dbl rd va []) s1 = (s2, true) →
    (readLine h (t.pa / 64) (countMiss h (t.pa / 64) s2)).2.poison = false →
    exec (.lr h dbl rd va []) s = .next { retire h 4 (fillTlbs h .load t ((train h (t.pa / 64)
      (readLine h (t.pa / 64) (countMiss h (t.pa / 64) s2)).1).modHart h fun x =>
        { x.setX rd (amoVal dbl (lineField (readLine h (t.pa / 64) (countMiss h (t.pa / 64) s2)).2.data t.pa (if dbl then 8 else 4)))
          with resv := some (t.pa / 64), resHold := some (s.time + 6) })) with pending := s.pending }) ∧
  (∀ (s s1 : State) (h : HartId) (dbl : Bool) (rd rs2 : XReg) (va : Word) (t : Xl),
    hartIssues s h = true → va.toNat % (if dbl then 8 else 4) = 0 → reach h (accOf (s.hart h) .store) va.toNat s = (s1, some t) →
    pathOf s1 h t = .cached → (s1.hart h).resv ≠ some (t.pa / 64) →
    exec (.sc h dbl rd rs2 va []) s = .next { retire h 4 (fillTlbs h .store t (s1.modHart h fun x =>
      { x.setX rd 1 with resv := none, resHold := none })) with pending := s.pending }) ∧
  (∀ (s s1 s2 : State) (h : HartId) (dbl : Bool) (rd rs2 : XReg) (va : Word) (t : Xl),
    hartIssues s h = true → va.toNat % (if dbl then 8 else 4) = 0 → reach h (accOf (s.hart h) .store) va.toNat s = (s1, some t) →
    pathOf s1 h t = .cached → (s1.hart h).resv = some (t.pa / 64) → lineWait s1 (hartCore h) (t.pa / 64) true = false →
    coreMeter true h (if lineMiss s1 (hartCore h) (t.pa / 64) true then 1 else 0) (.sc h dbl rd rs2 va []) s1 = (s2, true) →
    exec (.sc h dbl rd rs2 va []) s = .next { retire h 4 (fillTlbs h .store t ((train h (t.pa / 64) (cachedWrite h t.pa
      (leBytes (if dbl then 8 else 4) ((s.hart h).gx rs2).toNat) s2)).modHart h fun x =>
      { x.setX rd 0 with resv := none, resHold := none })) with pending := s.pending }) ∧
  (∀ (s s1 s2 : State) (h : HartId) (op : AmoOp) (dbl : Bool) (aq : BitVec 2) (rd rs2 : XReg) (va : Word) (t : Xl),
    hartIssues s h = true → va.toNat % (if dbl then 8 else 4) = 0 → reach h (accOf (s.hart h) .store) va.toNat s = (s1, some t) →
    amoPlace s1 h op t = .l1d → lineWait s1 (hartCore h) (t.pa / 64) true = false →
    coreMeter true h (if lineMiss s1 (hartCore h) (t.pa / 64) true then 1 else 0) (.amo h op dbl aq rd rs2 va []) s1 = (s2, true) →
    (ownLine h (t.pa / 64) (countMiss h (t.pa / 64) s2)).2.poison = false →
    let n := t.pa / 64
    let z := if dbl then 8 else 4
    let r := ownLine h n (countMiss h n s2)
    let old := lineField r.2.data t.pa z
    let new := leBytes z (amoNew op dbl old ((s2.hart h).gx rs2)).toNat
    exec (.amo h op dbl aq rd rs2 va []) s = .next { retire h 4 (fillTlbs h .store t ((train h n (clearResv n (some h.val)
      (putOwned h { r.2 with data := mergeLine r.2.data (partLine t.pa new n) (partMask t.pa z n) } r.1))).modHart h fun x =>
        x.setX rd (amoVal dbl old))) with pending := s.pending }) ∧
  (∀ (s : State) (h : HartId), exec (.reservationHoldExpire h) s = .next (s.setHart h { s.hart h with resHold := none })) ∧
  (∀ (s : State) (h : HartId) (p q : BitVec 4) (tso : Bool), hartIssues s h = true →
    exec (.fence h p q tso) s = .next (retire h 4 s)) ∧
  (∀ (s : State) (h : HartId), hartIssues s h = true →
    exec (.fenceI h) s = .next { retire h 4 (dropL1i h s) with pending := s.pending }) ∧
  (∀ (s : State) (h : HartId) (op : AmoOp) (dbl : Bool) (aq : BitVec 2) (rd rs2 : XReg) (va : Word) (errs : List ArrErr),
    hartIssues s h = true → ((meet errs s).hart h).stopped = false →
    exec (.amo h op dbl aq rd rs2 va errs) s = .next { doAmo true h op dbl aq rd rs2 va (meet errs s) with pending := s.pending } ∧
    exec (.lr h dbl rd va errs) s = .next { doLr true h dbl rd va (meet errs s) with pending := s.pending } ∧
    exec (.sc h dbl rd rs2 va errs) s = .next { doSc true h dbl rd rs2 va (meet errs s) with pending := s.pending })

/-- The cache-block operations, by line, by level, and by set and way. For a hart that issues, whose gate (the envcfg fields)
lets the operation go and whose line is reached in cacheable memory with nothing in the way: CBO.CLEAN, CBO.INVAL and
CBO.FLUSH act on the line in every cache of the hart's domain, CBO.INVAL as a flush where CBIE says so; the .LV forms act at
the level that rs2 names; each retires and leaves the pseudo-LRU trees alone. CBO.ZERO owns the line in the L1D and writes 64
zero bytes, clearing poison. In M-mode a set-and-way operation acts on the line that the named L1D entry holds, and on an
empty entry it only retires. It says where these complete with their own effect: cboClean, cboFlush, cboInval, ubxCboCleanLv,
ubxCboFlushLv, ubxCboInvalLv, cboZero, ubxCswClean, ubxCswInval, ubxCswFlush. (R109, R110, R111, R112, R113,
05_cache_hierarchy.md) -/
def Obligations.CacheBlockOperations : Prop :=
  (∀ (s s1 : State) (h : HartId) (rs1 : XReg) (fl : Bool) (t : Xl), hartIssues s h = true → cboGate (s.hart h) 6 1 = .go fl →
    reachCbo h ((s.hart h).gx rs1).toNat s = (s1, some t) → cacheable (regionOf s1 t.pa) = true → homeWait s1 (t.pa / 64) = false →
    exec (.cboClean h rs1) s = .next { retire h 4 (fillTlbs h .load t (untouched h (opDomain h .clean (t.pa / 64)) s1)) with pending := s.pending } ∧
    exec (.cboFlush h rs1) s = .next { retire h 4 (fillTlbs h .load t (untouched h (opDomain h .flush (t.pa / 64)) s1)) with pending := s.pending }) ∧
  (∀ (s s1 : State) (h : HartId) (rs1 : XReg) (fl : Bool) (t : Xl), hartIssues s h = true → cboGate (s.hart h) 4 2 = .go fl →
    reachCbo h ((s.hart h).gx rs1).toNat s = (s1, some t) → cacheable (regionOf s1 t.pa) = true → homeWait s1 (t.pa / 64) = false →
    exec (.cboInval h rs1) s = .next { retire h 4 (fillTlbs h .load t
      (untouched h (opDomain h (if fl then .flush else .inval) (t.pa / 64)) s1)) with pending := s.pending }) ∧
  (∀ (s s1 : State) (h : HartId) (rs1 rs2 : XReg) (fl : Bool) (t : Xl), hartIssues s h = true → cboGate (s.hart h) 6 1 = .go fl →
    ((s.hart h).gx rs2).toNat < 4 → reachCbo h ((s.hart h).gx rs1).toNat s = (s1, some t) → cacheable (regionOf s1 t.pa) = true →
    homeWait s1 (t.pa / 64) = false →
    exec (.ubxCboCleanLv h rs1 rs2) s = .next { retire h 4 (fillTlbs h .load t
      (untouched h (opLevel h .clean ((s.hart h).gx rs2).toNat (t.pa / 64)) s1)) with pending := s.pending } ∧
    exec (.ubxCboFlushLv h rs1 rs2) s = .next { retire h 4 (fillTlbs h .load t
      (untouched h (opLevel h .flush ((s.hart h).gx rs2).toNat (t.pa / 64)) s1)) with pending := s.pending }) ∧
  (∀ (s s1 : State) (h : HartId) (rs1 rs2 : XReg) (fl : Bool) (t : Xl), hartIssues s h = true → cboGate (s.hart h) 4 2 = .go fl →
    ((s.hart h).gx rs2).toNat < 4 → reachCbo h ((s.hart h).gx rs1).toNat s = (s1, some t) → cacheable (regionOf s1 t.pa) = true →
    homeWait s1 (t.pa / 64) = false →
    exec (.ubxCboInvalLv h rs1 rs2) s = .next { retire h 4 (fillTlbs h .load t
      (untouched h (opLevel h (if fl then .flush else .inval) ((s.hart h).gx rs2).toNat (t.pa / 64)) s1)) with pending := s.pending }) ∧
  (∀ (s s1 s2 : State) (h : HartId) (rs1 : XReg) (fl : Bool) (t : Xl), hartIssues s h = true → cboGate (s.hart h) 7 1 = .go fl →
    reach h (accOf (s.hart h) .store) ((s.hart h).gx rs1).toNat s = (s1, some t) → pathOf s1 h t = .cached →
    lineWait s1 (hartCore h) (t.pa / 64) true = false →
    coreMeter true h (if lineMiss s1 (hartCore h) (t.pa / 64) true then 1 else 0) (.cboZero h rs1) s1 = (s2, true) →
    exec (.cboZero h rs1) s = .next { retire h 4 (fillTlbs h .store t (untouched h (fun u => clearResv (t.pa / 64) (some h.val)
      (putOwned h { (ownLine h (t.pa / 64) u).2 with data := 0, poison := false } (ownLine h (t.pa / 64) u).1)) (countMiss h (t.pa / 64) s2))) with pending := s.pending }) ∧
  (∀ (s : State) (h : HartId) (rs1 : XReg) (e : CLine), hartIssues s h = true → (s.hart h).priv = 3 →
    cswOk ((s.hart h).gx rs1) = true → fld ((s.hart h).gx rs1) 0 2 = 0 →
    tabFind ((fld ((s.hart h).gx rs1) 16 12).toNat * 8 + (fld ((s.hart h).gx rs1) 4 4).toNat) (s.core (hartCore h)).l1d.ents = some e →
    lineBusy s e.line = false →
    exec (.ubxCswClean h rs1) s = .next { retire h 4 (untouched h (cswL1d h .clean e.line e) s) with pending := s.pending } ∧
    exec (.ubxCswInval h rs1) s = .next { retire h 4 (untouched h (cswL1d h .inval e.line e) s) with pending := s.pending } ∧
    exec (.ubxCswFlush h rs1) s = .next { retire h 4 (untouched h (cswL1d h .flush e.line e) s) with pending := s.pending }) ∧
  (∀ (s : State) (h : HartId) (rs1 : XReg), hartIssues s h = true → (s.hart h).priv = 3 →
    cswOk ((s.hart h).gx rs1) = true → fld ((s.hart h).gx rs1) 0 2 = 2 →
    tabFind ((fld ((s.hart h).gx rs1) 16 12).toNat * 8 + (fld ((s.hart h).gx rs1) 4 4).toNat) (s.core (hartCore h)).l2.ents = none →
    exec (.ubxCswClean h rs1) s = .next (retire h 4 s) ∧ exec (.ubxCswInval h rs1) s = .next (retire h 4 s) ∧
    exec (.ubxCswFlush h rs1) s = .next (retire h 4 s))

/-- Translation fences, block registers and prefetches. For a hart that issues with V 0, outside U-mode and with TVM 0 (or in
M-mode): SFENCE.VMA, HFENCE.VVMA and HFENCE.GVMA invalidate the entries that Table 4.9 lists for their operands, and retire. A
write to a block register whose access is permitted writes it, empties the hart's L1 TLBs and retires. A PREFETCH instruction
retires whatever its access finds, and never traps. A trained stream of a present, awake core prefetches a line of its page
that is not waiting: into the L1D and the L2, or, of an L2 stream, into the L2 alone (the model's choice: log 140). It says
where these complete with their own effect: sfenceVma, hfenceVvma, hfenceGvma, blockRegWrite, prefetch, prefetcherIssue. (R91,
R97, R101, R105, 04_translation.md, 05_cache_hierarchy.md) -/
def Obligations.FencesPrefetchesAndBlockRegisters : Prop :=
  (∀ (s : State) (h : HartId) (rs1 rs2 : XReg), hartIssues s h = true → (s.hart h).virt = false → (s.hart h).priv ≠ 0 →
    ((s.hart h).priv = 1 → bit ((s.hart h).c 0x300) 20 = false) →
    exec (.sfenceVma h rs1 rs2) s = .next { retire h 4 (fenceGuard .single (fenceOp (s.hart h) rs1 rs2 1 16)
      (sfence h (fenceOp (s.hart h) rs1 rs2 1 16)) s) with pending := s.pending } ∧
    exec (.hfenceVvma h rs1 rs2) s = .next { retire h 4 (fenceGuard .vs (fenceOp (s.hart h) rs1 rs2 1 16)
      (hfenceVvma h (fenceOp (s.hart h) rs1 rs2 1 16)) s) with pending := s.pending } ∧
    exec (.hfenceGvma h rs1 rs2) s = .next { retire h 4 (fenceGuard .g (fenceOp (s.hart h) rs1 rs2 4 12)
      (hfenceGvma h (fenceOp (s.hart h) rs1 rs2 4 12)) s) with pending := s.pending }) ∧
  (∀ (s : State) (h : HartId) (b : BlkReg) (v : Word), hartIssues s h = true → csrCheck (s.hart h) (blkCsr b) true = none →
    (s.hart h).virt = false →
    exec (.blockRegWrite h b v) s = .next (retire h 4 (s.setHart h (csrWrite s (s.hart h) (blkCsr b) v)))) ∧
  (∀ (s : State) (x : Hart) (k : Fin 8) (v : Word), csrWrite s x (0x5D8 + k) v =
    { x.maskC (0x5D8 + k) 0xFFFFFF0FFFFFFFFF v with itlb := [], dtlb := [] }) ∧
  (∀ (s : State) (h : HartId) (k : PrefetchKind) (r : XReg) (off : BitVec 12), hartIssues s h = true →
    exec (.prefetch h k r off []) s = .next { retire h 4 (doPrefetch h k ((s.hart h).gx r + (off &&& 0xFE0).signExtend 64).toNat s)
      with pending := s.pending }) ∧
  (∀ (s : State) (h : HartId) (k : PrefetchKind) (r : XReg) (off : BitVec 12) (errs : List ArrErr), hartIssues s h = true →
    ((meet errs s).hart h).stopped = false →
    exec (.prefetch h k r off errs) s = .next { prefetchInstr h k r off (meet errs s) with pending := s.pending }) ∧
  (∀ (s s1 : State) (c : CoreId) (l2 : Bool) (i n : Nat) (e : Stream) (h : HartId),
    (if l2 then (s.core c).str2 else (s.core c).str1)[i]? = some e → h = Fin.ofNat 960 e.hart →
    n / 64 = e.page → corePresent s c = true → tabGet s.pwr.coreSl 0 c.val = 0 → (s.hart h).heldAcc = false →
    refusal s (.hart h) (s.hart h).sec false (64 * n) = none → pathOf s h ⟨64 * n, 0, false, [], [], [], [], false⟩ = .cached →
    lineWait s c n false = false →
    (if lineMiss s c n false then injTake c (agentTid s (.hart h)) 1 s else (s, none)) = (s1, none) →
    exec (.prefetcherIssue c l2 i n) s = .next { (if l2 then (walkLine h n s1).1 else (readLine h n s1).1) with pending := s.pending })

/-- The Hem, MONRDY and the secure watchdog. From a secure agent that runs, with the Hem unlocked and not busy: a write below
or above the DRAM range sets error 1, a write that an enabled domain range conflicts with sets error 2, and any other write
moves the Hem, locks it if asked and starts the scan when it moves; while busy a write sets error 3. The scan's end recalls
the lines between the two Hems and clears BUSY. A write to WDTCTL sets the fields and restarts the count, 0xC10A restarts it
and any other kick does nothing. The warning is raised at 7/8; expiry with storage idle ends in package reset with EXPIRED;
the 20 ms deadline sets DRAINFAIL as well. A management controller's write to the Hem changes nothing of the Cloak and answers
an error. It says where these complete with their own effect: hemWrite, hemScanDone, monrdySet, wdtCtlWrite, wdtKick, wdtWarn,
wdtExpire, wdtDrainDeadline. (R73, R74, R75, R79, R80, R81, R380, 03_cloak_secure_world.md) -/
def Obligations.HemWatchdogAndMonitorReady : Prop :=
  (∀ (s : State) (a : Agent) (v : Word), agentRuns s a = true → agentSecure s a = true → s.cloak.hemLock = false → s.cloak.hemBusy = true →
    exec (.hemWrite a v) s = .next { s with cloak := { s.cloak with hemErr := 3 } }) ∧
  (∀ (s : State) (a : Agent) (v : Word), agentRuns s a = true → agentSecure s a = true → s.cloak.hemLock = false → s.cloak.hemBusy = false →
    ((fld v 21 31).toNat * 0x200000 < 0x100000000 ∨ 0x60100000000 < (fld v 21 31).toNat * 0x200000) →
    exec (.hemWrite a v) s = .next { s with cloak := { s.cloak with hemErr := 1 } }) ∧
  (∀ (s : State) (a : Agent) (v : Word), agentRuns s a = true → agentSecure s a = true → s.cloak.hemLock = false → s.cloak.hemBusy = false →
    0x100000000 ≤ (fld v 21 31).toNat * 0x200000 → (fld v 21 31).toNat * 0x200000 ≤ 0x60100000000 →
    hemConflict s ((fld v 21 31).toNat * 0x200000) = false →
    exec (.hemWrite a v) s = .next { s with cloak := { s.cloak with
      hemErr := 0, hemAddr := fld v 21 31, hemLock := bit v 63, hemBusy := decide (fld v 21 31 ≠ s.cloak.hemAddr)
      hemOld := if fld v 21 31 ≠ s.cloak.hemAddr then some s.cloak.hemAddr else none } }) ∧
  (∀ (s : State) (a : Agent) (v : Word), agentRuns s a = true → agentSecure s a = true → s.cloak.hemLock = true → exec (.hemWrite a v) s = .next s) ∧
  (∀ (s : State) (m : Mc) (v : Word), ∃ t, exec (.hemWrite (.mc m) v) s = .next t ∧ t.cloak = s.cloak ∧ t.answer = .error) ∧
  (∀ (s : State) (o : BitVec 31), s.cloak.hemOld = some o → s.coh.txns = [] → s.coh.dir = [] →
    exec .hemScanDone s = .next { s with cloak := { s.cloak with hemBusy := false, hemOld := none } }) ∧
  (∀ (s : State) (a : Agent), agentRuns s a = true → agentSecure s a = true →
    exec (.monrdySet a) s = .next { settleRelease { s with boot := { s.boot with monrdy := true } } with pending := s.pending }) ∧
  (∀ (s : State) (a : Agent) (v : Word), agentRuns s a = true → agentSecure s a = true → s.cloak.wdtLock = false → s.cloak.wdtStep = 0 →
    (bit v 63 = false ∨ (1 ≤ (fld v 0 16).toNat ∧ (fld v 0 16).toNat ≤ 60000)) →
    exec (.wdtCtlWrite a v) s = .next { s with cloak := { s.cloak with
      wdtLock := bit v 63, wdtEn := bit v 62
      wdtTmo := if 1 ≤ (fld v 0 16).toNat ∧ (fld v 0 16).toNat ≤ 60000 then fld v 0 16 else s.cloak.wdtTmo
      wdtFrom := s.time, wdtWarn := false } }) ∧
  (∀ (s : State) (a : Agent) (v : Word), agentRuns s a = true → agentSecure s a = true → s.cloak.wdtStep = 0 →
    exec (.wdtKick a v) s = .next (if fld v 0 16 = 0xC10A then { s with cloak := { s.cloak with wdtFrom := s.time, wdtWarn := false } }
      else s)) ∧
  (∀ s : State, s.cloak.wdtEn = true → s.cloak.wdtStep = 0 →
    exec .wdtWarn s = .next { s with cloak := { s.cloak with wdtWarn := true } }) ∧
  (∀ s : State, s.cloak.wdtEn = true → s.cloak.wdtStep = 0 → s.pls.step = 0 → s.stor.st = 0 → ∃ t, exec .wdtExpire s = .next t ∧
    t.pins.inReset = true ∧ t.pins.intReset = some s.time ∧ t.cloak.wdtExp = true ∧ t.cloak.wdtDfail = false ∧ t.harts = []) ∧
  (∀ s : State, s.cloak.wdtStep ≠ 0 → ∃ t, exec .wdtDrainDeadline s = .next t ∧ t.pins.inReset = true ∧
    t.pins.intReset = some s.time ∧ t.cloak.wdtExp = true ∧ t.cloak.wdtDfail = true ∧ t.pins.evWdt = true ∧ t.harts = [] ∧
    t.boot.flash = s.boot.flash ∧ t.ftl.media = s.ftl.media)

/-- What the monitor calls return. A hart that issues and makes a monitor call (HS-mode, or S-mode with V 0, a7 the call's
number, a6 zero): the call enters the monitor, which serves it or, by a policy and shared resources the spec leaves open,
returns DENIED or BUSY; a served call returns 0 in a0 and its value in a1; it resumes after the ECALL and leaves the secure
world. CLOAK_VERSION returns the monitor version, CLOAK_PROBE whether a0 names an implemented call, HEM_QUERY the Hem register
and CLAIM_QUERY the claim register. ATTEST_REPORT and ALIAS_PUBKEY with good buffers write their data there and return its
length. It says where these complete with their own effect: cloakVersion, cloakProbe, hemQuery, claimQuery, aliasPubkey,
attestReport. (R67, R69, R71, R72, R390, 03_cloak_secure_world.md) -/
def Obligations.MonitorCallsAnswer : Prop :=
  let ret (s : State) (h : HartId) (v : Word) (u : State) : Host.Outcome State Fault Refusal :=
    .next { leaveSecure h (u.modHart h fun y =>
      (((y.setX 10 0).setC 0x341 (y.c 0x341 + 4)).setX 11 v)) with pending := s.pending }
  let deny (s : State) (h : HartId) (e : Nat) : Host.Outcome State Fault Refusal :=
    .next { leaveSecure h ((monitorEntry h s).draw.modHart h fun y =>
      ((y.setX 10 (0 - BitVec.ofNat 64 e)).setC 0x341 (y.c 0x341 + 4))) with pending := s.pending }
  let calls (s : State) (h : HartId) (n : Nat) : Prop :=
    hartIssues s h = true ∧ inCall (s.hart h) = false ∧ isMonCall (s.hart h) = true ∧ ((s.hart h).gx 17).toNat = n ∧ (s.hart h).gx 16 = 0
  let served (s : State) (h : HartId) (o r : Host.Outcome State Fault Refusal) : Prop := o = r ∨ o = deny s h 4 ∨ o = deny s h 6
  (∀ (s : State) (h : HartId), calls s h 0x09000000 → served s h (exec (.cloakVersion h) s)
    (ret s h (Config.monitorVersion.setWidth 32 |>.setWidth 64) (monitorEntry h s).draw)) ∧
  (∀ (s : State) (h : HartId), calls s h 0x09000001 → served s h (exec (.cloakProbe h) s)
    (ret s h (if callListed ((s.hart h).gx 10).toNat then 1 else 0) (monitorEntry h s).draw)) ∧
  (∀ (s : State) (h : HartId), calls s h 0x09000020 → served s h (exec (.hemQuery h) s)
    (ret s h (rdHem (monitorEntry h s)) (monitorEntry h s).draw)) ∧
  (∀ (s : State) (h : HartId), calls s h 0x09000030 → served s h (exec (.claimQuery h) s)
    (ret s h (rdClaim (monitorEntry h s)) (monitorEntry h s).draw)) ∧
  (∀ (s : State) (h : HartId), calls s h 0x09000011 → 1793 ≤ ((s.hart h).gx 11).toNat →
    bufferOk (monitorEntry h s) h ((s.hart h).gx 10).toNat ((s.hart h).gx 11).toNat = true →
    served s h (exec (.aliasPubkey h) s) (ret s h 1793 (cohWrite ((s.hart h).gx 10).toNat
      ((aliasPub (monitorEntry h s).draw ++ zeros 1793).take 1793) false (monitorEntry h s).draw))) ∧
  (∀ (s : State) (h : HartId), calls s h 0x09000010 → 1936 ≤ ((s.hart h).gx 11).toNat →
    bufferOk (monitorEntry h s) h ((s.hart h).gx 10).toNat ((s.hart h).gx 11).toNat = true →
    bufferOk (monitorEntry h s) h ((s.hart h).gx 12).toNat 32 = true →
    (cohRead (monitorEntry h s).draw ((s.hart h).gx 12).toNat 32).2 = false →
    served s h (exec (.attestReport h) s) (ret s h 1936 (cohWrite ((s.hart h).gx 10).toNat
      (attReport (monitorEntry h s).draw (cohRead (monitorEntry h s).draw ((s.hart h).gx 12).toNat 32).1) false (monitorEntry h s).draw.draw)))

/-- Clock and power requests, claims, and the end of PK3. A request named for its target, outside a thermal shutdown, on a
block that is not a Sleeve and whose condition holds: if the block is not yet in the state and no claim stands in the way (for
a power-up: none set while the block's stop was in progress), the operation starts and REQSTAT shows it busy; a request of the
normal world on a claimed block is deferred. The operation's end (for a Sleeve, once its Cuff's flits are acknowledged or its
training has ended) brings the block to its state and reports DONE. A claim write of a secure agent that runs lets the
deferred requests of the cleared blocks proceed; the bound's expiry ends a deferred request REFUSED with a CLAIMREF record. A
management wake packet ends PK3 unless a thermal shutdown still holds it. It says where these complete with their own effect:
powerUp, clockStop, powerOff, powerReqDone, claimWrite, claimBoundExpire, mgmtWakePacket. (R83, R84, R332, R333,
03_cloak_secure_world.md, 13_power_and_thermal.md) -/
def Obligations.ClaimsAndPowerRequests : Prop :=
  (∀ (s : State) (b : BlockId) (w : Requester), b.val ≠ 33 → s.thm.shut = 0 → 12 ≤ b.val → blockState s b ≠ 0 →
    (∀ o ∈ s.pwr.deferred, o.block ≠ b) → (∀ o ∈ s.pwr.ops, o.block ≠ b) → secOnly s b w = false →
    exec (.powerUp w b) s = .next { s with pwr := { s.pwr with
      ops := s.pwr.ops ++ [⟨b, 0, w, none, s.time⟩], reqBusy := true, reqTarget := BitVec.ofNat 6 b, reqOutcome := 0 } }) ∧
  (∀ (s : State) (b : BlockId) (w : Requester), opNamed s 1 b = true → s.thm.shut = 0 → 12 ≤ b.val → opCond s 1 b = true →
    blockState s b = 0 → (reqNormal s w = false ∨ claimed s b = false) → (∀ o ∈ s.pwr.ops, o.block ≠ b) →
    exec (.clockStop w b) s = .next { s with pwr := { s.pwr with
      ops := s.pwr.ops ++ [⟨b, 1, w, none, s.time⟩], reqBusy := true, reqTarget := BitVec.ofNat 6 b, reqOutcome := 0 } }) ∧
  (∀ (s : State) (b : BlockId) (w : Requester), opNamed s 2 b = true → s.thm.shut = 0 → 12 ≤ b.val → opCond s 2 b = true →
    blockState s b ≠ 2 → (reqNormal s w = false ∨ claimed s b = false) → (∀ o ∈ s.pwr.ops, o.block ≠ b) →
    exec (.powerOff w b) s = .next { s with pwr := { s.pwr with
      ops := s.pwr.ops ++ [⟨b, 2, w, none, s.time⟩], reqBusy := true, reqTarget := BitVec.ofNat 6 b, reqOutcome := 0 } }) ∧
  (∀ (s : State) (b : BlockId) (w : Requester), opNamed s 2 b = true → s.thm.shut = 0 → 12 ≤ b.val → opCond s 2 b = true →
    blockState s b ≠ 2 → reqNormal s w = true → claimed s b = true → (∀ o ∈ s.pwr.deferred, o.block ≠ b) →
    exec (.powerOff w b) s = .next { s with pwr := { s.pwr with
      deferred := s.pwr.deferred ++ [⟨b, 2, w, none, s.time⟩], reqBusy := true, reqTarget := BitVec.ofNat 6 b, reqOutcome := 1 } }) ∧
  (∀ (s : State) (b : BlockId) (o : PwrOp), s.pwr.ops.find? (fun o => o.block = b) = some o → opWaits o s = false →
    exec (.powerReqDone b) s = .next { endReq o ocDone (opEffect o.op b.val
      { s with pwr := { s.pwr with ops := s.pwr.ops.filter fun q => q.block ≠ b } }) with pending := s.pending }) ∧
  (∀ (s : State) (a : Agent) (v : Word), agentRuns s a = true → agentSecure s a = true → s.pwr.deferred = [] → s.pwr.offPending = none →
    exec (.claimWrite a v) s = .next { s with cloak := { s.cloak with claim := fld v 0 40 }, pwr := { s.pwr with
      secHeld := newlyHeld s (fld v 0 40) } }) ∧
  (∀ (s : State) (a : Agent) (v : Word) (o : PwrOp), agentRuns s a = true → agentSecure s a = true → s.pwr.deferred = [o] → s.pwr.offPending = none →
    (fld v 0 40).getLsbD o.block.val = false →
    exec (.claimWrite a v) s = .next { proceed o { s with cloak := { s.cloak with claim := fld v 0 40 }, pwr := { s.pwr with
      secHeld := newlyHeld s (fld v 0 40), deferred := [] } }
      with pending := s.pending }) ∧
  (∀ (s : State) (b : BlockId) (o : PwrOp), s.pwr.deferred.find? (fun o => o.block = b) = some o →
    exec (.claimBoundExpire b) s = .next { reportClaimref b o.who (endReq o ocRefused
      { s with pwr := { s.pwr with deferred := s.pwr.deferred.filter fun o => o.block ≠ b } }) with pending := s.pending }) ∧
  (∀ s : State, s.pwr.pk3 = true → ¬ (s.pwr.pk3Cause = 2 ∧ 80000 ≤ maxReading s.thm.sensors) →
    ∃ t, exec .mgmtWakePacket s = .next t ∧ t.pwr.pk3 = false ∧ t.pins = { s.pins with evPk3 := true } ∧
      t.pwr.wakesrc.extractLsb' 0 8 = 9 ∧ t.harts = s.harts ∧ t.ftl = s.ftl)

/-- Performance levels, the power limiter, sleep states, and the Lace port. A write to a Sleeve's performance register sets
REQ, withdraws a deferred request on the Sleeve and starts the transition to the lower of REQ and LIM when none is under way;
the transition's end makes the target the level in force. The limiter's tick records the power; above the limit it restarts
its count, between 0.95 of the limit and the limit it changes nothing else. A scope enters the deepest state whose condition
holds and that fits before its next known event; the entry's end puts it there. A wake source, or the next known event, starts
the wake of a core that sleeps while its Sleeve and the package are active; each ready signal advances the wake once the
package is awake (a Sleeve's step 2: once its Cuff has trained), and the fourth ends it. SETDASA with the port's static
address, and ENTDAA, give the port a dynamic address when it holds none; RSTDAA clears it. GETPID, GETBCR and GETDCR answer
the part's constants and GETSTATUS two bytes that the spec leaves open, changing nothing else but the free-value counter. A
matching address is acknowledged and wakes the package; another is not, and nothing wakes. An index write with no byte after
it sets the index and answers the registers from it. CMD 0x01 wakes the package. CMD 0x5A with LACEPD 1, storage disabled, no
block claimed and no thermal shutdown enters PK3. It says where these complete with their own effect: plReqWrite,
plTransitionDone, powerLimiterTick, sleepEnter, sleepEntryDone, wakeSource, knownEventWake, wakeStepReady, setdasa, entdaa,
rstdaa, getpid, getbcr, getdcr, getstatus, laceMatch, laceIndexWrite, laceCmdWake, laceCmdPk3. (R324, R325, R326, R328, R329,
R330, R331, R333, R334, R335, 13_power_and_thermal.md) -/
def Obligations.PerformanceSleepAndWake : Prop :=
  (∀ (s : State) (a : Agent) (k : SleeveId) (v : Word), agentRuns s a = true →
    exec (.plReqWrite a k v) s = .next { plApply k ((withdraw k s).modSlvPwr k fun p => { p with req := fld v 0 3 }) with pending := s.pending }) ∧
  (∀ (s : State) (k : SleeveId), (s.slvPwr k).busy = true →
    exec (.plTransitionDone k) s = .next { plApply k (s.setSlvPwr k { s.slvPwr k with cur := (s.slvPwr k).target, busy := false })
      with pending := s.pending }) ∧
  (∀ (s : State) (m : BitVec 10), m.toNat ≤ s.pwr.limit.toNat → s.pwr.limit.toNat * 95 ≤ m.toNat * 100 →
    exec (.powerLimiterTick m) s = .next { s with pwr := { s.pwr with meas := m, belowCnt := 0 } }) ∧
  (∀ (s : State) (m : BitVec 10) (k : Nat), s.pwr.limit.toNat < m.toNat →
    limiterPick { s with pwr := { s.pwr with meas := m, belowCnt := 0 } } = some k →
    exec (.powerLimiterTick m) s = .next { plApply k { (({ s with pwr := { s.pwr with meas := m, belowCnt := 0 } } : State).modSlvPwr k
        fun v => { v with pwc := v.pwc - 1 }) with
      pwr := { (({ s with pwr := { s.pwr with meas := m, belowCnt := 0 } } : State).modSlvPwr k fun v => { v with pwc := v.pwc - 1 }).pwr with
        lowered := k :: s.pwr.lowered.filter (· ≠ k) } } with pending := s.pending }) ∧
  (∀ (s : State) (sc : Scope) (st : Nat), opOn sc s.pwr.entering = false → opOn sc s.pwr.waking = false →
    (stateList s sc).find? (fun st => entryOk s sc st && stateFits s sc st && decide (stateOf s sc < st)) = some st →
    exec (.sleepEnter sc) s = .next { s with pwr := { s.pwr with entering := s.pwr.entering ++ [⟨sc, st, 0, 0⟩] } }) ∧
  (∀ (s : State) (sc : Scope) (o : SleepOp), s.pwr.entering.find? (fun o => o.scope = sc) = some o →
    unacked s sc = false → exec (.sleepEntryDone sc) s = .next { enterEffect sc o.state (setStateOf sc o.state
      { s with pwr := { s.pwr with entering := s.pwr.entering.filter fun o => o.scope ≠ sc } }) with pending := s.pending }) ∧
  (∀ (s : State) (c : CoreId) (src : BitVec 8), opOn (.core c) s.pwr.waking = false → s.pwr.entering = [] → coreSl s c ≠ 0 →
    (s.slvPwr (Fin.ofNat 12 (c.val / 20)).val).sl = 0 → s.pwr.pk = 0 →
    exec (.wakeSource (.core c) src) s = .next { s with pwr := { s.pwr with
      waking := s.pwr.waking.filter (fun o => o.scope ≠ .core c) ++ [⟨.core c, coreSl s c, 1, src⟩] } }) ∧
  (∀ (s : State) (c : CoreId) (e : Nat × Nat), nextEvent s (.core c) = some e → opOn (.core c) s.pwr.waking = false →
    s.pwr.entering = [] → coreSl s c ≠ 0 → (s.slvPwr (Fin.ofNat 12 (c.val / 20)).val).sl = 0 → s.pwr.pk = 0 →
    exec (.knownEventWake (.core c)) s = .next { s with pwr := { s.pwr with
      waking := s.pwr.waking.filter (fun o => o.scope ≠ .core c) ++ [⟨.core c, coreSl s c, 1, BitVec.ofNat 8 e.2⟩] } }) ∧
  (∀ (s : State) (sc : Scope) (o : SleepOp), s.pwr.waking.find? (fun o => o.scope = sc) = some o → packageFirst s sc = false → stepWaits o s = false → o.step < 4 →
    exec (.wakeStepReady sc) s = .next { wakeStep o s with pending := s.pending }) ∧
  (∀ (s : State) (sc : Scope) (o : SleepOp), s.pwr.waking.find? (fun o => o.scope = sc) = some o → packageFirst s sc = false → stepWaits o s = false → 4 ≤ o.step →
    exec (.wakeStepReady sc) s = .next { wakeDone o { s with pwr := { s.pwr with waking := s.pwr.waking.filter fun o => o.scope ≠ sc } }
      with pending := s.pending }) ∧
  (∀ (s : State) (d : BitVec 7), s.lace.dyn = none →
    exec (.setdasa (laceStatic s) d) s = .next { s with lace := { s.lace with dyn := some d } } ∧
    exec (.entdaa d) s = .next { s with lace := { s.lace with dyn := some d } }) ∧
  (∀ s : State, exec .rstdaa s = .next { s with lace := { s.lace with dyn := none } }) ∧
  (∀ s : State, exec .getpid s = .next { s with answer := .bytes (leBytes 6 Config.lacePid.toNat).reverse }) ∧
  (∀ s : State, exec .getbcr s = .next { s with answer := .bytes [Config.laceBcr] }) ∧
  (∀ s : State, exec .getdcr s = .next { s with answer := .bytes [Config.laceDcr] }) ∧
  (∀ s : State, ∃ a b : Byte, exec .getstatus s = .next { s with free := s.free + 1, answer := .bytes [a, b] }) ∧
  (∀ (s : State) (a : BitVec 7), laceHit s a = true →
    exec (.laceMatch a) s = .next { laceWake s with answer := .word 1, pending := s.pending }) ∧
  (∀ (s : State) (a : BitVec 7), laceHit s a = false → exec (.laceMatch a) s = .next { s with answer := .none }) ∧
  (∀ (s : State) (i : BitVec 8), exec (.laceIndexWrite i []) s = .next { s with
    lace := { s.lace with index := i }
    answer := .bytes ((upto (6 - i.toNat)).map fun j => laceReg s (i.toNat + j)) }) ∧
  (∀ s : State, exec .laceCmdWake s = .next { laceWake s with pending := s.pending }) ∧
  (∀ s : State, s.lace.lacepd = true → s.thm.shut = 0 → s.stor.st = 0 → claimsOn s = 0 →
    ∃ t, exec .laceCmdPk3 s = .next t ∧ t.pwr.pk3 = true ∧ t.pwr.pk3Cause = 1 ∧ t.pins.inReset = true ∧ t.lace.cmdstat = 0 ∧
      t.harts = [] ∧ t.ftl.media = s.ftl.media)

/-- Scratch conversion, way power-down and the merge entry's drain. From an agent that runs and reaches the register (else the
refusal's record and fault): a SCRATCH.COUNT or WAYPD.REQ write while BUSY sets ERR 3 and nothing else; a COUNT above 8, or a
nonzero COUNT or REQ without its feature, sets ERR 1; a conflict between scratch ways and requested ways sets ERR 2; the value
in force is accepted with ERR 0; any other write is accepted and starts its sequence. The steps of a conversion to more ways
empty the added ways, clear them and set SCR; those of a conversion to fewer drop the core copies of the removed ranges, clear
them with SCR, and end. The end of a way's drain, with no way still powering up, empties the way and sets OFF; the end of a
power-up clears OFF; BUSY ends with the last way. An idle merge entry drains into its word and leaves the buffer; where the
old word proves uncorrectable, its line or granule is poisoned and a deferred error reported. It says where these complete
with their own effect: scratchWrite, waypdWrite, scratchStepDone, wayDrainDone, wayPowerUpDone, mergeEntryIdleDrain. (R115,
R116, R117, R119, R120, R127, 05_cache_hierarchy.md) -/
def Obligations.SleeveCacheControl : Prop :=
  let l3c (s : State) (a : Agent) (k : SleeveId) (o : Nat) : Option UcsKind :=
    refusal s a (agentSecure s a) true (0x20000000 + 0x4000000 * k.val + o)
  (∀ (s : State) (a : Agent) (k : SleeveId) (v : Word) (u : UcsKind), agentRuns s a = true →
    (l3c s a k 0x20000 = some u → exec (.scratchWrite a k v) s = .next { faultAgent a true
      (reportUcs a u (0x20000000 + 0x4000000 * k.val + 0x20000) false s) with pending := s.pending }) ∧
    (l3c s a k 0x20008 = some u → exec (.waypdWrite a k v) s = .next { faultAgent a true
      (reportUcs a u (0x20000000 + 0x4000000 * k.val + 0x20008) false s) with pending := s.pending })) ∧
  (∀ (s : State) (a : Agent) (k : SleeveId) (v : Word), agentRuns s a = true → l3c s a k 0x20000 = none → l3c s a k 0x20008 = none → (s.slv k).busy = true →
    exec (.scratchWrite a k v) s = .next (s.setSlv k { s.slv k with err := 3 }) ∧
    exec (.waypdWrite a k v) s = .next (s.setSlv k { s.slv k with err := 3 })) ∧
  (∀ (s : State) (a : Agent) (k : SleeveId) (v : Word), agentRuns s a = true → l3c s a k 0x20000 = none → (s.slv k).busy = false →
    (8 < (fld v 0 4).toNat ∨ (fld v 0 4 ≠ 0 ∧ featOn s 2 = false)) →
    exec (.scratchWrite a k v) s = .next (s.setSlv k { s.slv k with err := 1 })) ∧
  (∀ (s : State) (a : Agent) (k : SleeveId) (v : Word), agentRuns s a = true → l3c s a k 0x20000 = none → (s.slv k).busy = false →
    (fld v 0 4).toNat ≤ 8 → (fld v 0 4 = 0 ∨ featOn s 2 = true) →
    exec (.scratchWrite a k v) s = .next (s.setSlv k (
      if scratchWays (fld v 0 4).toNat &&& (s.slv k).wayReq ≠ 0 then { s.slv k with err := 2 }
      else if fld v 0 4 = (s.slv k).count then { s.slv k with err := 0 }
      else { s.slv k with
        err := 0, busy := true, count := fld v 0 4, convTo := some (fld v 0 4).toNat, convStep := 1
        drain := if (s.slv k).count.toNat < (fld v 0 4).toNat then scratchWays (fld v 0 4).toNat &&& ~~~ (s.slv k).scr
          else (s.slv k).drain }))) ∧
  (∀ (s : State) (a : Agent) (k : SleeveId) (v : Word), agentRuns s a = true → l3c s a k 0x20008 = none → (s.slv k).busy = false →
    fld v 0 16 ≠ 0 → featOn s 3 = false → exec (.waypdWrite a k v) s = .next (s.setSlv k { s.slv k with err := 1 })) ∧
  (∀ (s : State) (a : Agent) (k : SleeveId) (v : Word), agentRuns s a = true → l3c s a k 0x20008 = none → (s.slv k).busy = false →
    (fld v 0 16 = 0 ∨ featOn s 3 = true) → fld v 0 16 &&& (s.slv k).scr ≠ 0 →
    exec (.waypdWrite a k v) s = .next (s.setSlv k { s.slv k with err := 2 })) ∧
  (∀ (s : State) (a : Agent) (k : SleeveId) (v : Word), agentRuns s a = true → l3c s a k 0x20008 = none → (s.slv k).busy = false →
    (fld v 0 16 = 0 ∨ featOn s 3 = true) → fld v 0 16 &&& (s.slv k).scr = 0 → fld v 0 16 ≠ (s.slv k).wayReq →
    exec (.waypdWrite a k v) s = .next { wayBusy k (s.setSlv k { s.slv k with
      err := 0, wayReq := fld v 0 16, drain := fld v 0 16 &&& ~~~ (s.slv k).wayReq, powerUp := (s.slv k).wayReq &&& ~~~ fld v 0 16 })
      with pending := s.pending }) ∧
  (∀ (s : State) (k : SleeveId) (m n : Nat), m < n → n ≤ 8 → (s.slv k).scr = scratchWays m → (s.slv k).convTo = some n →
    (s.slv k).convStep = 2 →
    exec (.scratchStepDone k) s = .next { ((waysFrom m n).foldl (fun a w => clearScratch k w a) s).modSlv k
      (fun v => { v with convStep := v.convStep + 1 }) with pending := s.pending }) ∧
  (∀ (s : State) (k : SleeveId) (m n : Nat), m < n → n ≤ 8 → (s.slv k).scr = scratchWays m → (s.slv k).convTo = some n →
    (s.slv k).convStep = 3 →
    exec (.scratchStepDone k) s = .next { (s.modSlv k fun v => { v with scr := scratchWays n }).modSlv k
      (fun v => { v with convTo := none, convStep := 0, busy := false, drain := 0 }) with pending := s.pending }) ∧
  (∀ (s : State) (k : SleeveId) (m n : Nat), n < m → m ≤ 8 → (s.slv k).scr = scratchWays m → (s.slv k).convTo = some n →
    (s.slv k).convStep = 1 →
    exec (.scratchStepDone k) s = .next { ((waysFrom n m).foldl (fun a w => dropScratchCopies k w a) s).modSlv k
      (fun v => { v with convStep := v.convStep + 1 }) with pending := s.pending }) ∧
  (∀ (s : State) (k : SleeveId) (m n : Nat), m < n → n ≤ 8 → (s.slv k).scr = scratchWays m → (s.slv k).convTo = some n →
    (s.slv k).convStep = 1 →
    exec (.scratchStepDone k) s = .next { ((upto 16).foldl (fun a w => if (s.slv k).drain.getLsbD w then emptyWay k w a else a) s).modSlv k
      (fun v => { v with convStep := v.convStep + 1 }) with pending := s.pending }) ∧
  (∀ (s : State) (k : SleeveId) (m n : Nat), n < m → m ≤ 8 → (s.slv k).scr = scratchWays m → (s.slv k).convTo = some n →
    (s.slv k).convStep = 2 →
    exec (.scratchStepDone k) s = .next { (((waysFrom n m).foldl (fun a w => clearScratch k w a) s).modSlv k
      (fun v => { v with scr := scratchWays n })).modSlv k (fun v => { v with convStep := v.convStep + 1 }) with pending := s.pending }) ∧
  (∀ (s : State) (k : SleeveId) (n : Nat), n ≤ 8 → (s.slv k).scr = scratchWays n → (s.slv k).convTo = some n →
    exec (.scratchStepDone k) s = .next { s.modSlv k
      (fun v => { v with convTo := none, convStep := 0, busy := false, drain := 0 }) with pending := s.pending }) ∧
  (∀ (s : State) (k : SleeveId) (w : Fin 16), (s.slv k).convTo = none → (s.slv k).powerUp = 0 → (s.slv k).drain.getLsbD w = true →
    exec (.wayDrainDone k w) s = .next { wayBusy k ((emptyWay k w s).modSlv k fun v =>
      { v with off := setBit v.off w true, drain := setBit v.drain w false }) with pending := s.pending }) ∧
  (∀ (s : State) (k : SleeveId) (w : Fin 16), (s.slv k).powerUp.getLsbD w = true →
    exec (.wayPowerUpDone k w) s = .next { wayBusy k (s.modSlv k fun v =>
      { v with off := setBit v.off w false, powerUp := setBit v.powerUp w false }) with pending := s.pending }) ∧
  (∀ (s : State) (b : MergeBank) (w : Nat) (e : MergeEnt), (mergeEnts s b).find? (fun e => e.word == w) = some e →
    exec (.mergeEntryIdleDrain b w false) s = .next { (upto 8).foldl
      (fun a i => if e.mask.getLsbD i then setByte (8 * w + i) (e.data.extractLsb' (8 * i) 8) a else a)
      (setMerge b ((mergeEnts s b).filter fun e => e.word ≠ w) s) with pending := s.pending }) ∧
  (∀ (s : State) (b : MergeBank) (w : Nat) (e : MergeEnt), (mergeEnts s b).find? (fun e => e.word == w) = some e →
    exec (.mergeEntryIdleDrain b w true) s = .next { homeUe (8 * w) (drainEntry b w s) with pending := s.pending })

/-- RdS, RdC, RdO and Upg at their homes. A request of an agent that is on and that has none outstanding for the line, nor a
write-back unanswered, for a cacheable line that its domain may use, leaves the network, when no earlier packet must come
first, and is recorded as outstanding. If a transaction for the line is waiting at the home, the request queues behind it. If
no request queues and no transaction for the line is active, a home agent begins it: RdS or RdC of a line in X at another
Sleeve sends SnpFwdS to the owner; RdO of a line in X at another Sleeve sends SnpFwdO to the owner; RdS or RdC of a line in P
sends SnpFwdS to the nearest other sharer; RdO of a line in P sends SnpFwdO to the nearest other sharer and SnpI to the rest;
Upg of a sharer sends SnpI to the other sharers; the transaction then waits for those it snooped. A slice whose Sleeve holds
nothing of the line asks the line's home agent. A request of an agent that is off changes nothing but the network; a request
that must not be sent yet, or that an earlier packet holds up, changes nothing. It says where these complete with their own
effect: rds, rdc, rdo, upg. (R134, R136, R139, R140, 06_coherence.md) -/
def Obligations.CoherenceRequestsOfCachingAgents : Prop :=
  let msg (kind : ReqKind) (l : Level) (a n : Nat) : Msg := mkMsg l (reqCmd kind) a homeEnd n
  let asked (kind : ReqKind) (l : Level) (a n : Nat) (u : State) : State :=
    if (mshrOf u l a n).isSome then u else { u with coh := { u.coh with mshr := u.coh.mshr ++
      [⟨l, a, n, decide (kind = .rdo ∨ kind = .upg), decide (kind = .rdc), decide (kind ≠ .upg) || !agentHolds u l a n,
        decide (kind = .rdo ∨ kind = .upg), false, []⟩] } }
  let sent (kind : ReqKind) (l : Level) (a n : Nat) (s : State) : State := asked kind l a n (takeMsg (msg kind l a n) s)
  let begin (t : Txn) (u : State) : State := { u with coh := { u.coh with txns := u.coh.txns ++ [{ t with since := u.time }] } }
  let cmd (kind : ReqKind) (l : Level) (a n : Nat) : Instr :=
    match kind with | .rds => .rds l a n | .rdc => .rdc l a n | .rdo => .rdo l a n | _ => .upg l a n
  let due (kind : ReqKind) (l : Level) (a n : Nat) (s : State) : Prop :=
    mayAsk s (msg kind l a n) = true ∧ msgBlocked (msg kind l a n) s = false
  let good (kind : ReqKind) (l : Level) (a n : Nat) (s : State) : Prop :=
    due kind l a n s ∧ agentOff s l a = false ∧ cacheable (regionOf s (64 * n)) = true ∧
    domainOk s (match l with | .vest => domainOf s a | .sleeve k => domainOf s k) (64 * n) = true
  (∀ (s : State) (l : Level) (a n : Nat), exec (.rds l a n) s = exec (cmd .rds l a n) s ∧ exec (.rdc l a n) s = exec (cmd .rdc l a n) s ∧
    exec (.rdo l a n) s = exec (cmd .rdo l a n) s ∧ exec (.upg l a n) s = exec (cmd .upg l a n) s) ∧
  (∀ (s : State) (kind : ReqKind) (l : Level) (a n : Nat), kind ∈ [ReqKind.rds, .rdc, .rdo, .upg] →
    (due kind l a n s → agentOff s l a = true → exec (cmd kind l a n) s = .next (takeMsg (msg kind l a n) s)) ∧
    (¬ due kind l a n s → exec (cmd kind l a n) s = .next s)) ∧
  (∀ (s : State) (kind : ReqKind) (l : Level) (a n : Nat) (t : Txn), kind ∈ [ReqKind.rds, .rdc, .rdo, .upg] → good kind l a n s →
    txnOf s l n = some t → t.wait ≠ [] →
    exec (cmd kind l a n) s = .next { sent kind l a n s with
      coh := { (sent kind l a n s).coh with queue := s.coh.queue ++ [mkTxn l kind a n none s.time] } }) ∧
  (∀ (s : State) (kind : ReqKind) (a n o : Nat), kind ∈ [ReqKind.rds, .rdc] → good kind .vest a n s → lineIdle .vest n s →
    dirSt s n = some (.x o) → o ≠ a →
    exec (cmd kind .vest a n) s = .next (begin { mkTxn .vest kind a n none s.time with wait := [o], fwd := some o }
      (sendSnoops .vest 0x10 n a [o] (sent kind .vest a n s)))) ∧
  (∀ (s : State) (a n o : Nat), good .rdo .vest a n s → lineIdle .vest n s → dirSt s n = some (.x o) → o ≠ a →
    exec (cmd .rdo .vest a n) s = .next (begin { mkTxn .vest .rdo a n none s.time with wait := [o], fwd := some o }
      (sendSnoops .vest 0x11 n a [o] (sent .rdo .vest a n s)))) ∧
  (∀ (s : State) (kind : ReqKind) (a n o : Nat) (p : List Nat), kind ∈ [ReqKind.rds, .rdc] → good kind .vest a n s →
    lineIdle .vest n s → dirSt s n = some (.p p) → nearestSlv s a (p.filter (· ≠ a)) = some o →
    exec (cmd kind .vest a n) s = .next (begin { mkTxn .vest kind a n none s.time with wait := [o], fwd := some o }
      (sendSnoops .vest 0x10 n a [o] (sent kind .vest a n s)))) ∧
  (∀ (s : State) (a n o : Nat) (p : List Nat), good .rdo .vest a n s → lineIdle .vest n s → dirSt s n = some (.p p) →
    nearestSlv s a (p.filter (· ≠ a)) = some o → o ∈ p.filter (· ≠ a) →
    exec (cmd .rdo .vest a n) s = .next (begin { mkTxn .vest .rdo a n none s.time with wait := p.filter (· ≠ a), fwd := some o }
      (sendSnoops .vest 0x13 n a ((p.filter (· ≠ a)).filter (· ≠ o))
        (sendSnoops .vest 0x11 n a [o] (sent .rdo .vest a n s))))) ∧
  (∀ (s : State) (a n : Nat) (p : List Nat), good .upg .vest a n s → lineIdle .vest n s → dirSt s n = some (.p p) →
    p.contains a = true → p.filter (· ≠ a) ≠ [] →
    exec (cmd .upg .vest a n) s = .next (begin { mkTxn .vest .upg a n none s.time with wait := p.filter (· ≠ a) }
      (sendSnoops .vest 0x13 n a (p.filter (· ≠ a)) (sent .upg .vest a n s)))) ∧
  (∀ (s : State) (kind : ReqKind) (k : SleeveId) (c n : Nat), kind ∈ [ReqKind.rds, .rdc] → good kind (.sleeve k) c n s →
    lineIdle (.sleeve k) n s → homeRoom (sent kind (.sleeve k) c n s) (.sleeve k) n = true → scratchSlv n = none → slvLevel s k n = .I →
    exec (cmd kind (.sleeve k) c n) s = .next (begin { mkTxn (.sleeve k) kind c n none s.time with home := true }
      (askHome k n kind (sent kind (.sleeve k) c n s))))

/-- RdCur, WrFull, WrPart and the atomics at a home agent. Of an agent that runs: a refused request is answered with an error
and recorded, and nothing else changes. With no request queued, no transaction active for the line and none held by the Belt,
and room for its directory entry: RdCur of a line that no Sleeve holds in X answers the memory copy (after the array errors
that it meets have had their effect), and an error with a record when it is poisoned; RdCur of a line in X sends SnpCur to the
owner and waits; WrFull and WrPart of a line without a directory entry write their bytes at the home and clear reservations on
the line; of a line that Sleeves hold, they send SnpI to each holder and wait; an aligned atomic on a line without an entry
and not poisoned is performed at the home and answers the old value. A request for a line whose transaction waits queues
behind it. A misaligned atomic is answered with an error. It says where these complete with their own effect: rdcur, wrfull,
wrpart, atomh, atomf. (R30, R73, R123, R131, R140, R144, R148, 06_coherence.md) -/
def Obligations.RequestsOfAgentsThatCacheNothing : Prop :=
  let home (s : State) (w : Agent) (wr : Bool) (a : Nat) : Prop :=
    refusal s w (agentSecure s w) wr a = none ∧
      (regionOf s a = .bootRom ∨ regionOf s a = .sram ∨ regionOf s a = .dram ∨ regionOf s a = .cxl)
  let idle (n : Nat) (s : State) : Prop := lineIdle .vest n s ∧ dirRoom s n = true ∧ txnHeld s n = false
  let start (t : Txn) (u : State) : State := { u with coh := { u.coh with txns := u.coh.txns ++ [{ t with since := u.time }] } }
  let req (w : Agent) : Nat := farEnd + agentNode w
  let rd (s : State) (w : Agent) (n : Nat) : Txn := mkTxn .vest .rdcur (req w) n (some w) s.time
  let wf (s : State) (w : Agent) (n : Nat) (d : LineData) (p : Bool) : Txn :=
    { mkTxn .vest .wrfull (req w) n (some w) s.time with mask := BitVec.allOnes 64, val := d, poison := p }
  let wp (s : State) (w : Agent) (n : Nat) (m : BitVec 64) (d : LineData) (p : Bool) : Txn :=
    { mkTxn .vest .wrpart (req w) n (some w) s.time with mask := m, val := d, poison := p }
  let at' (s : State) (w : Agent) (op : AmoOp) (dbl : Bool) (a : Nat) (v : Word) : Txn :=
    { mkTxn .vest .atom (req w) (a / 64) (some w) s.time with aop := some (op, dbl, a, v) }
  let aligned (dbl : Bool) (a : Nat) : Prop := a % (if dbl then 8 else 4) = 0
  (∀ (s : State) (w : Agent) (n : Nat) (errs : List ArrErr) (k : UcsKind), agentRuns s w = true →
    refusal (meet errs s) w (agentSecure (meet errs s) w) false (64 * n) = some k →
    exec (.rdcur w n errs) s = .next { refuse w k (64 * n) (meet errs s) with pending := s.pending }) ∧
  (∀ (s : State) (w : Agent) (n : Nat) (m : BitVec 64) (d : LineData) (p : Bool) (k : UcsKind), agentRuns s w = true →
    refusal s w (agentSecure s w) true (64 * n) = some k →
    exec (.wrfull w n d p) s = .next { refuse w k (64 * n) s with pending := s.pending } ∧
    exec (.wrpart w n m d p) s = .next { refuse w k (64 * n) s with pending := s.pending }) ∧
  (∀ (s : State) (w : Agent) (n : Nat) (errs : List ArrErr), agentRuns s w = true → home (meet errs s) w false (64 * n) →
    idle n (meet errs s) → (∀ o, dirSt (meet errs s) n ≠ some (.x o)) → linePoison (meet errs s) n = false →
    exec (.rdcur w n errs) s = .next { meet errs s with
      answer := .bytes (bytesOfLine (memLine (meet errs s) n)), pending := s.pending }) ∧
  (∀ (s : State) (w : Agent) (n o : Nat), agentRuns s w = true → home s w false (64 * n) → lineIdle .vest n s →
    dirSt s n = some (.x o) →
    exec (.rdcur w n []) s = .next (start { rd s w n with wait := [o], fwd := some o } (sendSnoops .vest 0x12 n (req w) [o] s))) ∧
  (∀ (s : State) (w : Agent) (n : Nat) (d : LineData) (p : Bool), agentRuns s w = true → home s w true (64 * n) → idle n s →
    dirFind s n = none →
    exec (.wrfull w n d p) s = .next { writeAt n (BitVec.allOnes 64) d p (clearResv n none s) with pending := s.pending }) ∧
  (∀ (s : State) (w : Agent) (n : Nat) (m : BitVec 64) (d : LineData) (p : Bool), agentRuns s w = true → home s w true (64 * n) →
    idle n s → dirFind s n = none →
    exec (.wrpart w n m d p) s = .next { writeAt n m d p (clearResv n none s) with pending := s.pending }) ∧
  (∀ (s : State) (w : Agent) (n : Nat) (m : BitVec 64) (d : LineData) (p : Bool), agentRuns s w = true → home s w true (64 * n) →
    lineIdle .vest n s → dirHolders s n 12 ≠ [] →
    exec (.wrfull w n d p) s = .next (start { wf s w n d p with wait := dirHolders s n 12 }
      (sendSnoops .vest 0x13 n (req w) (dirHolders s n 12) s)) ∧
    exec (.wrpart w n m d p) s = .next (start { wp s w n m d p with wait := dirHolders s n 12 }
      (sendSnoops .vest 0x13 n (req w) (dirHolders s n 12) s))) ∧
  (∀ (s : State) (w : Agent) (op : AmoOp) (dbl : Bool) (a : Nat) (v : Word), agentRuns s w = true → aligned dbl a → home s w true a →
    idle (a / 64) s → dirFind s (a / 64) = none → linePoison s (a / 64) = false →
    exec (.atomh w op dbl a v) s = .next { (atomAt op dbl a v (clearResv (a / 64) none s)).1 with
      answer := .word (atomAt op dbl a v (clearResv (a / 64) none s)).2, pending := s.pending } ∧
    exec (.atomf w op dbl a v) s = exec (.atomh w op dbl a v) s) ∧
  (∀ (s : State) (w : Agent) (op : AmoOp) (dbl : Bool) (a : Nat) (v : Word), agentRuns s w = true → aligned dbl a → home s w true a →
    lineIdle .vest (a / 64) s → dirHolders s (a / 64) 12 ≠ [] →
    exec (.atomh w op dbl a v) s = .next (start { at' s w op dbl a v with wait := dirHolders s (a / 64) 12 }
      (sendSnoops .vest 0x13 (a / 64) (req w) (dirHolders s (a / 64) 12) s))) ∧
  (∀ (s : State) (w : Agent) (op : AmoOp) (dbl : Bool) (a : Nat) (v : Word), agentRuns s w = true → ¬ aligned dbl a →
    exec (.atomh w op dbl a v) s = .next { s with answer := .error } ∧ exec (.atomf w op dbl a v) s = .next { s with answer := .error }) ∧
  (∀ (s : State) (w : Agent) (n : Nat) (t : Txn), agentRuns s w = true → home s w false (64 * n) → txnOf s .vest n = some t → t.wait ≠ [] →
    exec (.rdcur w n []) s = .next { s with coh := { s.coh with queue := s.coh.queue ++ [rd s w n] } })

/-- Snoops at their holders, and the holders' answers at the home. A snoop that no earlier packet holds up, at a holder that
is on, with no LR hold nor collecting slice holding it back, and no request of the holder's own that the home has served, is
answered from the state held (after the array errors met): with the line in an outstanding WbM the holder answers RspWb;
without a copy, with or without another write-back or notice outstanding, RspI. SnpFwdS sends data to the requester and dirty
data home, keeps a shared copy and answers RspFwdF; SnpFwdO sends data granted M, gives the copy up and answers RspFwdI;
SnpCur sends the data, which is the transaction's, and answers RspCur; SnpI returns dirty data home, gives the copy up and
answers RspI. A snoop behind the holder's own served request is held with the request; one that an LR hold or a collecting
slice holds back is kept. An answer that the active transaction awaits is taken off its list, with its effect on the home's
record of holders; RspI of the holder asked to forward makes the home supply the data; RspWb before the write-back itself is
remembered; DataHome's data is kept. An answer that no transaction awaits is a protocol error. It says where these complete
with their own effect: snpfwds, snpfwdo, snpcur, snpi, rspfwdf, rspfwdi, rspi, rspwb, datahome, rspcur. (R123, R134, R138,
R140, R142, R143, R145, 06_coherence.md) -/
def Obligations.SnoopsAndAnswers : Prop :=
  let snp (l : Level) (cmd a r n : Nat) : Msg := { mkMsg l cmd homeEnd a n with req := r }
  let now (s : State) (m : Msg) : Prop :=
    msgBlocked m s = false ∧ agentOff (takeMsg m s) m.lvl m.dest = false ∧ snoopHeld (takeMsg m s) m = false ∧
    (mshrOf (takeMsg m s) m.lvl m.dest m.line = none ∨
      (takeMsg m s).coh.queue.any (fun t => t.lvl == m.lvl && t.line == m.line && t.req == m.dest) = true)
  let rsp (cmd : Nat) (l : Level) (a n : Nat) (u : State) : State := sendMsg (mkMsg l cmd a homeEnd n) u
  let dirtyHome (l : Level) (a n : Nat) (d : (LineData × Bool) × Bool) (u : State) : State :=
    if d.2 then sendMsg { mkMsg l 0x31 a homeEnd n with data := d.1.1, poison := d.1.2 } u else u
  let here (s : State) (m : Msg) : Prop := msgBlocked m s = false ∧ agentOff (takeMsg m s) m.lvl m.fr = false
  (∀ (s : State) (l : Level) (a r n : Nat) (errs : List ArrErr) (u : State), now (meet errs s) (snp l 0x10 a r n) →
    u = takeMsg (snp l 0x10 a r n) (meet errs s) → wbOut u l a n = none → agentData u l a n = none →
    exec (.snpfwds l a r n errs) s = .next { rsp 0x23 l a n u with pending := s.pending }) ∧
  (∀ (s : State) (l : Level) (a r n : Nat) (errs : List ArrErr) (u : State) (d : (LineData × Bool) × Bool),
    now (meet errs s) (snp l 0x10 a r n) → u = takeMsg (snp l 0x10 a r n) (meet errs s) → wbOut u l a n = none →
    agentData u l a n = some d →
    exec (.snpfwds l a r n errs) s = .next { rsp 0x20 l a n (dirtyHome l a n d (sendData l a r n (shareGrant u l a n r) d.1
      (agentShare l a n u))) with pending := s.pending }) ∧
  (∀ (s : State) (l : Level) (a r n : Nat) (errs : List ArrErr) (u : State) (d : (LineData × Bool) × Bool),
    now (meet errs s) (snp l 0x11 a r n) → u = takeMsg (snp l 0x11 a r n) (meet errs s) → wbOut u l a n = none →
    agentData u l a n = some d →
    exec (.snpfwdo l a r n errs) s = .next { rsp 0x21 l a n (sendData l a r n .M d.1 (snoopDrop l a n u)) with pending := s.pending }) ∧
  (∀ (s : State) (k : SleeveId) (w : Agent) (n : Nat) (errs : List ArrErr) (u : State) (d : (LineData × Bool) × Bool),
    now (meet errs s) (snp .vest 0x12 k (farEnd + agentNode w) n) → u = takeMsg (snp .vest 0x12 k (farEnd + agentNode w) n) (meet errs s) →
    wbOut u .vest k n = none → agentData u .vest k n = some d →
    exec (.snpcur k w n errs) s = .next { rsp 0x22 .vest k n (sendData .vest k (farEnd + agentNode w) n .I d.1
      (setTxn .vest n (fun t => { t with got := some d.1 }) u)) with pending := s.pending }) ∧
  (∀ (s : State) (l : Level) (a n : Nat) (errs : List ArrErr) (u : State) (d : (LineData × Bool) × Bool),
    now (meet errs s) (snp l 0x13 a 0 n) → u = takeMsg (snp l 0x13 a 0 n) (meet errs s) → wbOut u l a n = none →
    agentData u l a n = some d →
    exec (.snpi l a n errs) s = .next { rsp 0x23 l a n (dirtyHome l a n d (snoopDrop l a n u)) with pending := s.pending }) ∧
  (∀ (s : State) (l : Level) (a n : Nat) (errs : List ArrErr) (u : State) (w : WbOut), now (meet errs s) (snp l 0x13 a 0 n) →
    u = takeMsg (snp l 0x13 a 0 n) (meet errs s) → wbOut u l a n = some w →
    (w.left = true → exec (.snpi l a n errs) s = .next { rsp 0x24 l a n u with pending := s.pending }) ∧
    (w.left = false → agentData u l a n = none → exec (.snpi l a n errs) s = .next { rsp 0x23 l a n u with pending := s.pending })) ∧
  (∀ (s : State) (l : Level) (a n : Nat) (errs : List ArrErr) (u : State) (m : Mshr), msgBlocked (snp l 0x13 a 0 n) (meet errs s) = false →
    u = takeMsg (snp l 0x13 a 0 n) (meet errs s) → agentOff u l a = false → snoopHeld u (snp l 0x13 a 0 n) = false →
    mshrOf u l a n = some m → u.coh.queue.any (fun t => t.lvl == l && t.line == n && t.req == a) = false →
    exec (.snpi l a n errs) s = .next { setMshr l a n (fun r => { r with held := r.held ++ [snp l 0x13 a 0 n] }) u
      with pending := s.pending }) ∧
  (∀ (s : State) (l : Level) (a n : Nat) (errs : List ArrErr) (u : State), msgBlocked (snp l 0x13 a 0 n) (meet errs s) = false →
    u = takeMsg (snp l 0x13 a 0 n) (meet errs s) → agentOff u l a = false → snoopHeld u (snp l 0x13 a 0 n) = true →
    exec (.snpi l a n errs) s = .next { u with coh := { u.coh with late := u.coh.late ++ [snp l 0x13 a 0 n] }, pending := s.pending }) ∧
  (∀ (s : State) (l : Level) (a n : Nat) (t : Txn), t.wait.contains a = true →
    (here s (toHome l 0x20 a n) → txnOf (takeMsg (toHome l 0x20 a n) s) l n = some t →
      exec (.rspfwdf l a n) s = .next { serveLine l n (setTxn l n (answered a) (takeMsg (toHome l 0x20 a n) s)) with pending := s.pending }) ∧
    (here s (toHome l 0x21 a n) → txnOf (takeMsg (toHome l 0x21 a n) s) l n = some t →
      exec (.rspfwdi l a n) s = .next { serveLine l n (setTxn l n (answered a) (homeForget l a n (takeMsg (toHome l 0x21 a n) s)))
        with pending := s.pending }) ∧
    (here s (toHome l 0x23 a n) → txnOf (takeMsg (toHome l 0x23 a n) s) l n = some t →
      exec (.rspi l a n) s = .next { serveLine l n (
        if t.fwd = some a ∧ t.got = none then
          supplyInstead (answered a t) (setTxn l n (answered a) (homeForget l a n (takeMsg (toHome l 0x23 a n) s)))
        else setTxn l n (answered a) (homeForget l a n (takeMsg (toHome l 0x23 a n) s))) with pending := s.pending }) ∧
    (here s (toHome l 0x24 a n) → txnOf (takeMsg (toHome l 0x24 a n) s) l n = some t →
      exec (.rspwb l a n) s = .next { serveLine l n (setTxn l n
        (fun u => if u.wbGot.contains a then answered a u else { u with wbRsp := u.wbRsp ++ [a] }) (takeMsg (toHome l 0x24 a n) s))
        with pending := s.pending }) ∧
    (∀ (d : LineData) (p : Bool) (m : Msg), m = { toHome l 0x31 a n with data := d, poison := p } → here s m →
      txnOf (takeMsg m s) l n = some t →
      exec (.datahome l a n d p) s = .next { serveLine l n (setTxn l n (fun u => { u with got := some (d, p) }) (takeMsg m s))
        with pending := s.pending })) ∧
  (∀ (s : State) (k : SleeveId) (n : Nat) (t : Txn) (u : State), here s (toHome .vest 0x22 k n) → u = takeMsg (toHome .vest 0x22 k n) s →
    txnOf u .vest n = some t → t.wait.contains k.val = true →
    exec (.rspcur k n) s = .next { serveLine .vest n (setTxn .vest n (fun v => { answered k v with
      got := v.got.or ((agentData u .vest k n).map (·.1)) }) u) with pending := s.pending }) ∧
  (∀ (s : State) (l : Level) (a n : Nat), here s (toHome l 0x23 a n) → txnOf (takeMsg (toHome l 0x23 a n) s) l n = none →
    exec (.rspi l a n) s = .next { protoError l a n (takeMsg (toHome l 0x23 a n) s) with pending := s.pending })

/-- Write-backs, notices, data and completions. Of a message that no earlier packet holds up: WbM that no transaction at the
home awaits: a Sleeve's copies go and the home writes the data if the directory names it the owner; a core's line goes to its
slice; the write-back is answered WbAck and awaits it. WbM that a transaction awaits crosses its snoop: the home answers from
the write-back data. WbK writes the data at the home and the Sleeve's copies become clean. WbC of a line that the core holds
carries it into the sleeve cache. EvC drops the copy and is answered EvAck. WbAck and EvAck end the write-back or notice of
their kind that is outstanding. Data for an outstanding request that awaits it is taken by the agent; Cmp confirms ownership;
the request ends when both have come, and held snoops are then answered. A message that nothing outstanding matches is a
protocol error. A message of or to an agent that is off only leaves the network; a message behind an earlier packet changes
nothing. It says where these complete with their own effect: wbm, wbk, wbc, evc, wback, evack, data, cmp. (R134, R136, R140,
R142, R143, 06_coherence.md) -/
def Obligations.WriteBacksDataAndCompletions : Prop :=
  let lvlOf (l : Level) (a : Nat) : Level := match l with | .vest => .sleeve (Fin.ofNat 12 a) | .sleeve k => .sleeve k
  let wb (l : Level) (cmd a n : Nat) (d : LineData) (p : Bool) : Msg := { toHome l cmd a n with data := d, poison := p }
  let here (s : State) (m : Msg) : Prop := msgBlocked m s = false ∧ agentOff (takeMsg m s) m.lvl m.fr = false
  let came (s : State) (m : Msg) : Prop := msgBlocked m s = false ∧ agentOff (takeMsg m s) m.lvl m.dest = false
  let awaits (u : State) (l : Level) (a n : Nat) : Bool := (txnOf u l n).any fun t => t.wait.contains a
  (∀ (s : State) (a n : Nat) (d : LineData) (p : Bool) (u : State), here s (wb .vest 0x32 a n d p) →
    u = noteWb .vest a n true true (takeMsg (wb .vest 0x32 a n d p) s) → awaits u .vest a n = false →
    exec (.wbm .vest a n d p) s = .next { sendMsg (mkMsg .vest 0x27 homeEnd a n) (homeWbM a n d p (slvDrop a n u)) with pending := s.pending }) ∧
  (∀ (s : State) (l : Level) (a n : Nat) (d : LineData) (p : Bool) (u : State) (t : Txn), here s (wb l 0x32 a n d p) →
    u = noteWb l a n true true (takeMsg (wb l 0x32 a n d p) s) → txnOf u l n = some t → t.wait.contains a = true →
    exec (.wbm l a n d p) s = .next { serveLine l n (sendMsg (mkMsg l 0x27 homeEnd a n) (crossing t a (d, p) (agentDrop l a n u)))
      with pending := s.pending }) ∧
  (∀ (s : State) (k : SleeveId) (c n : Nat) (d : LineData) (p : Bool) (u : State), here s (wb (.sleeve k) 0x32 c n d p) →
    u = noteWb (.sleeve k) c n true true (takeMsg (wb (.sleeve k) 0x32 c n d p) s) → awaits u (.sleeve k) c n = false →
    exec (.wbm (.sleeve k) c n d p) s = .next { sendMsg (mkMsg (.sleeve k) 0x27 homeEnd c n)
      (if (sfCores u k n).contains c then slvGiveUp k c (coreL3 u k c) ⟨n, .M, d, p⟩ true (coreDrop (coreId k c) n u) else u)
      with pending := s.pending }) ∧
  (∀ (s : State) (k : SleeveId) (n : Nat) (d : LineData) (p : Bool) (u : State), here s (wb .vest 0x33 k n d p) →
    u = l3Mod k n (fun e => { e with st := if e.st = .M then .E else e.st })
      (homeWbK k n d p (noteWb .vest k n true false (takeMsg (wb .vest 0x33 k n d p) s))) → sfFind u k n = none →
    exec (.wbk k n d p) s = .next { sendMsg (mkMsg .vest 0x27 homeEnd k n) u with pending := s.pending }) ∧
  (∀ (s : State) (k : SleeveId) (n : Nat) (d : LineData) (p : Bool) (u : State) (x : Nat × SfEnt), here s (wb .vest 0x33 k n d p) →
    u = l3Mod k n (fun e => { e with st := if e.st = .M then .E else e.st })
      (homeWbK k n d p (noteWb .vest k n true false (takeMsg (wb .vest 0x33 k n d p) s))) → sfFind u k n = some x →
    x.2.st = .M → ownerCore u k n = none →
    exec (.wbk k n d p) s = .next { sendMsg (mkMsg .vest 0x27 homeEnd k n) (sfWrite k x.1 { x.2 with st := .E } u)
      with pending := s.pending }) ∧
  (∀ (s : State) (k : SleeveId) (c : Fin 20) (n : Nat) (d : LineData) (p : Bool) (v u : State), here s (wb (.sleeve k) 0x34 c n d p) →
    v = takeMsg (wb (.sleeve k) 0x34 c n d p) s → u = noteWb (.sleeve k) c n true false v → (sfCores u k n).contains c.val = true →
    exec (.wbc k c n d p) s = .next { sendMsg (mkMsg (.sleeve k) 0x27 homeEnd c n)
      (let st := ((coreLook (v.core (coreId k c)) n).map (·.st)).getD .S
       slvGiveUp k c (coreL3 u k c) ⟨n, if st = .M then .E else st, d, p⟩ true (coreDrop (coreId k c) n u)) with pending := s.pending }) ∧
  (∀ (s : State) (a n : Nat) (u : State), here s (toHome .vest 0x25 a n) →
    u = noteWb .vest a n false false (takeMsg (toHome .vest 0x25 a n) s) → txnOf u .vest n = none →
    exec (.evc .vest a n) s = .next { sendMsg (mkMsg .vest 0x28 homeEnd a n) (homeEvC a n (slvDrop a n u)) with pending := s.pending }) ∧
  (∀ (s : State) (l : Level) (a n : Nat) (u : State) (t : Txn), here s (toHome l 0x25 a n) →
    u = noteWb l a n false false (takeMsg (toHome l 0x25 a n) s) → txnOf u l n = some t →
    exec (.evc l a n) s = .next { sendMsg (mkMsg l 0x28 homeEnd a n)
      (if t.wait.contains a then agentDrop l a n u else homeForget l a n (agentDrop l a n u)) with pending := s.pending }) ∧
  (∀ (s : State) (l : Level) (a n : Nat) (w : WbOut) (u : State), wbOut s l a n = some w →
    (w.wb = true → came s (toAgent l 0x27 a n) → u = takeMsg (toAgent l 0x27 a n) s → exec (.wback l a n) s = .next
      { u with coh := { u.coh with wbs := u.coh.wbs.filter fun w => ¬ (w.lvl = l ∧ w.agent = a ∧ w.line = n) } , pending := s.pending }) ∧
    (w.wb = false → came s (toAgent l 0x28 a n) → u = takeMsg (toAgent l 0x28 a n) s → exec (.evack l a n) s = .next
      { u with coh := { u.coh with wbs := u.coh.wbs.filter fun w => ¬ (w.lvl = l ∧ w.agent = a ∧ w.line = n) } , pending := s.pending })) ∧
  (∀ (s : State) (l : Level) (a n : Nat), wbOut s l a n = none → came s (toAgent l 0x27 a n) →
    exec (.wback l a n) s = .next { protoError (lvlOf l a) a n (takeMsg (toAgent l 0x27 a n) s) with pending := s.pending }) ∧
  (∀ (s : State) (l : Level) (a n : Nat) (st : LState) (d : LineData) (p : Bool) (q : Msg) (u : State) (m : Mshr),
    q = dataMsg s l a n st d p → msgBlocked q s = false → u = takeMsg q s → agentOff u l a = false →
    mshrOf u l a n = some m → m.needData = true →
    exec (.data l a n st d p) s = .next { mshrDone l a n (takeData l a n m st (d, p)
      (setMshr l a n (fun r => { r with needData := false }) u)) with pending := s.pending }) ∧
  (∀ (s : State) (l : Level) (a n : Nat) (m : Mshr) (u : State), came s (toAgent l 0x26 a n) → u = takeMsg (toAgent l 0x26 a n) s →
    mshrOf u l a n = some m → m.needCmp = true →
    exec (.cmp l a n) s = .next { mshrDone l a n (setMshr l a n (fun r => { r with needCmp := false }) u) with pending := s.pending }) ∧
  (∀ (s : State) (l : Level) (a n : Nat) (u : State), came s (toAgent l 0x26 a n) → u = takeMsg (toAgent l 0x26 a n) s →
    mshrOf u l a n = none → exec (.cmp l a n) s = .next { protoError (lvlOf l a) a n u with pending := s.pending }) ∧
  (∀ (s : State) (l : Level) (a n : Nat), msgBlocked (toAgent l 0x26 a n) s = false →
    agentOff (takeMsg (toAgent l 0x26 a n) s) l a = true → exec (.cmp l a n) s = .next (takeMsg (toAgent l 0x26 a n) s)) ∧
  (∀ (s : State) (l : Level) (a n : Nat), msgBlocked (toAgent l 0x26 a n) s = true → exec (.cmp l a n) s = .next s)

/-- I/O packets, completions, MSI writes and regulator grants. Of a packet that no earlier one holds up: a refused IORD or
IOWR ends in the requester's error and a record. IORD of an interrupt file reads zeros; of a register it answers the
register's bytes; of a window behind a link that serves it waits at the port with its tag, and behind one that does not it
ends in an error. IOWR writes a register or an interrupt file at once; to a window behind a link that does not serve it is
dropped and logged. IOWRNP does the same to a register, with its completion, and waits at the port for a window. IOATOM goes
to a port for swap and add and is not performed elsewhere. A completion for a waiting request takes it from the port: with a
good status an agent receives the data, and a hart's access completes; a bad status ends it in an error; a completion for
nothing changes nothing but the network. An MSI write sets the identity in the file it names, and nothing if the hart's domain
has failed; elsewhere it is recorded. A regulator grant that was asked for lets the covered packets go on. A packet behind an
earlier one changes nothing. It says where these complete with their own effect: iord, iowr, iowrnp, ioatom, iocpl, iocpld,
msiWrite, regulatorGrant. (R160, R417, R426, R466, R149, 07_fabric_and_cuffs.md, 17_pcie_cxl_iommu.md) -/
def Obligations.IoPacketsAtTargetsAndRequesters : Prop :=
  let arr (q : Packet) (s u : State) : Prop := pktBlocked s q = false ∧ u = pktTake q s
  let rd (s : State) (p : IoPkt) (n : Nat) : Packet := ioPkt s 0x48 p n 0 []
  let wr (s : State) (p : IoPkt) (l : List Byte) : Packet := ioPkt s 0x40 p l.length 0 l
  let np (s : State) (p : IoPkt) (l : List Byte) : Packet := ioPkt s 0x49 p l.length 0 l
  let at' (s : State) (p : IoPkt) (op : AmoOp) (d : Bool) (v : Word) : Packet :=
    ioPkt s 0x4A p (if d then 8 else 4) (amoCode op d) (leBytes (if d then 8 else 4) v.toNat)
  let ok (u : State) (p : IoPkt) (w : Bool) : Prop := refusal u p.who (agentSecure u p.who) w p.addr = none
  let refused (u : State) (p : IoPkt) (w : Bool) (k : UcsKind) : State :=
    faultAgent p.who w (reportUcs p.who k p.addr (secureAddr u p.addr) u)
  let park (u : State) (p : IoPkt) (q : Nat) : State := u.modPort q fun x => { x with wait := x.wait ++ [(p.tag, (p.who, p.addr))] }
  let unpark (u : State) (tag : BitVec 12) (w : Agent) (q a : Nat) : State :=
    u.modPort q fun x => { x with wait := x.wait.erase (tag, (w, a)) }
  (∀ (s u : State) (p : IoPkt) (n : Nat) (k : UcsKind), arr (rd s p n) s u → refusal u p.who (agentSecure u p.who) false p.addr = some k →
    exec (.iord p n) s = .next { refused u p false k with pending := s.pending }) ∧
  (∀ (s u : State) (p : IoPkt) (l : List Byte) (k : UcsKind), arr (wr s p l) s u →
    refusal u p.who (agentSecure u p.who) true p.addr = some k →
    exec (.iowr p l) s = .next { refused u p true k with pending := s.pending }) ∧
  (∀ (s u : State) (p : IoPkt) (n h f o : Nat), arr (rd s p n) s u → ok u p false → regionOf u p.addr = .imsic h f o →
    exec (.iord p n) s = .next { u with answer := .bytes (zeros n), pending := s.pending }) ∧
  (∀ (s u : State) (p : IoPkt) (n o : Nat) (t : State) (b : List Byte), arr (rd s p n) s u → ok u p false →
    regionOf u p.addr = .vestMmio o → mmioRead p.who ((regOf (.vestMmio o)).getD none) p.addr n u = some (t, b) →
    exec (.iord p n) s = .next { t with answer := .bytes b, pending := s.pending }) ∧
  (∀ (s u : State) (p : IoPkt) (n q : Nat), arr (rd s p n) s u → ok u p false → regionOf u p.addr = .pcie q →
    exec (.iord p n) s = .next { (if linkServes u q (winLink u q p.addr) then park u p q
      else faultAgent p.who false (reportIo q (winLink u q p.addr) p.who p.addr u)) with pending := s.pending }) ∧
  (∀ (s u : State) (p : IoPkt) (l : List Byte) (o : Nat) (t : State), ok u p true →
    regionOf u p.addr = .vestMmio o → mmioWrite p.who ((regOf (.vestMmio o)).getD none) p.addr l u = some t →
    (arr (wr s p l) s u → exec (.iowr p l) s = .next { t with pending := s.pending }) ∧
    (arr (np s p l) s u → exec (.iowrnp p l) s = .next { t with answer := .status 0 [], pending := s.pending })) ∧
  (∀ (s u : State) (p : IoPkt) (l : List Byte) (h f o : Nat), arr (wr s p l) s u → ok u p true →
    regionOf u p.addr = .imsic h f o → hartFailed u h = false →
    exec (.iowr p l) s = .next { imsicPage h f o l u with pending := s.pending }) ∧
  (∀ (s u : State) (p : IoPkt) (l : List Byte) (q : Nat), arr (wr s p l) s u → ok u p true →
    regionOf u p.addr = .pcie q → ownSpace p.addr = false →
    exec (.iowr p l) s = .next { (if linkServes u q (winLink u q p.addr) then u else logAer q u) with pending := s.pending }) ∧
  (∀ (s u : State) (p : IoPkt) (l : List Byte) (op : AmoOp) (d : Bool) (v : Word) (q : Nat), ok u p true → regionOf u p.addr = .pcie q →
    linkServes u q (winLink u q p.addr) = true →
    (arr (np s p l) s u → exec (.iowrnp p l) s = .next { park u p q with pending := s.pending }) ∧
    (arr (at' s p op d v) s u → op = .swap ∨ op = .add → exec (.ioatom p op d v) s = .next { park u p q with pending := s.pending }) ∧
    (arr (at' s p op d v) s u → op ≠ .swap → op ≠ .add →
      exec (.ioatom p op d v) s = .next { faultAgent p.who true u with pending := s.pending })) ∧
  (∀ (s u : State) (tag : BitVec 12) (w : Agent) (q a : Nat) (d : List Byte), waitingAt u tag w = some (q, a) → (∀ h, w ≠ .hart h) →
    d ≠ [] →
    (arr (cplFor s tag w 0 []) s u →
      exec (.iocpl tag w 0) s = .next { unpark u tag w q a with answer := .status 0 [], pending := s.pending }) ∧
    (arr (cplFor s tag w 0 d) s u →
      exec (.iocpld tag w 0 d) s = .next { unpark u tag w q a with answer := .bytes d, pending := s.pending })) ∧
  (∀ (s u : State) (tag : BitVec 12) (h : HartId) (q a : Nat) (st : BitVec 8) (d : List Byte),
    waitingAt u tag (.hart h) = some (q, a) →
    (arr (cplFor s tag (.hart h) 0 d) s u →
      exec (.iocpld tag (.hart h) 0 d) s = .next { hartIoDone h tag d (unpark u tag (.hart h) q a) with pending := s.pending }) ∧
    (arr (cplFor s tag (.hart h) 0 []) s u →
      exec (.iocpl tag (.hart h) 0) s = .next { hartIoDone h tag [] (unpark u tag (.hart h) q a) with pending := s.pending }) ∧
    (arr (cplFor s tag (.hart h) st []) s u → st ≠ 0 →
      exec (.iocpl tag (.hart h) st) s = .next { endIoError q (winLink u q a) (.hart h) tag a (unpark u tag (.hart h) q a)
        with pending := s.pending })) ∧
  (∀ (s u : State) (tag : BitVec 12) (w : Agent) (st : BitVec 8), arr (cplFor s tag w st []) s u → waitingAt u tag w = none →
    exec (.iocpl tag w st) s = .next { u with pending := s.pending }) ∧
  (∀ (s : State) (p : IoPkt) (n : Nat), pktBlocked s (rd s p n) = true → exec (.iord p n) s = .next s) ∧
  (∀ (s : State) (a h f o : Nat) (v : BitVec 32), msiFlight s a v = none → regionOf s a = .imsic h f o → hartFailed s h = false →
    exec (.msiWrite a v) s = .next { imsicPage h f o (leBytes 4 v.toNat) s with pending := s.pending }) ∧
  (∀ (s : State) (a h f o : Nat) (v : BitVec 32), msiFlight s a v = none → regionOf s a = .imsic h f o → hartFailed s h = true →
    exec (.msiWrite a v) s = .next s) ∧
  (∀ (s : State) (a : Nat) (v : BitVec 32), msiFlight s a v = none → regionOf s a = .reserved →
    exec (.msiWrite a v) s = .next { reportUcs .power .reserved a (secureAddr s a) s with pending := s.pending }) ∧
  (∀ (s u : State) (a h f o : Nat) (v : BitVec 32) (g : Flight), msiFlight s a v = some g → arr g.pkt s u → regionOf u a = .imsic h f o →
    hartFailed u h = false → exec (.msiWrite a v) s = .next { imsicPage h f o (leBytes 4 v.toNat) u with pending := s.pending }) ∧
  (∀ (s : State) (pt : InjPoint) (a : Fin 256), s.fab.asked.contains (allowKey (pointNo pt) a) = true →
    exec (.regulatorGrant pt a) s = .next { (grantUnits (pointNo pt) a s).2.foldl runReleased (grantUnits (pointNo pt) a s).1
      with pending := s.pending }) ∧
  (∀ (s : State) (pt : InjPoint) (a : Fin 256), s.fab.asked.contains (allowKey (pointNo pt) a) = false →
    exec (.regulatorGrant pt a) s = .next s)

/-- Register writes: read-only registers, refusals, and values that read back. By an agent that runs: a write to a read-only
register outside the Sleeve windows and data pages changes nothing. A secure register written by an agent of the normal world
is not written: the agent takes an error and a UCS record names the register; a secure agent's write is performed. A write to
a data page that refuses the agent is refused. A CSR write of an issuing hart whose check passes is performed and the
instruction retires. A good value written to VEST.FAB.REGCFG, VEST.COH.TMO or VEST.FAB.ECC reads back as its fields, its
reserved bits reading zero; a value outside a field's range changes neither field of VEST.COH.TMO nor REGCFG. It says where
these complete with their own effect: registerWrite. (R6, R8, R30, R73, R219, 00_scope.md) -/
def Obligations.RegisterWrites : Prop :=
  (∀ (s : State) (w : Agent) (v : Word), agentRuns s w = true → ∀ r ∈ [Reg.pkginfo, .pkgfeat, .dramTop, .storPool, .holdStat, .holdMeas, .plsStat, .beltErr,
      .tenRststat, .pwrReqstat, .wakesrc, .pwrState, .thmStat, .thmPred, .bootStat, .ownStat, .pktPtr, .pktCnt, .pktMir, .rddata],
    exec (.registerWrite w (.mmio r) v) s = .next s) ∧
  (∀ (s : State) (w : Agent) (r : Reg) (o : Nat) (v : Word), agentRuns s w = true → secureOff r = some o → agentSecure s w = false →
    exec (.registerWrite w (.mmio r) v) s = .next { faultAgent w true (reportUcs w .world (0x8000000 + o) true s) with
      pending := s.pending }) ∧
  (∀ (s : State) (w : Agent) (r : Reg) (o : Nat) (v : Word), agentRuns s w = true → secureOff r = some o → agentSecure s w = true →
    exec (.registerWrite w (.mmio r) v) s = .next { regWrite w r v s with pending := s.pending }) ∧
  (∀ (s : State) (w : Agent) (r : Reg) (q : QId) (v : Word), agentRuns s w = true → pageOf r = some q →
    exec (.registerWrite w (.mmio r) v) s = .next { (if pageRefused s w q then refusePage w q 0 s else regWrite w r v s) with
      pending := s.pending }) ∧
  (∀ (s : State) (w : Agent) (h : HartId) (n : BitVec 12) (v : Word), agentRuns s w = true → hartIssues s h = true → csrCheck (s.hart h) n.toNat true = none →
    exec (.registerWrite w (.csr h n) v) s = .next { csrInstr h n.toNat v s with pending := s.pending }) ∧
  (∀ (s : State) (w : Agent) (v : Word), agentRuns s w = true → 1 ≤ (fld v 0 8).toNat → (fld v 0 8).toNat ≤ 64 →
    ∃ t, exec (.registerWrite w (.mmio .fabRegcfg) v) s = .next t ∧ regValue t .fabRegcfg = (fld v 0 8).setWidth 64 ∧
      t = { s with fab := { s.fab with grant := fld v 0 8 } }) ∧
  (∀ (s : State) (w : Agent) (v : Word), agentRuns s w = true → ((fld v 0 8).toNat < 1 ∨ 64 < (fld v 0 8).toNat) →
    exec (.registerWrite w (.mmio .fabRegcfg) v) s = .next s) ∧
  (∀ (s : State) (w : Agent) (v : Word), agentRuns s w = true → 10 ≤ (fld v 16 16).toNat → (fld v 16 16).toNat ≤ 10000 → 1 ≤ (fld v 0 16).toNat →
    (fld v 0 16).toNat ≤ 1000 → (fld v 0 16).toNat + 10 ≤ (fld v 16 16).toNat →
    ∃ t, exec (.registerWrite w (.mmio .cohTmo) v) s = .next t ∧ regValue t .cohTmo = v &&& 0xFFFFFFFF ∧
      t = { s with coh := { s.coh with haTmo := fld v 16 16, slTmo := fld v 0 16 } }) ∧
  (∀ (s : State) (w : Agent) (v : Word), agentRuns s w = true → (fld v 16 16).toNat < (fld v 0 16).toNat + 10 →
    exec (.registerWrite w (.mmio .cohTmo) v) s = .next s) ∧
  (∀ (s : State) (w : Agent) (v : Word), agentRuns s w = true → ∃ t, exec (.registerWrite w (.mmio .fabEcc) v) s = .next t ∧ regValue t .fabEcc = v ∧
    t.fab.allow = s.fab.allow ∧ t.harts = s.harts)

/-- Channel bring-up, its failures, and the lock of the DRAM map. The start puts every channel whose bring-up has not run into
step 2 of its first attempt where it has a DIMM, and into STATE 0 otherwise. Step 2 takes the SPDs, and fails the channel
where a DIMM yields none; step 3 of accepted DIMMs takes their capacity; steps 4 to 6 go on; step 7 enters STATE 2 at the
channel's rate; step 8 ends in STATE 3. DIMMs that step 3 does not accept, and an overrun in steps 2 to 4, fail the channel
with its cause and one record; a later step is retried from step 5 twice, and then fails. A drift above the limit of a ready
channel starts a 2 microsecond update. Writing LOCK with good values locks the map and sets TOP to the installed capacity
above 4 GiB; with a bad value only ERR changes; after the lock a write changes nothing. It says where these complete with
their own effect: dramBringupStart, dramStepDone, dramStepTimeout, dqsOscCheck, dramMapLock. (R186, R187, R188, R189, R190,
R191, R194, 08_memory_controllers.md) -/
def Obligations.DramBringUpAndMap : Prop :=
  (∀ (s : State) (d : List (Fin 3)), exec (.dramBringupStart d) s = .next { chLoad (((upto 12).filter (chFresh s)).foldl (fun a n =>
      if ((fillFree 12 (Fin.ofNat 3) d s).2.getD n 0).val = 0 then a.modChan n fun c => { c with state := 0, dpc := 0, step := 0 }
      else a.modChan n fun c => { c with
        state := 1, step := 2, attempt := 1, dpc := BitVec.ofNat 2 ((fillFree 12 (Fin.ofNat 3) d s).2.getD n 0).val })
      (fillFree 12 (Fin.ofNat 3) d s).1) with pending := s.pending }) ∧
  (∀ (s : State) (d : List (Fin 3)), d.length = 12 → fillFree 12 (Fin.ofNat 3) d s = (s, d)) ∧
  (∀ (s : State) (n : ChanId) (x : DimmSpd), (s.chan n).step = 2 → (s.chan n).dpc.toNat ≤ x.dimms.length →
    exec (.dramStepDone n x) s = .next (s.setChan n { s.chan n with spd := ⟨x.dimms.take (s.chan n).dpc.toNat, 0⟩, step := 3 })) ∧
  (∀ (s : State) (n : ChanId) (x : DimmSpd), (s.chan n).step = 2 → x.dimms.length < (s.chan n).dpc.toNat →
    exec (.dramStepDone n x) s = .next { chFail n 1 s with pending := s.pending }) ∧
  (∀ (s : State) (n : ChanId) (x : DimmSpd), (s.chan n).step = 3 → configCause (s.chan n).spd.dimms ≠ 0 →
    exec (.dramStepDone n x) s = .next { chFail n (configCause (s.chan n).spd.dimms) s with pending := s.pending }) ∧
  (∀ (s : State) (n : ChanId) (x : DimmSpd) (d : Dimm) (l : List Dimm), (s.chan n).step = 3 → configCause (s.chan n).spd.dimms = 0 →
    (s.chan n).spd.dimms = d :: l →
    exec (.dramStepDone n x) s = .next (s.setChan n { s.chan n with
      step := 4
      cap := BitVec.ofNat 10 ((d :: l).foldl (fun a d => a + d.gib) 0)
      lranks := BitVec.ofNat 4 ((d :: l).foldl (fun a d => a + d.ranks * d.stack) 0)
      width := if d.width = 8 then 1 else 0
      dens := if d.dens = 24 then 1 else if d.dens = 32 then 2 else 0 })) ∧
  (∀ (s : State) (n : ChanId) (x : DimmSpd) (k : Nat), (s.chan n).step = k → 4 ≤ k → k ≤ 6 →
    exec (.dramStepDone n x) s = .next (s.setChan n { s.chan n with step := k + 1 })) ∧
  (∀ (s : State) (n : ChanId) (x : DimmSpd), (s.chan n).step = 7 →
    exec (.dramStepDone n x) s = .next { chCapr n (s.setChan n { s.chan n with
      step := 8, state := 2, rate := BitVec.ofNat 8 (chRate (s.chan n).spd.dimms), oscLim := x.oscLim }) with pending := s.pending }) ∧
  (∀ (s : State) (n : ChanId) (x : DimmSpd), (s.chan n).step = 8 →
    exec (.dramStepDone n x) s = .next { chLoad (s.setChan n { s.chan n with step := 0, state := 3, pz := [] }) with pending := s.pending }) ∧
  (∀ (s : State) (n : ChanId) (w : DramFail), (s.chan n).step = 2 →
    exec (.dramStepTimeout n w) s = .next { chFail n 1 s with pending := s.pending }) ∧
  (∀ (s : State) (n : ChanId) (w : DramFail), 5 ≤ (s.chan n).step → (s.chan n).attempt < 3 →
    exec (.dramStepTimeout n w) s = .next (s.setChan n { s.chan n with
      step := 5, attempt := (s.chan n).attempt + 1, state := 1, rate := 0 })) ∧
  (∀ (s : State) (n : ChanId) (w : DramFail), 5 ≤ (s.chan n).step → 3 ≤ (s.chan n).attempt →
    exec (.dramStepTimeout n w) s = .next { chFail n 4 s with pending := s.pending }) ∧
  (∀ (s : State) (n : ChanId) (x : Nat), (s.chan n).state = 3 →
    exec (.dqsOscCheck n x) s = .next (if (s.chan n).oscLim < x then s.setChan n { s.chan n with updTil := s.time + 200 } else s)) ∧
  (∀ (s : State) (a : Agent) (v : Word), agentRuns s a = true → s.dram.mapLock = true → exec (.dramMapLock a v) s = .next s) ∧
  (∀ (s : State) (a : Agent) (v : Word), agentRuns s a = true → s.dram.mapLock = false → bit v 63 = true → mapValidate s (fld v 28 12) (bit v 9) ≠ 0 →
    exec (.dramMapLock a v) s = .next { s with dram := { s.dram with
      mapErr := BitVec.ofNat 3 (mapValidate s (fld v 28 12) (bit v 9)) } }) ∧
  (∀ (s : State) (a : Agent) (v : Word), agentRuns s a = true → s.dram.mapLock = false → bit v 63 = true → s.dram.chLoaded = true → (fld v 2 3).toNat < 5 →
    mapValidate s (fld v 28 12) (bit v 9) = 0 →
    exec (.dramMapLock a v) s = .next { addressPoison { s with dram := { s.dram with
      chmask := fld v 28 12, pwben := bit v 9, ilen := bit v 8, grain := fld v 2 3, order := fld v 0 2, mapLock := true, mapErr := 0
      top := BitVec.ofNat 52 (0x100000000 + ((upto 12).filter fun n => (fld v 28 12).getLsbD n).foldl
        (fun a n => a + (s.chan n).cap.toNat * 0x40000000) 0) } } with pending := s.pending })

/-- The interleave of an interleaved part sends different offsets to different places. For every grain above zero and every
list of different channels, the channel and channel-local address that an offset of an interleaved part maps to are a channel
of the list and a place from which the offset is found again; so no two offsets share a place, and no line of a part is lost.
(R192, 08_memory_controllers.md) -/
def Obligations.InterleaveIsInvertible : Prop :=
  ∀ (g : Nat) (l : List Nat) (off : Nat), 0 < g → l.Nodup → l ≠ [] →
    (interleave g l off).1 ∈ l ∧ unleave g l (interleave g l off).1 (interleave g l off).2 = off

/-- Requests at a DRAM controller, refresh, temperature, row counting and the patrol scrub. A request to a ready channel whose
queue of its kind has room joins the queue; a read behind a queued write of its line is served from that write at once, and
the queues are then served by the rules. A full queue does not accept it, and a channel that is not ready answers an error. A
read that has waited 2 microseconds is served before every younger request, on a channel that may issue; a write waits for the
older requests of its line. Outside self-refresh, a refresh that falls due is postponed while a waiting request hits a row it
covers, at most four times, and otherwise closes the rows it covers and clears its postponements. A DIMM temperature is
recorded with its refresh period, and an excursion above 95 degrees writes one record; no answer reads 0. The activate counts
are cleared every 32 ms. The patrol scrub opens the row of its next line, reads it and advances, wrapping at the capacity. An
activate-count table never exceeds 32 entries. It says where these complete with their own effect: dramRequest,
dramReadAgeExpire, refsbDue, dimmTempSample, actTableClear, patrolScrubRead. (R197, R200, R201, R203, R206, R207,
08_memory_controllers.md) -/
def Obligations.DramServiceAndProtection : Prop :=
  (∀ (s : State) (n : ChanId) (q : DramReq), (s.chan n).state ≠ 3 → exec (.dramRequest n q) s = .next { s with answer := .error }) ∧
  (∀ (s : State) (n : ChanId) (q : DramReq), (s.chan n).state = 3 → 64 ≤ (if q.wr.isNone then (s.chan n).rq else (s.chan n).wq).length →
    exec (.dramRequest n q) s = .next s) ∧
  (∀ (s : State) (n : ChanId) (q : DramReq), (s.chan n).state = 3 → (if q.wr.isNone then (s.chan n).rq else (s.chan n).wq).length < 64 →
    exec (.dramRequest n q) s = .next { serveAll n 128 (forward n (startService n
      (s.setChan n { s.chan n with reqs := (s.chan n).reqs ++ [⟨q, s.time⟩] }))) with pending := s.pending }) ∧
  (∀ (s : State) (n : ChanId) (i : Nat), issues s n = true → firstIdx isRead (s.chan n).reqs = some i →
    exec (.dramReadAgeExpire n) s = .next { serveAll n 128 (serveAt n 128 i (startService n s)) with pending := s.pending }) ∧
  (∀ (s : State) (n : ChanId), issues s n = false → exec (.dramReadAgeExpire n) s = .next s) ∧
  (∀ (s : State) (n f : Nat) (i j : Nat) (e : DQEnt) (w : BitVec 64 × BitVec 512 × Bool), (s.chan n).reqs[i]? = some e → e.rq.wr = some w →
    firstIdx (fun x : DQEnt => x.rq.loc == e.rq.loc) ((s.chan n).reqs.take i) = some j →
    serveAt n (f + 1) i s = serveAt n f (i - 1) (serveAt n f j s)) ∧
  (∀ (s : State) (n f : Nat), issues s n = false → serveAll n f s = s) ∧
  (∀ (s : State) (n : ChanId) (rk : Fin 8) (b : Fin 4), (s.chan n).state = 3 → selfRefresh s n = false →
    hitsWait (s.modChan n applyTh) n rk b = false →
    exec (.refsbDue n rk b) s = .next ((s.modChan n applyTh).modChan n fun c => { c with
      postp := tabSet c.postp 0 (4 * rk.val + b.val) 0
      openRow := c.openRow.filter fun e => !keyIn rk b e.1
      raa := (c.raa.map fun e => if keyIn rk b e.1 then (e.1, e.2 - raaOf c rk) else e).filter fun e => e.2 ≠ 0 })) ∧
  (∀ (s : State) (n : ChanId) (rk : Fin 8) (b : Fin 4) (k : Nat), (s.chan n).state = 3 → selfRefresh s n = false →
    hitsWait (s.modChan n applyTh) n rk b = true →
    tabGet ((s.modChan n applyTh).chan n).postp 0 (4 * rk.val + b.val) = k → k < 4 →
    exec (.refsbDue n rk b) s = .next ((s.modChan n applyTh).modChan n fun c => { c with
      postp := tabSet c.postp 0 (4 * rk.val + b.val) (k + 1) })) ∧
  (∀ (s : State) (n : ChanId), exec (.dimmTempSample n none) s = .next (s.setChan n { s.chan n with temp := 0, fast := true })) ∧
  (∀ (s : State) (n : ChanId) (v : BitVec 8), (v.toNat ≤ 95 ∨ (s.chan n).hotRec = true) →
    exec (.dimmTempSample n (some v)) s = .next (s.setChan n { s.chan n with
      temp := v, fast := decide (85 < v.toNat), hotRec := decide (95 < v.toNat) })) ∧
  (∀ (s : State) (n : ChanId) (v : BitVec 8), 95 < v.toNat → (s.chan n).hotRec = false →
    exec (.dimmTempSample n (some v)) s = .next (report (mkReport (0x4000 + n) 0 0x031 false 8 (leBytes 1 n ++ leBytes 1 v.toNat))
      (s.setChan n { s.chan n with temp := v, fast := decide (85 < v.toNat), hotRec := decide (95 < v.toNat) }))) ∧
  (∀ s : State, exec .actTableClear s = .next { (upto 12).foldl (fun a n => a.modChan n fun c => { c with acts := [] }) s with
    pending := s.pending }) ∧
  (∀ (s : State) (n : ChanId), s.dram.scrubEn = true → issues s n = true → s.pls.pf = false →
    exec (.patrolScrubRead n []) s = .next ((s.modChan n (openFor (placeOf (orderOf s) (s.chan n) (s.chan n).scrubPos))).modChan n fun c =>
      { c with scrubPos := if (s.chan n).cap.toNat * 0x1000000 ≤ c.scrubPos + 1 then 0 else c.scrubPos + 1 })) ∧
  (∀ (r : Nat) (l : List (Nat × Nat)), l.length ≤ 32 → (actTable r l).1.length ≤ 32 ∧ l.length ≤ (actTable r l).1.length ∧
    1 ≤ (actTable r l).2)

/-- CXL decoders commit and decommit, recalls, timeouts and lost links. A write of an uncommitted decoder's RANGE that sets
COMMIT with valid fields and passes validation commits it with ERR 0; one that fails leaves COMMIT 0, sets ERR and takes no
field. While committed, a write with COMMIT set changes nothing, and one with it clear decommits, starts the recall of the
decoder's lines and ends the isolation of retrained links that no decoder targets. The end of the recalls evicts the cached
lines of the decoders and clears BUSY. A timeout on a link that carries CXL memory isolates it with one record, and does
nothing on another link or one already isolated; a link that goes down is isolated too. It says where these complete with
their own effect: cxlDecCommit, cxlDecDecommit, cxlRecallDone, cxlMemTimeout, cxlLinkDown. (R211, R213,
08_memory_controllers.md) -/
def Obligations.CxlMemoryDecodersAndIsolation : Prop :=
  let d1 (s : State) (k : Fin 16) (v : Word) : CxlDec := { s.dec k with
    iw := if (fld v 60 3).toNat < 4 then fld v 60 3 else (s.dec k).iw, ig := if fld v 57 3 = 7 then (s.dec k).ig else fld v 57 3
    limit := fld v 32 24, base := fld v 0 24 }
  (∀ (s : State) (a : Agent) (k : Fin 16) (v : Word), agentRuns s a = true → (s.dec k).commit = false → bit v 63 = true → (fld v 60 3).toNat < 4 →
    fld v 57 3 ≠ 7 → commitOk s k (d1 s k v) = true →
    exec (.cxlDecCommit a k v) s = .next (s.setDec k { d1 s k v with commit := true, err := 0 })) ∧
  (∀ (s : State) (a : Agent) (k : Fin 16) (v : Word), agentRuns s a = true → (s.dec k).commit = false → bit v 63 = true → commitOk s k (d1 s k v) = false →
    exec (.cxlDecCommit a k v) s = .next (s.setDec k { s.dec k with err := 1 })) ∧
  (∀ (s : State) (a : Agent) (k : Fin 16) (v : Word), agentRuns s a = true → (s.dec k).commit = true → bit v 63 = true →
    exec (.cxlDecCommit a k v) s = .next s) ∧
  (∀ (s : State) (a : Agent) (k : Fin 16) (v : Word), agentRuns s a = true → (s.dec k).commit = true →
    exec (.cxlDecDecommit a k v) s = .next { endIsolation ((s.setDec k { s.dec k with commit := false }).modDram fun r =>
      { r with recalls := r.recalls ++ [s.dec k] }) with pending := s.pending }) ∧
  (∀ s : State, s.dram.recalls ≠ [] → exec .cxlRecallDone s = .next
    { (s.dram.recalls.foldl (fun a d => recallDec d a) s).modDram (fun d => { d with recalls := [] }) with pending := s.pending }) ∧
  (∀ (s : State) (p : PortId) (l : LinkId), cxlLink s (4 * p + l) = true → s.dram.cxlIso.getLsbD (4 * p + l) = false →
    exec (.cxlMemTimeout p l) s = .next (report (mkReport (0x5000 + (4 * p + l)) 3 0x032 false 8
        (leBytes 1 ((4 * p + l) / 4) ++ leBytes 1 ((4 * p + l) % 4) ++ leBytes 1 0))
      (s.modDram fun d => { d with cxlIso := setBit d.cxlIso (4 * p + l) true, cxlRetr := setBit d.cxlRetr (4 * p + l) false }))) ∧
  (∀ (s : State) (p : PortId) (l : LinkId), (cxlLink s (4 * p + l) = false ∨ s.dram.cxlIso.getLsbD (4 * p + l) = true) →
    exec (.cxlMemTimeout p l) s = .next s) ∧
  (∀ (s : State) (p : PortId) (l : LinkId), cxlLink s (4 * p + l) = true →
    exec (.cxlLinkDown p l) s = .next { isolate (4 * p + l) 1 (s.modLink (4 * p + l) fun k => { k with up := false }) with
      pending := s.pending }) ∧
  (∀ (s : State) (p : PortId) (l : LinkId), cxlLink s (4 * p + l) = false →
    exec (.cxlLinkDown p l) s = .next (s.modLink (4 * p + l) fun k => { k with up := false }))

/-- Timeouts, the fail-stop of a domain, its scan and its reset. A slice whose snoop is unanswered fails its Sleeve's domain
with cause 1; a home agent whose snoop is unanswered, with no Cuff of the Sleeves concerned paused, fails the requester's
domain and those of the Sleeves that did not answer with cause 2, or ends a device's request in an error; one whose memory
request is unanswered fails the requesting Sleeve's domain; nothing happens for a line of another home agent or one that the
Belt holds. A fail-stop marks the domain active with its cause and starts the scan; a domain that has stopped keeps its first
cause and nothing changes. The scan's end removes the domain's Sleeves from the directory and poisons lines they owned. A
domain reset by an agent that may not ask for it, or of no domain that has failed, changes nothing; an allowed one resets what
DOMRST names. It says where these complete with their own effect: sliceTimeout, haTimeout, failstopScanDone, domainReset.
(R148, R149, R150, 06_coherence.md) -/
def Obligations.FailStopAndDomainReset : Prop :=
  (∀ (s : State) (k : SleeveId) (n : Nat) (t : Txn), txnOf s (.sleeve k) n = some t → t.wait ≠ [] →
    exec (.sliceTimeout k n) s = .next { failStopSleeve k 1 k (some n) s with pending := s.pending }) ∧
  (∀ (s : State) (h : Fin 64) (n : Nat), (homeAgent n ≠ h.val ∨ txnHeld s n = true) → exec (.haTimeout h n) s = .next s) ∧
  (∀ (s : State) (h : Fin 64) (n : Nat) (t : Txn), homeAgent n = h.val → txnHeld s n = false → txnOf s .vest n = some t → t.wait ≠ [] →
    t.who = none → (t.wait.any (cuffPaused s) || (decide (t.req < 12) && cuffPaused s t.req)) = false →
    exec (.haTimeout h n) s = .next { (t.req :: t.wait).foldl (fun a k => failStopSleeve k 2 (0x10 + h) (some n) a) s with
      pending := s.pending }) ∧
  (∀ (s : State) (h : Fin 64) (n : Nat) (t : Txn) (w : Agent), homeAgent n = h.val → txnHeld s n = false → txnOf s .vest n = some t →
    t.wait ≠ [] → t.who = some w → (t.wait.any (cuffPaused s) || (decide (t.req < 12) && cuffPaused s t.req)) = false →
    exec (.haTimeout h n) s = .next { serveLine .vest n { reportUcs w .device (64 * n) (secureAddr s (64 * n)) (dropTxn .vest n s) with
      answer := .error } with pending := s.pending }) ∧
  (∀ (s : State) (h : Fin 64) (n : Nat) (f : Flight), homeAgent n = h.val → txnHeld s n = false → txnOf s .vest n = none →
    memoryAnswer s n = some f → nodeDie f.pkt.dst < 12 → cuffPaused s (nodeDie f.pkt.dst) = false →
    exec (.haTimeout h n) s = .next { failStopSleeve (nodeDie f.pkt.dst) 2 (0x10 + h) (some n) s with pending := s.pending }) ∧
  (∀ (s : State) (d c src : Nat) (l : Option Nat), (s.fstop d).active = true → failStop d c src l s = s) ∧
  (∀ (s : State) (d c src : Nat) (l : Option Nat), (s.fstop d).active = false → domSleeves s d = [] →
    (failStop d c src l s).coh.fstop = tabSet s.coh.fstop FStop.reset d
      ⟨true, l.isSome, BitVec.ofNat 4 c, BitVec.ofNat 8 src, BitVec.ofNat 46 (l.getD 0), true, false⟩) ∧
  (∀ (s : State) (d : DomId), (s.fstop d).active = true → (s.fstop d).scan = true → s.coh.txns = [] →
    exec (.failstopScanDone d) s = .next { s.coh.mshr.foldl resupply { s with
      coh := { s.coh with
        dir := s.coh.dir.filterMap fun (e : Nat × DirEnt) =>
          (scanEntry (fun k => decide (k < 12) && domainOf s k == d.val) e.2).map fun v => (e.1, v)
        fstop := tabSet s.coh.fstop FStop.reset d { s.fstop d with scan := false } }
      dram := { s.dram with poison := scanPoison (fun k => decide (k < 12) && domainOf s k == d.val) s.coh.dir s.dram.poison } } with
      pending := s.pending }) ∧
  (∀ (s : State) (d : DomId), ((s.fstop d).active = false ∨ (s.fstop d).scan = false) → exec (.failstopScanDone d) s = .next s) ∧
  (∀ (s : State) (a : Agent) (v : Word), agentRuns s a = true → domrstAllowed s a = false → exec (.domainReset a v) s = .next s) ∧
  (∀ (s : State) (a : Agent) (v : Word), agentRuns s a = true → domrstAllowed s a = true → (∀ d < 4, (s.fstop d).active = false) →
    exec (.domainReset a v) s = .next s) ∧
  (∀ (s : State) (a : Agent) (v : Word) (d : DomId), agentRuns s a = true → domrstAllowed s a = true → fld v 0 4 = BitVec.ofNat 4 (2 ^ d.val) →
    (s.fstop d).active = true → (s.fstop d).rst = false → s.dbg.bist = [] →
    (upto 12).filter (fun k => domainOf s k == d.val && slvPresent s k) = [] →
    exec (.domainReset a v) s = .next { settleRelease (settleDomReset (
      let u := s.setFstop d { s.fstop d with rst := true }
      { u with coh := { u.coh with haTmoF := u.coh.haTmo, slTmoF := u.coh.slTmo } })) with pending := s.pending })

/-- Enabling and disabling storage, and the ends of recovery and of a disable. A write that sets EN while storage is off,
failed or refused: with a condition of the enable unmet ST takes the refusal's code and nothing else changes, otherwise
recovery starts with ST 1 and empties the operation state; in any other state the write changes nothing. A write that clears
EN while storage runs sets DREF while a pair is enabled, and otherwise starts the disable with ST 8. Recovery that failed ends
in ST 7 with its cause; recovery that succeeded waits for placed units, and then ends in ST 2. A disable ends in ST 0 once no
slot is dirty. It says where these complete with their own effect: storEnable, storDisable, recoveryDone, storDisableDone.
(R215, R265, R278, R289, R295, 09_store_queues.md) -/
def Obligations.StorageEnableAndRecovery : Prop :=
  (∀ (s : State) (a : Agent) (v : Word) (m : MediaFacts), agentRuns s a = true → bit v 63 = true → s.stor.st = 0 → enableRefusal s ≠ 0 →
    exec (.storEnable a v m) s = .next { s with stor := { s.stor with st := BitVec.ofNat 4 (enableRefusal s) } }) ∧
  (∀ (s : State) (a : Agent) (v : Word) (m : MediaFacts), agentRuns s a = true → bit v 63 = true → s.stor.st = 0 → enableRefusal s = 0 →
    let s1 : State := { s with
      stor := { s.stor with st := 1, dref := false }
      ftl := { s.ftl with maxopenF := s.ftl.obj.maxopen, pm := [], ops := [], maps := Maps.reset } }
    let s2 := s1.modPls fun p => { p with slots := [], tail := [], snap := none, recAt := s.time, dlim := dlimOf s1, last := 0, unrec := 0 }
    exec (.storEnable a v m) s = .next { (recover m s2).1.modPls (fun p => { p with recRes := (recover m s2).2 }) with
      pending := s.pending }) ∧
  (∀ (s : State) (a : Agent) (v : Word) (m : MediaFacts), agentRuns s a = true → bit v 63 = true → (s.stor.st = 1 ∨ s.stor.st = 2 ∨ s.stor.st = 8) →
    exec (.storEnable a v m) s = .next s) ∧
  (∀ (s : State) (a : Agent) (v : Word), agentRuns s a = true → bit v 63 = false → s.stor.st = 2 → (∃ e ∈ s.stor.pairs, e.2.en = true) →
    exec (.storDisable a v) s = .next { s with stor := { s.stor with dref := true } }) ∧
  (∀ (s : State) (a : Agent) (v : Word), agentRuns s a = true → bit v 63 = false → s.stor.st = 2 → (∀ e ∈ s.stor.pairs, e.2.en = false) →
    exec (.storDisable a v) s = .next { s with stor := { s.stor with en := false, st := 8, dref := false } }) ∧
  (∀ (s : State) (a : Agent) (v : Word), agentRuns s a = true → bit v 63 = false → s.stor.st ≠ 2 → exec (.storDisable a v) s = .next s) ∧
  (∀ s : State, s.stor.st = 1 → s.pls.recRes ≠ 0 → exec .recoveryDone s = .next
    (({ s with stor := { s.stor with st := 7, en := false } } : State).modPls fun p => { p with
      rcause := BitVec.ofNat 4 p.recRes, recTime := (s.time - p.recAt) / 100000, dlim := 0, slots := [] })) ∧
  (∀ s : State, s.stor.st = 1 → s.pls.recRes = 0 → s.pls.slots ≠ [] → exec .recoveryDone s = .next s) ∧
  (∀ s : State, s.stor.st = 1 → s.pls.recRes = 0 → s.pls.slots = [] → exec .recoveryDone s = .next (
    let s2 := releaseLeft (flushTail { s with stor := { s.stor with st := 2, en := true, wt := s.hold.low } })
    let k := snapshot s2
    let s2 := ckptErase k.num (if s2.pls.drain.isSome then (usableLgs s2).foldl (fun a g => condemn (sysBand s2 g 2) a) s2 else s2)
    let s3 := s2.modPls fun p => { p with
      drain := none, recTime := (s.time - p.recAt) / 100000, cks := [k], ckNum := k.num, jrn := [], jUnits := 0, tail := []
      mapChg := 0, ckAt := s.time, timeAt := s.time }
    { mirUp (settleMedia (afterRecovery (s3.modFtl fun t => { t with ageAt := s.time, decayAt := s.time }))) with pending := s.pending })) ∧
  (∀ s : State, s.stor.st = 8 → s.pls.slots = [] → exec .storDisableDone s = .next (
    let s1 := flushTail (dropOps (fun _ => true) s)
    let k := snapshot s1
    let s2 := s1.modPls fun p => { p with cks := [k], ckNum := k.num, jrn := [], jUnits := 0, tail := [], snap := none, dlim := 0 }
    { s2 with stor := { s2.stor with st := 0, wt := false }, pending := s.pending })) ∧
  (∀ s : State, (s.stor.st ≠ 8 ∨ s.pls.slots ≠ []) → exec .storDisableDone s = .next s)

/-- Queue pairs: enable, push, pop, mark, rewind, release, reset and the coalescing timeout. A CFG write with EN on an idle
pair that passes the checks enables it empty, with granules of the pool; one that fails sets ERR only. EN clear on an enabled
pair starts the drop form of reset; on a pair that is off it sets the fields. An agent whose TID may not use the page is
refused. A push appends its word with its end mark while the SQ has room, and sets OVF when it is full or the pair resets; a
pair that is off discards it. A pop answers the word at the read pointer and advances, and on an empty CQ answers the idle
item; a corrected word is counted, and an uncorrectable one answers an error with its records. Mark, rewind and release move
the mark, the read pointer and the CQ's front. A reset request on an active pair starts the form it names, and does nothing on
another. A coalescing timeout with completions pending sends the pair's MSI. A push never lets an SQ exceed its depth. It says
where these complete with their own effect: sqcEnable, sqcDisable, sqPush, sqPushend, cqPop, cqMark, cqRewind, cqRelease,
queueReset, queueResetDrop, msiCoalesceTimeout. (R218, R219, R220, R221, R222, R223, R233, R235, R241, R302,
09_store_queues.md) -/
def Obligations.QueuePairsAndTheirResets : Prop :=
  (∀ (s : State) (a : Agent) (q : QId) (v : Word), agentRuns s a = true → bit v 63 = true → enableCheck q v s = 0 →
    exec (.sqcEnable a q v) s = .next (s.setQp q { cfgFields v (s.qp q) with
      sqG := (freeGranules s).take ((2 ^ (cfgFields v (s.qp q)).sqsz.toNat * 64 + 4095) / 4096)
      cqG := ((freeGranules s).drop ((2 ^ (cfgFields v (s.qp q)).sqsz.toNat * 64 + 4095) / 4096)).take
        (granules (cfgFields v (s.qp q)).sqsz (cfgFields v (s.qp q)).cqsz - (2 ^ (cfgFields v (s.qp q)).sqsz.toNat * 64 + 4095) / 4096)
      sqHead := 0, cqHead := 0
      en := true, err := 0, state := 1, sq := [], cq := [], rp := 0, mark := 0, em := false, ovf := false, pend := 0 })) ∧
  (∀ (s : State) (a : Agent) (q : QId) (v : Word), agentRuns s a = true → bit v 63 = true → enableCheck q v s ≠ 0 →
    exec (.sqcEnable a q v) s = .next (s.setQp q { s.qp q with err := BitVec.ofNat 3 (enableCheck q v s) })) ∧
  (∀ (s : State) (a : Agent) (q : QId) (v : Word), agentRuns s a = true → bit v 63 = false → (s.qp q).en = true → cfgDiffers v (s.qp q) = false →
    (s.qp q).state ≠ 2 → exec (.sqcDisable a q v) s = .next { startReset q true true s with pending := s.pending }) ∧
  (∀ (s : State) (a : Agent) (q : QId) (v : Word), agentRuns s a = true → bit v 63 = false → (s.qp q).en = false →
    exec (.sqcDisable a q v) s = .next (s.setQp q (cfgFields v (s.qp q)))) ∧
  (∀ (s : State) (a : Agent) (q : QId) (w : Word), agentRuns s a = true → pageRefused s a q = true →
    exec (.sqPush a q w) s = .next { refusePage a q 0 s with pending := s.pending } ∧
    exec (.sqPushend a q w) s = .next { refusePage a q 8 s with pending := s.pending } ∧
    (∀ e, exec (.cqPop a q e) s = .next { refusePage a q 0x40 s with pending := s.pending })) ∧
  (∀ (s : State) (a : Agent) (q : QId) (w : Word), agentRuns s a = true → pageRefused s a q = false → (s.qp q).en = true → (s.qp q).state ≠ 2 →
    (s.qp q).sq.length < sqWords (s.qp q) →
    exec (.sqPush a q w) s = .next (s.setQp q { s.qp q with sq := (s.qp q).sq ++ [(w, false)] }) ∧
    exec (.sqPushend a q w) s = .next (s.setQp q { s.qp q with sq := (s.qp q).sq ++ [(w, true)] })) ∧
  (∀ (s : State) (a : Agent) (q : QId) (w : Word), agentRuns s a = true → pageRefused s a q = false → (s.qp q).en = true →
    ((s.qp q).state = 2 ∨ sqWords (s.qp q) ≤ (s.qp q).sq.length) →
    exec (.sqPush a q w) s = .next (s.setQp q { s.qp q with ovf := true }) ∧
    exec (.sqPushend a q w) s = .next (s.setQp q { s.qp q with ovf := true })) ∧
  (∀ (s : State) (a : Agent) (q : QId) (w : Word), agentRuns s a = true → pageRefused s a q = false → (s.qp q).en = false →
    exec (.sqPush a q w) s = .next s ∧ exec (.sqPushend a q w) s = .next s) ∧
  (∀ (s : State) (a : Agent) (q : QId) (w : Word × Bool), agentRuns s a = true → pageRefused s a q = false → (s.qp q).en = true →
    (s.qp q).cq[(s.qp q).rp]? = some w →
    exec (.cqPop a q .ok) s = .next ((s.setQp q { s.qp q with rp := (s.qp q).rp + 1, em := w.2 }).answerW w.1) ∧
    exec (.cqPop a q .ce) s = .next { (countVestCe 0 (s.setQp q { s.qp q with rp := (s.qp q).rp + 1, em := w.2 })).answerW w.1 with
      pending := s.pending } ∧
    exec (.cqPop a q .ue) s = .next { faultAgent a false (report (mkReport (0x7000 + q) 3 0x054 false 8 (leBytes 2 q))
      (queueUe (cqOffset (s.qp q) (s.qp q).rp) (s.setQp q { s.qp q with rp := (s.qp q).rp + 1, em := w.2 }))) with pending := s.pending }) ∧
  (∀ (s : State) (a : Agent) (q : QId) (z : EccResult), agentRuns s a = true → pageRefused s a q = false → (s.qp q).en = true → (s.qp q).cq.length ≤ (s.qp q).rp →
    exec (.cqPop a q z) s = .next ((s.setQp q { s.qp q with em := true }).answerW (BitVec.allOnes 64))) ∧
  (∀ (s : State) (a : Agent) (q : QId), agentRuns s a = true → pageRefused s a q = false → (s.qp q).en = true →
    exec (.cqMark a q) s = .next (s.setQp q { s.qp q with mark := (s.qp q).rp }) ∧
    exec (.cqRewind a q) s = .next (s.setQp q { s.qp q with rp := (s.qp q).mark })) ∧
  (∀ (s : State) (a : Agent) (q : QId), agentRuns s a = true → pageRefused s a q = false → (s.qp q).en = true →
    exec (.cqRelease a q) s = .next (
      let u := s.setQp q { takeCq (s.qp q).rp (s.qp q) with mark := (s.qp q).mark - (s.qp q).rp, rp := 0 }
      { settleReset q (writeAborts q (u.qp q).aborts.length u) with pending := s.pending })) ∧
  (∀ (s : State) (a : Agent) (q : QId), agentRuns s a = true → pageRefused s a q = false → (s.qp q).state = 1 →
    exec (.queueReset a q) s = .next { startReset q false false s with pending := s.pending } ∧
    exec (.queueResetDrop a q) s = .next { startReset q true false s with pending := s.pending }) ∧
  (∀ (s : State) (a : Agent) (q : QId), agentRuns s a = true → pageRefused s a q = false → (s.qp q).state ≠ 1 →
    exec (.queueReset a q) s = .next s ∧ exec (.queueResetDrop a q) s = .next s) ∧
  (∀ (s : State) (q : QId), (s.qp q).intEn = true → (s.qp q).pend ≠ 0 →
    exec (.msiCoalesceTimeout q) s = .next { sendQpMsi q s with pending := s.pending }) ∧
  (∀ (s : State) (q : QId), ((s.qp q).intEn = false ∨ (s.qp q).pend = 0) → exec (.msiCoalesceTimeout q) s = .next s)

/-- A push keeps every submission queue within its depth. If every queue pair in a state whose pairs stand in rising order
holds no more SQ words than its depth, then after a push or an ending push, by any agent to any pair, every pair still does,
the pairs still stand in rising order, and no pair but the one pushed to has changed. (R221, R222, 09_store_queues.md) -/
def Obligations.StoreQueuesKeepTheirDepth : Prop :=
  ∀ (s t : State) (a : Agent) (q : QId) (w : Word) (e : Bool), agentRuns s a = true → tabRising s.stor.pairs = true →
    (∀ p ∈ s.stor.pairs, p.2.sq.length ≤ sqWords p.2) →
    exec (if e then .sqPushend a q w else .sqPush a q w) s = .next t → pageRefused s a q = false →
    tabRising t.stor.pairs = true ∧ (∀ p ∈ t.stor.pairs, p.2.sq.length ≤ sqWords p.2) ∧ (∀ k, k ≠ q.val → t.qp k = s.qp k)

/-- Admission, the five store commands and their completion. With no eligible queue admission changes nothing. Otherwise the
arbiter's queue gives up its first packet: one with an uncorrectable word, or that fails a check, completes at once with the
status of the first failure; another joins the admitted commands. A started NOP or FLUSH that has not been issued is issued;
READ marks its blocks outstanding and reads each of them; DISCARD applies to each segment it touches; WRITE starts, once a
place is found for each of its blocks, unless an earlier overlapping command, or the regulation of its source packets, holds
it back. A command that names none of these changes nothing. A command issued and with nothing outstanding completes: with
success, or with the status of the failure at the lowest LBA; a FLUSH completes once its condition is met. A command that the
media engine cannot complete takes that failure first. It says where these complete with their own effect: commandAdmit, nop,
flush, read, discard, write, commandComplete. (R224, R225, R228, R229, R230, R237, R238, R251, R253, R276, 09_store_queues.md)
-/
def Obligations.StoreCommandsRun : Prop :=
  (∀ (s u : State) (bad ce : List (Fin 8)), pick s = (u, none) → exec (.commandAdmit bad ce) s = .next s) ∧
  (∀ (s u : State) (q : Nat) (bad ce : List (Fin 8)) (ws : List Word) (r : List (Word × Bool)), pick s = (u, some q) →
    firstPacket (u.qp q).sq = some (ws, r) →
    let s2 := (beltCharge false (u.qp q).tid 4 0 1 .item u).1
    let ue := bad.filter fun i => decide (i.val < ws.length)
    let met := ue.foldl (fun a i => queueUe (sqOffset (u.qp q) i.val) a)
      ((ce.filter fun i => decide (i.val < ws.length)).foldl (fun a _ => countVestCe 0 a) s2)
    let s3 := met.modQp q (takeSq ws.length)
    let s4 : State := { s3 with stor := { s3.stor with
      nextId := s3.stor.nextId + 1, rr := tabSet s3.stor.rr 0 (u.qp q).cls.toNat (q + 1) } }
    let c := parseCmd s3.stor.nextId q (u.qp q).tid ws
    (∀ st, (if ue ≠ [] then some scQueueData else admitCheck s4 ws c) = some st →
      exec (.commandAdmit bad ce) s = .next { completeCmd
        { c with cid := if ue.contains 0 then 0xFFFF else packetCid ws, started := true } st (if st = scWriteProt then c.slba else 0)
        { s4 with stor := { s4.stor with
          cmds := s4.stor.cmds ++ [{ c with cid := if ue.contains 0 then 0xFFFF else packetCid ws, started := true }] } }
        with pending := s.pending }) ∧
    (ue = [] → admitCheck s4 ws c = none →
      exec (.commandAdmit bad ce) s = .next { addCmd { c with
        lock := decide (c.opc = 1 ∨ c.opc = 2 ∨ c.opc = 3), todo := if c.opc = 4 then otherWrites s4 q c.nsid else [] } s4 with
        pending := s.pending })) ∧
  (∀ (s : State) (id : Nat) (c : Cmd), startedCmd s id 0 = some c →
    exec (.nop id) s = .next (modCmd id (fun c => { c with issued := true }) s)) ∧
  (∀ (s : State) (id : Nat) (c : Cmd), startedCmd s id 4 = some c →
    exec (.flush id) s = .next (modCmd id (fun c => { c with issued := true }) s)) ∧
  (∀ (s : State) (id : Nat) (c : Cmd), startedCmd s id 1 = some c →
    exec (.read id) s = .next { (upto (c.nlb + 1)).foldl (readBlk c)
      (modCmd id (fun d => { d with issued := true, todo := upto (c.nlb + 1) }) s) with pending := s.pending }) ∧
  (∀ (s : State) (id : Nat) (c : Cmd), startedCmd s id 3 = some c → (blkSeg s c 0).1 = (blkSeg s c c.nlb).1 →
    exec (.discard id) s = .next { settleMedia (discardSeg (blkSeg s c 0).1 (blkSeg s c 0).2
      ((blkSeg s c c.nlb).2 + 1 - (blkSeg s c 0).2) (modCmd id (fun c => { c with issued := true }) s)) with pending := s.pending }) ∧
  (∀ (s : State) (id : Nat), startedCmd s id 0 = none → startedCmd s id 1 = none → startedCmd s id 3 = none → startedCmd s id 4 = none →
    exec (.nop id) s = .next s ∧ exec (.read id) s = .next s ∧ exec (.discard id) s = .next s ∧ exec (.flush id) s = .next s) ∧
  (∀ (s : State) (id : Nat) (c : Cmd), (s.stor.cmds.find? fun c => c.id == id && c.opc == 2 && !c.issued) = some c →
    (∃ e ∈ s.stor.cmds.takeWhile (fun d => d.id ≠ id), lockClash e c = true) → exec (.write id) s = .next s) ∧
  (∀ (s u : State) (id : Nat) (c : Cmd), (s.stor.cmds.find? fun c => c.id == id && c.opc == 2 && !c.issued) = some c →
    (∀ e ∈ s.stor.cmds.takeWhile (fun d => d.id ≠ id), lockClash e c = false) → meterSource c s = (u, false) →
    exec (.write id) s = .next { u with pending := s.pending }) ∧
  (∀ (s u : State) (id : Nat) (c : Cmd), (s.stor.cmds.find? fun c => c.id == id && c.opc == 2 && !c.issued) = some c →
    (∀ e ∈ s.stor.cmds.takeWhile (fun d => d.id ≠ id), lockClash e c = false) → meterSource c s = (u, true) →
    let src := readSource c (c.nlb + 1) 0 none u
    let p := prepAll c (u.ns c.nsid).lgmask src.2.1 (segsOf u c) src.1
    let s2 := p.2.1.foldl (reserveSeg c src.2.1) (modCmd id (fun c => { c with started := true, issued := true }) p.1)
    (p.2.2 = .ok → exec (.write id) s = .next { settleMedia (ackMore 4096 (match src.2.2 with
      | some f => addErr id (c.slba + f) scTransfer s2
      | none => s2)) with pending := s.pending }) ∧
    (p.2.2 = .wait → exec (.write id) s = .next { settleMedia p.1 with pending := s.pending })) ∧
  (∀ (s : State) (id : Nat) (c : Cmd), (s.stor.cmds.find? fun c => c.id == id && c.started && c.issued) = some c →
    (if c.opc = 4 then flushMet s c = true ∨ c.errs ≠ [] else c.todo = []) →
    (c.errs = [] → exec (.commandComplete id none) s = .next { settleMedia (completeCmd c scSuccess 0 s) with pending := s.pending }) ∧
    (∀ e, lowestErr c.errs = some e →
      exec (.commandComplete id none) s = .next { settleMedia (completeCmd c e.2 e.1 s) with pending := s.pending })) ∧
  (∀ (s : State) (id : Nat) (c : Cmd), (s.stor.cmds.find? fun c => c.id == id && c.started && c.issued) = some c →
    ¬ (if c.opc = 4 then flushMet s c = true ∨ c.errs ≠ [] else c.todo = []) → exec (.commandComplete id none) s = .next s) ∧
  (∀ (s : State) (id : Nat) (c d : Cmd) (k : BitVec 8) (e : Nat × Nat), (s.stor.cmds.find? fun c => c.id == id && c.started) = some c →
    ((failCmd c k s).stor.cmds.find? fun c => c.id == id && c.started && c.issued) = some d → d.opc ≠ 4 → d.todo = [] →
    lowestErr d.errs = some e →
    exec (.commandComplete id (some k)) s = .next { settleMedia (completeCmd d e.2 e.1 (failCmd c k s)) with pending := s.pending })

/-- Bring-up of the flash and the ends of flash operations, die failures, ageing and temperature samples. Bring-up puts every
lane group that has not had one in STATE 1. Its end leaves each lane group in bring-up empty, usable or unusable with the
cause of Table 10.1 (0x6 where only the package total refuses it), and its capacity follows; a lane group of which nothing is
reported is free. A running read that decodes serves its purpose after its count; one that does not decode moves to the next
ladder step, and after the last is lost; a verification read that does not decode rebuilds the band. A running program ends
good or bad, and a running erase ends one erase block, the band ending with its last; their status counts for the die. The end
of an operation that does not exist changes nothing. A die failure retires every erase block of the die. The hourly ageing
raises every used band by the factor of its hottest die and starts new sums. Sixteen readings become the temperatures of a
lane group's positions, a silent one taking the nearest reading; readings that are missing are free. It says where these
complete with their own effect: flashBringup, flashBringupDone, flashReadDone, flashProgramDone, flashEraseDone, dieFail,
ageUpdate, flashTempSample. (R242, R247, R261, R262, R264, R265, R268, R269, R270, 10_flash_translation.md) -/
def Obligations.FlashOperationsEnd : Prop :=
  (∀ s : State, exec .flashBringup s = .next { (upto 8).foldl (fun a g => a.modLg g fun t =>
    if t.state = 0 then { t with state := 1, cause := 0 } else t) s with pending := s.pending }) ∧
  (∀ (s : State) (pop : List LgFacts), exec (.flashBringupDone pop) s = .next { (upto 8).foldl (fun a g =>
      match (if (a.lg g).state = 1 then (fillFree 8 LgFacts.free pop s).2[g]? else none) with
      | none => a
      | some f =>
        let c := if lgCause f = 0 ∧ totalAllowed (fillFree 8 LgFacts.free pop s).2 g = false then 6 else lgCause f
        loadCap 2 g (if f.present ∧ c = 0 then 16 * f.geo.dies else 0) (a.modLg g fun t => { t with
          state := if f.present = false then 0 else if c = 0 then 2 else 3
          cause := if f.present then c else 0
          geo := if f.present then f.geo else Geo.none })) (fillFree 8 LgFacts.free pop s).1 with pending := s.pending }) ∧
  (∀ (s : State) (pop : List LgFacts), pop.length = 8 → fillFree 8 LgFacts.free pop s = (s, pop)) ∧
  (∀ (s : State) (id : Nat) (b : Bool), findOp s id = none → exec (.flashReadDone id b) s = .next s ∧
    exec (.flashProgramDone id b) s = .next s ∧ exec (.flashEraseDone id b) s = .next s) ∧
  (∀ (s : State) (id : Nat) (b : Bool) (o : FOp) (x : FUnit), findOp s id = some o → opRuns s o = true → opClass o = 0 →
    readUnit (countRead o s) o b = some x →
    exec (.flashReadDone id b) s = .next { settleMedia (readServed o x (countRead o s)) with pending := s.pending }) ∧
  (∀ (s : State) (id : Nat) (b : Bool) (o : FOp) (n : Nat), findOp s id = some o → opRuns s o = true → opClass o = 0 →
    readUnit (countRead o s) o b = none → o.kind ≠ .verify → nextStep (countRead o s) o = some n →
    exec (.flashReadDone id b) s = .next { chargeOp 4 id (setOp { o with step := n, left := [2] } (countRead o s)) with
      pending := s.pending }) ∧
  (∀ (s : State) (id : Nat) (b : Bool) (o : FOp), findOp s id = some o → opRuns s o = true → opClass o = 0 →
    readUnit (countRead o s) o b = none → o.kind ≠ .verify → nextStep (countRead o s) o = none →
    exec (.flashReadDone id b) s = .next { settleMedia (readLost o (countRead o s)) with pending := s.pending }) ∧
  (∀ (s : State) (id : Nat) (b : Bool) (o : FOp), findOp s id = some o → opRuns s o = true → o.kind = .verify →
    readUnit (countRead o s) o b = none →
    exec (.flashReadDone id b) s = .next { settleMedia (rebuildBand o.bn (endOp o ((countRead o s).modEblk
      (bandEb (countRead o s) o.bn (o.u / 1048576)) fun e => { e with suspect := true }))) with pending := s.pending }) ∧
  (∀ (s : State) (id : Nat) (b : Bool) (o : FOp), findOp s id = some o → opRuns s o = true → opClass o = 1 →
    exec (.flashProgramDone id b) s = .next { settleMedia (dieStatus o b (if b then progGood o s else progBad o s)) with pending := s.pending }) ∧
  (∀ (s : State) (id pos : Nat) (b : Bool) (o : FOp), findOp s id = some o → opRuns s o = true → o.kind = .erase pos →
    let e := dieStatus o b (eraseOne o.bn pos b (endOp o s))
    exec (.flashEraseDone id b) s = .next { settleMedia (if e.ftl.ops.any (fun p => p.bn == o.bn) then e
      else wearLevel (bnLg o.bn) (eraseEnd o.bn e)) with pending := s.pending }) ∧
  (∀ (s : State) (lg : LgId) (pos slot : Fin 16),
    let die := dieKey lg pos slot
    let s1 := (upto (s.lg (die / 256)).geo.blocks).foldl (fun a b => a.modEblk (ebKey die b) fun e => { e with state := 5 }) s
    let s2 := s1.modFtl fun t => { t with
      deadDie := if t.deadDie.contains die then t.deadDie else t.deadDie ++ [die]
      media := t.media.map fun e => if e.1 / 1048576 / 4096 = die then (e.1, { e.2 with bad := true }) else e }
    exec (.dieFail lg pos slot) s = .next { settleMedia (((s2.ftl.maps.bands.filter fun e =>
        bnLg e.1 == die / 256 && bnSlot e.1 == die % 16).map (·.1)).foldl (fun a bn =>
      if (a.band bn).st = .free then a.modBand bn fun _ => Band.none
      else if ((a.band bn).st = .open_ ∨ (a.band bn).st = .verifying) ∧ (a.band bn).slc = false then rebuildBand bn a
      else if (a.band bn).st = .mapped ∨ (a.band bn).st = .open_ then markDue bn 4 a
      else a) s2) with pending := s.pending }) ∧
  (∀ lg pos slot : Nat, pos < 16 → slot < 16 → dieKey lg pos slot / 256 = lg ∧ dieKey lg pos slot % 16 = slot) ∧
  (∀ s : State, exec .ageUpdate s = .next { ((usedBands s).foldl (fun a bn =>
      ageBand bn (ageFactor ((upto 16).foldl (fun m p => max m (dieMean s (bnLg bn * 16 + p))) (dieMean s (bnLg bn * 16)))) a) s).modFtl
    (fun t => { t with tempSum := [], ageAt := s.time }) with pending := s.pending }) ∧
  (∀ (s : State) (lg : LgId) (l : List (Option Int)), exec (.flashTempSample lg l) s = .next {
    (fillFree 16 (fun n => some (Int.ofNat n)) l s).1.modFtl fun t => (upto 16).foldl (fun a p =>
      let k := lg.val * 16 + p
      let v := nearestTemp (fillFree 16 (fun n => some (Int.ofNat n)) l s).2 p
      { a with
        temps := tabSet a.temps 1360 k v
        tempSum := tabSet a.tempSum (0, 0) k ((tabGet a.tempSum (0, 0) k).1 + v, (tabGet a.tempSum (0, 0) k).2 + 1) }) t with
    pending := s.pending })

/-- Merges, idle fills, the decay of write counts, and the journal's timed records. While storage runs, a merge that is
scheduled or that the urgency allows starts and the media settles; one that is not allowed, or any while storage does not run,
changes nothing. The map change of a merge in step 4 becomes durable: the segment points at DEST and the old bands are to be
erased. An idle direct fill becomes a merge. Decay halves every RWC, and an entry that is then as at reset is no longer
listed. A TIME record is journaled and a checkpoint starts only while storage runs; no second checkpoint starts while one is
being written. It says where these complete with their own effect: mergeStart, mergeMapDurable, fillIdleExpire, rwcDecay,
journalTimeRecord, checkpointStart. (R253, R256, R258, R260, R287, R288, 10_flash_translation.md) -/
def Obligations.MergesFillsAndJournalRecords : Prop :=
  (∀ (s : State) (g : Nat), s.stor.st = 2 → mergeAllowed s g = true →
    exec (.mergeStart g) s = .next { settleMedia (mergeStart g false 0 s).1 with pending := s.pending }) ∧
  (∀ (s : State) (g : Nat), (s.stor.st ≠ 2 ∨ mergeAllowed s g = false) → exec (.mergeStart g) s = .next s) ∧
  (∀ (s : State) (g : Nat) (d : FDesc), s.desc g = some d → d.run = true → d.step = 4 →
    exec (.mergeMapDurable g) s = .next { settleMedia (ackMore 4096 (finishMerge d s)) with pending := s.pending }) ∧
  (∀ (s : State) (g : Nat), (∀ d, s.desc g = some d → d.run = false ∨ d.step ≠ 4) → exec (.mergeMapDurable g) s = .next s) ∧
  (∀ (s : State) (g : Nat) (d : FDesc), s.desc g = some d → d.run = false → d.fill = true →
    exec (.fillIdleExpire g) s = .next { settleMedia (mergeStart g false 0 s).1 with pending := s.pending }) ∧
  (∀ (s : State) (g : Nat), (∀ d, s.desc g = some d → d.run = true ∨ d.fill = false) → exec (.fillIdleExpire g) s = .next s) ∧
  (∀ s : State, exec .rwcDecay s = .next ((s.modMaps fun m => { m with segs := m.segs.filterMap fun e =>
      if ({ e.2 with rwc := e.2.rwc / 2 } : SegEnt) = SegEnt.reset then none else some (e.1, { e.2 with rwc := e.2.rwc / 2 }) }).modFtl
    fun t => { t with decayAt := s.time })) ∧
  (∀ s : State, s.stor.st = 2 → exec .journalTimeRecord s =
    .next { jot (.time (mediaTime s)) (s.modPls fun p => { p with timeAt := s.time }) with pending := s.pending }) ∧
  (∀ s : State, s.stor.st = 2 → s.pls.snap = none → exec .checkpointStart s = .next { issueOp .ckpt (((journalHome s).getD 0) * 65536) 0 none [] FUnit.none
    (s.modPls fun p => { p with snap := some (snapshot s), ckNum := p.ckNum + 1, mapChg := 0, ckAt := s.time, jUnits := 0 }) with
      pending := s.pending }) ∧
  (∀ s : State, s.stor.st = 2 → s.pls.snap.isSome = true → exec .checkpointStart s = .next s) ∧
  (∀ s : State, s.stor.st ≠ 2 → exec .checkpointStart s = .next s ∧ exec .journalTimeRecord s = .next s)

/-- The holdup bank: the 1 ms update, the capacitance test and its failures. An invalid reading marks VNOW invalid, updates
nothing else and fails a running test with TERR 4; a valid one does the update. A test that is asked for with VCHG 0 or while
one runs starts nothing; otherwise it starts at step 1 with the bank within 2 % of VCHG, and waits for the charge otherwise.
Steps 1 and 2 keep V1 and Va, and step 3 computes the result. A bank that does not charge in time fails the test with TERR 1.
The daily test starts only with a valid result and while a test may run. A write of VEST.HOLD.TEST sets its Quiesce fields
only while storage is disabled and keeps them at a reserved encoding. OD 0x3302.00 starts a test as START does and answers OK.
It says where these complete with their own effect: holdEnergyUpdate, holdTestStart, holdTestDaily, holdTestChargeTimeout,
holdTestStepDone, holdTest. (R279, R280, R281, 11_power_loss_safety.md) -/
def Obligations.HoldupBankAndTests : Prop :=
  (∀ (s : State) (v : BitVec 16), exec (.holdEnergyUpdate (some v)) s = .next { holdUpdate v s with pending := s.pending }) ∧
  (∀ s : State, s.hold.busy = false → exec (.holdEnergyUpdate none) s = .next (s.modHold fun h => { h with vok := false })) ∧
  (∀ s : State, s.hold.busy = true → exec (.holdEnergyUpdate none) s =
    .next { testFail 4 none (s.modHold fun h => { h with vok := false }) with pending := s.pending }) ∧
  (∀ (s : State) (w : Agent) (v : Word), agentRuns s w = true → bit v 63 = false → storDisabled s = false → exec (.holdTestStart w v) s = .next s) ∧
  (∀ (s : State) (w : Agent) (v : Word), agentRuns s w = true → bit v 63 = false → storDisabled s = true →
    exec (.holdTestStart w v) s = .next (s.modHold fun h => { h with
      ttst := if 2 ≤ (fld v 16 8).toNat ∧ (fld v 16 8).toNat ≤ 100 then fld v 16 8 else h.ttst
      ereq := if 100 ≤ (fld v 0 16).toNat ∧ (fld v 0 16).toNat ≤ 10000 then fld v 0 16 else h.ereq })) ∧
  (∀ (s : State) (w : Agent) (v : Word), agentRuns s w = true → bit v 63 = true → storDisabled s = false → s.hold.vchg ≠ 0 → s.hold.busy = false →
    nearVchg s.hold = true → exec (.holdTestStart w v) s = .next (s.modHold fun h => { h with
      busy := true, waiting := false, step := 1, since := s.time, chgOut := false })) ∧
  (∀ (s : State) (w : Agent) (v : Word), agentRuns s w = true → bit v 63 = true → storDisabled s = false → s.hold.vchg ≠ 0 → s.hold.busy = false →
    nearVchg s.hold = false → exec (.holdTestStart w v) s = .next (s.modHold fun h => { h with
      busy := true, waiting := true, step := 0, since := s.time, chgOut := true })) ∧
  (∀ (s : State) (w : Agent) (v : Word), agentRuns s w = true → bit v 63 = true → storDisabled s = false → (s.hold.vchg = 0 ∨ s.hold.busy = true) →
    exec (.holdTestStart w v) s = .next s) ∧
  (∀ s : State, s.hold.valid = true → testAllowed s = true → s.hold.vchg ≠ 0 → s.hold.busy = false →
    exec .holdTestDaily s = .next (s.modHold (startTest s.time))) ∧
  (∀ s : State, (s.hold.valid = false ∨ testAllowed s = false) → exec .holdTestDaily s = .next s) ∧
  (∀ s : State, s.hold.busy = true → s.hold.waiting = true →
    exec .holdTestChargeTimeout s = .next { testFail 1 none s with pending := s.pending }) ∧
  (∀ s : State, (s.hold.busy = false ∨ s.hold.waiting = false) → exec .holdTestChargeTimeout s = .next s) ∧
  (∀ s : State, s.hold.busy = true → s.hold.waiting = false →
    exec (.holdTestStepDone none) s = .next { testFail 4 none s with pending := s.pending }) ∧
  (∀ (s : State) (v : Nat), s.hold.busy = true → s.hold.waiting = false → s.hold.step = 1 →
    exec (.holdTestStepDone (some v)) s = .next (s.modHold fun h => { h with step := 2, v1 := v, tstOut := true })) ∧
  (∀ (s : State) (v : Nat), s.hold.busy = true → s.hold.waiting = false → s.hold.step = 2 →
    exec (.holdTestStepDone (some v)) s = .next (s.modHold fun h => { h with step := 3, va := v })) ∧
  (∀ (s : State) (v : Nat), s.hold.busy = true → s.hold.waiting = false → s.hold.step = 3 →
    exec (.holdTestStepDone (some v)) s = .next { testCompute v s with pending := s.pending }) ∧
  (∀ (s : State) (u : Option Nat), (s.hold.busy = false ∨ s.hold.waiting = true) → exec (.holdTestStepDone u) s = .next s) ∧
  (∀ (s : State) (x : DictCtx) (w : Session), reqState s x = .fresh w → w.level ≠ 0 →
    exec (.holdTest x) s = .next { cmdAnswered x 0x3302 0 stOK [] (holdStart s) with pending := s.pending })

/-- A power failure, the drain and its steps. A power failure in PK3 or in package reset only records its source. During a
drain it aborts a test, asserts HOLD_EN and holds the drain's step. Otherwise it writes the POWERFAIL record, halts every
hart, withdraws deferred requests, aborts a test and asserts HOLD_EN; with storage active the drain then starts with cause 0,
and otherwise step 8 follows at once. The drain's steps 4 to 7 write the manifest, the data, the journal tail and the
completion unit, in that order; after the last the drain ends as its cause says. A step with no drain changes nothing. A slot
whose read was uncorrectable is marked in its data unit. Starting a drain takes channels 0 and 1 out of self-refresh, ends all
flash operations and numbers it. It says where these complete with their own effect: powerFailDetect, drainStepDone. (R282,
R283, R284, R285, R454, 11_power_loss_safety.md, 19_pins_and_electrical.md) -/
def Obligations.PowerFailureAndDrain : Prop :=
  (∀ (s : State) (src : PfSource), (s.pwr.pk3 = true ∨ s.pins.inReset = true) →
    exec (.powerFailDetect src) s = .next { s with pins := setPfLand src true s.pins }) ∧
  (∀ (s : State) (src : PfSource), s.pwr.pk3 = false → s.pins.inReset = false → s.pls.step ≠ 0 →
    exec (.powerFailDetect src) s = .next { ((abortTest { s with pins := setPfLand src true s.pins }).modHold fun h => { h with
      enOut := true, chgOut := false, tstOut := false }).modPls (fun p => { p with pf := true, holdEn := true }) with
      pending := s.pending }) ∧
  (∀ (s : State) (src : PfSource), s.pwr.pk3 = false → s.pins.inReset = false → s.pls.step = 0 →
    let s1 : State := { s with pins := setPfLand src true s.pins }
    let r := mkReport 0x8FFF 0 0x043 false 8 (leBytes 1 (if src = .pwrfailN then 0 else 1) ++ leBytes 1 (if storActive s1 then 1 else 0))
    let s2 := (abortTest (withdrawAll (stopAllHarts (recordNow r s1)))).modHold fun h => { h with
      enOut := true, chgOut := false, tstOut := false }
    exec (.powerFailDetect src) s =
      .next { (if storActive s2 then startDrain 0 true s2 else powerFinish s2) with pending := s.pending }) ∧
  (∀ (s : State) (l : List Nat), s.pls.step = 4 → exec (.drainStepDone l) s = .next (s.modPls fun p => { p with
    step := 5, drain := p.drain.map fun d => { d with man := drainMan s.pls, manOk := true } })) ∧
  (∀ (s : State) (l : List Nat), s.pls.step = 5 → exec (.drainStepDone l) s = .next (s.modPls fun p => { p with
    step := 6, drain := p.drain.map fun d => { d with man := drainData l s.pls } })) ∧
  (∀ (s : State) (l : List Nat), s.pls.step = 6 → exec (.drainStepDone l) s = .next (s.modPls fun p => { p with
    step := 7, drain := p.drain.map fun d => { d with jrn := s.pls.tail } })) ∧
  (∀ (s : State) (l : List Nat), s.pls.step = 7 → exec (.drainStepDone l) s = .next { drainFinish (s.modPls fun p => { p with
    step := 0, drain := p.drain.map fun d => { d with done := true, main := decide (s.pls.cause ≠ 0) && !s.pls.pf } }) with
    pending := s.pending }) ∧
  (∀ (s : State) (l : List Nat), (s.pls.step < 4 ∨ 7 < s.pls.step) → exec (.drainStepDone l) s = .next s) ∧
  (∀ (c : Nat) (b : Bool) (s : State), (startDrain c b s).pls.step = 4 ∧ (startDrain c b s).pls.cause = c ∧
    (startDrain c b s).pls.pf = b ∧ (startDrain c b s).pls.drainNum =
      (let s0 := keepChannel 1 (keepChannel 0 s)
      dropOps (fun _ => true) ((s0.ftl.ops.filter fun o => opRuns s0 o && (match o.kind with
        | .progSlot _ | .progMerge .. => !(s0.band o.bn).slc
        | _ => false)).foldl (fun a o => putUnit o false a) s0)).pls.drainNum + 1)

/-- Items charged to the Belt, period boundaries, and writes of activity entries. An item that no activity in force matches
passes uncharged and answers 1. A matched item passes charged, and answers 1, when no earlier item of the activity waits in
its scope and the activity can cover it; otherwise it is held behind the others, HOLDS counts it, and the answer is 0; in
class 1 what is held is the home agent's transaction for its line, if one is active. An entry found uncorrectable is put out
of force first. A boundary of a class other than 0 puts the written values in force, refills, and lets the held items go on
that are now covered; at one of class 0 the regulators' held packets follow. A write of an activity entry that meets a
rejection changes ERR alone; any other is applied, with reserved fields left as they were and ERR code 5 when it carried one.
It says where these complete with their own effect: beltCharge, beltPeriodBoundary, actCfgWrite. (R168, R306, R309, R313,
12_tenants_and_belt.md) -/
def Obligations.BeltChargesAndPeriods : Prop :=
  (∀ (s : State) (i : BeltItem), matchAct s i.eng i.tid i.cls (if i.scope.val < scopesOf i.cls then i.scope else 0) = none →
    exec (.beltCharge i none) s = .next { s with answer := .word 1 }) ∧
  (∀ (s : State) (i : BeltItem) (a : Nat), let k : Nat := if i.scope.val < scopesOf i.cls then i.scope else 0
    matchAct s i.eng i.tid i.cls k = some a → heldBefore s a k = false → canCover s a k i.cost = true →
    exec (.beltCharge i none) s = .next { takeUnits a k i.cost s with answer := .word 1, pending := s.pending }) ∧
  (∀ (s : State) (i : BeltItem) (a : Nat), let k : Nat := if i.scope.val < scopesOf i.cls then i.scope else 0
    matchAct s i.eng i.tid i.cls k = some a → (heldBefore s a k = true ∨ canCover s a k i.cost = false) →
    exec (.beltCharge i none) s = .next
      (let t := s.modAct a fun v => { v with holds := satInc v.holds }
       { t with belt := { t.belt with held := s.belt.held ++ [⟨a, k, i.cost, itemWhat i s, false⟩] }, answer := .word 0 })) ∧
  (∀ (s : State) (i : BeltItem) (a : Fin 256), exec (.beltCharge i (some a)) s =
    let x := beltCharge i.eng i.tid i.cls (if i.scope.val < scopesOf i.cls then i.scope else 0) i.cost (itemWhat i (entryUe a s)) (entryUe a s)
    .next { x.1.answerW (if x.2 then 1 else 0) with pending := s.pending }) ∧
  (∀ (s : State) (i : BeltItem) (n : Fin (2 ^ 46)), i.line = some n → i.cls = 1 → (s.coh.txns.any fun t => t.lvl == Level.vest && t.line == n.val) = true →
    itemWhat i s = .txn n) ∧
  (∀ (s : State) (c : Fin 6), c ≠ 0 → exec (.beltPeriodBoundary c) s =
    .next { (beltBoundary c s).2.foldl runItem (beltBoundary c s).1 with pending := s.pending }) ∧
  (∀ s : State, let s1 := (beltBoundary 0 s).2.foldl runItem (beltBoundary 0 s).1
    exec (.beltPeriodBoundary 0) s = .next { (regulBoundary s1).2.foldl runReleased (regulBoundary s1).1 with pending := s.pending }) ∧
  (∀ (s : State) (w : Agent) (a : Fin 256) (v : Word), agentRuns s w = true → actReject s a (s.act a) (actWritten a v (s.act a)).1 ≠ 0 →
    exec (.actCfgWrite w a v) s = .next { s with belt := { s.belt with
      errEnt := BitVec.ofNat 8 a, errCode := BitVec.ofNat 3 (actReject s a (s.act a) (actWritten a v (s.act a)).1) } }) ∧
  (∀ (s : State) (w : Agent) (a : Fin 256) (v : Word), agentRuns s w = true → actReject s a (s.act a) (actWritten a v (s.act a)).1 = 0 →
    exec (.actCfgWrite w a v) s = .next (({ s with belt := { s.belt with
      errEnt := BitVec.ofNat 8 a, errCode := if (actWritten a v (s.act a)).2 then 5 else 0 } } : State).setAct a
        { (actWritten a v (s.act a)).1 with
          bad := false, sc := if (s.act a).cls ≠ (actWritten a v (s.act a)).1.cls then [] else (actWritten a v (s.act a)).1.sc }))

/-- A tenant reset by register and by the dictionary, and SHARE. A write of VEST.TEN.RST without GO sets TID alone; GO with a
tenant reset running sets ERR 1 and nothing else, and otherwise starts the tenant reset of the TID. TENRESET refuses a TID
above 4095 with RESERVED and a running reset with BUSY and ERR 1; otherwise it starts the reset and answers OK when it has
ended at once, and PENDING otherwise. SHARE refuses a TID, class or percentage out of range; it writes the entry of the TID
and class, or else the lowest free entry, with SCOPE 0xF, BORROW and the percentage as a budget, and answers OK, or EXHAUSTED
without an entry. It says where these complete with their own effect: tenantReset, tenreset, share. (R316, R317, R322, R371,
12_tenants_and_belt.md, 14_akale_dictionary.md) -/
def Obligations.TenantResetAndShare : Prop :=
  (∀ (s : State) (w : Agent) (v : Word), agentRuns s w = true → bit v 63 = false →
    exec (.tenantReset w v) s = .next { s with belt := { s.belt with tTid := fld v 0 12 } }) ∧
  (∀ (s : State) (w : Agent) (v : Word), agentRuns s w = true → bit v 63 = true → s.belt.tBusy = true →
    exec (.tenantReset w v) s = .next { s with belt := { s.belt with tErr := 1 } }) ∧
  (∀ (s : State) (w : Agent) (v : Word), agentRuns s w = true → bit v 63 = true → s.belt.tBusy = false →
    exec (.tenantReset w v) s = .next { rechargeOps (tenantReset (fld v 0 12) { s with belt := { s.belt with tTid := fld v 0 12 } }) with
      pending := s.pending }) ∧
  (∀ (s : State) (x : DictCtx) (w : Session) (t : BitVec 16), reqState s x = .fresh w → w.level ≠ 0 → 4096 ≤ t.toNat →
    exec (.tenreset x t) s = .next { cmdAnswered x 0x5000 1 stReserved [] s with pending := s.pending }) ∧
  (∀ (s : State) (x : DictCtx) (w : Session) (t : BitVec 16), reqState s x = .fresh w → w.level ≠ 0 → t.toNat < 4096 →
    s.belt.tBusy = true → exec (.tenreset x t) s =
      .next { cmdAnswered x 0x5000 1 stBusy [] { s with belt := { s.belt with tErr := 1 } } with pending := s.pending }) ∧
  (∀ (s : State) (x : DictCtx) (w : Session) (t : BitVec 16), reqState s x = .fresh w → w.level ≠ 0 → t.toNat < 4096 →
    s.belt.tBusy = false →
    let u := rechargeOps (tenantReset (t.setWidth 12) { s with belt := { s.belt with tTid := t.setWidth 12 } })
    exec (.tenreset x t) s =
      .next { (if u.belt.tBusy then cmdPended x 0x5000 1 u else cmdAnswered x 0x5000 1 stOK [] u) with pending := s.pending }) ∧
  (∀ (s : State) (x : DictCtx) (w : Session) (t : BitVec 16) (c p : BitVec 8), reqState s x = .fresh w →
    (4096 ≤ t.toNat ∨ 6 ≤ c.toNat ∨ p = 0 ∨ 100 < p.toNat) →
    exec (.share x t c p) s = .next { cmdAnswered x 0x5001 0 stReserved [] s with pending := s.pending }) ∧
  (∀ (s : State) (x : DictCtx) (w : Session) (t : BitVec 16) (c p : BitVec 8), reqState s x = .fresh w → t.toNat < 4096 → c.toNat < 6 →
    p ≠ 0 → p.toNat ≤ 100 →
    let own := (upto 256).find? fun i =>
      (s.act i).en && !(s.act i).eng && decide ((s.act i).tid = t.setWidth 12) && decide ((s.act i).cls.toNat = c.toNat)
    let slot := own <|> (upto 256).find? fun i => !(s.act i).en && !(s.act i).active
    (∀ a, slot = some a → (wrAct a (cat [on 63 true, on 62 true, at_ 58 (c.setWidth 3), at_ 54 (0xF : BitVec 4), at_ 32 (t.setWidth 12),
        at_ 0 (BitVec.ofNat 32 (shareBudget s c.toNat p.toNat))]) s).belt.errCode = 0 →
      exec (.share x t c p) s = .next { cmdAnswered x 0x5001 0 stOK [] (wrAct a (cat [on 63 true, on 62 true, at_ 58 (c.setWidth 3),
        at_ 54 (0xF : BitVec 4), at_ 32 (t.setWidth 12), at_ 0 (BitVec.ofNat 32 (shareBudget s c.toNat p.toNat))]) s) with
        pending := s.pending }) ∧
    (slot = none → exec (.share x t c p) s = .next { cmdAnswered x 0x5001 0 stExhausted [] s with pending := s.pending }))

/-- Sensor samples, the coolant's thermistors and flow pulses, and the coolant's faults. Fifty-six readings become the sensors
with TJ their highest, and every present Sleeve's hotspot cap sees its own four; readings that are missing are free. A coolant
sample keeps both readings, marks each bad outside its range and reports a fault at its onset; a good inlet below 17 °C sets
IN_LOW. A pulse of 50 µs or more counts and ends NO_FLOW; one below 10 µs changes nothing; between, the outcome is a free
value. FDEM is FMAX with no flow, and otherwise the demand of R341. No pulse for 2 s with duty at VMIN or above is NO_FLOW
with the valve fully open; below VMIN it changes nothing. A short flow is reported at its onset only. It says where these
complete with their own effect: thermalSensorSample, coolantSample, flowPulse, fdemUpdate, noFlowTimeout, flowShortTimeout.
(R336, R340, R341, R342, R343, 13_power_and_thermal.md) -/
def Obligations.SensorsFlowAndCoolant : Prop :=
  (∀ (s : State) (l : List Int), exec (.thermalSensorSample l) s = .next { (presentSleeves s).foldl
    (fun a k => hotSample k (fillFree 56 Int.ofNat l s).2 a) { (fillFree 56 Int.ofNat l s).1 with thm :=
      { (fillFree 56 Int.ofNat l s).1.thm with
        sensors := (fillFree 56 Int.ofNat l s).2, tj := maxReading (fillFree 56 Int.ofNat l s).2 } } with pending := s.pending }) ∧
  (∀ (s : State) (l : List Int), (l.length = 56 → fillFree 56 Int.ofNat l s = (s, l)) ∧
    (l.length ≠ 56 → (fillFree 56 Int.ofNat l s).2.length = 56 ∧ (fillFree 56 Int.ofNat l s).1 = { s with free := s.free + 56 } ∧
      ∀ i < min 56 l.length, (fillFree 56 Int.ofNat l s).2[i]? = l[i]?)) ∧
  (∀ (s : State) (i o : Int), exec (.coolantSample i o) s = .next { reportCoolant 1 (coolantBad o && !s.thm.toutBad)
    (reportCoolant 0 (coolantBad i && !s.thm.tinBad) { s with thm := { s.thm with
      tin := i, tout := o, tinBad := coolantBad i, toutBad := coolantBad o
      inLow := !coolantBad i && decide (i < 17000) } }) with pending := s.pending }) ∧
  (∀ (s : State) (n : Nat), n < 10 → exec (.flowPulse n) s = .next s) ∧
  (∀ (s : State) (n : Nat), 50 ≤ n → exec (.flowPulse n) s = .next { s with thm := { s.thm with
      pulses := s.time :: s.thm.pulses.filter (fun p => decide (s.time < p + 100000000)), lastPulse := s.time, noFlow := false } }) ∧
  (∀ (s : State) (n : Nat), 10 ≤ n → n < 50 → exec (.flowPulse n) s = .next { s with
      free := s.free + 1
      thm := if Config.freeNat s.free % 2 = 1 then { s.thm with
          pulses := s.time :: s.thm.pulses.filter (fun p => decide (s.time < p + 100000000)), lastPulse := s.time, noFlow := false }
        else s.thm }) ∧
  (∀ s : State, s.thm.noFlow = true →
    exec .fdemUpdate s = .next { s with thm := { s.thm with fdem := (s.tobj.fmax : Rat) / 100 } }) ∧
  (∀ s : State, s.thm.noFlow = false →
    exec .fdemUpdate s = .next { s with thm := { s.thm with fdem := flowDemand s.tobj (meanNat s.thm.pHist) (modelTin s) } }) ∧
  (∀ s : State, s.thm.duty < s.tobj.vmin → exec .noFlowTimeout s = .next s) ∧
  (∀ s : State, s.tobj.vmin ≤ s.thm.duty → exec .noFlowTimeout s = .next (reportCoolant 2 (!s.thm.noFlow) { s with thm := { s.thm with
      noFlow := true, flowF := 0, duty := 1000, fdem := (s.tobj.fmax : Rat) / 100, pulses := [] } })) ∧
  (∀ s : State, s.thm.shortFrom.isSome = true →
    exec .flowShortTimeout s = .next (reportCoolant 3 (!s.thm.flowShort) { s with thm := { s.thm with flowShort := true } })) ∧
  (∀ s : State, s.thm.shortFrom = none → exec .flowShortTimeout s = .next s) ∧
  (∀ (s : State) (n : Nat), reportCoolant n false s = s ∧
    reportCoolant n true s = report (mkReport 0x8FFF 0 0x045 false 8 (leBytes 1 n)) s)

/-- The thermal model's update, the hotspot caps, the thermal shutdown and the valve. The model's update predicts T_J over 1
s, 10 s and 60 s by forward integration from the measured TJ with the mean power and the delayed flow, keeps the three
headrooms, and changes TPL by the first row of Table 13.10 that applies. The hotspot tick lowers a cap by one while it lowers,
raises it by one after ten ticks below TJ_CTL, and otherwise starts its count anew. A thermal shutdown while one runs, or in
PK3, changes nothing; otherwise every hart is halted, deferred requests are withdrawn, and the storage drains first if it is
active; a drain that runs goes on and ends in the shutdown (a choice of the model, log 141). The valve is fully open with no
flow, follows MANDUTY in manual mode, and otherwise the PI law, kept within VMIN and 100 %. It says where these complete with
their own effect: thermalModelUpdate, hotspotCapTick, thermalShutdown, valveUpdate. (R337, R338, R339, R340, R342,
13_power_and_thermal.md) -/
def Obligations.ThermalModelCapsAndShutdown : Prop :=
  (∀ s : State, ∃ t : Thm, exec .thermalModelUpdate s = .next { plApplyAll { s with thm := t } with pending := s.pending } ∧
    (let p := meanNat (t.pHist.take 10)
     let sp : Rat := if s.thm.noFlow then 0 else s.thm.fdem
     let x0 : ModelPt := ⟨(s.thm.tj : Rat) / 1000, if s.thm.pHist = [] then modelTin s else s.thm.tp, if s.thm.noFlow then 0 else s.thm.flowF⟩
     let x1 := modelRun s.tobj p (modelTin s) t.setHist sp 100 0 x0
     let x10 := modelRun s.tobj p (modelTin s) t.setHist sp 900 100 x1
     let x60 := modelRun s.tobj p (modelTin s) t.setHist sp 5000 1000 x10
     t.pHist = (s.pwr.meas.toNat :: s.thm.pHist).take 1000 ∧ t.setHist = (sp :: s.thm.setHist).take 3001 ∧
     t.h1 = s.tobj.tjCtl - x1.tj ∧ t.h10 = s.tobj.tjCtl - x10.tj ∧ t.h60 = s.tobj.tjCtl - x60.tj ∧
     t.tpl = BitVec.ofNat 3 (tplNext s.thm.tpl.toNat s.thm.tplStill t.h1 t.h10 t.h60 (decide (s.thm.duty = 1000)) s.thm.flowShort
       (decide (45000 < s.thm.tin) && !s.thm.tinBad)) ∧
     t.tj = s.thm.tj ∧ t.sensors = s.thm.sensors ∧ t.duty = s.thm.duty ∧ t.fdem = s.thm.fdem ∧ t.noFlow = s.thm.noFlow)) ∧
  (∀ s : State, exec .hotspotCapTick s = .next { (presentSleeves s).foldl (fun a k => hscTickOne k a) s with pending := s.pending }) ∧
  (∀ (s : State) (k : Nat), (s.slvPwr k).hscLow = true →
    hscTickOne k s = plApply k (s.setSlvPwr k { s.slvPwr k with hsc := (s.slvPwr k).hsc - (if (s.slvPwr k).hsc = 0 then 0 else 1), hscTick := 0 })) ∧
  (∀ (s : State) (k : Nat), (s.slvPwr k).hscLow = false → (s.slvPwr k).hot < (s.tobj.tjCtl : Int) * 1000 → 9 ≤ (s.slvPwr k).hscTick →
    hscTickOne k s = plApply k (s.setSlvPwr k { s.slvPwr k with hsc := if (s.slvPwr k).hsc = 7 then 7 else (s.slvPwr k).hsc + 1, hscTick := 0 })) ∧
  (∀ (s : State) (k : Nat), (s.slvPwr k).hscLow = false → (s.slvPwr k).hot < (s.tobj.tjCtl : Int) * 1000 → (s.slvPwr k).hscTick < 9 →
    hscTickOne k s = plApply k (s.setSlvPwr k { s.slvPwr k with hscTick := (s.slvPwr k).hscTick + 1 })) ∧
  (∀ (s : State) (n : Fin 56), (s.thm.shut ≠ 0 ∨ s.pwr.pk3 = true) → exec (.thermalShutdown n) s = .next s) ∧
  (∀ (s : State) (n : Fin 56), s.thm.shut = 0 → s.pwr.pk3 = false →
    let s1 := withdrawAll (stopAllHarts { s with thm := { s.thm with shut := 2, shutSens := n } })
    exec (.thermalShutdown n) s = .next { (if s1.pls.step ≠ 0 then s1.modPls (fun p => { p with cause := 2 }) else if storActive s1 then startDrain 2 false s1 else thermalFinish s1) with pending := s.pending }) ∧
  (∀ s : State, ∃ t : Thm, exec .valveUpdate s = .next { s with thm := t } ∧ t.driven = true ∧
    (s.thm.noFlow = true → t.duty = 1000) ∧
    (s.thm.noFlow = false → s.tobj.vmode.getLsbD 15 = true → t.duty = min 1000 (s.tobj.vmode.extractLsb' 0 10).toNat) ∧
    (s.thm.noFlow = false → s.tobj.vmode.getLsbD 15 = false → t.duty =
      (max ((s.tobj.vmin : Rat) / 10) (min 100 (2 * (s.thm.fdem - measFlow s) + t.integ)) * 10).floor.toNat) ∧
    t.integ = max 0 (min 100 (s.thm.integ + (s.thm.fdem - measFlow s) / 10)) ∧
    t.tpl = s.thm.tpl ∧ t.sensors = s.thm.sensors ∧ t.fdem = s.thm.fdem ∧ t.pulses = s.thm.pulses)

/-- The boot sequence, the alias keys and the release of harts. In package reset, or once the ROM has stopped, a boot step
changes nothing. Step 3 waits for the fuse read; a bad Vest stops the ROM; an armed Vest self-test runs then. Step 4 loads the
Cloak firmware: an accepted image lies at 0x01000000 with stage 1 and is measured, and no accepted image stops the ROM. Step 5
loads the other images and reaches step 6; step 6 leads to 8; step 8 ends once the domains are locked and step 9 once a Sleeve
is released, and the last step, 10, places the normal image. The alias keys are made once, from step 6 on, with the alias
certificate. HARTREL takes bits only from the token's holder, sets but never clears them, and releases harts; from any other
agent it changes nothing. It says where these complete with their own effect: bootStepDone, aliasKeygenDone, hartrelSet.
(R377, R379, R380, R381, R389, R442, 15_boot_and_trust.md) -/
def Obligations.BootSequenceAndRelease : Prop :=
  (∀ (s : State) (f : BootFacts), (s.boot.romStop = true ∨ s.pins.inReset = true) → exec (.bootStepDone f) s = .next s) ∧
  (∀ (s : State) (f : BootFacts), s.boot.romStop = false → s.pins.inReset = false → (s.boot.step < 2 ∨ s.boot.step = 7 ∨ 10 < s.boot.step) →
    exec (.bootStepDone f) s = .next s) ∧
  (∀ (s : State) (f : BootFacts), s.boot.romStop = false → s.pins.inReset = false → (s.boot.step = 2 ∨ (s.boot.step = 8 ∧ s.pkg.domLock = true) ∨
      (s.boot.step = 9 ∧ (presentSleeves s).any (fun k => !s.pkg.slvHeld.getLsbD k) = true)) →
    exec (.bootStepDone f) s = .next { s with boot := { s.boot with step := s.boot.step + 1 } }) ∧
  (∀ (s : State) (f : BootFacts), s.boot.romStop = false → s.pins.inReset = false → ((s.boot.step = 8 ∧ s.pkg.domLock = false) ∨
      (s.boot.step = 9 ∧ (presentSleeves s).any (fun k => !s.pkg.slvHeld.getLsbD k) = false)) →
    exec (.bootStepDone f) s = .next s) ∧
  (∀ (s : State) (f : BootFacts), s.boot.romStop = false → s.pins.inReset = false → s.boot.step = 3 →
    (s.pkg.fuseRead = false → exec (.bootStepDone f) s = .next s) ∧
    (s.pkg.fuseRead = true → s.pkg.vestBad = true → exec (.bootStepDone f) s = .next { s with boot := { s.boot with romStop := true } }) ∧
    (s.pkg.fuseRead = true → s.pkg.vestBad = false →
      exec (.bootStepDone f) s = .next { vestBist s with boot := { s.boot with step := 4 }, pending := s.pending })) ∧
  (∀ (s : State) (f : BootFacts), s.boot.romStop = false → s.pins.inReset = false → s.boot.step = 4 →
    exec (.bootStepDone f) s = .next { bootCloak f s with pending := s.pending }) ∧
  (∀ (s : State) (f : BootFacts) (k c : Nat), pickSlot s 1 f = (some k, c) → (bootCloak f s).boot.stage = 1 ∧ (bootCloak f s).boot.step = 5 ∧
    (bootCloak f s).boot.romStop = s.boot.romStop ∧ (bootCloak f s).boot.udsLock = true) ∧
  (∀ (s : State) (f : BootFacts) (c : Nat), pickSlot s 1 f = (none, c) → (bootCloak f s).boot.romStop = true ∧
    (bootCloak f s).boot.step = s.boot.step ∧ (bootCloak f s).harts = s.harts) ∧
  (∀ (s : State) (f : BootFacts), s.boot.romStop = false → s.pins.inReset = false → s.boot.step = 5 →
    exec (.bootStepDone f) s = .next { bootImages f s with pending := s.pending }) ∧
  (∀ (s : State) (f : BootFacts), s.boot.romStop = false → s.pins.inReset = false → s.boot.step = 6 →
    exec (.bootStepDone f) s = .next { s with boot := { s.boot with step := 8 } }) ∧
  (∀ (s : State) (f : BootFacts), s.boot.romStop = false → s.pins.inReset = false → s.boot.step = 10 →
    exec (.bootStepDone f) s = .next { placeNormal f s with
      boot := { (placeNormal f s).boot with step := (placeNormal f s).boot.step + 1 }, pending := s.pending }) ∧
  (∀ s : State, 6 ≤ s.boot.step → s.boot.keys = false →
    exec .aliasKeygenDone s = .next { s with boot := { s.boot with keys := true, aliasCert := aliasCertOf s }, free := s.free + 1 }) ∧
  (∀ s : State, (s.boot.step < 6 ∨ s.boot.keys = true) → exec .aliasKeygenDone s = .next s) ∧
  (∀ (s : State) (m : Mc) (v : Word), agentRuns s (.mc m) = true → mcHolds s m = true → exec (.hartrelSet (.mc m) v) s =
    .next { settleRelease { s with boot := { s.boot with hartrel := s.boot.hartrel ||| fld v 0 12 } } with pending := s.pending }) ∧
  (∀ (s : State) (w : Agent) (v : Word), agentRuns s w = true → (∀ m, w = .mc m → mcHolds s m = false) → exec (.hartrelSet w v) s = .next s)

/-- Claims, the token, presence, takeover and the forced safe state. A controller in reset, or in the safe state, changes
nothing with a write of its CTL. A live one's claim counts until the token is given. When the window closes, the sole
claimant, or with both the one of the higher SVN and MC-E when equal, gets the token; giving it ends every session. ALIVE
makes its writer present from now, and the timeout makes it absent. A present holder's token is not taken; an absent holder's
goes to the taker, which counts a takeover, holds the former holder in reset and reports it. RELEASE gives a holder's token to
a present standby. With neither present the absence of the holder resets the management subsystem. Disagreement takes the
token away, ends every session, counts and reports a safe stop, and resets the management subsystem. A reload releases the
controllers whose images pass. It says where these complete with their own effect: ownClaim, ownAlive, presenceTimeout,
claimWindowClose, ownTake, ownRelease, holderAbsentTimeout, disagreeTimeout, mcReloadDone. (R382, R383, R384, R385, R386,
15_boot_and_trust.md) -/
def Obligations.OwnershipOfThePackage : Prop :=
  (∀ (s : State) (m : Mc), mcLive s m = false → exec (.ownClaim m) s = .next s ∧ exec (.ownTake m) s = .next s ∧
    exec (.ownRelease m) s = .next s ∧ exec (.ownAlive m) s = .next s) ∧
  (∀ (s : State) (m : Mc), mcLive s m = true → s.own.phase.toNat < 2 → exec (.ownClaim m) s = .next { s with own := { s.own with
    phase := 1, claimE := s.own.claimE || decide (m = .e), claimW := s.own.claimW || decide (m = .w) } }) ∧
  (∀ (s : State) (m : Mc), mcLive s m = true → 2 ≤ s.own.phase.toNat → exec (.ownClaim m) s = .next s) ∧
  (∀ (s : State) (m : Mc), mcLive s m = true → exec (.ownAlive m) s = .next { s with own :=
    if m = .e then { s.own with aliveE := some s.time } else { s.own with aliveW := some s.time } }) ∧
  (∀ (s : State) (m : Mc), exec (.presenceTimeout m) s = .next { s with own :=
    if m = .e then { s.own with aliveE := none } else { s.own with aliveW := none } }) ∧
  (∀ s : State, s.own.phase = 1 → s.own.claimE = true → s.own.claimW = true → exec .claimWindowClose s =
    .next { giveToken (decide (s.own.svnW.toNat ≤ s.own.svnE.toNat)) s with pending := s.pending }) ∧
  (∀ s : State, s.own.phase = 1 → (s.own.claimE = false ∨ s.own.claimW = false) →
    exec .claimWindowClose s = .next { giveToken s.own.claimE s with pending := s.pending }) ∧
  (∀ s : State, s.own.phase ≠ 1 → exec .claimWindowClose s = .next s) ∧
  (∀ (s : State) (e : Bool), (giveToken e s).own = { s.own with
    holder := if e then 1 else 2, phase := 2, claimE := false, claimW := false } ∧ (giveToken e s).adp.sessions = []) ∧
  (∀ (s : State) (m : Mc), mcLive s m = true → s.own.phase = 2 → s.own.holder = mcCode (!mcBit m) → s.own.present (!mcBit m) = false →
    exec (.ownTake m) s = .next { ownTake (mcBit m) s with pending := s.pending } ∧ (ownTake (mcBit m) s).own.holder = mcCode (mcBit m) ∧
    (ownTake (mcBit m) s).own.takeovers = satInc s.own.takeovers ∧ (ownTake (mcBit m) s).own.inRst (!mcBit m) = true) ∧
  (∀ (s : State) (m : Mc), mcLive s m = true → (s.own.phase ≠ 2 ∨ s.own.holder ≠ mcCode (!mcBit m) ∨ s.own.present (!mcBit m) = true) →
    exec (.ownTake m) s = .next s) ∧
  (∀ (s : State) (m : Mc), mcLive s m = true → s.own.phase = 2 → s.own.holder = mcCode (mcBit m) → s.own.present (!mcBit m) = true →
    exec (.ownRelease m) s = .next { giveToken (!mcBit m) s with pending := s.pending }) ∧
  (∀ (s : State) (m : Mc), mcLive s m = true → (s.own.phase ≠ 2 ∨ s.own.holder ≠ mcCode (mcBit m) ∨ s.own.present (!mcBit m) = false) →
    exec (.ownRelease m) s = .next s) ∧
  (∀ s : State, s.own.phase = 2 → s.own.present true = false → s.own.present false = false →
    exec .holderAbsentTimeout s = .next { mgmtReset s with pending := s.pending }) ∧
  (∀ s : State, (s.own.phase ≠ 2 ∨ s.own.present true = true ∨ s.own.present false = true) → exec .holderAbsentTimeout s = .next s) ∧
  (∀ s : State, disagree s.own = false → exec .disagreeTimeout s = .next s) ∧
  (∀ s : State, disagree s.own = true → ∃ t, exec .disagreeTimeout s = .next t ∧ t.own.holder = 0 ∧
    t.own.safestops = satInc s.own.safestops ∧ t.own.takeovers = s.own.takeovers ∧ t.adp.sessions = [] ∧ t.harts = s.harts) ∧
  (∀ (s : State) (e w : ImageFacts), s.own.reload = false → exec (.mcReloadDone e w) s = .next s) ∧
  (∀ (s : State) (e w : ImageFacts), s.own.reload = true →
    let one (b : Bool) (f : ImageFacts) (u : State) : State :=
      if u.own.inRst b then setMcReset b (!(loadMc b f u).2) (loadMc b f u).1 else u
    exec (.mcReloadDone e w) s = .next { one false w (one true e s) with
      own := { (one false w (one true e s)).own with reload := false }, pending := s.pending })

/-- Attestation, anti-rollback commits, boot flash commands, tokens and challenges, handover and the management reset. For a
fresh request of a session of level 1 or more (ATTEST: any level). ATTEST with a nonce of 32 bytes answers OK with the report
and draws one free value; with another length TYPE_MISMATCH. SVNCOMMIT of types 1 to 5 raises the counter to the running
image's SVN, never lowering it. FWWRITE and FWCHECK refuse types and slots that do not exist; FWWRITE writes the area and
answers its directory entry, FWCHECK answers the code of Table 15.3 and changes no image. TOKREVOKE raises the epoch by one up
to 64. DBGCHAL makes a new challenge, which lapses; DBGUNLOCK passes a token of 3,136 bytes on and is pending, is refused
where debugging is not permitted and BUSY while one verifies. HANDOVER releases the token to a present standby, or is REFUSED.
MGMTRST answers and then resets the management subsystem. It says where these complete with their own effect: attest,
challengeLapse, svncommit, fwwrite, fwcheck, tokrevoke, dbgchal, dbgunlock, handover, mgmtrst. (R361, R377, R378, R384, R386,
R390, R391, R392, R393, R437, 14_akale_dictionary.md, 15_boot_and_trust.md) -/
def Obligations.SecurityServicesOfTheDictionary : Prop :=
  (∀ (s : State) (x : DictCtx) (w : Session) (n : List Byte), reqState s x = .fresh w → n.length = 32 →
    exec (.attest x n) s = .next { cmdAnswered x 0x7000 0 stOK (attReport s n) { s with free := s.free + 1 } with pending := s.pending }) ∧
  (∀ (s : State) (x : DictCtx) (w : Session) (n : List Byte), reqState s x = .fresh w → n.length ≠ 32 →
    exec (.attest x n) s = .next { cmdAnswered x 0x7000 0 stTypeMismatch [] s with pending := s.pending }) ∧
  (∀ s : State, exec .challengeLapse s = .next { s with boot := { s.boot with chal := none } }) ∧
  (∀ (s : State) (x : DictCtx) (w : Session), reqState s x = .fresh w → w.level ≠ 0 →
    (∀ t : BitVec 8, 1 ≤ t.toNat → t.toNat ≤ 5 → exec (.svncommit x t) s = .next { cmdAnswered x 0x7019 0 stOK [] { s with boot := { s.boot with
      svn := tabSet s.boot.svn 0 t.toNat (max (svnFuse s t.toNat) (commitSvn s t.toNat)) } } with pending := s.pending }) ∧
    (∀ t : BitVec 8, (t = 0 ∨ 5 < t.toNat) →
      exec (.svncommit x t) s = .next { cmdAnswered x 0x7019 0 stReserved [] s with pending := s.pending }) ∧
    (∀ (t k : BitVec 8) (o : BitVec 32) (d : List Byte), 1 ≤ t.toNat → t.toNat ≤ 6 → k.toNat ≤ 1 → ¬ (t = 6 ∧ k = 1) → 1 ≤ d.length →
      d.length ≤ 4096 → o.toNat + d.length ≤ slotLimit t.toNat →
      exec (.fwwrite x t k o d) s = .next { cmdAnswered x 0x7020 0 stOK (dirEntry t.toNat k.toNat (fwWrite t.toNat k.toNat o.toNat d s).2)
        (fwWrite t.toNat k.toNat o.toNat d s).1 with pending := s.pending }) ∧
    (∀ (t k : BitVec 8) (o : BitVec 32) (d : List Byte), (t = 0 ∨ 6 < t.toNat ∨ 1 < k.toNat ∨ (t = 6 ∧ k = 1)) →
      exec (.fwwrite x t k o d) s = .next { cmdAnswered x 0x7020 0 stReserved [] s with pending := s.pending }) ∧
    (∀ (t k : BitVec 8) (f : ImageFacts), 1 ≤ t.toNat → t.toNat ≤ 5 → k.toNat ≤ 1 → exec (.fwcheck x t k f) s =
      .next { cmdAnswered x 0x7021 0 stOK (leBytes 1 (imageCheck s t.toNat k.toNat f)) s with pending := s.pending }) ∧
    exec (.tokrevoke x) s = .next { cmdAnswered x 0x7030 2 stOK [] { s with boot := { s.boot with epoch := min 64 (s.boot.epoch + 1) } } with
      pending := s.pending } ∧
    (featOn s 8 = true → exec (.dbgchal x) s = .next { cmdAnswered x 0x7031 0 stOK (Config.random s.free 32) { s with
      free := s.free + 1, boot := { s.boot with chal := some (Config.random s.free 32, s.time) } } with pending := s.pending }) ∧
    (∀ tok, featOn s 8 = true → exec (.dbgunlock x tok) s = .next { (
      if Config.secdbgEn = false then cmdAnswered x 0x7032 0 stRefused [] { s with dbg := { s.dbg with tokRes := 4 } }
      else if s.dbg.tok.isSome then cmdAnswered x 0x7032 0 stBusy [] s
      else if tok.length ≠ 3136 then cmdAnswered x 0x7032 0 stTypeMismatch [] s
      else cmdPended x 0x7032 0 (tokenIn tok (some (x.sid, x.reqid)) s)) with pending := s.pending }) ∧
    (∀ tok, featOn s 8 = false → exec (.dbgunlock x tok) s =
      .next { cmdAnswered x 0x7032 0 stNotSupported [] s with pending := s.pending } ∧
      exec (.dbgchal x) s = .next { cmdAnswered x 0x7031 0 stNotSupported [] s with pending := s.pending }) ∧
    (s.own.phase = 2 → s.own.present (decide (s.own.holder ≠ 1)) = true → exec (.handover x) s =
      .next { ownRelease (decide (s.own.holder = 1)) (cmdAnswered x 0x7100 2 stOK [] s) with pending := s.pending }) ∧
    ((s.own.phase ≠ 2 ∨ s.own.present (decide (s.own.holder ≠ 1)) = false) →
      exec (.handover x) s = .next { cmdAnswered x 0x7100 2 stRefused [] s with pending := s.pending }) ∧
    exec (.mgmtrst x) s = .next { mgmtReset (cmdAnswered x 0x1040 0 stOK [] s) with pending := s.pending })

/-- Reports, records, the error MSI, the mirror, the read port and clearing. A report is counted and reaches the ingress
queue. A record write takes the oldest entry; on an empty queue nothing happens. The holdoff's end sends the MSI that covers a
record when one waits and MSIs are enabled, and otherwise only forgets it. The mirror's timeout programs a unit when the
mirror is available. A permitted agent's CLEAR empties the ring with CLEARED as the first record; any other agent's changes
nothing. RDPTR selects the record at its offset or else the one at TAIL; RDDATA answers the next word of the buffer, and all
ones on an empty ring. PKTREAD answers whole records and the next offset, MIRREAD one unit or FAILED, and PKTCLEAR clears as
the serving controller; arguments out of range are RESERVED. It says where these complete with their own effect: errorReport,
pocketRecordWrite, pocketMsiHoldoffExpire, mirrorFlushTimeout, pocketClear, rdptrWrite, rddataRead, pktread, mirread,
pktclear. (R396, R398, R403, R405, R406, R409, R412, R413, 16_errors_and_pocket.md) -/
def Obligations.PocketRecordsAndPorts : Prop :=
  (∀ (s : State) (r : Report), exec (.errorReport r) s = .next { s with pkt := pktIngress r s.time s.pkt }) ∧
  (∀ s : State, s.pkt.queue = [] → exec .pocketRecordWrite s = .next s) ∧
  (∀ (s : State) (e : PktEntry) (l : List PktEntry), s.pkt.queue = e :: l →
    exec .pocketRecordWrite s = .next { writeEntry e s with pending := s.pending }) ∧
  (∀ s : State, s.pkt.msiDefer = true → s.pkt.msiEn = true →
    exec .pocketMsiHoldoffExpire s = .next { sendErrMsi s with pending := s.pending }) ∧
  (∀ s : State, (s.pkt.msiDefer = false ∨ s.pkt.msiEn = false) →
    exec .pocketMsiHoldoffExpire s = .next { s with pkt := { s.pkt with msiDefer := false } }) ∧
  (∀ s : State, s.pkt.mirState = 0 → exec .mirrorFlushTimeout s = .next s) ∧
  (∀ s : State, s.pkt.mirState ≠ 0 → exec .mirrorFlushTimeout s = .next {
    mirErase { s with pkt := mirProgram (mirCap s) (mirTwo s) s.pkt } with pending := s.pending }) ∧
  (∀ (s : State) (w : Agent) (a : Nat), agentRuns s w = true → clearAgent s w = some a → exec (.pocketClear w) s = .next { clearRing a s with pending := s.pending }) ∧
  (∀ (s : State) (w : Agent), agentRuns s w = true → clearAgent s w = none → exec (.pocketClear w) s = .next s) ∧
  (∀ (a : Nat) (s : State), (clearRing a s).pkt.ring = [⟨0, s.time, 1, mkReport 0 0 0x003 false 8 (leBytes 1 a), false, false⟩] ∧
    (clearRing a s).pkt.written = 1 ∧ (clearRing a s).pkt.overwr = 0 ∧ (clearRing a s).pkt.head = 32 ∧ (clearRing a s).pkt.tail = 0 ∧
    (clearRing a s).pkt.queue = s.pkt.queue) ∧
  (∀ (s : State) (w : Agent) (v : Word) (g : PktRec), agentRuns s w = true → portSelect (fld v 0 22).toNat s.pkt = some g → exec (.rdptrWrite w v) s = .next { s with
    pkt := { s.pkt with rdOff := BitVec.ofNat 22 g.off, rdBuf := portWords g, rdLoaded := true } }) ∧
  (∀ (s : State) (w : Agent) (v : Word), agentRuns s w = true → portSelect (fld v 0 22).toNat s.pkt = none → exec (.rdptrWrite w v) s = .next { s with
    pkt := { s.pkt with rdOff := fld v 0 22, rdBuf := [], rdLoaded := false } }) ∧
  (∀ (s : State) (w : Agent) (v : Word) (l : List Word), agentRuns s w = true → s.pkt.rdBuf = v :: l →
    exec (.rddataRead w) s = .next { s with pkt := { s.pkt with rdBuf := l }, answer := .word v }) ∧
  (∀ (s : State) (w : Agent), agentRuns s w = true → s.pkt.rdBuf = [] → s.pkt.ring = [] →
    exec (.rddataRead w) s = .next { s with answer := .word (BitVec.allOnes 64) }) ∧
  (∀ (s : State) (w : Agent) (g : PktRec) (l : List PktRec), agentRuns s w = true → s.pkt.rdBuf = [] → s.pkt.rdLoaded = false → s.pkt.ring = g :: l →
    exec (.rddataRead w) s = .next { s with
      pkt := { portLoad g s.pkt with rdBuf := (portWords g).tail }
      answer := .word ((portWords g).head?.getD 0) }) ∧
  (∀ (s : State) (x : DictCtx) (w : Session) (o : BitVec 32) (m : BitVec 16), reqState s x = .fresh w → 16 ≤ m.toNat → m.toNat ≤ 8000 →
    exec (.pktread x o m) s = .next { cmdAnswered x 0x6010 0 stOK
      ((recsFrom o.toNat m.toNat s.pkt).1 ++ leBytes 4 (recsFrom o.toNat m.toNat s.pkt).2) s with pending := s.pending }) ∧
  (∀ (s : State) (x : DictCtx) (w : Session) (o : BitVec 32) (m : BitVec 16), reqState s x = .fresh w → (m.toNat < 16 ∨ 8000 < m.toNat) →
    exec (.pktread x o m) s = .next { cmdAnswered x 0x6010 0 stReserved [] s with pending := s.pending }) ∧
  (∀ (s : State) (x : DictCtx) (w : Session) (c : BitVec 8) (n : BitVec 32), reqState s x = .fresh w → w.level ≠ 0 → c.toNat ≤ 1 → n ≠ 0 →
    (∀ u, (if c = 0 then s.pkt.mir0 else s.pkt.mir1)[n.toNat - 1]? = some u →
      exec (.mirread x c n) s = .next { cmdAnswered x 0x6011 0 stOK (unitBytes u) s with pending := s.pending }) ∧
    ((if c = 0 then s.pkt.mir0 else s.pkt.mir1)[n.toNat - 1]? = none →
      exec (.mirread x c n) s = .next { cmdAnswered x 0x6011 0 stFailed [] s with pending := s.pending })) ∧
  (∀ (s : State) (x : DictCtx) (w : Session), reqState s x = .fresh w → w.level ≠ 0 → exec (.pktclear x) s =
    .next { cmdAnswered x 0x6012 0 stOK [] (clearRing (if s.own.holder = 2 then 2 else 1) s) with pending := s.pending })

/-- The Pocket's ingress queue never exceeds its shared and reserved entries. From any state whose ingress queue holds at most
48 shared entries and at most one reserved entry of each source class, a report and a record write leave such a queue; such a
queue holds at most 64 entries. The queue after reset is such a queue. It says where these complete with their own effect:
errorReport, pocketRecordWrite. (R405, R407, R408, 16_errors_and_pocket.md) -/
def Obligations.PocketIngressKeepsItsBounds : Prop :=
  (∀ (r : Report) (now : Nat) (p : Pkt), ingressOk p → ingressOk (pktIngress r now p)) ∧
  (∀ (e : PktEntry) (s : State), ingressOk s.pkt → ingressOk (writeEntry e s).pkt) ∧
  (∀ (s t : State) (r : Report), ingressOk s.pkt → (exec (.errorReport r) s = .next t ∨ exec .pocketRecordWrite s = .next t) →
    ingressOk t.pkt) ∧
  (∀ p : Pkt, ingressOk p → p.queue.length ≤ 64) ∧ ingressOk State.reset.pkt

/-- The management network, datagrams, handshakes and the ends of sessions. Duplicate address detection ends once, holding the
address or reporting that it failed. Neighbour solicitations of the device's address and echo requests are answered only while
the address is held. A datagram while the port does not serve, or one with a malformed header, is discarded. A hello is
discarded while the port does not serve; a blocked address is refused with code 0x07; a malformed hello fails with 0x06; a
fifth handshake is discarded; otherwise the device answers. An authentication ends its handshake: as a key client, or at level
2 as a token client; malformed it fails with 0x06, with an unlisted key while enrolment is closed with 0x02; one without a
handshake is discarded. A failed handshake counts in AUTHFAIL. Timeouts discard the oldest handshake and the oldest partial
message; a block ends; a session ends by close, idleness or age, with its subscriptions and pending commands. It says where
these complete with their own effect: duplicateAddressDetection, neighborSolicitation, icmpv6EchoRequest, datagramReceive,
clientHello, clientAuth, handshakeTimeout, reassemblyTimeout, authBlockExpire, sessionIdleTimeout, sessionLifetimeExpire,
sessionClose. (R347, R348, R349, R350, R352, R353, R354, R355, 14_akale_dictionary.md) -/
def Obligations.NetworkAndSessions : Prop :=
  (∀ (s : State) (d : Bool), (s.pins.inReset = true ∨ s.adp.dad ≠ 0) → exec (.duplicateAddressDetection d) s = .next s) ∧
  (∀ s : State, s.pins.inReset = false → s.adp.dad = 0 →
    exec (.duplicateAddressDetection false) s = .next { s with adp := { s.adp with dad := 1 } } ∧
    exec (.duplicateAddressDetection true) s =
      .next (report (mkReport 0x9003 0 0x075 false 8 []) { s with adp := { s.adp with dad := 2 } })) ∧
  (∀ (s : State) (a : NetAddr) (t : BitVec 128), exec (.neighborSolicitation a t) s = .next { s with
    answer := if s.adp.dad = 1 ∧ t = BitVec.ofNat 128 (leNat (llBytes s).reverse) then .bytes (macBytes s) else .none }) ∧
  (∀ (s : State) (a : NetAddr) (b : List Byte), exec (.icmpv6EchoRequest a b) s =
    .next { s with answer := if s.adp.dad = 1 then .bytes b else .none }) ∧
  (∀ (s : State) (a : NetAddr) (b : List Byte), adpServes s = false → exec (.datagramReceive a b) s = .next { s with answer := .none } ∧
    exec (.clientHello a b) s = .next { s with answer := .none }) ∧
  (∀ (s : State) (a : NetAddr) (b : List Byte), adpHeaderOk b 0 = false → adpHeaderOk b 32 = false →
    exec (.datagramReceive a b) s = .next { s with answer := .none }) ∧
  (∀ (s : State) (a : NetAddr) (b : List Byte), adpServes s = true → leNat (sl b 3 1) = 3 → adpHeaderOk b 0 = true →
    exec (.datagramReceive a b) s = .next { reassemble a (argAt b 4 32) 3 (leNat (sl b 16 2)) (leNat (sl b 18 1)) (leNat (sl b 19 1))
      (b.drop 24) s with pending := s.pending }) ∧
  (∀ (s : State) (a : NetAddr) (b : List Byte), adpServes s = true → 0x10 ≤ leNat (sl b 3 1) → leNat (sl b 3 1) ≤ 0x17 →
    adpHeaderOk b 32 = true → exec (.datagramReceive a b) s = .next { sessionDatagram a (argAt b 4 32) b s with pending := s.pending }) ∧
  (∀ (s : State) (a : NetAddr) (b : List Byte), adpServes s = true → (s.adp.blocked.any fun k => k.1 = a.ip) = true →
    exec (.clientHello a b) s = .next (sendPlain a 0x30 0 [0x07] s)) ∧
  (∀ (s : State) (a : NetAddr) (b : List Byte), adpServes s = true → (s.adp.blocked.any fun k => k.1 = a.ip) = false →
    (b.length ≠ 1608 ∨ 2 < leNat (sl b 32 1)) → exec (.clientHello a b) s = .next { failHandshake a 0x06 s with pending := s.pending }) ∧
  (∀ (s : State) (a : NetAddr) (b : List Byte), adpServes s = true → (s.adp.blocked.any fun k => k.1 = a.ip) = false →
    b.length = 1608 → leNat (sl b 32 1) ≤ 2 → exec (.clientHello a b) s = .next { (if 4 ≤ s.adp.hs.length then { s with answer := .none }
      else deviceHello a b s) with pending := s.pending }) ∧
  (∀ (s : State) (a : NetAddr) (n : BitVec 32) (b : List Byte), s.adp.hs.find? (·.sid = n) = none →
    exec (.clientAuth a n b) s = .next { s with answer := .none }) ∧
  (∀ (s : State) (a : NetAddr) (n : BitVec 32) (b : List Byte) (h : Handshake), s.adp.hs.find? (·.sid = n) = some h →
    let t : State := { s with adp := { s.adp with hs := s.adp.hs.filter (·.sid ≠ n) } }
    exec (.clientAuth a n b) s = .next { (if h.level.toNat < 2 then authKey a h b t else authToken a h b t) with pending := s.pending }) ∧
  (∀ (s : State) (a : NetAddr) (h : Handshake) (b : List Byte), b.length ≠ 3080 → authKey a h b s = failHandshake a 0x06 s) ∧
  (∀ (s : State) (a : NetAddr) (h : Handshake) (b : List Byte), b.length = 3080 → keyListed h.keys (sl b 0 1793) h.level.toNat = false →
    enrolOpen s h.level.toNat = false → authKey a h b s = failHandshake a 0x02 s) ∧
  (∀ (a : NetAddr) (c : Nat) (s : State), (failHandshake a c s).adp.authfail = satInc s.adp.authfail ∧
    (failHandshake a c s).adp.sessions = s.adp.sessions) ∧
  (∀ s : State, exec .handshakeTimeout s = .next { s with adp := { s.adp with hs := s.adp.hs.drop 1 } } ∧
    exec .reassemblyTimeout s = .next { s with adp := { s.adp with partials := s.adp.partials.drop 1 } }) ∧
  (∀ (s : State) (a : BitVec 128), exec (.authBlockExpire a) s =
    .next { s with adp := { s.adp with blocked := s.adp.blocked.filter fun b => b.1 ≠ a } }) ∧
  (∀ (s : State) (n : BitVec 32), exec (.sessionIdleTimeout n) s = .next (endSession n s) ∧
    exec (.sessionLifetimeExpire n) s = .next (endSession n s)) ∧
  (∀ (s : State) (n : BitVec 32), findSession s n = none → exec (.sessionClose n) s = .next { s with answer := .none }) ∧
  (∀ (s : State) (n : BitVec 32) (w : Session), findSession s n = some w → exec (.sessionClose n) s =
    .next { endSession n (sendIn n w.src 0x05 [(Config.freeWord s.free).setWidth 8] { s with free := s.free + 1 }) with
      pending := s.pending }) ∧
  (∀ (s : State) (n : BitVec 32), findSession (endSession n s) n = none)

/-- Reads, writes, multi-entry requests, descriptions, subscriptions and repeated requests. A request of no session is not
answered; a repeated one answers its kept response and runs nothing; a stale one answers STALE_REQUEST. A fresh read answers
its object's value, or the status of the check that fails; a fresh write applies its object after every check, and a rejected
one changes nothing but the record of R313. A multi-entry request of 1 to 64 entries reads all, or writes all in order when
all pass and none when one fails; DESCRIBE answers each object; other counts are discarded. SUBSCRIBE adds a subscription
under a fresh identifier or answers the failing check, RESERVED or EXHAUSTED; UNSUBSCRIBE ends one of the session, NO_OBJECT
otherwise. NOTIFY sends the current value and keeps it. COMMAND runs the command object that it names, and refuses an object
that is none. It says where these complete with their own effect: adpRead, adpWrite, mread, mwrite, describe, subscribe,
unsubscribe, notify, command, tokrevoke. (R358, R359, R360, R361, R362, 14_akale_dictionary.md) -/
def Obligations.DictionaryRequests : Prop :=
  (∀ (s : State) (x : DictCtx) (e : DictEntry), findSession s x.sid = none →
    exec (.adpRead x e) s = .next { s with answer := .none } ∧ exec (.adpWrite x e) s = .next { s with answer := .none } ∧
    exec (.mread x [e]) s = .next { s with answer := .none } ∧ exec (.mwrite x [e]) s = .next { s with answer := .none } ∧
    exec (.describe x [e]) s = .next { s with answer := .none } ∧ exec (.subscribe x e 0 0) s = .next { s with answer := .none } ∧
    exec (.unsubscribe x 0) s = .next { s with answer := .none }) ∧
  (∀ (s : State) (x : DictCtx) (e : DictEntry) (w : Session) (b : List Byte), findSession s x.sid = some w → reqState s x = .kept b →
    exec (.adpWrite x e) s = .next { sendIn x.sid w.src 0x20 b s with answer := .bytes b, pending := s.pending } ∧
    exec (.adpRead x e) s = .next { sendIn x.sid w.src 0x20 b s with answer := .bytes b, pending := s.pending }) ∧
  (∀ (s : State) (x : DictCtx) (e : DictEntry) (w : Session), findSession s x.sid = some w → reqState s x = .stale →
    exec (.adpWrite x e) s = .next { sendIn x.sid w.src 0x20 (respBody x.reqid [entryBytes e.index e.sub false stStale []]) s with
      answer := .status stStale [], pending := s.pending }) ∧
  (∀ (s : State) (x : DictCtx) (e : DictEntry) (w : Session), reqState s x = .fresh w → exec (.adpRead x e) s =
    .next { answerAll x [e] (fitResponse [readEntry s (lvlOf w) e]) s.draw with pending := s.pending }) ∧
  (∀ (s : State) (x : DictCtx) (e : DictEntry) (w : Session) (o : Obj), reqState s x = .fresh w → writeCheck s (lvlOf w) e = .inl o →
    exec (.adpWrite x e) s = .next { answerAll x [e] (fitResponse [(odPend (odWrite e.value s o.od) o.od, stOK, [])])
      (odWrite e.value s o.od) with pending := s.pending }) ∧
  (∀ (s : State) (x : DictCtx) (e : DictEntry) (w : Session) (st : Nat), reqState s x = .fresh w → writeCheck s (lvlOf w) e = .inr st →
    st ≠ stNotQuiesced → exec (.adpWrite x e) s = .next { answerAll x [e] (fitResponse [(false, st, [])]) s with pending := s.pending }) ∧
  (∀ (s : State) (x : DictCtx) (es : List DictEntry), countOk es = false → exec (.mread x es) s = .next { s with answer := .none } ∧
    exec (.mwrite x es) s = .next { s with answer := .none } ∧ exec (.describe x es) s = .next { s with answer := .none }) ∧
  (∀ (s : State) (x : DictCtx) (es : List DictEntry) (w : Session), countOk es = true → reqState s x = .fresh w →
    exec (.mread x es) s = .next { answerAll x es (fitResponse (es.map (readEntry s (lvlOf w)))) s.draw with pending := s.pending } ∧
    exec (.describe x es) s = .next { answerAll x es (fitResponse (es.map (describeEntry s (lvlOf w)))) s with pending := s.pending } ∧
    exec (.mwrite x es) s = .next (let r := if allPass (lvlOf w) es s then applyAll (lvlOf w) es s else failAll (lvlOf w) s es s
      { answerAll x es (fitResponse r.2) r.1 with pending := s.pending })) ∧
  (∀ (s : State) (x : DictCtx) (e : DictEntry) (m : BitVec 8) (i : BitVec 32) (w : Session), reqState s x = .fresh w →
    exec (.subscribe x e m i) s = .next (let r := subscribeBody x e m i (lvlOf w) s
      { answerAll x [e] (fitResponse r.2) r.1 with pending := s.pending })) ∧
  (∀ (s : State) (x : DictCtx) (e : DictEntry) (m : BitVec 8) (i : BitVec 32) (l n : Nat) (o : Obj), readCheck s l e.index e.sub = .inl o →
    subInt m i = some n → (s.adp.subs.filter (·.sid = x.sid)).length < 64 → s.adp.subs.length < 256 →
    ∃ b : Sub, (subscribeBody x e m i l s).1 = { s with free := s.free + 1, adp := { s.adp with subs := s.adp.subs ++ [b] } } ∧
      b.sid = x.sid ∧ b.index = e.index ∧ b.sub = e.sub ∧ b.mode = m ∧ b.int = n ∧ b.value = odRead s o.ty o.od ∧
      b.id ≠ 0 ∧ (∀ q ∈ s.adp.subs, q.id ≠ b.id)) ∧
  (∀ (s : State) (x : DictCtx) (n : BitVec 16) (w : Session) (b : Sub), reqState s x = .fresh w →
    (s.adp.subs.find? fun q => q.id = n ∧ q.sid = x.sid) = some b →
    exec (.unsubscribe x n) s = .next { answerAll x [⟨b.index, b.sub, []⟩] (fitResponse [(false, stOK, [])]) { s with adp := { s.adp with
      subs := s.adp.subs.filter fun q => ¬ (q.id = n ∧ q.sid = x.sid) } } with pending := s.pending }) ∧
  (∀ (s : State) (x : DictCtx) (n : BitVec 16) (w : Session), reqState s x = .fresh w →
    (s.adp.subs.find? fun q => q.id = n ∧ q.sid = x.sid) = none →
    exec (.unsubscribe x n) s = .next { answerAll x [⟨0, 0, []⟩] (fitResponse [(false, stNoObject, [])]) s with pending := s.pending }) ∧
  (∀ (s : State) (n : BitVec 16), s.adp.subs.find? (·.id = n) = none → exec (.notify n) s = .next s) ∧
  (∀ (s : State) (n : BitVec 16) (b : Sub), s.adp.subs.find? (·.id = n) = some b →
    let a := readEntry s (((findSession s b.sid).map lvlOf).getD 0) ⟨b.index, b.sub, []⟩
    let c := (Config.freeWord s.free).toNat % 65536
    exec (.notify n) s = .next { sendIn b.sid b.dst 0x21 (leBytes 2 n.toNat ++ leBytes 2 (if a.2.2 = b.value then c else max 1 c) ++
      ansBytes ⟨b.index, b.sub, []⟩ a) { s with free := s.free + 1, adp := { s.adp with
        subs := s.adp.subs.map fun q => if q.id = n then { q with value := a.2.2 } else q } } with pending := s.pending }) ∧
  (∀ (s : State) (x : DictCtx) (e : DictEntry), exec (.command x e) s = .next { runCommand x e s with pending := s.pending }) ∧
  (∀ (s t : State) (x : DictCtx), exec (.tokrevoke x) s = .next t →
    exec (.command x ⟨0x7030, 2, []⟩) s = .next { t with pending := s.pending }) ∧
  (∀ (s : State) (x : DictCtx) (e : DictEntry) (w : Session), objOf e.index e.sub = none → reqState s x = .fresh w →
    exec (.command x e) s = .next { cmdAnswered x e.index e.sub stNoObject [] s with pending := s.pending })

/-- Namespace, domain reset, power and self-test commands of the dictionary. For a fresh request of a session of level 1 or
more; at level 0 each of these commands answers LEVEL_DENIED and does nothing. NSCREATE, NSRESIZE and NSDELETE are REFUSED
unless storage runs, BUSY while a namespace command runs, and RESERVED for a namespace or size that cannot be. NSCREATE
otherwise starts the namespace at the lowest base that is free and answers its base and size, or EXHAUSTED. NSRESIZE grows at
once into free segments, answers at once for an equal size, and is pending for a smaller one. NSDELETE marks the namespace
deleting and is pending. DOMRST resets the domains of its mask, PWRREQ answers the outcome of the power request, RESERVED for
an operation or target that does not exist, PKGOFF that of the package's power-off. BISTRUN answers as its GO does, pending
for a Sleeve; BISTDISARM disarms the Vest. It says where these complete with their own effect: nscreate, pkgoff, bistdisarm,
nsresize, nsdelete, domrst, pwrreq, bistrun. (R150, R217, R332, R333, R361, R371, R372, R373, R441, 13_power_and_thermal.md,
14_akale_dictionary.md, 18_debug_and_test.md) -/
def Obligations.PlatformCommandsOfTheDictionary : Prop :=
  ∀ (s : State) (x : DictCtx) (w : Session), reqState s x = .fresh w →
    (w.level = 0 → exec (.nscreate x 0 0 0) s = .next { cmdAnswered x 0x4001 0 stLevelDenied [] s with pending := s.pending } ∧
      exec (.pkgoff x) s = .next { cmdAnswered x 0x3102 0 stLevelDenied [] s with pending := s.pending } ∧
      exec (.bistdisarm x) s = .next { cmdAnswered x 0x8030 0 stLevelDenied [] s with pending := s.pending }) ∧
    (w.level ≠ 0 →
    (s.stor.st ≠ 2 → (∀ (n m : BitVec 8) (k : BitVec 32),
      exec (.nscreate x n k m) s = .next { cmdAnswered x 0x4001 0 stRefused [] s with pending := s.pending } ∧
      exec (.nsresize x n k) s = .next { settleMedia (cmdAnswered x 0x4002 0 stRefused [] s) with pending := s.pending } ∧
      exec (.nsdelete x n) s = .next { settleMedia (cmdAnswered x 0x4003 0 stRefused [] s) with pending := s.pending })) ∧
    (s.stor.st = 2 → s.ftl.nsCmd.isSome = true → (∀ (n m : BitVec 8) (k : BitVec 32),
      exec (.nscreate x n k m) s = .next { cmdAnswered x 0x4001 0 stBusy [] s with pending := s.pending } ∧
      exec (.nsresize x n k) s = .next { settleMedia (cmdAnswered x 0x4002 0 stBusy [] s) with pending := s.pending } ∧
      exec (.nsdelete x n) s = .next { settleMedia (cmdAnswered x 0x4003 0 stBusy [] s) with pending := s.pending })) ∧
    (s.stor.st = 2 → s.ftl.nsCmd = none →
      (∀ (n m : BitVec 8) (k : BitVec 32) (b : Nat), n.toNat < 64 → (s.ns n.toNat).state = 0 → k ≠ 0 → maskOk s m = true →
        nsegTotal s + k.toNat ≤ min 458752 (lsegMax s) → lowestBase s k.toNat = some b →
        exec (.nscreate x n k m) s = .next { cmdAnswered x 0x4001 0 stOK (leBytes 4 b ++ leBytes 8 (k.toNat * segBlk (geoOfMask s m)))
          (jotNs n.toNat (s.setNs n.toNat ⟨1, m, b, k.toNat, segBlk (geoOfMask s m)⟩)) with pending := s.pending }) ∧
      (∀ (n : BitVec 8) (k : BitVec 32), n.toNat < 64 → (s.ns n.toNat).state = 1 → k ≠ 0 → k.toNat < (s.ns n.toNat).nseg →
        let t := jotNs n.toNat (s.setNs n.toNat { s.ns n.toNat with nseg := k.toNat })
        exec (.nsresize x n k) s = .next { settleMedia (cmdPended x 0x4002 0 (t.modFtl fun f => { f with nsCmd := some ⟨1, n.toNat, some x,
          (s.ns n.toNat).sbase + k.toNat, (s.ns n.toNat).sbase + (s.ns n.toNat).nseg, nsCmds s n.toNat⟩ })) with pending := s.pending }) ∧
      (∀ (n : BitVec 8) (k : BitVec 32), n.toNat < 64 → (s.ns n.toNat).state = 1 → (s.ns n.toNat).nseg < k.toNat →
        rangeFree s n.toNat ((s.ns n.toNat).sbase + (s.ns n.toNat).nseg) (k.toNat - (s.ns n.toNat).nseg) = true →
        nsegTotal s + k.toNat - (s.ns n.toNat).nseg ≤ min 458752 (lsegMax s) →
        exec (.nsresize x n k) s = .next { settleMedia (cmdAnswered x 0x4002 0 stOK (leBytes 8 (k.toNat * (s.ns n.toNat).segblk))
          (jotNs n.toNat (s.setNs n.toNat { s.ns n.toNat with nseg := k.toNat }))) with pending := s.pending }) ∧
      (∀ n : BitVec 8, n.toNat < 64 → (s.ns n.toNat).state ≠ 0 → (s.ns n.toNat).state ≠ 3 →
        let t := jotNs n.toNat (s.setNs n.toNat { s.ns n.toNat with state := 3 })
        exec (.nsdelete x n) s = .next { settleMedia (cmdPended x 0x4003 0 (t.modFtl fun f => { f with nsCmd := some ⟨2, n.toNat, some x,
          (s.ns n.toNat).sbase, (s.ns n.toNat).sbase + (s.ns n.toNat).nseg, nsCmds s n.toNat⟩ })) with pending := s.pending })) ∧
    (∀ m : BitVec 8, exec (.domrst x m) s =
      .next { cmdAnswered x 0x2007 5 stOK [] (domReset (m.extractLsb' 0 4) s) with pending := s.pending }) ∧
    (∀ (o b : BitVec 8), (40 ≤ b.toNat ∨ 3 ≤ o.toNat) →
      exec (.pwrreq x o b) s = .next { cmdAnswered x 0x3101 0 stReserved [] s with pending := s.pending }) ∧
    (∀ (o : BitVec 8) (b : BlockId) (c : Nat), o.toNat < 3 → (powerRequest o.toNat b .dictionary (some x) s).2 = some c →
      exec (.pwrreq x o (BitVec.ofNat 8 b.val)) s = .next { (
        let t := (powerRequest o.toNat b .dictionary (some x) s).1
        if c = 1 then cmdPended x 0x3101 0 t else cmdAnswered x 0x3101 0 (outcomeStatus c) [] t) with pending := s.pending }) ∧
    exec (.pkgoff x) s = .next { (
      let r := packageOff .dictionary (some x) s
      if r.2 = 1 then cmdPended x 0x3102 0 r.1 else cmdAnswered x 0x3102 0 (outcomeStatus r.2) [] r.1) with pending := s.pending } ∧
    (∀ t k : BitVec 8, (12 < t.toNat ∨ 3 < k.toNat) →
      exec (.bistrun x t k) s = .next { cmdAnswered x 0x8000 0 stReserved [] s with pending := s.pending }) ∧
    (∀ t k : BitVec 8, t.toNat < 12 → k.toNat ≤ 3 → goCheck s t.toNat (k.setWidth 2) = 0 →
      exec (.bistrun x t k) s = .next { cmdPended x 0x8000 0 ((bistGo t.toNat (k.setWidth 2) s).1.setBist t.toNat
        { (bistGo t.toNat (k.setWidth 2) s).1.bist t.toNat with ctx := some (x.sid, x.reqid) }) with pending := s.pending }) ∧
    (∀ k : BitVec 8, k.toNat ≤ 3 → goCheck s 12 (k.setWidth 2) = 0 →
      exec (.bistrun x 12 k) s = .next { cmdAnswered x 0x8000 0 stOK []
        (s.setBist 12 { s.bist 12 with state := 1, err := 0, kind := k.setWidth 2 }) with pending := s.pending }) ∧
    exec (.bistdisarm x) s = .next { cmdAnswered x 0x8030 0 stOK []
      (if (s.bist 12).state = 1 then s.setBist 12 { s.bist 12 with state := 0 } else s) with pending := s.pending })

/-- The TAP's instructions, debug tokens and the built-in self-test. Reset selects IDCODE, which returns the code; the
boundary instructions capture the lands and latch what is shifted; BYPASS returns 0. DTMCS returns its word and clears the
sticky status on request; DMI returns the last access, and performs none while that failed or with no operation. SECCHAL makes
a new challenge. SECTOKEN returns the unlock status and, where debugging is permitted and no token verifies, passes the 3,136
bytes of the token on; bytes that are missing are free. A token's verification ends: a valid one unlocks its scope and uses
the challenge up. BIST returns the status of the target last written and writes the control register. A disallowed GO changes
nothing; an accepted one starts or arms. Steps pass over kinds that were not selected; the last takes 78 signatures;
signatures that are missing are free. It says where these complete with their own effect: tapReset, idcode, samplePreload,
extest, bypass, dtmcs, dmi, secchal, sectoken, tokenVerifyDone, bist, bistGo, bistStepDone. (R428, R429, R437, R438, R440,
R441, R444, R445, 18_debug_and_test.md) -/
def Obligations.TestAccessPortAndSelfTest : Prop :=
  (∀ s : State, exec .tapReset s = .next (setIr 1 s) ∧ exec .idcode s = .next { setIr 1 s with answer := .word (idcode s) }) ∧
  (∀ (s : State) (a b : BitVec 384), exec (.samplePreload a b) s = .next { s with
      dbg := { s.dbg with ir := 2, bsrIn := a, bsrOut := b }
      answer := .bytes (leBytes 48 a.toNat) } ∧
    exec (.extest a b) s = .next { s with
      dbg := { s.dbg with ir := 3, bsrIn := a, bsrOut := b }
      answer := .bytes (leBytes 48 a.toNat) }) ∧
  (∀ (s : State) (b : Bool), exec (.bypass b) s = .next { s with dbg := { s.dbg with ir := 0x1F, bypass := b }, answer := .word 0 }) ∧
  (∀ (s : State) (v : BitVec 32), exec (.dtmcs v) s = .next { s with
    dbg := { s.dbg with ir := 0x10, dmistat := if v.getLsbD 16 || v.getLsbD 17 then 0 else s.dbg.dmistat }
    answer := .word (dtmcs s) }) ∧
  (∀ (s : State) (v : BitVec 50), (s.dbg.dmistat ≠ 0 ∨ (v.extractLsb' 0 2 ≠ 1 ∧ v.extractLsb' 0 2 ≠ 2)) → exec (.dmi v) s = .next { s with
    dbg := { s.dbg with ir := 0x11 }
    answer := .word (cat [at_ 34 s.dbg.dmiAddr, at_ 2 s.dbg.dmiData, at_ 0 s.dbg.dmistat]) }) ∧
  (∀ (s : State) (v : BitVec 50) (m : ModuleId), s.dbg.dmistat = 0 → dmiModule (v.extractLsb' 34 16).toNat = some m →
    (m.val = 12 ∨ (s.slvPwr m).sl = 0) →
    let s1 : State := { s with
      dbg := { s.dbg with ir := 0x11 }
      answer := .word (cat [at_ 34 s.dbg.dmiAddr, at_ 2 s.dbg.dmiData, at_ 0 (0 : BitVec 2)]) }
    let rg := (v.extractLsb' 34 16).toNat % 0x200
    (v.extractLsb' 0 2 = 1 → exec (.dmi v) s = .next { (dmiRead m rg s1).1 with
      dbg := { (dmiRead m rg s1).1.dbg with dmiAddr := v.extractLsb' 34 16, dmiData := fld (dmiRead m rg s1).2 0 32 }, pending := s.pending }) ∧
    (v.extractLsb' 0 2 = 2 → exec (.dmi v) s = .next { dmWrite m rg (v.extractLsb' 2 32) s1 with
      dbg := { (dmWrite m rg (v.extractLsb' 2 32) s1).dbg with dmiAddr := v.extractLsb' 34 16, dmiData := v.extractLsb' 2 32 }
      pending := s.pending })) ∧
  (∀ s : State, exec .secchal s = .next { s with
    free := s.free + 1
    boot := { s.boot with chal := some (Config.random s.free 32, s.time) }
    dbg := { s.dbg with ir := 0x12 }
    answer := .bytes (Config.random s.free 32) }) ∧
  (∀ (s : State) (k : List Byte), exec (.sectoken k) s = .next (
    let s1 : State := { s with dbg := { s.dbg with ir := 0x13 }, answer := .word (unlockStatus s) }
    let l := fillFree 3136 (BitVec.ofNat 8) k s1
    if secdbgOk s = false then { s1 with dbg := { s1.dbg with tokRes := 4 } }
    else if s.dbg.tok.isSome then s1 else { tokenIn l.2 none l.1 with pending := s.pending })) ∧
  (∀ (s : State) (k : List Byte), k.length = 3136 → fillFree 3136 (BitVec.ofNat 8) k s = (s, k)) ∧
  (∀ s : State, s.dbg.tok = none → exec .tokenVerifyDone s = .next s) ∧
  (∀ (s : State) (k c : List Byte), s.dbg.tok = some (k, c) → s.dbg.tokDict = none → exec .tokenVerifyDone s = .next (
    if debugTokenOk s k c then { s with
      dbg := { s.dbg with tok := none, tokRes := 1, scope := s.dbg.scope ||| BitVec.ofNat 13 (leNat (sl k 20 4)) }
      boot := { s.boot with chal := none, dbgEver := true } }
    else { s with dbg := { s.dbg with tok := none, tokRes := 2 } })) ∧
  (∀ (s : State) (v : Word), exec (.bist v) s = .next { wrBistCtl true v { s with
    dbg := { s.dbg with ir := 0x14 }, answer := .word (rdBistStat s s.dbg.bTarget.toNat) } with pending := s.pending }) ∧
  (∀ (s : State) (w : Agent) (v : Word), agentRuns s w = true → domrstAllowed s w = false → exec (.bistGo w v) s = .next s) ∧
  (∀ (s : State) (w : Agent) (v : Word), agentRuns s w = true → domrstAllowed s w = true → fld v 8 4 = 12 → fld v 0 2 = 1 → bit v 63 = true →
    (s.bist 12).state ≠ 2 → exec (.bistGo w v) s = .next (({ s with dbg := { s.dbg with bTarget := 12, bKind := 1 } } : State).setBist 12
      { s.bist 12 with state := 1, err := 0, kind := 1 })) ∧
  (∀ (s : State) (k : SleeveId) (l : List (BitVec 64)), (s.bist k).state ≠ 2 → exec (.bistStepDone k l) s = .next s) ∧
  (∀ (s : State) (k : SleeveId) (l : List (BitVec 64)), (s.bist k).state = 2 → (s.bist k).step < 5 →
    exec (.bistStepDone k l) s = .next (s.setBist k { s.bist k with step :=
      if (s.bist k).step = 2 then (if (s.bist k).kind.getLsbD 0 then 3 else 4)
      else if (s.bist k).step = 3 then (if (s.bist k).kind.getLsbD 1 then 4 else 5) else (s.bist k).step + 1 })) ∧
  (∀ (s : State) (k : SleeveId) (l : List (BitVec 64)), (s.bist k).state = 2 → 5 ≤ (s.bist k).step →
    exec (.bistStepDone k l) s = .next { bistEnd k (fillFree 78 (BitVec.ofNat 64) l s).2 (fillFree 78 (BitVec.ofNat 64) l s).1 with pending := s.pending }) ∧
  (∀ (s : State) (l : List (BitVec 64)), l.length = 78 → fillFree 78 (BitVec.ofNat 64) l s = (s, l))

/-- Halt and resume requests, ndmreset, abstract commands, system bus accesses and triggers. A halt request to a hart that is
not available or halts already changes nothing; one that the secure world holds waits; in a sleeping scope it waits and wakes
the scope; otherwise the hart halts with cause 3, and a core in SL1 wakes. A halted hart resumes at dpc in the mode of dcsr,
and acknowledges; with its resume group it resumes with the halted members. ndmreset of the Vest module, or of an absent
Sleeve's, only sets its bit. An abstract command with an error standing changes nothing; while a program buffer runs it ends
with cmderr 1; otherwise it ends with cmderr 2 where unsupported and 4 where the hart is not halted, or transfers the register
where it asks for that; with postexec the hart then runs the program buffer. EBREAK ends the program, and an exception ends it
with cmderr 3 and no trap. A system bus access does not start with an error standing; a size above 64 bits ends with 4 and a
misaligned one with 3; a timeout ends a busy one with 1. A trigger that does not match changes nothing; one with action 0
takes a breakpoint exception unless it would be lost, one that debug mode owns enters debug mode with cause 2. It says where
these complete with their own effect: haltRequest, resumeRequest, ndmreset, abstractCommand, ebreak, systemBusAccess,
systemBusTimeout, triggerFire. (R431, R432, R433, R434, R435, R436, 18_debug_and_test.md) -/
def Obligations.HaltResumeAccessesAndTriggers : Prop :=
  (∀ (s : State) (h : HartId), (dbgAvail s h ≠ 2 ∨ (s.hart h).halted = true) → exec (.haltRequest h) s = .next s) ∧
  (∀ (s : State) (h : HartId), dbgAvail s h = 2 → (s.hart h).halted = false → sleepScope s h = none → dbgHold s h = true →
    exec (.haltRequest h) s = .next { wakeSl1 h (s.setHart h { s.hart h with haltPend := true }) with pending := s.pending }) ∧
  (∀ (s : State) (h : HartId), dbgAvail s h = 2 → (s.hart h).halted = false → sleepScope s h = none → dbgHold s h = false →
    exec (.haltRequest h) s = .next { wakeSl1 h (enterDebug h 3 s) with pending := s.pending }) ∧
  (∀ (s : State) (h : HartId) (c : Scope), dbgAvail s h = 2 → (s.hart h).halted = false → sleepScope s h = some c →
    exec (.haltRequest h) s = .next { startWake c 7 (s.setHart h { s.hart h with haltPend := true }) with pending := s.pending }) ∧
  (∀ (s : State) (h : HartId), (dbgAvail s h ≠ 2 ∨ (s.hart h).halted = false) → exec (.resumeRequest h) s = .next s) ∧
  (∀ (s : State) (h : HartId), dbgAvail s h = 2 → (s.hart h).halted = true → tabGet s.dbg.resGrp 0 h = 0 →
    exec (.resumeRequest h) s = .next { resumeHart h s with pending := s.pending }) ∧
  (∀ (s : State) (h : Nat), fld ((s.hart h).c 0x7B0) 0 2 = (3 : BitVec 2) → resumeHart h s = wakeSl1 h ((s.setHart h { s.hart h with
      pc := (s.hart h).c 0x7B1, priv := 3, virt := false, halted := false, haltPend := false, prog := false }).modDm (hartDm h).1 fun d => { d with
    resumeAck := setBit d.resumeAck (hartDm h).2 true })) ∧
  (∀ (s : State) (h : Nat), fld ((s.hart h).c 0x7B0) 0 2 ≠ (3 : BitVec 2) → resumeHart h s = wakeSl1 h ((s.setHart h (({ s.hart h with
      pc := (s.hart h).c 0x7B1, priv := fld ((s.hart h).c 0x7B0) 0 2, virt := bit ((s.hart h).c 0x7B0) 5, halted := false
      haltPend := false, prog := false } : Hart).setC 0x300 ((s.hart h).c 0x300 &&& ~~~(on 17 true)))).modDm (hartDm h).1 fun d => { d with
    resumeAck := setBit d.resumeAck (hartDm h).2 true })) ∧
  (∀ (s : State) (m : ModuleId) (b : Bool), (m = 12 ∨ slvPresent s m = false) →
    exec (.ndmreset m b) s = .next (s.setDm m { s.dm m with ndm := b })) ∧
  (∀ (s : State) (m : ModuleId), m ≠ 12 → slvPresent s m = true → (s.dm m).ndm = false → exec (.ndmreset m true) s =
    .next { forgetSleeve m (resetSleeve m ((s.modDm m fun d => { d with ndm := true }).modDm m fun d => { d with
      haveReset := BitVec.allOnes 80 })) with pending := s.pending }) ∧
  (∀ (s : State) (m : ModuleId) (c : BitVec 32), let s1 := s.modDm m fun d => { d with cmd := c }
    let h := dmHart m (s1.dm m).hartsel.toNat
    let halted := dmHalted s1 m (s1.dm m).hartsel.toNat
    let form := c.extractLsb' 24 8 = 0 ∧ c.getLsbD 23 = false ∧ c.getLsbD 19 = false
    let ok := form ∧ c.getLsbD 17 = true ∧ (c.extractLsb' 20 3 = 2 ∨ c.extractLsb' 20 3 = 3)
    let free := cmderrOf s m = 0 ∧ dmBusy s m = false
    (cmderrOf s m ≠ 0 → exec (.abstractCommand m c) s = .next s) ∧
    (cmderrOf s m = 0 → dmBusy s m = true → exec (.abstractCommand m c) s = .next (s.modDm m fun d => { d with cmderr := 1 })) ∧
    (free → ¬form → exec (.abstractCommand m c) s = .next (s1.modDm m fun d => { d with cmderr := 2 })) ∧
    (free → (ok ∨ (form ∧ c.getLsbD 17 = false)) → halted = false →
      exec (.abstractCommand m c) s = .next (s1.modDm m fun d => { d with cmderr := 4 })) ∧
    (free → form → c.getLsbD 17 = false → halted = true →
      exec (.abstractCommand m c) s = .next { postExec c h s1 with pending := s.pending }) ∧
    (∀ v : Word, free → ok → halted = true → c.getLsbD 16 = false → absRead s1 h (c.extractLsb' 0 16).toNat = some v →
      exec (.abstractCommand m c) s = .next { postExec c h (s1.modDm m fun e => { e with
        data0 := fld v 0 32, data1 := if c.extractLsb' 20 3 = 3 then fld v 32 32 else e.data1 }) with pending := s.pending }) ∧
    (∀ t : State, free → ok → halted = true → c.getLsbD 16 = true →
      absWrite h (c.extractLsb' 0 16).toNat (absArg s1 (s1.dm m) (c.extractLsb' 20 3).toNat) s1 = some t →
      exec (.abstractCommand m c) s = .next { postExec c h { t with free := t.free + 1 } with pending := s.pending })) ∧
  (∀ (s : State) (h : HartId) (c : BitVec 32), postExec c h s =
    wakeSl1 h (if c.getLsbD 18 then s.setHart h { s.hart h with prog := true } else s)) ∧
  (∀ (s : State) (h : HartId) (z : Bool), hartRuns s h = true → (s.hart h).indir = none → ((s.hart h).rest = [] ∨ (s.hart h).rest = [.alone]) → (s.hart h).prog = true →
    exec (.ebreak h z) s = .next { inProgram h (fun a => a.setHart h (endProgram false (a.hart h))) s with pending := s.pending }) ∧
  (∀ (s : State) (h : HartId) (t : Trap), (s.hart h).prog = true → takeTrap h t s = { s.setHart h (endProgram true (s.hart h)) with
    fab := { s.fab with held := s.fab.held.filter fun e => !heldOf h e } }) ∧
  (∀ (s : State) (m : ModuleId) (w : Bool), ((s.dm m).sbErr ≠ 0 ∨ (s.dm m).sbBusyErr = true) → exec (.systemBusAccess m w) s = .next s) ∧
  (∀ (s : State) (m : ModuleId) (w : Bool), (s.dm m).sbErr = 0 → (s.dm m).sbBusyErr = false →
    exec (.systemBusAccess m w) s = .next { sbRun m w s with pending := s.pending }) ∧
  (∀ (s : State) (m : ModuleId) (w : Bool), 3 < (s.dm m).sbAcc.toNat → sbRun m w s = sbEnd m 4 s) ∧
  (∀ (s : State) (m : ModuleId) (w : Bool), (s.dm m).sbAcc.toNat ≤ 3 →
    (s.dm m).sbAddr.toNat % 2 ^ 52 % 2 ^ (s.dm m).sbAcc.toNat ≠ 0 → sbRun m w s = sbEnd m 3 s) ∧
  (∀ (s : State) (m : ModuleId), (s.dm m).sbBusy = true → exec (.systemBusTimeout m) s =
    .next (s.setDm m { s.dm m with sbErr := 1, sbBusy := false })) ∧
  (∀ (s : State) (m : ModuleId), (s.dm m).sbBusy = false → exec (.systemBusTimeout m) s = .next s) ∧
  (∀ (s : State) (h : HartId) (t : Fin 4) (ev : TrigEvent), (hartRuns s h = false ∨ (s.hart h).halted = true ∨ (s.hart h).indir.isSome = true ∨ dbgHold s h = true) →
    exec (.triggerFire h t ev) s = .next s) ∧
  (∀ (s : State) (h : HartId) (ev : TrigEvent), hartRuns s h = true → (s.hart h).halted = false → (s.hart h).indir = none → dbgHold s h = false →
    trigChain (s.hart h) 0 = false → trigMatch (s.hart h) ((s.hart h).trig 0) ev = true →
    let s1 := s.setHart h (trigHit (s.hart h) 0)
    (trigAction ((s.hart h).trig 0) = 0 → exec (.triggerFire h 0 ev) s = .next (if trigReentrant (s.hart h) then s else
      { takeTrap h (plainTrap 3 (trigTval (s.hart h) ev) (s.hart h).virt) s1 with pending := s.pending })) ∧
    (trigAction ((s.hart h).trig 0) = 1 → exec (.triggerFire h 0 ev) s = .next (if bit ((s.hart h).trig 0).data1 59 then
      { enterDebug h 2 s1 with pending := s.pending } else s)))

/-- Memory writes, reads, atomics and MSIs of devices, ATS and PTM requests. A payload that is too long or crosses a 4 KiB
page is discarded and logged. A request over a link that does not serve changes nothing; one of a requester on a bus above 15
is unsupported. A translated, admitted, permitted write to main memory is performed line by line, an MSI to an interrupt file
makes its identity pending, and a read answers the bytes, or a completer abort with poison; a read of a line with an active
transaction waits. An atomic performs and answers the old value; one of 128 bits is unsupported. A refused request is
recorded, and a read or atomic answers unsupported; a request that fails translation is discarded or answered so. One beyond
its activity's allowance is held. An ATS request with a PASID is unsupported; translated, it answers the page and its
permissions. PTM answers the timebase in ns. It says where these complete with their own effect: inboundMemWrite,
inboundMemRead, inboundAtomic, inboundMsi, atsTranslationRequest, ptmRequest. (R126, R140, R169, R419, R420, R421, R423,
17_pcie_cxl_iommu.md) -/
def Obligations.InboundRequestsOfDevices : Prop :=
  (∀ (s : State) (r : DevReq) (d : List Byte) (e : Bool), devLenOk r d.length 512 = false →
    exec (.inboundMemWrite r d e) s = .next (logAer r.port s)) ∧
  (∀ (s : State) (r : DevReq) (n : Nat) (errs : List ArrErr), devLenOk r n 4096 = false →
    exec (.inboundMemRead r n errs) s = .next (logAer r.port s)) ∧
  (∀ (s : State) (r : DevReq) (d : List Byte) (e : Bool) (n : Nat) (v w : Word), linkServes s r.port r.link = false →
    (devLenOk r d.length 512 = true → exec (.inboundMemWrite r d e) s = .next s) ∧
    (devLenOk r n 4096 = true → exec (.inboundMemRead r n []) s = .next s) ∧ exec (.inboundAtomic r (.swap true) v w) s = .next s ∧
    exec (.inboundMsi r (v.setWidth 32)) s = .next s ∧ exec (.atsTranslationRequest r) s = .next s) ∧
  (∀ (s : State) (r : DevReq) (d : List Byte) (e : Bool), devLenOk r d.length 512 = true →
    exec (.inboundMemWrite r d e) s = .next { inMemWrite true r d e (.inboundMemWrite r d e) s with pending := s.pending }) ∧
  (∀ (s : State) (r : DevReq) (n : Nat) (errs : List ArrErr), devLenOk r n 4096 = true →
    exec (.inboundMemRead r n errs) s = .next { inMemRead true r n (.inboundMemRead r n []) (meet errs s) with pending := s.pending }) ∧
  (∀ (s : State) (r : DevReq) (d : List Byte) (e : Bool) (n : Nat) (c : Instr) (o : DevAtomic) (v w : Word), linkServes s r.port r.link = true →
    busOk r = false → inMemWrite true r d e c s = logAer r.port s ∧ inMemRead true r n c s = { logAer r.port s with answer := .status 2 [] } ∧
    inAtomic true r o v w c s = { logAer r.port s with answer := .status 2 [] }) ∧
  (∀ (s : State) (r : DevReq) (o : DevAtomic) (v w : Word), exec (.inboundAtomic r o v w) s =
    .next { inAtomic true r o v w (.inboundAtomic r o v w) s with pending := s.pending }) ∧
  (∀ (s : State) (r : DevReq) (v : BitVec 32), exec (.inboundMsi r v) s =
    .next { inMemWrite true r (leBytes 4 v.toNat) false (.inboundMsi r v) s with pending := s.pending }) ∧
  (∀ (s s1 s2 : State) (r : DevReq) (d : List Byte) (c : Instr) (x : IoOk), linkServes s r.port r.link = true → busOk r = true →
    inboundXlate r true true s = (s1, some x) → inboundMeter true r x (max 1 (linesOf x.pa d.length).length) c s s1 = (s2, true) →
    (∀ k, refusal s2 (devAgent r) false true x.pa = some k → inMemWrite true r d false c s = inboundRefused r k x.pa true s2) ∧
    (refusal s2 (devAgent r) false true x.pa = none → devMem (regionOf s2 x.pa) = true →
      inMemWrite true r d false c s = plainWrite (devAgent r) x.pa d false s2) ∧
    (∀ (h f : Nat), refusal s2 (devAgent r) false true x.pa = none → regionOf s2 x.pa = .imsic h f 0 → d.length = 4 →
      hartFailed s2 h = false → inMemWrite true r d false c s = imsicSet h f (leNat d) s2)) ∧
  (∀ (s s1 s2 : State) (r : DevReq) (d : List Byte) (c : Instr) (x : IoOk), linkServes s r.port r.link = true → busOk r = true →
    inboundXlate r true true s = (s1, some x) → inboundMeter true r x (max 1 (linesOf x.pa d.length).length) c s s1 = (s2, false) →
    inMemWrite true r d false c s = s2) ∧
  (∀ (s s1 : State) (r : DevReq) (d : List Byte) (e : Bool) (c : Instr), linkServes s r.port r.link = true → busOk r = true →
    inboundXlate r true true s = (s1, none) → inMemWrite true r d e c s = s1) ∧
  (∀ (s s1 s2 : State) (r : DevReq) (n : Nat) (c : Instr) (x : IoOk), linkServes s r.port r.link = true → busOk r = true →
    inboundXlate r false false s = (s1, some x) →
    ((linesOf x.pa n).any (lineBusy s1) = true → inMemRead true r n c s = s) ∧
    ((linesOf x.pa n).any (lineBusy s1) = false → inboundMeter true r x (max 1 (linesOf x.pa n).length) c s s1 = (s2, true) →
      (∀ k, refusal s2 (devAgent r) false false x.pa = some k → inMemRead true r n c s = inboundRefused r k x.pa false s2) ∧
      (refusal s2 (devAgent r) false false x.pa = none → devMem (regionOf s2 x.pa) = true → inMemRead true r n c s =
        if (cohRead s2 x.pa n).2 then { reportUcs (devAgent r) .device x.pa false s2 with answer := .status 1 [] }
        else { s2 with answer := .bytes (cohRead s2 x.pa n).1 }))) ∧
  (∀ (s s1 s2 : State) (r : DevReq) (o : DevAtomic) (v w : Word) (c : Instr) (x : IoOk) (y : Nat × Nat), linkServes s r.port r.link = true → busOk r = true →
    devAtomicLen o ≠ 16 → inboundXlate r true false s = (s1, some x) → lineBusy s1 (x.pa / 64) = false →
    inboundMeter true r x 1 c s s1 = (s2, true) → x.pa % devAtomicLen o = 0 → devMem (regionOf s2 x.pa) = true →
    refusal s2 (devAgent r) false true x.pa = none → (cohRead s2 x.pa (devAtomicLen o)).2 = false →
    devAtomicNew o v w (leNat (cohRead s2 x.pa (devAtomicLen o)).1) = some y →
    inAtomic true r o v w c s = { cohWrite x.pa (leBytes (devAtomicLen o) y.2) false (clearResv (x.pa / 64) none s2) with
      answer := .bytes (cohRead s2 x.pa (devAtomicLen o)).1 }) ∧
  (∀ (s : State) (r : DevReq) (v w : Word), linkServes s r.port r.link = true →
    exec (.inboundAtomic r .cas128 v w) s = .next { logAer r.port s with answer := .status 2 [], pending := s.pending }) ∧
  (∀ (s : State) (r : DevReq), linkServes s r.port r.link = true → (r.pasid.isSome = true ∨ busOk r = false) →
    exec (.atsTranslationRequest r) s = .next { logAer r.port s with answer := .status 2 [], pending := s.pending }) ∧
  (∀ (s s1 : State) (r : DevReq) (x : IoOk), linkServes s r.port r.link = true → busOk r = true → r.pasid = none →
    ioTranslate (ioReq { r with xlated := false } false true) s = (s1, some x) →
    exec (.atsTranslationRequest r) s = .next { s1 with
      answer := .word (cat [BitVec.ofNat 64 (x.pa / 4096 * 4096), on 0 (x.perm.getLsbD 1), on 1 (x.perm.getLsbD 2 && x.perm.getLsbD 7)])
      pending := s.pending }) ∧
  (∀ (s : State) (p : PortId), exec (.ptmRequest p) s = .next { s with answer := .word (BitVec.ofNat 64 (s.time * 10)) })

/-- Links up and down, completion timeouts, containment, INTx, and the IOMMU's command queue and block sets. A link trains
only out of package reset, with its port powered, at a width that its bifurcation has, a rate that the port permits, and CXL
mode only where enabled, with a device that keeps poison or cannot; otherwise nothing changes. A completion timeout takes the
oldest waiting request of the link, counts it, and ends it in an error; with none waiting nothing changes. A link that goes
down unexpectedly is contained: held packets are discarded, waiting requests end in errors, and the event is logged; memory
behind a CXL link is isolated; a link that is down stays as it is. Release by an agent that runs ends the containment and
keeps the counter. INTx is discarded and logged. A write of the queue's tail runs the queued commands. A write of a block set
keeps reserved fields and removes the set's IOTLB entries. It says where these complete with their own effect: linkUp,
completionTimeout, surpriseLinkDown, dpcRelease, intxMessage, iommuCommandQueue, iommuBlockWrite. (R213, R415, R422, R424,
R426, R427, 17_pcie_cxl_iommu.md) -/
def Obligations.LinksAndIommuRegisters : Prop :=
  (∀ (s : State) (p : PortId) (l : LinkId) (c q : Bool) (w : BitVec 8) (v : BitVec 4), s.pins.inReset = false → portOn s p = true →
    w.toNat ∈ [1, 2, 4, 8, 16] → w.toNat ≤ linkLanes (s.port p).bifurF l → 1 ≤ v.toNat → v.toNat + (s.port p).rateF.toNat ≤ 6 →
    (c = false ∨ (s.port p).cxlenF.getLsbD l = true) →
    exec (.linkUp p l c w v q) s = .next { cxlRetrained (4 * p.val + l.val) (s.modLink (4 * p.val + l.val) fun k => { k with
      up := true, cxl := c, noPoison := q, width := w, speed := v }) with pending := s.pending }) ∧
  (∀ (s : State) (p : PortId) (l : LinkId) (c q : Bool) (w : BitVec 8) (v : BitVec 4), (s.pins.inReset = true ∨ portOn s p = false ∨
    w.toNat ∉ [1, 2, 4, 8, 16] ∨ linkLanes (s.port p).bifurF l < w.toNat ∨ v = 0 ∨ 6 < v.toNat + (s.port p).rateF.toNat ∨
    (c = true ∧ (s.port p).cxlenF.getLsbD l = false)) → exec (.linkUp p l c w v q) s = .next s) ∧
  (∀ (s : State) (p : PortId) (l : LinkId), waitsOn s p l = [] → exec (.completionTimeout p l) s = .next s) ∧
  (∀ (s : State) (p : PortId) (l : LinkId) (t : BitVec 12) (a : Agent) (n : Nat) (r : List (BitVec 12 × (Agent × Nat))),
    waitsOn s p l = (t, (a, n)) :: r → exec (.completionTimeout p l) s =
    .next { endIoError p l a t n ((s.modPort p fun x => { x with wait := x.wait.erase (t, (a, n)) }).modLink (4 * p.val + l.val)
      fun k => { k with ctocnt := satInc k.ctocnt }) with pending := s.pending }) ∧
  (∀ (s : State) (p : PortId) (l : LinkId), (s.link (4 * p.val + l.val)).up = false → exec (.surpriseLinkDown p l) s = .next s) ∧
  (∀ (s : State) (p : PortId) (l : LinkId), (s.link (4 * p.val + l.val)).up = true →
    let s1 := logAer p (contain p l (s.modLink (4 * p.val + l.val) fun k => { k with up := false }))
    exec (.surpriseLinkDown p l) s =
      .next { (if cxlLink s (4 * p.val + l.val) then isolate (4 * p.val + l.val) 1 s1 else s1) with pending := s.pending }) ∧
  (∀ (p l : Nat) (s : State), contain p l s = failWaits p l (
    let s1 := s.modLink (4 * p + l) fun k => { k with dpc := true }
    { s1 with fab := { s1.fab with held := s1.fab.held.filter fun e => !(e.pt == 240 + p && heldLink l e) } })) ∧
  (∀ (s : State) (w : Agent) (p : PortId) (l : LinkId), agentRuns s w = true → exec (.dpcRelease w p l) s =
    .next (s.modLink (4 * p.val + l.val) fun k => { k with dpc := false })) ∧
  (∀ (s : State) (p : PortId), exec (.intxMessage p) s = .next (s.modPort p fun x => { x with aer := x.aer + 1 })) ∧
  (∀ (s : State) (w : Agent) (v : BitVec 32), agentRuns s w = true → exec (.iommuCommandQueue w v) s =
    .next { cqRunAll (setIow 0x24 (BitVec.ofNat 32 (v.toNat % qSize s 0x18)) s) with pending := s.pending }) ∧
  (∀ (s : State) (w : Agent) (n : Fin 64) (r : Fin 32) (v : Word), agentRuns s w = true → ∃ x : Word, exec (.iommuBlockWrite w n r v) s = .next { s with
      pcie := { s.pcie with iommu := { s.pcie.iommu with
        blk := tabSet s.pcie.iommu.blk 0 (32 * n + r) x, tlb := s.pcie.iommu.tlb.filter fun e => e.bset != some n.val } } } ∧
    (r.val / 8 % 2 = 1 → x = (ioBlk s n r &&& 0xF000000000) ||| (v &&& 0xFFFFFF0FFFFFFFFF)) ∧
    (r.val / 8 % 2 = 0 → fld v 61 2 = (3 : BitVec 2) → fld x 61 2 = fld (ioBlk s n r) 61 2))
end

