-- ==== Sys2Proof/Laws/Coh.lean ====
section
/-! SUPPORT. The homes: a request that arrives at an idle line starts, and one that arrives at a busy line waits. -/

namespace Sys2Proof.Machine

open Sys2Proof

theorem takeMsg_net (m : Msg) (s : State) : ∃ w, takeMsg m s = { s with fab := { s.fab with mesh := w } } := by
  unfold takeMsg pktTake; split
  · exact ⟨_, rfl⟩
  · exact ⟨s.fab.mesh, rfl⟩

theorem runLine_wait {f : Nat} {l : Level} {n : Nat} {s : State} {t : Txn} (h1 : txnOf s l n = some t) (h2 : ¬ (t.wait = [] ∧ t.home = false)) :
    runLine (f + 1) l n s = s := by rw [runLine, h1]; exact if_neg (fun h => h2 ⟨h.1, h.2.1⟩)

def startAt (l : Level) (t : Txn) (u : State) : State := match l with | .vest => startVest t u | .sleeve k => startSlice k t u

def finishAt (l : Level) (t : Txn) (u : State) : State := match l with | .vest => finishVest t u | .sleeve k => finishSlice k t u

theorem runLine_finish {f : Nat} {l : Level} {n : Nat} {s : State} {t : Txn} (h1 : txnOf s l n = some t) (h2 : t.wait = [] ∧ t.home = false)
    (h3 : homeRoom s l n = true) (h4 : txnHeld s n = false) :
    runLine (f + 1) l n s = runLine f l n (finishAt l t (dropTxn l n s)) := by
  rw [runLine, h1]; exact (if_pos ⟨h2.1, h2.2, h3, by simp [h4]⟩).trans (by cases l <;> rfl)

theorem runLine_idle {f : Nat} {l : Level} {n : Nat} {s : State} (h1 : txnOf s l n = none) (h2 : s.coh.queue = []) :
    runLine f l n s = s := by
  cases f with
  | zero => rfl
  | succ f => rw [runLine, h1, h2]; rfl

theorem runLine_start {f : Nat} {u : State} {t : Txn} (h1 : txnOf u t.lvl t.line = none) (h2 : u.coh.queue = []) (h3 : homeRoom u t.lvl t.line = true) :
    runLine (f + 1) t.lvl t.line { u with coh := { u.coh with queue := u.coh.queue ++ [t] } } = runLine f t.lvl t.line
      (startAt t.lvl t u) := by
  have hu : ({ u with coh := { u.coh with queue := [] } } : State) = u := by rw [← h2]
  have h1' : txnOf { u with coh := { u.coh with queue := u.coh.queue ++ [t] } } t.lvl t.line = none := h1
  have h3' : homeRoom { u with coh := { u.coh with queue := [t] } } t.lvl t.line = true := by rw [← h3]; rfl
  rw [runLine, h1', h2]
  simp only [List.nil_append, List.find?_cons, beq_self_eq_true, Bool.and_self, firstIdx, if_true, Option.getD_some, List.eraseIdx_cons_zero, hu, h3']
  cases t.lvl <;> rfl

theorem arrive_starts {u : State} {t : Txn} (h1 : txnOf u t.lvl t.line = none) (h2 : u.coh.queue = []) (h3 : homeRoom u t.lvl t.line = true) :
    arrive t u = runLine 5 t.lvl t.line (startAt t.lvl t u) := by
  unfold arrive serveLine
  have : (2 * ({ u with coh := { u.coh with queue := u.coh.queue ++ [t] } } : State).coh.queue.length + 4) = 5 + 1 := by simp [h2]
  rw [this, runLine_start h1 h2 h3]

theorem arrive_waits {u : State} {t t' : Txn} (h1 : txnOf u t.lvl t.line = some t') (h2 : ¬ (t'.wait = [] ∧ t'.home = false)) :
    arrive t u = { u with coh := { u.coh with queue := u.coh.queue ++ [t] } } := by
  unfold arrive serveLine; exact runLine_wait h1 h2

theorem sendSnoops_net (l : Level) (c n r : Nat) (hs : List Nat) (s : State) : ∃ w, sendSnoops l c n r hs s = { s with fab := { s.fab with mesh := w } } := by
  induction hs generalizing s with
  | nil => exact ⟨s.fab.mesh, rfl⟩
  | cons x r' ih => simp only [sendSnoops, List.foldl_cons]; obtain ⟨w, hw⟩ := ih (sendMsg { mkMsg l c homeEnd x n with req := _ } s); exact ⟨w, hw⟩

theorem find_append_txn {l : Level} {n : Nat} {q : List Txn} {t : Txn} (h1 : (q.find? fun t => t.lvl == l && t.line == n) = none) (h2 : t.lvl = l) (h3 : t.line = n) :
      ((q ++ [t]).find? fun t => t.lvl == l && t.line == n) = some t := by
    rw [List.find?_append, h1]; simp [h2, h3]

theorem arrive_begins {u v : State} {t t' : Txn} (h1 : txnOf u t.lvl t.line = none) (h2 : u.coh.queue = []) (hr : homeRoom u t.lvl t.line = true)
    (h3 : (startAt t.lvl t u) = v)
    (h4 : v.coh.txns = u.coh.txns ++ [t']) (h5 : t'.lvl = t.lvl) (h6 : t'.line = t.line) (h7 : t'.wait ≠ [] ∨ t'.home = true) : arrive t u = v := by
  rw [arrive_starts h1 h2 hr, h3]
  refine runLine_wait (t := t') ?_ ?_
  · unfold txnOf; rw [h4]; exact find_append_txn h1 h5 h6
  · rintro ⟨a, b⟩; rcases h7 with h | h
    · exact h a
    · simp [b] at h

theorem on_take {m : Msg} {s : State} {f : State → State} (h : msgBlocked m s = false) : onMsg m s f = f (takeMsg m s) := by
  unfold onMsg; rw [h]; rfl

end Sys2Proof.Machine
end

