-- ==== Sys2Proof/Laws/Dict.lean ====
section
/-! SUPPORT. The dictionary commands: a fresh request of a high enough level runs its body and is answered. -/

namespace Sys2Proof.Machine

open Sys2Proof

theorem dictCommand_runs {s t : State} {x : DictCtx} {w : Session} {i : BitVec 16} {u : BitVec 8} {l st : Nat} {v : List Byte}
    {body : State → State × Nat × List Byte} (h : reqState s x = .fresh w) (hl : l ≤ w.level.toNat) (hb : body s = (t, st, v))
    (hp : st ≠ stPending) : dictCommand x i u l true body s = cmdAnswered x i u st v t := by
  have : ¬ w.level.toNat < l := by omega
  simp only [dictCommand, h, this, hb, hp, if_false, cmdAnswered, Bool.true_eq_false]

theorem dictCommand_pends {s t : State} {x : DictCtx} {w : Session} {i : BitVec 16} {u : BitVec 8} {l : Nat}
    {body : State → State × Nat × List Byte} (h : reqState s x = .fresh w) (hl : l ≤ w.level.toNat) (hb : body s = (t, stPending, [])) :
    dictCommand x i u l true body s = cmdPended x i u t := by
  have : ¬ w.level.toNat < l := by omega
  simp only [dictCommand, h, this, hb, if_false, if_true, cmdAnswered, cmdPended, Bool.true_eq_false]

theorem level_pos {w : Session} (h : w.level ≠ 0) : 1 ≤ w.level.toNat := by
  have : w.level.toNat ≠ 0 := fun hh => h (BitVec.eq_of_toNat_eq hh)
  omega

end Sys2Proof.Machine
end

