-- ==== Sys2Proof/Laws/Frames.lean ====
section
/-! SUPPORT. One lemma for each shared operation whose effect lies in a few groups of the state: it says which, and so that
every other group is unchanged. -/

namespace Sys2Proof.Machine

open Sys2Proof

theorem report_frame (r : Report) (s : State) : report r s = { s with pkt := (report r s).pkt } := rfl

theorem reportUcs_frame (who : Agent) (kind : UcsKind) (addr : Nat) (sec : Bool) (s : State) :
    reportUcs who kind addr sec s = { s with pkt := (reportUcs who kind addr sec s).pkt } := rfl

theorem reportCe_frame (src ctr : Nat) (base cnt : BitVec 32) (addr : Nat) (s : State) :
    reportCe src ctr base cnt addr s = { s with pkt := (reportCe src ctr base cnt addr s).pkt } := by
  unfold reportCe; (repeat' split) <;> rfl

theorem imsicSet_frame (h file id : Nat) (s : State) :
    imsicSet h file id s = { s with harts := (imsicSet h file id s).harts } := by
  unfold imsicSet; (repeat' split) <;> rfl

theorem sendPlain_frame (dst : NetAddr) (type : Nat) (sid : BitVec 32) (body : List Byte) (s : State) :
    sendPlain dst type sid body s = { s with adp := (sendPlain dst type sid body s).adp } := rfl

theorem modSession_frame (sid : BitVec 32) (f : Session → Session) (s : State) :
    modSession sid f s = { s with adp := (modSession sid f s).adp } := rfl

theorem endSession_frame (sid : BitVec 32) (s : State) : endSession sid s = { s with adp := (endSession sid s).adp } := rfl

theorem sendIn_frame (sid : BitVec 32) (dst : NetAddr) (type : Nat) (body : List Byte) (s : State) :
    sendIn sid dst type body s = { s with adp := (sendIn sid dst type body s).adp } := by
  unfold sendIn; dsimp only; (repeat' split) <;> rfl

theorem endAllSessions_frame (s : State) : endAllSessions s = { s with adp := (endAllSessions s).adp } := rfl

theorem setMerge_frame (b : MergeBank) (l : List MergeEnt) (s : State) :
    setMerge b l s = { s with slvs := (setMerge b l s).slvs, vmerge := (setMerge b l s).vmerge, qmerge := (setMerge b l s).qmerge } := by
  unfold setMerge; (repeat' split) <;> rfl

theorem settleFuse_frame (s : State) :
    settleFuse s = { s with pkg := (settleFuse s).pkg } := by
  unfold settleFuse; (repeat' split) <;> rfl

theorem releaseSleeve_frame (k : Nat) (s : State) :
    releaseSleeve k s = { s with pkg := (releaseSleeve k s).pkg, harts := (releaseSleeve k s).harts, boot := (releaseSleeve k s).boot, dbg := (releaseSleeve k s).dbg } := rfl

theorem setExcl_frame (k : Nat) (c : BitVec 4) (s : State) : setExcl k c s = { s with pkg := (setExcl k c s).pkg } := rfl

theorem trainStart_frame (k step attempt : Nat) (retrain : Bool) (s : State) :
    trainStart k step attempt retrain s = { s with fab := (trainStart k step attempt retrain s).fab } := rfl

theorem wrDommem_frame (d k : Nat) (v : Word) (s : State) :
    wrDommem d k v s = { s with pkg := (wrDommem d k v s).pkg } := by
  unfold wrDommem; (repeat' split) <;> rfl

theorem reportCuff_frame (k kind lanes : Nat) (s : State) :
    reportCuff k kind lanes s = { s with pkt := (reportCuff k kind lanes s).pkt } := rfl

theorem retryLimitHit_frame (k : Nat) (s : State) :
    retryLimitHit k s = { s with fab := (retryLimitHit k s).fab, pkt := (retryLimitHit k s).pkt } := by
  unfold retryLimitHit; (repeat' split) <;> rfl

theorem wrCuffCnt_frame (k : Nat) (v : Word) (s : State) : wrCuffCnt k v s = { s with fab := (wrCuffCnt k v s).fab } := rfl

theorem wrCuffCfg_frame (k : Nat) (v : Word) (s : State) : wrCuffCfg k v s = { s with fab := (wrCuffCfg k v s).fab } := rfl

theorem sfWrite_frame (k key : Nat) (e : SfEnt) (s : State) :
    sfWrite k key e s = { s with slvs := (sfWrite k key e s).slvs } := rfl

theorem passF_frame (k n near : Nat) (s : State) :
    passF k n near s = { s with cores := (passF k n near s).cores, slvs := (passF k n near s).slvs } := by
  unfold passF; (repeat' split) <;> rfl

theorem sfRemove_frame (k c n : Nat) (s : State) :
    sfRemove k c n s = { s with slvs := (sfRemove k c n s).slvs } := by
  unfold sfRemove; (repeat' split) <;> rfl

theorem putOwned_frame (h : Nat) (e : CLine) (s : State) : putOwned h e s = { s with cores := (putOwned h e s).cores } := rfl

theorem chLoad_frame (s : State) : chLoad s = { s with dram := (chLoad s).dram } := by
  unfold chLoad; (repeat' split) <;> rfl

/-- The groups of the state that lie with the arrays behind a home: the DRAM, the Sleeves' arrays, the merge buffers, the ring, the
segment map, and the free values drawn for them; the rest is of the first state. -/
def State.withArrays (s t : State) : State :=
  { s with dram := t.dram, slvs := t.slvs, vmerge := t.vmerge, qmerge := t.qmerge, pkt := t.pkt, ftl := t.ftl, free := t.free }

theorem withArrays_self (s : State) : s = s.withArrays s := rfl

/-- A list of steps each of which stays within the arrays stays within them. -/
theorem foldl_frame {α : Type} (f : State → α → State) (hf : ∀ a k, f a k = a.withArrays (f a k)) :
    ∀ (l : List α) (s : State), l.foldl f s = s.withArrays (l.foldl f s)
  | [], _ => rfl
  | k :: r, s => by
    have h1 := foldl_frame f hf r (f s k)
    rw [hf s k] at h1; rw [List.foldl_cons, hf s k]; exact h1

theorem setMapByte_frame (a : Nat) (b : Byte) (s : State) : setMapByte a b s = s.withArrays (setMapByte a b s) := by
  unfold setMapByte; dsimp only; (repeat' split) <;> rfl

theorem setBytes_frame (a : Nat) (l : List Byte) (s : State) : setBytes a l s = s.withArrays (setBytes a l s) := by
  unfold setBytes; (repeat' split)
  · rfl
  · exact foldl_frame _ (fun _ _ => setMapByte_frame _ _ _) _ _
  · rfl

theorem mergeClear_frame (n : Nat) (s : State) : mergeClear n s = s.withArrays (mergeClear n s) := by
  unfold mergeClear; split
  · rw [setMerge_frame]; rfl
  · rfl

theorem memPut_frame (l : Nat) (d : LineData) (p : Bool) (s : State) : memPut l d p s = s.withArrays (memPut l d p s) := by
  unfold memPut; dsimp only; (repeat' split)
  · rfl
  · rfl
  · rw [setBytes_frame]; rfl
  · rw [setBytes_frame]; rfl
  · rw [setBytes_frame, mergeClear_frame]; rfl

theorem addressPoison_frame (s : State) : addressPoison s = s.withArrays (addressPoison s) := by
  unfold addressPoison
  refine foldl_frame _ (fun a n => foldl_frame _ (fun b k => ?_) _ _) _ _
  split
  · show (memPut _ _ _ _).draw = _
    rw [memPut_frame]; rfl
  · rfl

theorem wrDramMap_frame (v : Word) (s : State) :
    wrDramMap v s = s.withArrays (wrDramMap v s) := by
  unfold wrDramMap; dsimp only; (repeat' split) <;> first | rfl | exact addressPoison_frame _

theorem endIsolation_frame (s : State) : endIsolation s = s.withArrays (endIsolation s) := by
  unfold endIsolation
  refine foldl_frame _ (fun a t => ?_) _ _
  unfold endIsoOne; dsimp only; split <;> rfl

theorem wrCxlRange_frame (k : Nat) (v : Word) (s : State) :
    wrCxlRange k v s = s.withArrays (wrCxlRange k v s) := by
  unfold wrCxlRange; dsimp only; (repeat' split) <;> first | rfl | (rw [endIsolation_frame]; rfl)

theorem isolate_frame (t kind : Nat) (s : State) :
    isolate t kind s = { s with pkt := (isolate t kind s).pkt, dram := (isolate t kind s).dram } := by
  unfold isolate; (repeat' split) <;> rfl

theorem refuse_frame (who : Agent) (k : UcsKind) (a : Nat) (s : State) :
    refuse who k a s = { s with pkt := (refuse who k a s).pkt, answer := (refuse who k a s).answer } := rfl

theorem sendPacket_frame (p : Packet) (s : State) : sendPacket p s = { s with fab := (sendPacket p s).fab } := rfl

theorem pktTake_frame (p : Packet) (s : State) : pktTake p s = { s with fab := (pktTake p s).fab } := by
  unfold pktTake; (repeat' split) <;> rfl

theorem sendMsg_frame (m : Msg) (s : State) : sendMsg m s = { s with fab := (sendMsg m s).fab } := rfl

theorem takeMsg_frame (m : Msg) (s : State) : takeMsg m s = { s with fab := (takeMsg m s).fab } := pktTake_frame _ s

theorem sendData_frame (l : Level) (fr dest line : Nat) (st : LState) (d : LineData × Bool) (s : State) :
    sendData l fr dest line st d s = { s with fab := (sendData l fr dest line st d s).fab } := rfl

theorem askHome_frame (k n : Nat) (kind : ReqKind) (s : State) :
    askHome k n kind s = { s with coh := (askHome k n kind s).coh, fab := (askHome k n kind s).fab } := rfl

theorem grantData_frame (l : Level) (dest n : Nat) (st : LState) (d : LineData × Bool) (s : State) : grantData l dest n st d s =
    { s with coh := (grantData l dest n st d s).coh, fab := (grantData l dest n st d s).fab } := rfl

theorem supplyInstead_frame (t : Txn) (s : State) :
    supplyInstead t s = { s with coh := (supplyInstead t s).coh, fab := (supplyInstead t s).fab } := by
  unfold supplyInstead; dsimp only; (repeat' split) <;> rfl

theorem dropTxn_frame (l : Level) (n : Nat) (s : State) : dropTxn l n s = { s with coh := (dropTxn l n s).coh } := rfl

theorem dropMshr_frame (l : Level) (a n : Nat) (s : State) : dropMshr l a n s = { s with coh := (dropMshr l a n s).coh } := rfl

theorem noteWb_frame (l : Level) (a n : Nat) (wb left : Bool) (s : State) :
    noteWb l a n wb left s = { s with coh := (noteWb l a n wb left s).coh } := rfl

theorem takeUnits_frame (a k cost : Nat) (s : State) :
    takeUnits a k cost s = { s with belt := (takeUnits a k cost s).belt } := by
  unfold takeUnits; dsimp only; (repeat' split) <;> rfl

theorem holdItem_frame (a k cost : Nat) (w : HeldWhat) (s : State) :
    holdItem a k cost w s = { s with belt := (holdItem a k cost w s).belt } := rfl

theorem programEnd_frame (a k : Nat) (bor : Bool) (s : State) :
    programEnd a k bor s = { s with belt := (programEnd a k bor s).belt } := by
  unfold programEnd; dsimp only; (repeat' split) <;> rfl

theorem takeDebt_frame (a k cost : Nat) (s : State) : takeDebt a k cost s = { s with belt := (takeDebt a k cost s).belt } := rfl

theorem wrAct_frame (a : Nat) (v : Word) (s : State) :
    wrAct a v s = { s with belt := (wrAct a v s).belt } := by
  unfold wrAct; dsimp only; (repeat' split) <;> rfl

theorem wrLogq_frame (i : Nat) (v : Word) (s : State) :
    wrLogq i v s = { s with belt := (wrLogq i v s).belt } := by
  unfold wrLogq; dsimp only; (repeat' split) <;> rfl

theorem countEvent_frame (h code n : Nat) (s : State) :
    countEvent h code n s = { s with harts := (countEvent h code n s).harts } := by
  unfold countEvent; dsimp only; (repeat' split) <;> rfl

theorem retire_frame (h len : Nat) (s : State) : retire h len s = { s with harts := (retire h len s).harts } := rfl

theorem enterTrap_frame (h mode : Nat) (intr : Bool) (t : Trap) (s : State) :
    enterTrap h mode intr t s = { s with fab := (enterTrap h mode intr t s).fab, harts := (enterTrap h mode intr t s).harts, free := (enterTrap h mode intr t s).free } := rfl

theorem takeTrap_frame (h : Nat) (t : Trap) (s : State) :
    takeTrap h t s = { s with fab := (takeTrap h t s).fab, harts := (takeTrap h t s).harts, free := (takeTrap h t s).free } := by
  unfold takeTrap; split <;> rfl

theorem illegalInstr_frame (h : Nat) (inst : Word) (s : State) :
    illegalInstr h inst s = { s with fab := (illegalInstr h inst s).fab, harts := (illegalInstr h inst s).harts, free := (illegalInstr h inst s).free } := takeTrap_frame h _ s

theorem virtInstr_frame (h : Nat) (inst : Word) (s : State) :
    virtInstr h inst s = { s with fab := (virtInstr h inst s).fab, harts := (virtInstr h inst s).harts, free := (virtInstr h inst s).free } := takeTrap_frame h _ s

theorem haltHart_frame (h cause : Nat) (s : State) : haltHart h cause s = { s with harts := (haltHart h cause s).harts } := rfl

theorem envCall_frame (h : Nat) (s : State) :
    envCall h s = { s with fab := (envCall h s).fab, harts := (envCall h s).harts, free := (envCall h s).free } := takeTrap_frame h _ s

theorem mret_frame (h : Nat) (s : State) :
    mret h s = { s with fab := (mret h s).fab, harts := (mret h s).harts, free := (mret h s).free } := by
  unfold mret; dsimp only; (repeat' split) <;> first | rfl | exact takeTrap_frame _ _ _

theorem sret_frame (h : Nat) (s : State) :
    sret h s = { s with fab := (sret h s).fab, harts := (sret h s).harts, free := (sret h s).free } := by
  unfold sret; dsimp only; (repeat' split) <;> first | rfl | exact takeTrap_frame _ _ _

theorem mtipUpdate_frame (h : Nat) (s : State) : mtipUpdate h s = { s with harts := (mtipUpdate h s).harts } := rfl

theorem wrMtimecmp_frame (h : Nat) (v : Word) (s : State) :
    wrMtimecmp h v s = { s with harts := (wrMtimecmp h v s).harts, mtimecmp := (wrMtimecmp h v s).mtimecmp } := rfl

theorem wrBpc_frame (h : Nat) (v : Word) (s : State) :
    wrBpc h v s = { s with harts := (wrBpc h v s).harts, cores := (wrBpc h v s).cores } := by
  unfold wrBpc; dsimp only; (repeat' split) <;> rfl

theorem wrBpkey_frame (h : Nat) (v : Word) (s : State) : wrBpkey h v s = { s with harts := (wrBpkey h v s).harts } := rfl

theorem startWaiting_frame (s : State) : startWaiting s = { s with stor := (startWaiting s).stor } := rfl

theorem sqPush_frame (q : Nat) (w : Word) (e : Bool) (s : State) :
    sqPush q w e s = { s with stor := (sqPush q w e s).stor } := by
  unfold sqPush; dsimp only; (repeat' split) <;> rfl

theorem askGrant_frame (pt a : Nat) (s : State) :
    askGrant pt a s = { s with fab := (askGrant pt a s).fab } := by
  unfold askGrant; (repeat' split) <;> rfl

theorem itbUpdate_frame (h : Nat) (hist : BitVec 9) (pc target : Word) (s : State) :
    itbUpdate h hist pc target s = { s with cores := (itbUpdate h hist pc target s).cores } := by
  unfold itbUpdate; dsimp only; (repeat' split) <;> rfl

theorem takeWalkFault_frame (h : Nat) (k : AccKind) (virt : Bool) (A : Nat) (f : WFault) (s : State) :
    takeWalkFault h k virt A f s = { s with fab := (takeWalkFault h k virt A f s).fab, pkt := (takeWalkFault h k virt A f s).pkt, harts := (takeWalkFault h k virt A f s).harts, free := (takeWalkFault h k virt A f s).free } := by
  unfold takeWalkFault; dsimp only; split <;> rw [takeTrap_frame] <;> rfl

theorem sfence_frame (h : Nat) (o : FenceOp) (s : State) :
    sfence h o s = { s with harts := (sfence h o s).harts, cores := (sfence h o s).cores } := rfl

theorem hfenceVvma_frame (h : Nat) (o : FenceOp) (s : State) :
    hfenceVvma h o s = { s with harts := (hfenceVvma h o s).harts, cores := (hfenceVvma h o s).cores } := rfl

theorem hfenceGvma_frame (h : Nat) (o : FenceOp) (s : State) :
    hfenceGvma h o s = { s with harts := (hfenceGvma h o s).harts, cores := (hfenceGvma h o s).cores } := rfl

theorem setWakesrc_frame (left sleeve core src : Nat) (s : State) :
    setWakesrc left sleeve core src s = { s with pwr := (setWakesrc left sleeve core src s).pwr } := rfl

theorem leavePk3_frame (src : Nat) (s : State) :
    leavePk3 src s = { s with pins := (leavePk3 src s).pins, pwr := (leavePk3 src s).pwr } := by
  unfold leavePk3; (repeat' split) <;> rfl

theorem clearRing_frame (agent : Nat) (s : State) : clearRing agent s = { s with pkt := (clearRing agent s).pkt } := rfl

theorem setIow_frame (off : Nat) (v : BitVec 32) (s : State) : setIow off v s = { s with pcie := (setIow off v s).pcie } := rfl

theorem ddcPut_frame (e : DdtEnt) (s : State) : ddcPut e s = { s with pcie := (ddcPut e s).pcie } := rfl

theorem wrIommuBlk_frame (n r : Nat) (v : Word) (s : State) :
    wrIommuBlk n r v s = { s with pcie := (wrIommuBlk n r v s).pcie } := rfl

theorem wrPcieCfg_frame (p : Nat) (v : Word) (s : State) : wrPcieCfg p v s = { s with pcie := (wrPcieCfg p v s).pcie } := rfl

theorem wrPcieLnk_frame (p l : Nat) (v : Word) (s : State) :
    wrPcieLnk p l v s = { s with pcie := (wrPcieLnk p l v s).pcie } := rfl

theorem reportIo_frame (p l : Nat) (who : Agent) (addr : Nat) (s : State) :
    reportIo p l who addr s = { s with pkt := (reportIo p l who addr s).pkt } := rfl

theorem logAer_frame (p : Nat) (s : State) : logAer p s = { s with pcie := (logAer p s).pcie } := rfl

theorem chanOff_frame (n : Nat) (s : State) : chanOff n s = { s with dram := (chanOff n s).dram } := rfl

theorem chanUp_frame (n : Nat) (s : State) :
    chanUp n s = { s with dram := (chanUp n s).dram } := by
  unfold chanUp; (repeat' split) <;> rfl

theorem portUp_frame (p : Nat) (s : State) : portUp p s = { s with pcie := (portUp p s).pcie } := rfl

theorem plApply_frame (k : Nat) (s : State) :
    plApply k s = { s with pwr := (plApply k s).pwr } := by
  unfold plApply; dsimp only; (repeat' split) <;> rfl

theorem setStateOf_frame (sc : Scope) (st : Nat) (s : State) :
    setStateOf sc st s = { s with pwr := (setStateOf sc st s).pwr } := by
  unfold setStateOf; (repeat' split) <;> rfl

theorem recordWake_frame (sc : Scope) (st src : Nat) (s : State) :
    recordWake sc st src s = { s with pwr := (recordWake sc st src s).pwr } := by
  unfold recordWake; (repeat' split) <;> rfl

theorem setReqstat_frame (busy : Bool) (b oc : Nat) (s : State) :
    setReqstat busy b oc s = { s with pwr := (setReqstat busy b oc s).pwr } := rfl

theorem reportClaimref_frame (b : Nat) (who : Requester) (s : State) :
    reportClaimref b who s = { s with pkt := (reportClaimref b who s).pkt } := rfl

theorem bufRefused_frame (q : Nat) (k : UcsKind) (a : Nat) (s : State) :
    bufRefused q k a s = { s with pkt := (bufRefused q k a s).pkt } := rfl

theorem flushTail_frame (s : State) : flushTail s = { s with pls := (flushTail s).pls } := rfl

theorem jot_frame (op : JOp) (s : State) :
    jot op s = { s with pls := (jot op s).pls } := by
  unfold jot; dsimp only; (repeat' split) <;> rfl

theorem condemn_frame (bn : Nat) (s : State) : condemn bn s = { s with ftl := (condemn bn s).ftl } := rfl

theorem pmClear_frame (j : Nat) (s : State) : pmClear j s = { s with ftl := (pmClear j s).ftl } := rfl

theorem mapChange_frame (n : Nat) (s : State) : mapChange n s = { s with pls := (mapChange n s).pls } := rfl

theorem rwcWrite_frame (g hint : Nat) (overs : Bool) (s : State) :
    rwcWrite g hint overs s = { s with ftl := (rwcWrite g hint overs s).ftl } := rfl

/-- A parity unit counts in the current scratch band; where the band is then full, the rotation may follow. -/
theorem scratchUse_cases (g : Nat) (s : State) :
    let s1 := (s.modLg g fun t => { t with scrUsed := t.scrUsed + 1 }).modFtl fun t => { t with progU := t.progU + 1 }
    scratchUse g s = s1 ∨ scratchUse g s = rotate g s1 := by
  unfold scratchUse; dsimp only; split
  · exact .inr rfl
  · exact .inl rfl

theorem stopRest_frame (s : State) : stopRest s = { s with pwr := (stopRest s).pwr, pcie := (stopRest s).pcie } := rfl

theorem setUrgency_frame (s : State) :
    setUrgency s = { s with ftl := (setUrgency s).ftl, belt := (setUrgency s).belt } := by
  unfold setUrgency; dsimp only; (repeat' split) <;> rfl

theorem addCmd_frame (c : Cmd) (s : State) : addCmd c s = { s with stor := (addCmd c s).stor } := rfl

theorem modCmd_frame (id : Nat) (f : Cmd → Cmd) (s : State) : modCmd id f s = { s with stor := (modCmd id f s).stor } := rfl

theorem addErr_frame (id lba st : Nat) (s : State) : addErr id lba st s = { s with stor := (addErr id lba st s).stor } := rfl

theorem blkUnread_frame (c : Cmd) (i : Nat) (s : State) : blkUnread c i s = { s with stor := (blkUnread c i s).stor } := rfl

theorem markDue_frame (bn r : Nat) (s : State) : markDue bn r s = { s with ftl := (markDue bn r s).ftl } := rfl

theorem countRead_frame (o : FOp) (s : State) :
    countRead o s = { s with ftl := (countRead o s).ftl } := by
  unfold countRead; dsimp only; (repeat' split) <;> rfl

theorem putUnit_frame (o : FOp) (ok : Bool) (s : State) : putUnit o ok s = { s with ftl := (putUnit o ok s).ftl } := rfl

theorem ageBand_frame (bn n : Nat) (s : State) :
    ageBand bn n s = { s with ftl := (ageBand bn n s).ftl } := by
  unfold ageBand; dsimp only; (repeat' split) <;> rfl

theorem wrHoldCfg_frame (v : Word) (s : State) :
    wrHoldCfg v s = { s with hold := (wrHoldCfg v s).hold } := by
  unfold wrHoldCfg; (repeat' split) <;> rfl

theorem holdStart_frame (s : State) :
    holdStart s = { s with hold := (holdStart s).hold } := by
  unfold holdStart; (repeat' split) <;> rfl

theorem flushSlots_frame (s : State) : flushSlots s = { s with ftl := (flushSlots s).ftl, belt := (flushSlots s).belt } := rfl

end Sys2Proof.Machine
end

