-- ==== Sys2Proof/Laws/Tab.lean ====
section
/-! SUPPORT. What every write of a sparse table does: it keeps the canonical form, the key written reads as the value,
every other key reads as before. tabWf is the form of a memory, tabRising the form of a register file with several defaults. -/

namespace Sys2Proof.Machine

open Sys2Proof

theorem tabAbove_mono {α} {t : Tab α} {a b : Nat} (h : a ≤ b) (w : tabAbove b t = true) : tabAbove a t = true := by
  cases t with
  | nil => rfl
  | cons e r => simp only [tabAbove, Bool.and_eq_true, decide_eq_true_eq] at w ⊢; exact ⟨by omega, w.2⟩

theorem tabAbove_insert {α} (k : Nat) (v : α) : ∀ (t : Tab α) (b : Nat), b < k → tabAbove b t = true → tabAbove b (tabInsert k v t) = true
  | [], b, h, _ => by simp [tabInsert, tabAbove, h]
  | e :: r, b, h, w => by
    simp only [tabAbove, Bool.and_eq_true, decide_eq_true_eq] at w
    unfold tabInsert; split
    · simp [tabAbove, *]
    · split
      · subst k; simp [tabAbove, w]
      · simp only [tabAbove, Bool.and_eq_true, decide_eq_true_eq]; exact ⟨w.1, tabAbove_insert k v r _ (by omega) w.2⟩

theorem tabAbove_erase {α} (k : Nat) : ∀ (t : Tab α) (b : Nat), tabAbove b t = true → tabAbove b (tabErase k t) = true
  | [], _, _ => rfl
  | e :: r, b, w => by
    simp only [tabAbove, Bool.and_eq_true, decide_eq_true_eq] at w
    unfold tabErase; split
    · exact tabAbove_mono (by omega) w.2
    · simp only [tabAbove, Bool.and_eq_true, decide_eq_true_eq]; exact ⟨w.1, tabAbove_erase k r _ w.2⟩

theorem tabWf_insert {α} [DecidableEq α] (d : α) (k : Nat) (v : α) (hv : v ≠ d) : ∀ t : Tab α, tabWf d t = true → tabWf d (tabInsert k v t) = true
  | [], _ => by simp [tabInsert, tabWf, tabAbove, hv]
  | e :: r, w => by
    have w0 := w
    simp only [tabWf, Bool.and_eq_true, decide_eq_true_eq] at w
    unfold tabInsert; split
    · simp only [tabWf, tabAbove, Bool.and_eq_true, decide_eq_true_eq]; exact ⟨⟨⟨by assumption, w.1.1⟩, hv⟩, w⟩
    · split
      · simp only [tabWf, Bool.and_eq_true, decide_eq_true_eq]; exact ⟨⟨by subst k; exact w.1.1, hv⟩, w.2⟩
      · simp only [tabWf, Bool.and_eq_true, decide_eq_true_eq]
        exact ⟨⟨tabAbove_insert k v r _ (by omega) w.1.1, w.1.2⟩, tabWf_insert d k v hv r w.2⟩

theorem tabWf_erase {α} [DecidableEq α] (d : α) (k : Nat) : ∀ t : Tab α, tabWf d t = true → tabWf d (tabErase k t) = true
  | [], _ => rfl
  | e :: r, w => by
    simp only [tabWf, Bool.and_eq_true, decide_eq_true_eq] at w
    unfold tabErase; split
    · exact w.2
    · simp only [tabWf, Bool.and_eq_true, decide_eq_true_eq]; exact ⟨⟨tabAbove_erase k r _ w.1.1, w.1.2⟩, tabWf_erase d k r w.2⟩

theorem tabFind_above {α} : ∀ (t : Tab α) (b k : Nat), tabAbove b t = true → k ≤ b → tabFind k t = none
  | [], _, _, _, _ => rfl
  | e :: r, b, k, w, h => by
    simp only [tabAbove, Bool.and_eq_true, decide_eq_true_eq] at w
    unfold tabFind; rw [if_neg (by omega)]; exact tabFind_above r e.1 k w.2 (by omega)

theorem tabFind_insert {α} (k : Nat) (v : α) (j : Nat) : ∀ (t : Tab α), tabFind j (tabInsert k v t) = if j = k then some v else tabFind j t
  | [] => by simp [tabInsert, tabFind, eq_comm]
  | e :: r => by
    unfold tabInsert; split
    · simp only [tabFind, eq_comm]
    · split
      · subst k; simp only [tabFind, eq_comm]; split <;> rfl
      · simp only [tabFind, tabFind_insert k v j r]; split
        · rw [if_neg (by omega)]
        · rfl

theorem tabFind_erase {α} [DecidableEq α] (d : α) (k j : Nat) : ∀ (t : Tab α), tabWf d t = true → tabFind j (tabErase k t) = if j = k then none else tabFind j t
  | [], _ => by simp [tabErase, tabFind]
  | e :: r, w => by
    simp only [tabWf, Bool.and_eq_true, decide_eq_true_eq] at w
    unfold tabErase; split
    · split
      · subst j; subst k; exact tabFind_above r _ _ w.1.1 (by omega)
      · simp only [tabFind]; rw [if_neg (by omega)]
    · simp only [tabFind, tabFind_erase d k j r w.2]; split
      · rw [if_neg (by omega)]
      · rfl

theorem tabFind_erase_ne {α} (k j : Nat) (h : j ≠ k) : ∀ (t : Tab α), tabFind j (tabErase k t) = tabFind j t
  | [] => rfl
  | e :: r => by
    unfold tabErase; split
    · simp only [tabFind]; rw [if_neg (by omega)]
    · simp only [tabFind, tabFind_erase_ne k j h r]

theorem tabGet_set_ne {α : Type} [DecidableEq α] (t : Tab α) (d : α) (k j : Nat) (v : α) (h : j ≠ k) : tabGet (tabSet t d k v) d j = tabGet t d j := by
  unfold tabSet tabGet; split
  · rw [tabFind_erase_ne k j h]
  · rw [tabFind_insert, if_neg h]

theorem tabGet_set_self {α : Type} [DecidableEq α] (t : Tab α) (d : α) (k : Nat) (v : α) (h : v ≠ d) : tabGet (tabSet t d k v) d k = v := by
  unfold tabSet tabGet; rw [if_neg h, tabFind_insert, if_pos rfl]; rfl

theorem tabWf_set {α : Type} [DecidableEq α] (t : Tab α) (d : α) (k : Nat) (v : α) (w : tabWf d t = true) : tabWf d (tabSet t d k v) = true := by
  unfold tabSet; split
  · exact tabWf_erase d k t w
  · exact tabWf_insert d k v (by assumption) t w

theorem tabGet_set_wf {α : Type} [DecidableEq α] (t : Tab α) (d : α) (k : Nat) (v : α) (w : tabWf d t = true) : tabGet (tabSet t d k v) d k = v := by
  unfold tabSet; split
  · simp [tabGet, tabFind_erase d k k t w, *]
  · simp [tabGet, tabFind_insert]

theorem tabRising_insert {α} (k : Nat) (v : α) (t : Tab α) (w : tabRising t = true) : tabRising (tabInsert k v t) = true := by
  cases t with
  | nil => rfl
  | cons e r =>
    unfold tabInsert; split
    · simp only [tabRising, tabAbove, Bool.and_eq_true, decide_eq_true_eq]; exact ⟨by assumption, w⟩
    · split
      · subst k; exact w
      · exact tabAbove_insert k v r e.1 (by omega) w

theorem tabRising_of_above {α} : ∀ (t : Tab α) (b : Nat), tabAbove b t = true → tabRising t = true
  | [], _, _ => rfl
  | e :: r, b, w => by simp only [tabAbove, Bool.and_eq_true] at w; exact w.2

theorem tabRising_erase {α} (k : Nat) (t : Tab α) (w : tabRising t = true) : tabRising (tabErase k t) = true := by
  cases t with
  | nil => rfl
  | cons e r =>
    unfold tabErase; split
    · exact tabRising_of_above r e.1 w
    · exact tabAbove_erase k r e.1 w

theorem tabFind_erase_rising {α} (k : Nat) : ∀ (t : Tab α), tabRising t = true → tabFind k (tabErase k t) = none
  | [], _ => rfl
  | e :: r, w => by
    unfold tabErase; split
    · exact tabFind_above r _ _ w (by omega)
    · simp only [tabFind]; rw [if_neg (by omega)]; exact tabFind_erase_rising k r (tabRising_of_above r _ w)

theorem tabRising_set {α : Type} [DecidableEq α] (t : Tab α) (d : α) (k : Nat) (v : α) (w : tabRising t = true) : tabRising (tabSet t d k v) = true := by
  unfold tabSet; split
  · exact tabRising_erase k t w
  · exact tabRising_insert k v t w

theorem tabGet_set_rising {α : Type} [DecidableEq α] (t : Tab α) (d : α) (k : Nat) (v : α) (w : tabRising t = true) : tabGet (tabSet t d k v) d k = v := by
  unfold tabSet; split
  · simp [tabGet, tabFind_erase_rising k t w, *]
  · simp [tabGet, tabFind_insert]

theorem tabGet_set_ne_any {α : Type} [DecidableEq α] (t : Tab α) (d d' : α) (k j : Nat) (v : α) (h : j ≠ k) : tabGet (tabSet t d k v) d' j = tabGet t d' j := by
  unfold tabSet tabGet; split
  · rw [tabFind_erase_ne k j h]
  · rw [tabFind_insert, if_neg h]

end Sys2Proof.Machine
end

