-- ==== Sys2Proof/Laws/State.lean ====
section
/-! SUPPORT. What each named update of the state leaves unchanged, field by field. -/

namespace Sys2Proof.Machine

/-! ### setHart -/

@[simp] theorem setHart_pkg (s : State) (h : Nat) (v : Hart) : (s.setHart h v).pkg = s.pkg := rfl
@[simp] theorem setHart_pins (s : State) (h : Nat) (v : Hart) : (s.setHart h v).pins = s.pins := rfl
@[simp] theorem setHart_fab (s : State) (h : Nat) (v : Hart) : (s.setHart h v).fab = s.fab := rfl
@[simp] theorem setHart_pwr (s : State) (h : Nat) (v : Hart) : (s.setHart h v).pwr = s.pwr := rfl
@[simp] theorem setHart_lace (s : State) (h : Nat) (v : Hart) : (s.setHart h v).lace = s.lace := rfl
@[simp] theorem setHart_thm (s : State) (h : Nat) (v : Hart) : (s.setHart h v).thm = s.thm := rfl
@[simp] theorem setHart_tobj (s : State) (h : Nat) (v : Hart) : (s.setHart h v).tobj = s.tobj := rfl
@[simp] theorem setHart_pkt (s : State) (h : Nat) (v : Hart) : (s.setHart h v).pkt = s.pkt := rfl
@[simp] theorem setHart_cores (s : State) (h : Nat) (v : Hart) : (s.setHart h v).cores = s.cores := rfl
@[simp] theorem setHart_slvs (s : State) (h : Nat) (v : Hart) : (s.setHart h v).slvs = s.slvs := rfl
@[simp] theorem setHart_mtimecmp (s : State) (h : Nat) (v : Hart) : (s.setHart h v).mtimecmp = s.mtimecmp := rfl
@[simp] theorem setHart_vmerge (s : State) (h : Nat) (v : Hart) : (s.setHart h v).vmerge = s.vmerge := rfl
@[simp] theorem setHart_qmerge (s : State) (h : Nat) (v : Hart) : (s.setHart h v).qmerge = s.qmerge := rfl
@[simp] theorem setHart_coh (s : State) (h : Nat) (v : Hart) : (s.setHart h v).coh = s.coh := rfl
@[simp] theorem setHart_cloak (s : State) (h : Nat) (v : Hart) : (s.setHart h v).cloak = s.cloak := rfl
@[simp] theorem setHart_dram (s : State) (h : Nat) (v : Hart) : (s.setHart h v).dram = s.dram := rfl
@[simp] theorem setHart_stor (s : State) (h : Nat) (v : Hart) : (s.setHart h v).stor = s.stor := rfl
@[simp] theorem setHart_ftl (s : State) (h : Nat) (v : Hart) : (s.setHart h v).ftl = s.ftl := rfl
@[simp] theorem setHart_hold (s : State) (h : Nat) (v : Hart) : (s.setHart h v).hold = s.hold := rfl
@[simp] theorem setHart_pls (s : State) (h : Nat) (v : Hart) : (s.setHart h v).pls = s.pls := rfl
@[simp] theorem setHart_belt (s : State) (h : Nat) (v : Hart) : (s.setHart h v).belt = s.belt := rfl
@[simp] theorem setHart_adp (s : State) (h : Nat) (v : Hart) : (s.setHart h v).adp = s.adp := rfl
@[simp] theorem setHart_boot (s : State) (h : Nat) (v : Hart) : (s.setHart h v).boot = s.boot := rfl
@[simp] theorem setHart_own (s : State) (h : Nat) (v : Hart) : (s.setHart h v).own = s.own := rfl
@[simp] theorem setHart_pcie (s : State) (h : Nat) (v : Hart) : (s.setHart h v).pcie = s.pcie := rfl
@[simp] theorem setHart_dbg (s : State) (h : Nat) (v : Hart) : (s.setHart h v).dbg = s.dbg := rfl
@[simp] theorem setHart_time (s : State) (h : Nat) (v : Hart) : (s.setHart h v).time = s.time := rfl
@[simp] theorem setHart_free (s : State) (h : Nat) (v : Hart) : (s.setHart h v).free = s.free := rfl
@[simp] theorem setHart_answer (s : State) (h : Nat) (v : Hart) : (s.setHart h v).answer = s.answer := rfl
@[simp] theorem setHart_pending (s : State) (h : Nat) (v : Hart) : (s.setHart h v).pending = s.pending := rfl

/-! ### setCore -/

@[simp] theorem setCore_pkg (s : State) (c : Nat) (v : Core) : (s.setCore c v).pkg = s.pkg := rfl
@[simp] theorem setCore_pins (s : State) (c : Nat) (v : Core) : (s.setCore c v).pins = s.pins := rfl
@[simp] theorem setCore_fab (s : State) (c : Nat) (v : Core) : (s.setCore c v).fab = s.fab := rfl
@[simp] theorem setCore_pwr (s : State) (c : Nat) (v : Core) : (s.setCore c v).pwr = s.pwr := rfl
@[simp] theorem setCore_lace (s : State) (c : Nat) (v : Core) : (s.setCore c v).lace = s.lace := rfl
@[simp] theorem setCore_thm (s : State) (c : Nat) (v : Core) : (s.setCore c v).thm = s.thm := rfl
@[simp] theorem setCore_tobj (s : State) (c : Nat) (v : Core) : (s.setCore c v).tobj = s.tobj := rfl
@[simp] theorem setCore_pkt (s : State) (c : Nat) (v : Core) : (s.setCore c v).pkt = s.pkt := rfl
@[simp] theorem setCore_harts (s : State) (c : Nat) (v : Core) : (s.setCore c v).harts = s.harts := rfl
@[simp] theorem setCore_slvs (s : State) (c : Nat) (v : Core) : (s.setCore c v).slvs = s.slvs := rfl
@[simp] theorem setCore_mtimecmp (s : State) (c : Nat) (v : Core) : (s.setCore c v).mtimecmp = s.mtimecmp := rfl
@[simp] theorem setCore_vmerge (s : State) (c : Nat) (v : Core) : (s.setCore c v).vmerge = s.vmerge := rfl
@[simp] theorem setCore_qmerge (s : State) (c : Nat) (v : Core) : (s.setCore c v).qmerge = s.qmerge := rfl
@[simp] theorem setCore_coh (s : State) (c : Nat) (v : Core) : (s.setCore c v).coh = s.coh := rfl
@[simp] theorem setCore_cloak (s : State) (c : Nat) (v : Core) : (s.setCore c v).cloak = s.cloak := rfl
@[simp] theorem setCore_dram (s : State) (c : Nat) (v : Core) : (s.setCore c v).dram = s.dram := rfl
@[simp] theorem setCore_stor (s : State) (c : Nat) (v : Core) : (s.setCore c v).stor = s.stor := rfl
@[simp] theorem setCore_ftl (s : State) (c : Nat) (v : Core) : (s.setCore c v).ftl = s.ftl := rfl
@[simp] theorem setCore_hold (s : State) (c : Nat) (v : Core) : (s.setCore c v).hold = s.hold := rfl
@[simp] theorem setCore_pls (s : State) (c : Nat) (v : Core) : (s.setCore c v).pls = s.pls := rfl
@[simp] theorem setCore_belt (s : State) (c : Nat) (v : Core) : (s.setCore c v).belt = s.belt := rfl
@[simp] theorem setCore_adp (s : State) (c : Nat) (v : Core) : (s.setCore c v).adp = s.adp := rfl
@[simp] theorem setCore_boot (s : State) (c : Nat) (v : Core) : (s.setCore c v).boot = s.boot := rfl
@[simp] theorem setCore_own (s : State) (c : Nat) (v : Core) : (s.setCore c v).own = s.own := rfl
@[simp] theorem setCore_pcie (s : State) (c : Nat) (v : Core) : (s.setCore c v).pcie = s.pcie := rfl
@[simp] theorem setCore_dbg (s : State) (c : Nat) (v : Core) : (s.setCore c v).dbg = s.dbg := rfl
@[simp] theorem setCore_time (s : State) (c : Nat) (v : Core) : (s.setCore c v).time = s.time := rfl
@[simp] theorem setCore_free (s : State) (c : Nat) (v : Core) : (s.setCore c v).free = s.free := rfl
@[simp] theorem setCore_answer (s : State) (c : Nat) (v : Core) : (s.setCore c v).answer = s.answer := rfl
@[simp] theorem setCore_pending (s : State) (c : Nat) (v : Core) : (s.setCore c v).pending = s.pending := rfl

/-! ### setSlv -/

@[simp] theorem setSlv_pkg (s : State) (k : Nat) (v : Slv) : (s.setSlv k v).pkg = s.pkg := rfl
@[simp] theorem setSlv_pins (s : State) (k : Nat) (v : Slv) : (s.setSlv k v).pins = s.pins := rfl
@[simp] theorem setSlv_fab (s : State) (k : Nat) (v : Slv) : (s.setSlv k v).fab = s.fab := rfl
@[simp] theorem setSlv_pwr (s : State) (k : Nat) (v : Slv) : (s.setSlv k v).pwr = s.pwr := rfl
@[simp] theorem setSlv_lace (s : State) (k : Nat) (v : Slv) : (s.setSlv k v).lace = s.lace := rfl
@[simp] theorem setSlv_thm (s : State) (k : Nat) (v : Slv) : (s.setSlv k v).thm = s.thm := rfl
@[simp] theorem setSlv_tobj (s : State) (k : Nat) (v : Slv) : (s.setSlv k v).tobj = s.tobj := rfl
@[simp] theorem setSlv_pkt (s : State) (k : Nat) (v : Slv) : (s.setSlv k v).pkt = s.pkt := rfl
@[simp] theorem setSlv_harts (s : State) (k : Nat) (v : Slv) : (s.setSlv k v).harts = s.harts := rfl
@[simp] theorem setSlv_cores (s : State) (k : Nat) (v : Slv) : (s.setSlv k v).cores = s.cores := rfl
@[simp] theorem setSlv_mtimecmp (s : State) (k : Nat) (v : Slv) : (s.setSlv k v).mtimecmp = s.mtimecmp := rfl
@[simp] theorem setSlv_vmerge (s : State) (k : Nat) (v : Slv) : (s.setSlv k v).vmerge = s.vmerge := rfl
@[simp] theorem setSlv_qmerge (s : State) (k : Nat) (v : Slv) : (s.setSlv k v).qmerge = s.qmerge := rfl
@[simp] theorem setSlv_coh (s : State) (k : Nat) (v : Slv) : (s.setSlv k v).coh = s.coh := rfl
@[simp] theorem setSlv_cloak (s : State) (k : Nat) (v : Slv) : (s.setSlv k v).cloak = s.cloak := rfl
@[simp] theorem setSlv_dram (s : State) (k : Nat) (v : Slv) : (s.setSlv k v).dram = s.dram := rfl
@[simp] theorem setSlv_stor (s : State) (k : Nat) (v : Slv) : (s.setSlv k v).stor = s.stor := rfl
@[simp] theorem setSlv_ftl (s : State) (k : Nat) (v : Slv) : (s.setSlv k v).ftl = s.ftl := rfl
@[simp] theorem setSlv_hold (s : State) (k : Nat) (v : Slv) : (s.setSlv k v).hold = s.hold := rfl
@[simp] theorem setSlv_pls (s : State) (k : Nat) (v : Slv) : (s.setSlv k v).pls = s.pls := rfl
@[simp] theorem setSlv_belt (s : State) (k : Nat) (v : Slv) : (s.setSlv k v).belt = s.belt := rfl
@[simp] theorem setSlv_adp (s : State) (k : Nat) (v : Slv) : (s.setSlv k v).adp = s.adp := rfl
@[simp] theorem setSlv_boot (s : State) (k : Nat) (v : Slv) : (s.setSlv k v).boot = s.boot := rfl
@[simp] theorem setSlv_own (s : State) (k : Nat) (v : Slv) : (s.setSlv k v).own = s.own := rfl
@[simp] theorem setSlv_pcie (s : State) (k : Nat) (v : Slv) : (s.setSlv k v).pcie = s.pcie := rfl
@[simp] theorem setSlv_dbg (s : State) (k : Nat) (v : Slv) : (s.setSlv k v).dbg = s.dbg := rfl
@[simp] theorem setSlv_time (s : State) (k : Nat) (v : Slv) : (s.setSlv k v).time = s.time := rfl
@[simp] theorem setSlv_free (s : State) (k : Nat) (v : Slv) : (s.setSlv k v).free = s.free := rfl
@[simp] theorem setSlv_answer (s : State) (k : Nat) (v : Slv) : (s.setSlv k v).answer = s.answer := rfl
@[simp] theorem setSlv_pending (s : State) (k : Nat) (v : Slv) : (s.setSlv k v).pending = s.pending := rfl

/-! ### setCuff -/

@[simp] theorem setCuff_pkg (s : State) (k : Nat) (v : Cuff) : (s.setCuff k v).pkg = s.pkg := rfl
@[simp] theorem setCuff_pins (s : State) (k : Nat) (v : Cuff) : (s.setCuff k v).pins = s.pins := rfl
@[simp] theorem setCuff_pwr (s : State) (k : Nat) (v : Cuff) : (s.setCuff k v).pwr = s.pwr := rfl
@[simp] theorem setCuff_lace (s : State) (k : Nat) (v : Cuff) : (s.setCuff k v).lace = s.lace := rfl
@[simp] theorem setCuff_thm (s : State) (k : Nat) (v : Cuff) : (s.setCuff k v).thm = s.thm := rfl
@[simp] theorem setCuff_tobj (s : State) (k : Nat) (v : Cuff) : (s.setCuff k v).tobj = s.tobj := rfl
@[simp] theorem setCuff_pkt (s : State) (k : Nat) (v : Cuff) : (s.setCuff k v).pkt = s.pkt := rfl
@[simp] theorem setCuff_harts (s : State) (k : Nat) (v : Cuff) : (s.setCuff k v).harts = s.harts := rfl
@[simp] theorem setCuff_cores (s : State) (k : Nat) (v : Cuff) : (s.setCuff k v).cores = s.cores := rfl
@[simp] theorem setCuff_slvs (s : State) (k : Nat) (v : Cuff) : (s.setCuff k v).slvs = s.slvs := rfl
@[simp] theorem setCuff_mtimecmp (s : State) (k : Nat) (v : Cuff) : (s.setCuff k v).mtimecmp = s.mtimecmp := rfl
@[simp] theorem setCuff_vmerge (s : State) (k : Nat) (v : Cuff) : (s.setCuff k v).vmerge = s.vmerge := rfl
@[simp] theorem setCuff_qmerge (s : State) (k : Nat) (v : Cuff) : (s.setCuff k v).qmerge = s.qmerge := rfl
@[simp] theorem setCuff_coh (s : State) (k : Nat) (v : Cuff) : (s.setCuff k v).coh = s.coh := rfl
@[simp] theorem setCuff_cloak (s : State) (k : Nat) (v : Cuff) : (s.setCuff k v).cloak = s.cloak := rfl
@[simp] theorem setCuff_dram (s : State) (k : Nat) (v : Cuff) : (s.setCuff k v).dram = s.dram := rfl
@[simp] theorem setCuff_stor (s : State) (k : Nat) (v : Cuff) : (s.setCuff k v).stor = s.stor := rfl
@[simp] theorem setCuff_ftl (s : State) (k : Nat) (v : Cuff) : (s.setCuff k v).ftl = s.ftl := rfl
@[simp] theorem setCuff_hold (s : State) (k : Nat) (v : Cuff) : (s.setCuff k v).hold = s.hold := rfl
@[simp] theorem setCuff_pls (s : State) (k : Nat) (v : Cuff) : (s.setCuff k v).pls = s.pls := rfl
@[simp] theorem setCuff_belt (s : State) (k : Nat) (v : Cuff) : (s.setCuff k v).belt = s.belt := rfl
@[simp] theorem setCuff_adp (s : State) (k : Nat) (v : Cuff) : (s.setCuff k v).adp = s.adp := rfl
@[simp] theorem setCuff_boot (s : State) (k : Nat) (v : Cuff) : (s.setCuff k v).boot = s.boot := rfl
@[simp] theorem setCuff_own (s : State) (k : Nat) (v : Cuff) : (s.setCuff k v).own = s.own := rfl
@[simp] theorem setCuff_pcie (s : State) (k : Nat) (v : Cuff) : (s.setCuff k v).pcie = s.pcie := rfl
@[simp] theorem setCuff_dbg (s : State) (k : Nat) (v : Cuff) : (s.setCuff k v).dbg = s.dbg := rfl
@[simp] theorem setCuff_time (s : State) (k : Nat) (v : Cuff) : (s.setCuff k v).time = s.time := rfl
@[simp] theorem setCuff_free (s : State) (k : Nat) (v : Cuff) : (s.setCuff k v).free = s.free := rfl
@[simp] theorem setCuff_answer (s : State) (k : Nat) (v : Cuff) : (s.setCuff k v).answer = s.answer := rfl
@[simp] theorem setCuff_pending (s : State) (k : Nat) (v : Cuff) : (s.setCuff k v).pending = s.pending := rfl
@[simp] theorem setCuff_fab_grant (s : State) (k : Nat) (v : Cuff) : (s.setCuff k v).fab.grant = s.fab.grant := rfl
@[simp] theorem setCuff_fab_grantF (s : State) (k : Nat) (v : Cuff) : (s.setCuff k v).fab.grantF = s.fab.grantF := rfl
@[simp] theorem setCuff_fab_uecnt (s : State) (k : Nat) (v : Cuff) : (s.setCuff k v).fab.uecnt = s.fab.uecnt := rfl
@[simp] theorem setCuff_fab_cecnt (s : State) (k : Nat) (v : Cuff) : (s.setCuff k v).fab.cecnt = s.fab.cecnt := rfl
@[simp] theorem setCuff_fab_ceBase (s : State) (k : Nat) (v : Cuff) : (s.setCuff k v).fab.ceBase = s.fab.ceBase := rfl
@[simp] theorem setCuff_fab_allow (s : State) (k : Nat) (v : Cuff) : (s.setCuff k v).fab.allow = s.fab.allow := rfl
@[simp] theorem setCuff_fab_asked (s : State) (k : Nat) (v : Cuff) : (s.setCuff k v).fab.asked = s.fab.asked := rfl
@[simp] theorem setCuff_fab_held (s : State) (k : Nat) (v : Cuff) : (s.setCuff k v).fab.held = s.fab.held := rfl
@[simp] theorem setCuff_fab_passed (s : State) (k : Nat) (v : Cuff) : (s.setCuff k v).fab.passed = s.fab.passed := rfl
@[simp] theorem setCuff_fab_mesh (s : State) (k : Nat) (v : Cuff) : (s.setCuff k v).fab.mesh = s.fab.mesh := rfl

/-! ### setSlvPwr -/

@[simp] theorem setSlvPwr_pkg (s : State) (k : Nat) (v : SlvPwr) : (s.setSlvPwr k v).pkg = s.pkg := rfl
@[simp] theorem setSlvPwr_pins (s : State) (k : Nat) (v : SlvPwr) : (s.setSlvPwr k v).pins = s.pins := rfl
@[simp] theorem setSlvPwr_fab (s : State) (k : Nat) (v : SlvPwr) : (s.setSlvPwr k v).fab = s.fab := rfl
@[simp] theorem setSlvPwr_lace (s : State) (k : Nat) (v : SlvPwr) : (s.setSlvPwr k v).lace = s.lace := rfl
@[simp] theorem setSlvPwr_thm (s : State) (k : Nat) (v : SlvPwr) : (s.setSlvPwr k v).thm = s.thm := rfl
@[simp] theorem setSlvPwr_tobj (s : State) (k : Nat) (v : SlvPwr) : (s.setSlvPwr k v).tobj = s.tobj := rfl
@[simp] theorem setSlvPwr_pkt (s : State) (k : Nat) (v : SlvPwr) : (s.setSlvPwr k v).pkt = s.pkt := rfl
@[simp] theorem setSlvPwr_harts (s : State) (k : Nat) (v : SlvPwr) : (s.setSlvPwr k v).harts = s.harts := rfl
@[simp] theorem setSlvPwr_cores (s : State) (k : Nat) (v : SlvPwr) : (s.setSlvPwr k v).cores = s.cores := rfl
@[simp] theorem setSlvPwr_slvs (s : State) (k : Nat) (v : SlvPwr) : (s.setSlvPwr k v).slvs = s.slvs := rfl
@[simp] theorem setSlvPwr_mtimecmp (s : State) (k : Nat) (v : SlvPwr) : (s.setSlvPwr k v).mtimecmp = s.mtimecmp := rfl
@[simp] theorem setSlvPwr_vmerge (s : State) (k : Nat) (v : SlvPwr) : (s.setSlvPwr k v).vmerge = s.vmerge := rfl
@[simp] theorem setSlvPwr_qmerge (s : State) (k : Nat) (v : SlvPwr) : (s.setSlvPwr k v).qmerge = s.qmerge := rfl
@[simp] theorem setSlvPwr_coh (s : State) (k : Nat) (v : SlvPwr) : (s.setSlvPwr k v).coh = s.coh := rfl
@[simp] theorem setSlvPwr_cloak (s : State) (k : Nat) (v : SlvPwr) : (s.setSlvPwr k v).cloak = s.cloak := rfl
@[simp] theorem setSlvPwr_dram (s : State) (k : Nat) (v : SlvPwr) : (s.setSlvPwr k v).dram = s.dram := rfl
@[simp] theorem setSlvPwr_stor (s : State) (k : Nat) (v : SlvPwr) : (s.setSlvPwr k v).stor = s.stor := rfl
@[simp] theorem setSlvPwr_ftl (s : State) (k : Nat) (v : SlvPwr) : (s.setSlvPwr k v).ftl = s.ftl := rfl
@[simp] theorem setSlvPwr_hold (s : State) (k : Nat) (v : SlvPwr) : (s.setSlvPwr k v).hold = s.hold := rfl
@[simp] theorem setSlvPwr_pls (s : State) (k : Nat) (v : SlvPwr) : (s.setSlvPwr k v).pls = s.pls := rfl
@[simp] theorem setSlvPwr_belt (s : State) (k : Nat) (v : SlvPwr) : (s.setSlvPwr k v).belt = s.belt := rfl
@[simp] theorem setSlvPwr_adp (s : State) (k : Nat) (v : SlvPwr) : (s.setSlvPwr k v).adp = s.adp := rfl
@[simp] theorem setSlvPwr_boot (s : State) (k : Nat) (v : SlvPwr) : (s.setSlvPwr k v).boot = s.boot := rfl
@[simp] theorem setSlvPwr_own (s : State) (k : Nat) (v : SlvPwr) : (s.setSlvPwr k v).own = s.own := rfl
@[simp] theorem setSlvPwr_pcie (s : State) (k : Nat) (v : SlvPwr) : (s.setSlvPwr k v).pcie = s.pcie := rfl
@[simp] theorem setSlvPwr_dbg (s : State) (k : Nat) (v : SlvPwr) : (s.setSlvPwr k v).dbg = s.dbg := rfl
@[simp] theorem setSlvPwr_time (s : State) (k : Nat) (v : SlvPwr) : (s.setSlvPwr k v).time = s.time := rfl
@[simp] theorem setSlvPwr_free (s : State) (k : Nat) (v : SlvPwr) : (s.setSlvPwr k v).free = s.free := rfl
@[simp] theorem setSlvPwr_answer (s : State) (k : Nat) (v : SlvPwr) : (s.setSlvPwr k v).answer = s.answer := rfl
@[simp] theorem setSlvPwr_pending (s : State) (k : Nat) (v : SlvPwr) : (s.setSlvPwr k v).pending = s.pending := rfl
@[simp] theorem setSlvPwr_pwr_meas (s : State) (k : Nat) (v : SlvPwr) : (s.setSlvPwr k v).pwr.meas = s.pwr.meas := rfl
@[simp] theorem setSlvPwr_pwr_limit (s : State) (k : Nat) (v : SlvPwr) : (s.setSlvPwr k v).pwr.limit = s.pwr.limit := rfl
@[simp] theorem setSlvPwr_pwr_lowered (s : State) (k : Nat) (v : SlvPwr) : (s.setSlvPwr k v).pwr.lowered = s.pwr.lowered := rfl
@[simp] theorem setSlvPwr_pwr_belowCnt (s : State) (k : Nat) (v : SlvPwr) : (s.setSlvPwr k v).pwr.belowCnt = s.pwr.belowCnt := rfl
@[simp] theorem setSlvPwr_pwr_guard_ (s : State) (k : Nat) (v : SlvPwr) : (s.setSlvPwr k v).pwr.guard_ = s.pwr.guard_ := rfl
@[simp] theorem setSlvPwr_pwr_pkmax (s : State) (k : Nat) (v : SlvPwr) : (s.setSlvPwr k v).pwr.pkmax = s.pwr.pkmax := rfl
@[simp] theorem setSlvPwr_pwr_slmax (s : State) (k : Nat) (v : SlvPwr) : (s.setSlvPwr k v).pwr.slmax = s.pwr.slmax := rfl
@[simp] theorem setSlvPwr_pwr_pk (s : State) (k : Nat) (v : SlvPwr) : (s.setSlvPwr k v).pwr.pk = s.pwr.pk := rfl
@[simp] theorem setSlvPwr_pwr_coreSl (s : State) (k : Nat) (v : SlvPwr) : (s.setSlvPwr k v).pwr.coreSl = s.pwr.coreSl := rfl
@[simp] theorem setSlvPwr_pwr_entering (s : State) (k : Nat) (v : SlvPwr) : (s.setSlvPwr k v).pwr.entering = s.pwr.entering := rfl
@[simp] theorem setSlvPwr_pwr_waking (s : State) (k : Nat) (v : SlvPwr) : (s.setSlvPwr k v).pwr.waking = s.pwr.waking := rfl
@[simp] theorem setSlvPwr_pwr_wakesrc (s : State) (k : Nat) (v : SlvPwr) : (s.setSlvPwr k v).pwr.wakesrc = s.pwr.wakesrc := rfl
@[simp] theorem setSlvPwr_pwr_reqBusy (s : State) (k : Nat) (v : SlvPwr) : (s.setSlvPwr k v).pwr.reqBusy = s.pwr.reqBusy := rfl
@[simp] theorem setSlvPwr_pwr_reqTarget (s : State) (k : Nat) (v : SlvPwr) : (s.setSlvPwr k v).pwr.reqTarget = s.pwr.reqTarget := rfl
@[simp] theorem setSlvPwr_pwr_reqOutcome (s : State) (k : Nat) (v : SlvPwr) : (s.setSlvPwr k v).pwr.reqOutcome = s.pwr.reqOutcome := rfl
@[simp] theorem setSlvPwr_pwr_ops (s : State) (k : Nat) (v : SlvPwr) : (s.setSlvPwr k v).pwr.ops = s.pwr.ops := rfl
@[simp] theorem setSlvPwr_pwr_deferred (s : State) (k : Nat) (v : SlvPwr) : (s.setSlvPwr k v).pwr.deferred = s.pwr.deferred := rfl
@[simp] theorem setSlvPwr_pwr_blocks (s : State) (k : Nat) (v : SlvPwr) : (s.setSlvPwr k v).pwr.blocks = s.pwr.blocks := rfl
@[simp] theorem setSlvPwr_pwr_pk3 (s : State) (k : Nat) (v : SlvPwr) : (s.setSlvPwr k v).pwr.pk3 = s.pwr.pk3 := rfl
@[simp] theorem setSlvPwr_pwr_pk3Cause (s : State) (k : Nat) (v : SlvPwr) : (s.setSlvPwr k v).pwr.pk3Cause = s.pwr.pk3Cause := rfl
@[simp] theorem setSlvPwr_pwr_offPending (s : State) (k : Nat) (v : SlvPwr) : (s.setSlvPwr k v).pwr.offPending = s.pwr.offPending := rfl
@[simp] theorem setSlvPwr_pwr_secHeld (s : State) (k : Nat) (v : SlvPwr) : (s.setSlvPwr k v).pwr.secHeld = s.pwr.secHeld := rfl

/-! ### setChan -/

@[simp] theorem setChan_pkg (s : State) (n : Nat) (v : Chan) : (s.setChan n v).pkg = s.pkg := rfl
@[simp] theorem setChan_pins (s : State) (n : Nat) (v : Chan) : (s.setChan n v).pins = s.pins := rfl
@[simp] theorem setChan_fab (s : State) (n : Nat) (v : Chan) : (s.setChan n v).fab = s.fab := rfl
@[simp] theorem setChan_pwr (s : State) (n : Nat) (v : Chan) : (s.setChan n v).pwr = s.pwr := rfl
@[simp] theorem setChan_lace (s : State) (n : Nat) (v : Chan) : (s.setChan n v).lace = s.lace := rfl
@[simp] theorem setChan_thm (s : State) (n : Nat) (v : Chan) : (s.setChan n v).thm = s.thm := rfl
@[simp] theorem setChan_tobj (s : State) (n : Nat) (v : Chan) : (s.setChan n v).tobj = s.tobj := rfl
@[simp] theorem setChan_pkt (s : State) (n : Nat) (v : Chan) : (s.setChan n v).pkt = s.pkt := rfl
@[simp] theorem setChan_harts (s : State) (n : Nat) (v : Chan) : (s.setChan n v).harts = s.harts := rfl
@[simp] theorem setChan_cores (s : State) (n : Nat) (v : Chan) : (s.setChan n v).cores = s.cores := rfl
@[simp] theorem setChan_slvs (s : State) (n : Nat) (v : Chan) : (s.setChan n v).slvs = s.slvs := rfl
@[simp] theorem setChan_mtimecmp (s : State) (n : Nat) (v : Chan) : (s.setChan n v).mtimecmp = s.mtimecmp := rfl
@[simp] theorem setChan_vmerge (s : State) (n : Nat) (v : Chan) : (s.setChan n v).vmerge = s.vmerge := rfl
@[simp] theorem setChan_qmerge (s : State) (n : Nat) (v : Chan) : (s.setChan n v).qmerge = s.qmerge := rfl
@[simp] theorem setChan_coh (s : State) (n : Nat) (v : Chan) : (s.setChan n v).coh = s.coh := rfl
@[simp] theorem setChan_cloak (s : State) (n : Nat) (v : Chan) : (s.setChan n v).cloak = s.cloak := rfl
@[simp] theorem setChan_stor (s : State) (n : Nat) (v : Chan) : (s.setChan n v).stor = s.stor := rfl
@[simp] theorem setChan_ftl (s : State) (n : Nat) (v : Chan) : (s.setChan n v).ftl = s.ftl := rfl
@[simp] theorem setChan_hold (s : State) (n : Nat) (v : Chan) : (s.setChan n v).hold = s.hold := rfl
@[simp] theorem setChan_pls (s : State) (n : Nat) (v : Chan) : (s.setChan n v).pls = s.pls := rfl
@[simp] theorem setChan_belt (s : State) (n : Nat) (v : Chan) : (s.setChan n v).belt = s.belt := rfl
@[simp] theorem setChan_adp (s : State) (n : Nat) (v : Chan) : (s.setChan n v).adp = s.adp := rfl
@[simp] theorem setChan_boot (s : State) (n : Nat) (v : Chan) : (s.setChan n v).boot = s.boot := rfl
@[simp] theorem setChan_own (s : State) (n : Nat) (v : Chan) : (s.setChan n v).own = s.own := rfl
@[simp] theorem setChan_pcie (s : State) (n : Nat) (v : Chan) : (s.setChan n v).pcie = s.pcie := rfl
@[simp] theorem setChan_dbg (s : State) (n : Nat) (v : Chan) : (s.setChan n v).dbg = s.dbg := rfl
@[simp] theorem setChan_time (s : State) (n : Nat) (v : Chan) : (s.setChan n v).time = s.time := rfl
@[simp] theorem setChan_free (s : State) (n : Nat) (v : Chan) : (s.setChan n v).free = s.free := rfl
@[simp] theorem setChan_answer (s : State) (n : Nat) (v : Chan) : (s.setChan n v).answer = s.answer := rfl
@[simp] theorem setChan_pending (s : State) (n : Nat) (v : Chan) : (s.setChan n v).pending = s.pending := rfl
@[simp] theorem setChan_dram_scrubEn (s : State) (n : Nat) (v : Chan) : (s.setChan n v).dram.scrubEn = s.dram.scrubEn := rfl
@[simp] theorem setChan_dram_scrubPer (s : State) (n : Nat) (v : Chan) : (s.setChan n v).dram.scrubPer = s.dram.scrubPer := rfl
@[simp] theorem setChan_dram_mapLock (s : State) (n : Nat) (v : Chan) : (s.setChan n v).dram.mapLock = s.dram.mapLock := rfl
@[simp] theorem setChan_dram_mapErr (s : State) (n : Nat) (v : Chan) : (s.setChan n v).dram.mapErr = s.dram.mapErr := rfl
@[simp] theorem setChan_dram_chLoaded (s : State) (n : Nat) (v : Chan) : (s.setChan n v).dram.chLoaded = s.dram.chLoaded := rfl
@[simp] theorem setChan_dram_chmask (s : State) (n : Nat) (v : Chan) : (s.setChan n v).dram.chmask = s.dram.chmask := rfl
@[simp] theorem setChan_dram_pwben (s : State) (n : Nat) (v : Chan) : (s.setChan n v).dram.pwben = s.dram.pwben := rfl
@[simp] theorem setChan_dram_ilen (s : State) (n : Nat) (v : Chan) : (s.setChan n v).dram.ilen = s.dram.ilen := rfl
@[simp] theorem setChan_dram_grain (s : State) (n : Nat) (v : Chan) : (s.setChan n v).dram.grain = s.dram.grain := rfl
@[simp] theorem setChan_dram_order (s : State) (n : Nat) (v : Chan) : (s.setChan n v).dram.order = s.dram.order := rfl
@[simp] theorem setChan_dram_top (s : State) (n : Nat) (v : Chan) : (s.setChan n v).dram.top = s.dram.top := rfl
@[simp] theorem setChan_dram_mem (s : State) (n : Nat) (v : Chan) : (s.setChan n v).dram.mem = s.dram.mem := rfl
@[simp] theorem setChan_dram_poison (s : State) (n : Nat) (v : Chan) : (s.setChan n v).dram.poison = s.dram.poison := rfl
@[simp] theorem setChan_dram_decs (s : State) (n : Nat) (v : Chan) : (s.setChan n v).dram.decs = s.dram.decs := rfl
@[simp] theorem setChan_dram_recalls (s : State) (n : Nat) (v : Chan) : (s.setChan n v).dram.recalls = s.dram.recalls := rfl
@[simp] theorem setChan_dram_cxlIso (s : State) (n : Nat) (v : Chan) : (s.setChan n v).dram.cxlIso = s.dram.cxlIso := rfl
@[simp] theorem setChan_dram_cxlRetr (s : State) (n : Nat) (v : Chan) : (s.setChan n v).dram.cxlRetr = s.dram.cxlRetr := rfl
@[simp] theorem setChan_dram_cxlTmo (s : State) (n : Nat) (v : Chan) : (s.setChan n v).dram.cxlTmo = s.dram.cxlTmo := rfl
@[simp] theorem setChan_dram_cxlTmoF (s : State) (n : Nat) (v : Chan) : (s.setChan n v).dram.cxlTmoF = s.dram.cxlTmoF := rfl
@[simp] theorem setChan_dram_cxlOpen (s : State) (n : Nat) (v : Chan) : (s.setChan n v).dram.cxlOpen = s.dram.cxlOpen := rfl
@[simp] theorem setChan_dram_cxlDef (s : State) (n : Nat) (v : Chan) : (s.setChan n v).dram.cxlDef = s.dram.cxlDef := rfl

/-! ### setFstop -/

@[simp] theorem setFstop_pkg (s : State) (d : Nat) (v : FStop) : (s.setFstop d v).pkg = s.pkg := rfl
@[simp] theorem setFstop_pins (s : State) (d : Nat) (v : FStop) : (s.setFstop d v).pins = s.pins := rfl
@[simp] theorem setFstop_fab (s : State) (d : Nat) (v : FStop) : (s.setFstop d v).fab = s.fab := rfl
@[simp] theorem setFstop_pwr (s : State) (d : Nat) (v : FStop) : (s.setFstop d v).pwr = s.pwr := rfl
@[simp] theorem setFstop_lace (s : State) (d : Nat) (v : FStop) : (s.setFstop d v).lace = s.lace := rfl
@[simp] theorem setFstop_thm (s : State) (d : Nat) (v : FStop) : (s.setFstop d v).thm = s.thm := rfl
@[simp] theorem setFstop_tobj (s : State) (d : Nat) (v : FStop) : (s.setFstop d v).tobj = s.tobj := rfl
@[simp] theorem setFstop_pkt (s : State) (d : Nat) (v : FStop) : (s.setFstop d v).pkt = s.pkt := rfl
@[simp] theorem setFstop_harts (s : State) (d : Nat) (v : FStop) : (s.setFstop d v).harts = s.harts := rfl
@[simp] theorem setFstop_cores (s : State) (d : Nat) (v : FStop) : (s.setFstop d v).cores = s.cores := rfl
@[simp] theorem setFstop_slvs (s : State) (d : Nat) (v : FStop) : (s.setFstop d v).slvs = s.slvs := rfl
@[simp] theorem setFstop_mtimecmp (s : State) (d : Nat) (v : FStop) : (s.setFstop d v).mtimecmp = s.mtimecmp := rfl
@[simp] theorem setFstop_vmerge (s : State) (d : Nat) (v : FStop) : (s.setFstop d v).vmerge = s.vmerge := rfl
@[simp] theorem setFstop_qmerge (s : State) (d : Nat) (v : FStop) : (s.setFstop d v).qmerge = s.qmerge := rfl
@[simp] theorem setFstop_cloak (s : State) (d : Nat) (v : FStop) : (s.setFstop d v).cloak = s.cloak := rfl
@[simp] theorem setFstop_dram (s : State) (d : Nat) (v : FStop) : (s.setFstop d v).dram = s.dram := rfl
@[simp] theorem setFstop_stor (s : State) (d : Nat) (v : FStop) : (s.setFstop d v).stor = s.stor := rfl
@[simp] theorem setFstop_ftl (s : State) (d : Nat) (v : FStop) : (s.setFstop d v).ftl = s.ftl := rfl
@[simp] theorem setFstop_hold (s : State) (d : Nat) (v : FStop) : (s.setFstop d v).hold = s.hold := rfl
@[simp] theorem setFstop_pls (s : State) (d : Nat) (v : FStop) : (s.setFstop d v).pls = s.pls := rfl
@[simp] theorem setFstop_belt (s : State) (d : Nat) (v : FStop) : (s.setFstop d v).belt = s.belt := rfl
@[simp] theorem setFstop_adp (s : State) (d : Nat) (v : FStop) : (s.setFstop d v).adp = s.adp := rfl
@[simp] theorem setFstop_boot (s : State) (d : Nat) (v : FStop) : (s.setFstop d v).boot = s.boot := rfl
@[simp] theorem setFstop_own (s : State) (d : Nat) (v : FStop) : (s.setFstop d v).own = s.own := rfl
@[simp] theorem setFstop_pcie (s : State) (d : Nat) (v : FStop) : (s.setFstop d v).pcie = s.pcie := rfl
@[simp] theorem setFstop_dbg (s : State) (d : Nat) (v : FStop) : (s.setFstop d v).dbg = s.dbg := rfl
@[simp] theorem setFstop_time (s : State) (d : Nat) (v : FStop) : (s.setFstop d v).time = s.time := rfl
@[simp] theorem setFstop_free (s : State) (d : Nat) (v : FStop) : (s.setFstop d v).free = s.free := rfl
@[simp] theorem setFstop_answer (s : State) (d : Nat) (v : FStop) : (s.setFstop d v).answer = s.answer := rfl
@[simp] theorem setFstop_pending (s : State) (d : Nat) (v : FStop) : (s.setFstop d v).pending = s.pending := rfl
@[simp] theorem setFstop_coh_dir (s : State) (d : Nat) (v : FStop) : (s.setFstop d v).coh.dir = s.coh.dir := rfl
@[simp] theorem setFstop_coh_dplru (s : State) (d : Nat) (v : FStop) : (s.setFstop d v).coh.dplru = s.coh.dplru := rfl
@[simp] theorem setFstop_coh_txns (s : State) (d : Nat) (v : FStop) : (s.setFstop d v).coh.txns = s.coh.txns := rfl
@[simp] theorem setFstop_coh_queue (s : State) (d : Nat) (v : FStop) : (s.setFstop d v).coh.queue = s.coh.queue := rfl
@[simp] theorem setFstop_coh_mshr (s : State) (d : Nat) (v : FStop) : (s.setFstop d v).coh.mshr = s.coh.mshr := rfl
@[simp] theorem setFstop_coh_late (s : State) (d : Nat) (v : FStop) : (s.setFstop d v).coh.late = s.coh.late := rfl
@[simp] theorem setFstop_coh_wbs (s : State) (d : Nat) (v : FStop) : (s.setFstop d v).coh.wbs = s.coh.wbs := rfl
@[simp] theorem setFstop_coh_haTmo (s : State) (d : Nat) (v : FStop) : (s.setFstop d v).coh.haTmo = s.coh.haTmo := rfl
@[simp] theorem setFstop_coh_slTmo (s : State) (d : Nat) (v : FStop) : (s.setFstop d v).coh.slTmo = s.coh.slTmo := rfl
@[simp] theorem setFstop_coh_haTmoF (s : State) (d : Nat) (v : FStop) : (s.setFstop d v).coh.haTmoF = s.coh.haTmoF := rfl
@[simp] theorem setFstop_coh_slTmoF (s : State) (d : Nat) (v : FStop) : (s.setFstop d v).coh.slTmoF = s.coh.slTmoF := rfl

/-! ### answerW -/

@[simp] theorem answerW_pkg (s : State) (v : Word) : (s.answerW v).pkg = s.pkg := rfl
@[simp] theorem answerW_pins (s : State) (v : Word) : (s.answerW v).pins = s.pins := rfl
@[simp] theorem answerW_fab (s : State) (v : Word) : (s.answerW v).fab = s.fab := rfl
@[simp] theorem answerW_pwr (s : State) (v : Word) : (s.answerW v).pwr = s.pwr := rfl
@[simp] theorem answerW_lace (s : State) (v : Word) : (s.answerW v).lace = s.lace := rfl
@[simp] theorem answerW_thm (s : State) (v : Word) : (s.answerW v).thm = s.thm := rfl
@[simp] theorem answerW_tobj (s : State) (v : Word) : (s.answerW v).tobj = s.tobj := rfl
@[simp] theorem answerW_pkt (s : State) (v : Word) : (s.answerW v).pkt = s.pkt := rfl
@[simp] theorem answerW_harts (s : State) (v : Word) : (s.answerW v).harts = s.harts := rfl
@[simp] theorem answerW_cores (s : State) (v : Word) : (s.answerW v).cores = s.cores := rfl
@[simp] theorem answerW_slvs (s : State) (v : Word) : (s.answerW v).slvs = s.slvs := rfl
@[simp] theorem answerW_mtimecmp (s : State) (v : Word) : (s.answerW v).mtimecmp = s.mtimecmp := rfl
@[simp] theorem answerW_vmerge (s : State) (v : Word) : (s.answerW v).vmerge = s.vmerge := rfl
@[simp] theorem answerW_qmerge (s : State) (v : Word) : (s.answerW v).qmerge = s.qmerge := rfl
@[simp] theorem answerW_coh (s : State) (v : Word) : (s.answerW v).coh = s.coh := rfl
@[simp] theorem answerW_cloak (s : State) (v : Word) : (s.answerW v).cloak = s.cloak := rfl
@[simp] theorem answerW_dram (s : State) (v : Word) : (s.answerW v).dram = s.dram := rfl
@[simp] theorem answerW_stor (s : State) (v : Word) : (s.answerW v).stor = s.stor := rfl
@[simp] theorem answerW_ftl (s : State) (v : Word) : (s.answerW v).ftl = s.ftl := rfl
@[simp] theorem answerW_hold (s : State) (v : Word) : (s.answerW v).hold = s.hold := rfl
@[simp] theorem answerW_pls (s : State) (v : Word) : (s.answerW v).pls = s.pls := rfl
@[simp] theorem answerW_belt (s : State) (v : Word) : (s.answerW v).belt = s.belt := rfl
@[simp] theorem answerW_adp (s : State) (v : Word) : (s.answerW v).adp = s.adp := rfl
@[simp] theorem answerW_boot (s : State) (v : Word) : (s.answerW v).boot = s.boot := rfl
@[simp] theorem answerW_own (s : State) (v : Word) : (s.answerW v).own = s.own := rfl
@[simp] theorem answerW_pcie (s : State) (v : Word) : (s.answerW v).pcie = s.pcie := rfl
@[simp] theorem answerW_dbg (s : State) (v : Word) : (s.answerW v).dbg = s.dbg := rfl
@[simp] theorem answerW_time (s : State) (v : Word) : (s.answerW v).time = s.time := rfl
@[simp] theorem answerW_free (s : State) (v : Word) : (s.answerW v).free = s.free := rfl
@[simp] theorem answerW_pending (s : State) (v : Word) : (s.answerW v).pending = s.pending := rfl

/-! ### answerErr -/

@[simp] theorem answerErr_pkg (s : State) : (s.answerErr).pkg = s.pkg := rfl
@[simp] theorem answerErr_pins (s : State) : (s.answerErr).pins = s.pins := rfl
@[simp] theorem answerErr_fab (s : State) : (s.answerErr).fab = s.fab := rfl
@[simp] theorem answerErr_pwr (s : State) : (s.answerErr).pwr = s.pwr := rfl
@[simp] theorem answerErr_lace (s : State) : (s.answerErr).lace = s.lace := rfl
@[simp] theorem answerErr_thm (s : State) : (s.answerErr).thm = s.thm := rfl
@[simp] theorem answerErr_tobj (s : State) : (s.answerErr).tobj = s.tobj := rfl
@[simp] theorem answerErr_pkt (s : State) : (s.answerErr).pkt = s.pkt := rfl
@[simp] theorem answerErr_harts (s : State) : (s.answerErr).harts = s.harts := rfl
@[simp] theorem answerErr_cores (s : State) : (s.answerErr).cores = s.cores := rfl
@[simp] theorem answerErr_slvs (s : State) : (s.answerErr).slvs = s.slvs := rfl
@[simp] theorem answerErr_mtimecmp (s : State) : (s.answerErr).mtimecmp = s.mtimecmp := rfl
@[simp] theorem answerErr_vmerge (s : State) : (s.answerErr).vmerge = s.vmerge := rfl
@[simp] theorem answerErr_qmerge (s : State) : (s.answerErr).qmerge = s.qmerge := rfl
@[simp] theorem answerErr_coh (s : State) : (s.answerErr).coh = s.coh := rfl
@[simp] theorem answerErr_cloak (s : State) : (s.answerErr).cloak = s.cloak := rfl
@[simp] theorem answerErr_dram (s : State) : (s.answerErr).dram = s.dram := rfl
@[simp] theorem answerErr_stor (s : State) : (s.answerErr).stor = s.stor := rfl
@[simp] theorem answerErr_ftl (s : State) : (s.answerErr).ftl = s.ftl := rfl
@[simp] theorem answerErr_hold (s : State) : (s.answerErr).hold = s.hold := rfl
@[simp] theorem answerErr_pls (s : State) : (s.answerErr).pls = s.pls := rfl
@[simp] theorem answerErr_belt (s : State) : (s.answerErr).belt = s.belt := rfl
@[simp] theorem answerErr_adp (s : State) : (s.answerErr).adp = s.adp := rfl
@[simp] theorem answerErr_boot (s : State) : (s.answerErr).boot = s.boot := rfl
@[simp] theorem answerErr_own (s : State) : (s.answerErr).own = s.own := rfl
@[simp] theorem answerErr_pcie (s : State) : (s.answerErr).pcie = s.pcie := rfl
@[simp] theorem answerErr_dbg (s : State) : (s.answerErr).dbg = s.dbg := rfl
@[simp] theorem answerErr_time (s : State) : (s.answerErr).time = s.time := rfl
@[simp] theorem answerErr_free (s : State) : (s.answerErr).free = s.free := rfl
@[simp] theorem answerErr_pending (s : State) : (s.answerErr).pending = s.pending := rfl

/-! ### draw -/

@[simp] theorem draw_pkg (s : State) : (s.draw).pkg = s.pkg := rfl
@[simp] theorem draw_pins (s : State) : (s.draw).pins = s.pins := rfl
@[simp] theorem draw_fab (s : State) : (s.draw).fab = s.fab := rfl
@[simp] theorem draw_pwr (s : State) : (s.draw).pwr = s.pwr := rfl
@[simp] theorem draw_lace (s : State) : (s.draw).lace = s.lace := rfl
@[simp] theorem draw_thm (s : State) : (s.draw).thm = s.thm := rfl
@[simp] theorem draw_tobj (s : State) : (s.draw).tobj = s.tobj := rfl
@[simp] theorem draw_pkt (s : State) : (s.draw).pkt = s.pkt := rfl
@[simp] theorem draw_harts (s : State) : (s.draw).harts = s.harts := rfl
@[simp] theorem draw_cores (s : State) : (s.draw).cores = s.cores := rfl
@[simp] theorem draw_slvs (s : State) : (s.draw).slvs = s.slvs := rfl
@[simp] theorem draw_mtimecmp (s : State) : (s.draw).mtimecmp = s.mtimecmp := rfl
@[simp] theorem draw_vmerge (s : State) : (s.draw).vmerge = s.vmerge := rfl
@[simp] theorem draw_qmerge (s : State) : (s.draw).qmerge = s.qmerge := rfl
@[simp] theorem draw_coh (s : State) : (s.draw).coh = s.coh := rfl
@[simp] theorem draw_cloak (s : State) : (s.draw).cloak = s.cloak := rfl
@[simp] theorem draw_dram (s : State) : (s.draw).dram = s.dram := rfl
@[simp] theorem draw_stor (s : State) : (s.draw).stor = s.stor := rfl
@[simp] theorem draw_ftl (s : State) : (s.draw).ftl = s.ftl := rfl
@[simp] theorem draw_hold (s : State) : (s.draw).hold = s.hold := rfl
@[simp] theorem draw_pls (s : State) : (s.draw).pls = s.pls := rfl
@[simp] theorem draw_belt (s : State) : (s.draw).belt = s.belt := rfl
@[simp] theorem draw_adp (s : State) : (s.draw).adp = s.adp := rfl
@[simp] theorem draw_boot (s : State) : (s.draw).boot = s.boot := rfl
@[simp] theorem draw_own (s : State) : (s.draw).own = s.own := rfl
@[simp] theorem draw_pcie (s : State) : (s.draw).pcie = s.pcie := rfl
@[simp] theorem draw_dbg (s : State) : (s.draw).dbg = s.dbg := rfl
@[simp] theorem draw_time (s : State) : (s.draw).time = s.time := rfl
@[simp] theorem draw_answer (s : State) : (s.draw).answer = s.answer := rfl
@[simp] theorem draw_pending (s : State) : (s.draw).pending = s.pending := rfl

@[simp] theorem answerW_answer (s : State) (v : Word) : (s.answerW v).answer = .word v := rfl
@[simp] theorem answerErr_answer (s : State) : s.answerErr.answer = .error := rfl
@[simp] theorem draw_free (s : State) : s.draw.free = s.free + 1 := rfl

/-! ### A modification is a write of the modified group; a group that is not written reads as before -/

theorem modHart_eq (s : State) (h : Nat) (f : Hart → Hart) : s.modHart h f = s.setHart h (f (s.hart h)) := rfl
theorem modCore_eq (s : State) (c : Nat) (f : Core → Core) : s.modCore c f = s.setCore c (f (s.core c)) := rfl
theorem modSlv_eq (s : State) (k : Nat) (f : Slv → Slv) : s.modSlv k f = s.setSlv k (f (s.slv k)) := rfl
theorem modCuff_eq (s : State) (k : Nat) (f : Cuff → Cuff) : s.modCuff k f = s.setCuff k (f (s.cuff k)) := rfl
theorem modSlvPwr_eq (s : State) (k : Nat) (f : SlvPwr → SlvPwr) : s.modSlvPwr k f = s.setSlvPwr k (f (s.slvPwr k)) := rfl
theorem modChan_eq (s : State) (n : Nat) (f : Chan → Chan) : s.modChan n f = s.setChan n (f (s.chan n)) := rfl

@[simp] theorem hart_setHart_ne (s : State) (a b : Nat) (v : Hart) (h : b ≠ a) : (s.setHart a v).hart b = s.hart b :=
  tabGet_set_ne s.harts Hart.reset a b v h
theorem hart_setHart_self (s : State) (a : Nat) (v : Hart) (h : v ≠ Hart.reset) : (s.setHart a v).hart a = v :=
  tabGet_set_self s.harts Hart.reset a v h
@[simp] theorem core_setCore_ne (s : State) (a b : Nat) (v : Core) (h : b ≠ a) : (s.setCore a v).core b = s.core b :=
  tabGet_set_ne s.cores Core.reset a b v h
theorem core_setCore_self (s : State) (a : Nat) (v : Core) (h : v ≠ Core.reset) : (s.setCore a v).core a = v :=
  tabGet_set_self s.cores Core.reset a v h
@[simp] theorem slv_setSlv_ne (s : State) (a b : Nat) (v : Slv) (h : b ≠ a) : (s.setSlv a v).slv b = s.slv b :=
  tabGet_set_ne s.slvs Slv.reset a b v h
theorem slv_setSlv_self (s : State) (a : Nat) (v : Slv) (h : v ≠ Slv.reset) : (s.setSlv a v).slv a = v :=
  tabGet_set_self s.slvs Slv.reset a v h
@[simp] theorem cuff_setCuff_ne (s : State) (a b : Nat) (v : Cuff) (h : b ≠ a) : (s.setCuff a v).cuff b = s.cuff b :=
  tabGet_set_ne s.fab.cuffs Cuff.reset a b v h
theorem cuff_setCuff_self (s : State) (a : Nat) (v : Cuff) (h : v ≠ Cuff.reset) : (s.setCuff a v).cuff a = v :=
  tabGet_set_self s.fab.cuffs Cuff.reset a v h
@[simp] theorem slvPwr_setSlvPwr_ne (s : State) (a b : Nat) (v : SlvPwr) (h : b ≠ a) : (s.setSlvPwr a v).slvPwr b = s.slvPwr b :=
  tabGet_set_ne s.pwr.slv SlvPwr.reset a b v h
theorem slvPwr_setSlvPwr_self (s : State) (a : Nat) (v : SlvPwr) (h : v ≠ SlvPwr.reset) : (s.setSlvPwr a v).slvPwr a = v :=
  tabGet_set_self s.pwr.slv SlvPwr.reset a v h
@[simp] theorem chan_setChan_ne (s : State) (a b : Nat) (v : Chan) (h : b ≠ a) : (s.setChan a v).chan b = s.chan b :=
  tabGet_set_ne s.dram.chans Chan.reset a b v h
theorem chan_setChan_self (s : State) (a : Nat) (v : Chan) (h : v ≠ Chan.reset) : (s.setChan a v).chan a = v :=
  tabGet_set_self s.dram.chans Chan.reset a v h
@[simp] theorem fstop_setFstop_ne (s : State) (a b : Nat) (v : FStop) (h : b ≠ a) : (s.setFstop a v).fstop b = s.fstop b :=
  tabGet_set_ne s.coh.fstop FStop.reset a b v h
theorem fstop_setFstop_self (s : State) (a : Nat) (v : FStop) (h : v ≠ FStop.reset) : (s.setFstop a v).fstop a = v :=
  tabGet_set_self s.coh.fstop FStop.reset a v h

@[simp] theorem core_setHart (s : State) (h : Nat) (v : Hart) (j : Nat) : (s.setHart h v).core j = s.core j := rfl
@[simp] theorem slv_setHart (s : State) (h : Nat) (v : Hart) (j : Nat) : (s.setHart h v).slv j = s.slv j := rfl
@[simp] theorem cuff_setHart (s : State) (h : Nat) (v : Hart) (j : Nat) : (s.setHart h v).cuff j = s.cuff j := rfl
@[simp] theorem slvPwr_setHart (s : State) (h : Nat) (v : Hart) (j : Nat) : (s.setHart h v).slvPwr j = s.slvPwr j := rfl
@[simp] theorem chan_setHart (s : State) (h : Nat) (v : Hart) (j : Nat) : (s.setHart h v).chan j = s.chan j := rfl
@[simp] theorem fstop_setHart (s : State) (h : Nat) (v : Hart) (j : Nat) : (s.setHart h v).fstop j = s.fstop j := rfl
@[simp] theorem hart_setCore (s : State) (c : Nat) (v : Core) (j : Nat) : (s.setCore c v).hart j = s.hart j := rfl
@[simp] theorem slv_setCore (s : State) (c : Nat) (v : Core) (j : Nat) : (s.setCore c v).slv j = s.slv j := rfl
@[simp] theorem cuff_setCore (s : State) (c : Nat) (v : Core) (j : Nat) : (s.setCore c v).cuff j = s.cuff j := rfl
@[simp] theorem slvPwr_setCore (s : State) (c : Nat) (v : Core) (j : Nat) : (s.setCore c v).slvPwr j = s.slvPwr j := rfl
@[simp] theorem chan_setCore (s : State) (c : Nat) (v : Core) (j : Nat) : (s.setCore c v).chan j = s.chan j := rfl
@[simp] theorem fstop_setCore (s : State) (c : Nat) (v : Core) (j : Nat) : (s.setCore c v).fstop j = s.fstop j := rfl
@[simp] theorem hart_setSlv (s : State) (k : Nat) (v : Slv) (j : Nat) : (s.setSlv k v).hart j = s.hart j := rfl
@[simp] theorem core_setSlv (s : State) (k : Nat) (v : Slv) (j : Nat) : (s.setSlv k v).core j = s.core j := rfl
@[simp] theorem cuff_setSlv (s : State) (k : Nat) (v : Slv) (j : Nat) : (s.setSlv k v).cuff j = s.cuff j := rfl
@[simp] theorem slvPwr_setSlv (s : State) (k : Nat) (v : Slv) (j : Nat) : (s.setSlv k v).slvPwr j = s.slvPwr j := rfl
@[simp] theorem chan_setSlv (s : State) (k : Nat) (v : Slv) (j : Nat) : (s.setSlv k v).chan j = s.chan j := rfl
@[simp] theorem fstop_setSlv (s : State) (k : Nat) (v : Slv) (j : Nat) : (s.setSlv k v).fstop j = s.fstop j := rfl
@[simp] theorem hart_setCuff (s : State) (k : Nat) (v : Cuff) (j : Nat) : (s.setCuff k v).hart j = s.hart j := rfl
@[simp] theorem core_setCuff (s : State) (k : Nat) (v : Cuff) (j : Nat) : (s.setCuff k v).core j = s.core j := rfl
@[simp] theorem slv_setCuff (s : State) (k : Nat) (v : Cuff) (j : Nat) : (s.setCuff k v).slv j = s.slv j := rfl
@[simp] theorem slvPwr_setCuff (s : State) (k : Nat) (v : Cuff) (j : Nat) : (s.setCuff k v).slvPwr j = s.slvPwr j := rfl
@[simp] theorem chan_setCuff (s : State) (k : Nat) (v : Cuff) (j : Nat) : (s.setCuff k v).chan j = s.chan j := rfl
@[simp] theorem fstop_setCuff (s : State) (k : Nat) (v : Cuff) (j : Nat) : (s.setCuff k v).fstop j = s.fstop j := rfl
@[simp] theorem hart_setSlvPwr (s : State) (k : Nat) (v : SlvPwr) (j : Nat) : (s.setSlvPwr k v).hart j = s.hart j := rfl
@[simp] theorem core_setSlvPwr (s : State) (k : Nat) (v : SlvPwr) (j : Nat) : (s.setSlvPwr k v).core j = s.core j := rfl
@[simp] theorem slv_setSlvPwr (s : State) (k : Nat) (v : SlvPwr) (j : Nat) : (s.setSlvPwr k v).slv j = s.slv j := rfl
@[simp] theorem cuff_setSlvPwr (s : State) (k : Nat) (v : SlvPwr) (j : Nat) : (s.setSlvPwr k v).cuff j = s.cuff j := rfl
@[simp] theorem chan_setSlvPwr (s : State) (k : Nat) (v : SlvPwr) (j : Nat) : (s.setSlvPwr k v).chan j = s.chan j := rfl
@[simp] theorem fstop_setSlvPwr (s : State) (k : Nat) (v : SlvPwr) (j : Nat) : (s.setSlvPwr k v).fstop j = s.fstop j := rfl
@[simp] theorem hart_setChan (s : State) (n : Nat) (v : Chan) (j : Nat) : (s.setChan n v).hart j = s.hart j := rfl
@[simp] theorem core_setChan (s : State) (n : Nat) (v : Chan) (j : Nat) : (s.setChan n v).core j = s.core j := rfl
@[simp] theorem slv_setChan (s : State) (n : Nat) (v : Chan) (j : Nat) : (s.setChan n v).slv j = s.slv j := rfl
@[simp] theorem cuff_setChan (s : State) (n : Nat) (v : Chan) (j : Nat) : (s.setChan n v).cuff j = s.cuff j := rfl
@[simp] theorem slvPwr_setChan (s : State) (n : Nat) (v : Chan) (j : Nat) : (s.setChan n v).slvPwr j = s.slvPwr j := rfl
@[simp] theorem fstop_setChan (s : State) (n : Nat) (v : Chan) (j : Nat) : (s.setChan n v).fstop j = s.fstop j := rfl
@[simp] theorem hart_setFstop (s : State) (d : Nat) (v : FStop) (j : Nat) : (s.setFstop d v).hart j = s.hart j := rfl
@[simp] theorem core_setFstop (s : State) (d : Nat) (v : FStop) (j : Nat) : (s.setFstop d v).core j = s.core j := rfl
@[simp] theorem slv_setFstop (s : State) (d : Nat) (v : FStop) (j : Nat) : (s.setFstop d v).slv j = s.slv j := rfl
@[simp] theorem cuff_setFstop (s : State) (d : Nat) (v : FStop) (j : Nat) : (s.setFstop d v).cuff j = s.cuff j := rfl
@[simp] theorem slvPwr_setFstop (s : State) (d : Nat) (v : FStop) (j : Nat) : (s.setFstop d v).slvPwr j = s.slvPwr j := rfl
@[simp] theorem chan_setFstop (s : State) (d : Nat) (v : FStop) (j : Nat) : (s.setFstop d v).chan j = s.chan j := rfl
end Sys2Proof.Machine
end

