-- ==== Sys2Proof/Laws/Hart.lean ====
section
/-! SUPPORT. The shared operations of a hart: issuing, CSR writes, general registers. -/

namespace Sys2Proof.Machine

open Sys2Proof

@[simp] theorem keepQueue_done (s t : State) : keepQueue s (done t) = .next { t with pending := s.pending } := rfl
/-- What it is for a hart to issue: it runs, outside a program buffer and single step, with no prediction and no instruction outstanding. -/

theorem hartIssues_parts {s : State} {h : Nat} (hi : hartIssues s h = true) :
    hartRuns s h = true ∧ (s.hart h).prog = false ∧ (s.hart h).indir = none ∧ (s.hart h).rest = [] ∧ bit ((s.hart h).c 0x7B0) 2 = false := by
  simpa [hartIssues, and_assoc] using hi
/-- A hart that issues runs the instruction's effect and nothing around it. -/

theorem byHart_issues {s : State} {h : Nat} {f : State → State} (hi : hartIssues s h = true) : byHart h f s = f s := by
  obtain ⟨h1, hp, h2, h3, h4⟩ := hartIssues_parts hi
  have h4' : bit ((s.hart h).c 1968) 2 = false := h4
  simp [byHart, actHart, h1, h2, hp, h3, stepHalt, stepDone, h4']
/-- A hart that issues its own instructions runs no program buffer. -/

theorem hartIssues_prog {s : State} {h : Nat} (hi : hartIssues s h = true) : (s.hart h).prog = false := (hartIssues_parts hi).2.1
/-- A register command of an agent that runs has its effect (R28, R149). -/

theorem sentBy_runs {w : Agent} {s : State} {o : Out} (h : agentRuns s w = true) : sentBy w s o = o := if_pos h

theorem meet_nil (s : State) : meet [] s = s := rfl
/-- An access of a hart that issues, which finds no array error, is its effect alone. -/

theorem byHartMeet_issues {s : State} {h : HartId} {f : State → State} (hi : hartIssues s h = true) : byHartMeet h [] f s = f s := by
  have h1 : (s.hart h).stopped = false := by
    have := (hartIssues_parts hi).1
    simp [hartRuns] at this; simp [this]
  unfold byHartMeet; rw [byHart_issues hi]; simp [meet_nil, h1]
/-- The array errors that an access finds come first (R122, R123). -/

theorem byHartMeet_errs {s : State} {h : HartId} {errs : List ArrErr} {f : State → State} (hi : hartIssues s h = true)
    (h1 : ((meet errs s).hart h).stopped = false) : byHartMeet h errs f s = f (meet errs s) := by
  unfold byHartMeet; rw [byHart_issues hi]; simp [h1]
/-- A permitted CSR write goes to the register that the mode redirects to, and retires. -/

theorem csrInstr_ok {h n : Nat} {v : Word} {s : State} (h2 : csrCheck (s.hart h) n true = none) :
    csrInstr h n v s = retire h 4 (if redirect (s.hart h).virt n = 0x5C0 then wrBpc h v s else if redirect (s.hart h).virt n = 0x5C1 then wrBpkey h v s
      else s.setHart h (csrWrite s (s.hart h) (redirect (s.hart h).virt n) v)) := by
  unfold csrInstr; simp only []; rw [h2]

theorem getC_setC (x : Hart) (n m : Nat) (v : Word) (w : tabRising x.csr = true) : (x.setC n v).c m = if m = n then v else x.c m := by
  by_cases h : m = n
  · subst h; rw [if_pos rfl]; exact tabGet_set_rising _ _ _ _ w
  · rw [if_neg h]; exact tabGet_set_ne_any _ _ _ _ _ _ h

theorem csrRising_setC (x : Hart) (n : Nat) (v : Word) (w : tabRising x.csr = true) : tabRising (x.setC n v).csr = true := tabRising_set _ _ _ _ w

/-- A hart that runs no program buffer takes an exception by entering its trap (R42, R66). -/
theorem takeTrap_eq (h : Nat) (t : Trap) (s : State) (hp : (s.hart h).prog = false) :
    takeTrap h t s = enterTrap h (excMode (s.hart h) t.cause) false t s := by simp [takeTrap, hp]

theorem setX_zero (x : Hart) (v : Word) : x.setX 0 v = x := rfl
theorem gx_zero (x : Hart) : x.gx 0 = 0 := rfl

/-- A load-and-retire never touches another hart. -/
theorem retire_ne (h len : Nat) (s : State) (j : Nat) (hj : j ≠ h) : (retire h len s).hart j = s.hart j :=
  hart_setHart_ne s h j _ hj

/-- Taking a trap into M-mode, by a hart with no prediction and no instruction outstanding and a trap with no walk fault: the registers written, in
order, then the mode and the program counter (R42, R66). -/
theorem enterTrap_machine (s : State) (h : Nat) (intr : Bool) (t : Trap) (hi : (s.hart h).indir = none) (hr : (s.hart h).rest = []) (hw : t.walk = none) :
    enterTrap h 3 intr t s = { s.setHart h
      { (((((({ s.hart h with resv := none, resHold := none, heldAcc := false, walkPaid := none, wfi := false, io := none, fetchStop := false } : Hart).setC
        0x341 (s.hart h).pc).setC 0x342 (BitVec.ofNat 64 t.cause ||| on 63 intr)).setC 0x343 t.tval).setC 0x34B t.tval2).setC
        0x34A (if intr then 0 else if t.impl then 0x3000 else if memExc t.cause then Config.freeWord s.free else 0)).setC
        0x300 (((s.hart h).c 0x300 &&& ~~~(0x000000C000001888 : Word)) ||| cat [on 38 t.gva, on 39 (s.hart h).virt, at_ 11 (s.hart h).priv,
          on 7 (bit ((s.hart h).c 0x300) 3)]) with
        priv := 3, virt := false
        pc := if (s.hart h).sec then monEntry s + 0x100 else vectorOf ((s.hart h).c 0x305) intr t.cause } with
      free := s.free + 1, fab := { s.fab with held := s.fab.held.filter fun e => !heldOf h e } } := by
  have hx : squashPath { s.hart h with resv := none, resHold := none, heldAcc := false, walkPaid := none, wfi := false, io := none } =
      { s.hart h with resv := none, resHold := none, heldAcc := false, walkPaid := none, wfi := false, io := none, fetchStop := false } := by
    simp [squashPath, hi, hr]
  unfold enterTrap; simp only [hx, hw]; rfl

/-- A monitor call that the hart makes, of the function served, with an answer: entry, the function, the return (R67, R69). -/
theorem serveCall_ok (s : State) (h : HartId) (n : Nat) (f : Hart → State → CallResult) (u : State) (v : Word)
    (h1 : inCall (s.hart h) = false) (h2 : isMonCall (s.hart h) = true) (h3 : ((s.hart h).gx 17).toNat = n)
    (hf : f ((monitorEntry h s).hart h) (monitorEntry h s) = (u, .ok v)) :
    serveCall h n f s = leaveSecure h (u.modHart h fun y => (((y.setX 10 0).setC 0x341 (y.c 0x341 + 4)).setX 11 v)) := by
  unfold serveCall; simp only [h1, h2]; rw [if_neg (by simp), if_neg (by simp [h3])]
  simp only [Bool.false_eq_true, if_false, hf]

end Sys2Proof.Machine
end

