-- ==== Sys2Proof/Laws/Issue.lean ====
section
/-! SUPPORT. The offers of an issue handshake: a hart with nothing left of an earlier handshake goes on with nothing, and an offer
that is not made takes no slot. -/

namespace Sys2Proof.Machine

open Sys2Proof

theorem runRest_one {h : HartId} {s : State} {i : IssueInstr} {r : List IssueInstr} (h1 : (s.hart h).rest = i :: r) (h2 : hartRuns s h = true) :
    runRest h 1 s = actHart h (doItem h i) s := by
  simp only [runRest, h1, h2, if_true, ite_self]

theorem goOn_idle {h : HartId} {s : State} (h1 : (s.hart h).rest = []) : goOn h s = s := by
  simp [goOn, h1, runRest]

theorem goOn_core {c : CoreId} {s : State} (h1 : ∀ t, t < 4 → (s.hart (coreHart c t)).rest = []) :
    (upto 4).foldl (fun a t => goOn (coreHart c t) a) s = s := by
  have hu : upto 4 = [0, 1, 2, 3] := by decide
  simp [hu, goOn_idle (h1 0 (by omega)), goOn_idle (h1 1 (by omega)), goOn_idle (h1 2 (by omega)), goOn_idle (h1 3 (by omega))]

theorem considerHart_none (h : HartId) (a : Slots) : considerHart h none a = a := rfl

theorem secondOffer_none {f : Nat → Option IssueInstr} {a : Slots} (h : ∀ k, f k = none) : secondOffer f a = a := by
  unfold secondOffer; split
  · rw [h]; simp [considerHart_none]
  · rfl

end Sys2Proof.Machine
end

