-- ==== Sys2Proof/Laws/Package.lean ====
section
/-! SUPPORT. Settling the package (harts released, domain resets ended, the fuse read finished) leaves the pkg, fab,
pkt and pin registers that the admission of Sleeves writes. -/

namespace Sys2Proof.Machine

open Sys2Proof

theorem foldl_inv {α β : Type} (P : α → Prop) (f : α → β → α) (h : ∀ a b, P a → P (f a b)) : ∀ (l : List β) (a : α), P a → P (l.foldl f a)
  | [], _, p => p
  | b :: r, a, p => foldl_inv P f h r (f a b) (h a b p)

/-- The part of the state that no settling of the package changes. -/
def pkgView (s : State) := (s.pkg.dieFuse, s.pkg.fuseRead, s.pkg.excl, s.fab, s.pkg.domLock, s.pkg.cfgErr, s.pkg.dom, s.pkg.wa, s.pkg.waLock, s.pkg.waImp)

/-- The same with the Pocket and the pins. -/
def pkgReportView (s : State) := (pkgView s, s.pkt, s.coh.haTmoF, s.coh.slTmoF, s.pins)

theorem settleRelease_view (s : State) : pkgReportView (settleRelease s) = pkgReportView s := by
  unfold settleRelease
  exact foldl_inv (fun a => pkgReportView a = pkgReportView s) _ (fun a b h => by
    split
    · rw [← h]; rfl
    · exact h) _ _ rfl

theorem settleDomReset_view (s : State) : pkgReportView (settleDomReset s) = pkgReportView s := by
  unfold settleDomReset
  exact foldl_inv (fun a => pkgReportView a = pkgReportView s) _ (fun a b h => by
    dsimp only; split
    · rw [← h]; rfl
    · exact h) _ _ rfl

theorem settleFuse_view (s : State) : pkgReportView (settleFuse s) = pkgReportView s := by
  unfold settleFuse; split <;> rfl

theorem settle_view (s : State) : pkgReportView (settleRelease (settleDomReset (settleFuse s))) = pkgReportView s := by
  rw [settleRelease_view, settleDomReset_view, settleFuse_view]

end Sys2Proof.Machine
end

