-- ==== Sys2Proof/Laws/Pocket.lean ====
section
/-! SUPPORT. What a report to the Pocket does to its ingress queue. -/

namespace Sys2Proof.Machine

/-- Where a report goes: the last queued record, the last record of the ring, a shared entry, a reserved entry, or nowhere (R406, R407). -/
theorem pktIngress_cases (r : Report) (now : Nat) (p : Pkt) :
    (∃ e, (countCls r p).queue.getLast? = some e ∧ e.rpt = r ∧ pktIngress r now p =
      { countCls r p with queue := (countCls r p).queue.dropLast ++ [{ e with count := e.count + 1 }] }) ∨
    (∃ g, (countCls r p).queue = [] ∧ (countCls r p).ring.getLast? = some g ∧ g.rpt = r ∧ pktIngress r now p =
      foldLast 1 g (countCls r p)) ∨
    pktIngress r now p = pktNew r now (countCls r p) := by
  unfold pktIngress; dsimp only
  split
  · rename_i e he; split
    · rename_i hc; exact .inl ⟨e, he, hc.1, rfl⟩
    · exact .inr (.inr rfl)
  · rename_i he
    have he' : (countCls r p).queue = [] := List.getLast?_eq_none_iff.mp he
    split
    · rename_i g hg; split
      · rename_i hc; exact .inr (.inl ⟨g, he', hg, hc.1, rfl⟩)
      · exact .inr (.inr rfl)
    · exact .inr (.inr rfl)

/-- A new record takes a shared entry, the reserved entry of its class, or is dropped (R407). -/
theorem pktNew_cases (r : Report) (now : Nat) (p : Pkt) :
    (pktOcc p - pktRsv p < 48 ∧ pktNew r now p = pktEnqueue r now 1 false p) ∨
    (48 ≤ pktOcc p - pktRsv p ∧ (p.queue.any fun e => e.rsvd && srcCls e.rpt == srcCls r) = true ∧ pktNew r now p = pktDrop r now p) ∨
    (48 ≤ pktOcc p - pktRsv p ∧ (p.queue.any fun e => e.rsvd && srcCls e.rpt == srcCls r) = false ∧
      pktNew r now p = pktEnqueue r now 1 true p) := by
  unfold pktNew; split
  · exact .inl ⟨by assumption, rfl⟩
  · rename_i h; split
    · rename_i h2; exact .inr (.inl ⟨by omega, h2, rfl⟩)
    · rename_i h2; exact .inr (.inr ⟨by omega, by simpa using h2, rfl⟩)

/-- A report of a class below 1 or above 4 is not counted; no report changes anything of the queue or the ring by being counted. -/
theorem countCls_queue (r : Report) (p : Pkt) : (countCls r p).queue = p.queue ∧ (countCls r p).ring = p.ring := by
  unfold countCls; split <;> exact ⟨rfl, rfl⟩

end Sys2Proof.Machine
end

