-- ==== Sys2Proof/Tests/Slice0.lean ====
section
/-! SUPPORT. The tests: ill-formed commands are refused by the well-formedness check, every hypothesis of a statement is met by a
concrete state and operands, and single steps whose results the spec states. -/

set_option Elab.async false
set_option maxRecDepth 4000

namespace Sys2Proof.Tests

open Sys2Proof Sys2Proof.Machine

/-! ### States the tests use: a present Sleeve 0 with one hart, in the forms the witnesses need -/

def demoHart : Hart := { Hart.reset with inReset := false, sec := false, pc := 0x80000000 }
def demoState (x : Hart) : State :=
  { State.reset with
    pkg := { Pkg.reset with fuseDone := true, excl := [(0, 0)], dieFuse := [(0, 0xFFFFF <<< 156)] }
    harts := [(0, x)] }
def demoInd (p : Bool) : Checkpoint := ⟨0x80000000, p, 0x80000010, 0, [], false, none, 4, 0⟩
def demoSec : Hart := { demoHart with sec := true }
def demoXl : Xl := ⟨0x1200040, 0, false, [], [], [], [], false⟩
def demoUser : Hart :=
  { demoHart with
    priv := 1
    csr := [(0x180, 0x9000000000000000), (0x30A, 0x4000000000000000), (0x3A0, 0x1F), (0x3B0, 0x003FFFFFFFFFFFFF),
      (0x5D0, 0x200000010001000F), (0x5D8, 0x10001)] }
def demoDram (x : Hart) : State :=
  { demoState x with
    dram := { Dram.reset with mapLock := true, top := 0x200000000 }
    cloak := { Cloak.reset with hemAddr := 0x800 } }
def demoNc : Xl := ⟨0x100010040, 1, false, [], [], [⟨0, 0, 0, false, 0, 0x100010000, 16, 0x100010000, 0xCF, 1, false, 16⟩], [], false⟩
def demoCoh (c : Coh) : State := { demoState demoHart with coh := c }
def demoStor (x : Stor) : State := { demoState demoHart with stor := x }
def demoSess : Session := ⟨7, 2, ⟨0, 0⟩, [], [], 0, 0, 0, 4, [], 0, 0, 600⟩
def demoAdp (x : Adp) : State := { demoState demoHart with adp := x }
def demoBoot0 : State := { State.reset with pins := { Pins.reset with inReset := false } }

/-! ### A command that is not well-formed is refused by the check -/

theorem test_fuseRead_ill : Instr.wellFormed (.fuseRead [] []) = false := by decide

theorem test_compressed_byte_load_ill : Instr.wellFormed (.load 0 .signed .b1 5 0 true []) = false := by decide

theorem test_compressed_byte_store_ill : Instr.wellFormed (.store 0 .int .b1 5 0 true []) = false := by decide

theorem test_inboundMemWrite_ill : Instr.wellFormed (.inboundMemWrite ⟨0, 0, 0x100, none, false, false, 0, false⟩ (List.replicate 513 0) false) = false := by decide

theorem test_inboundMemRead_ill : Instr.wellFormed (.inboundMemRead ⟨0, 0, 0x100, none, false, false, 0, false⟩ 4097 []) = false := by decide

theorem test_dramBringupStart_ill : Instr.wellFormed (.dramBringupStart [1]) = false := by decide

theorem test_flashBringupDone_ill : Instr.wellFormed (.flashBringupDone []) = false := by decide

theorem test_thermalSensorSample_ill : Instr.wellFormed (.thermalSensorSample [25000]) = false := by decide

theorem test_flashTempSample_ill : Instr.wellFormed (.flashTempSample 0 [some 40]) = false := by decide

theorem test_bistStepDone_ill : Instr.wellFormed (.bistStepDone 0 [1, 2]) = false := by decide

theorem test_sectoken_ill : Instr.wellFormed (.sectoken [0]) = false := by decide

/-! ### Words, reset, the queue -/

theorem test_no_word_spells_a_command : decodeTableWord 32 0x13 = none := rfl

theorem test_reset_runs_the_front_command :
    step { State.reset with pending := [.resetNLow, .resetNHigh] } = exec .resetNLow { State.reset with pending := [.resetNHigh] } := rfl

theorem test_idle_step_counts_10ns : step State.reset = .next { State.reset with time := 1 } :=
  congrArg Host.Outcome.next (by decide +kernel : idle State.reset = _)

/-- R130: an address whose only set bit is 12 has home agent 1; bit 48 reaches bit 0 as well. -/
theorem test_home_agent : homeAgent (0x1000 / 64) = 1 ∧ homeAgent (0x1000000001000 / 64) = 0 ∧ homeAgent (0x3F000 / 64) = 63 := by decide

/-- R31: hart 3's machine-level file and its guest file 2. -/
theorem test_interrupt_file_pages : imsicAt 0x3004 = some (3, 0, 4) ∧ imsicAt (0x400000 + 3 * 0x8000 + 2 * 0x1000) = some (3, 3, 0) := by decide

/-- R27: hart 961 would be the thirteenth Sleeve's; hart 100 is thread 0 of core 5 of Sleeve 1. -/
theorem test_hart_id : hartSleeve 100 = 1 ∧ hartCore 100 % 20 = 5 ∧ hartThread 100 = 0 := by decide

/-- R42: x0 reads as zero after a write. -/
theorem test_x0 : (Hart.reset.setX 0 7).gx 0 = 0 := by decide

/-! ### StepRunsTheFrontCommand: its hypotheses are met -/

theorem wit_StepRunsTheFrontCommand : State.reset.pending = [] ∧ State.reset.fab.mesh.flights = [] ∧ State.reset.fab.passed = [] ∧
    State.reset.belt.passed = [] ∧ (∀ k, k < 12 → bandUp State.reset k = false) ∧ State.reset.coh.queue = [] ∧
    State.reset.coh.late = [] ∧ State.reset.coh.txns = [] := by decide

/-! ### WellFormedCommandsAnswer: its hypotheses are met -/

theorem wit_WellFormedCommandsAnswer : ∃ t, exec .resetNHigh State.reset = .next t := ⟨_, rfl⟩

/-! ### StepKeepsTheQueueWellFormed: its hypotheses are met -/

theorem wit_StepKeepsTheQueueWellFormed : ∃ s : State, queueOk s = true ∧ s.pending = [.resetNLow, .resetNHigh] :=
  ⟨{ State.reset with pending := [.resetNLow, .resetNHigh] }, by decide, rfl⟩

/-! ### SparseTablesAreCanonicalMemories: its hypotheses are met -/

theorem wit_SparseTablesAreCanonicalMemories :
    tabWf (0 : LineData) (tabSet (tabSet [] 0 7 5) 0 3 9) = true ∧ tabGet (tabSet (tabSet [] 0 7 5) 0 3 (9 : LineData)) 0 7 = 5 ∧
    tabSet (tabSet (tabSet [] 0 7 5) 0 3 9) 0 7 (0 : LineData) = tabSet [] 0 3 9 ∧ tabWf (0 : Word) (tabSet [] 0 2 1) = true := by decide +kernel

/-! ### PackageResetConditions: its hypotheses are met -/

theorem wit_PackageResetConditions :
    (∃ s : State, s.pls.step ≠ 0) ∧ (∃ s : State, s.pls.step = 0 ∧ s.pins.inReset = true ∧ Rail.vddVest ∉ s.pins.railBad ∧ s.pwr.pk3 = false) ∧
    (∃ s : State, s.pls.step = 0 ∧ s.pins.inReset = false) ∧ (∃ s : State, Rail.vinSlv 4 ∉ s.pins.railBad) :=
  ⟨⟨{ State.reset with pls := { State.reset.pls with step := 3 } }, by decide +kernel⟩, ⟨State.reset, by decide +kernel⟩,
   ⟨{ State.reset with pins := { State.reset.pins with inReset := false } }, by decide +kernel⟩, ⟨State.reset, by decide +kernel⟩⟩

/-! ### ResetCauseIsTheFirstEvent: its hypotheses are met -/

theorem wit_ResetCauseIsTheFirstEvent : ∃ (s : State) (c : Nat) (b : Bool), s.pins.inReset = true ∧ resetHeld s = false ∧
    [(0, s.pins.evPor), (1, s.pins.evWdt), (4, s.pins.evThm), (3, s.pins.evPf), (2, s.pins.evPk3), (5, s.pins.evRstN)].find? (·.2)
      = some (c, b) :=
  ⟨{ State.reset with pins := { State.reset.pins with evPor := false, evThm := true, evPk3 := true } }, 4, true, by decide +kernel⟩

/-! ### DomainAndWorkaroundLocks: its hypotheses are met -/

theorem wit_DomainAndWorkaroundLocks : (∃ s : State, agentRuns s (.mc .e) = true ∧ s.pkg.domLock = true) ∧
    (∃ (s : State) (v : Word), agentRuns s (.mc .e) = true ∧ s.pkg.domLock = false ∧ bit v 63 = false) ∧
    (∃ (s : State) (v : Word), agentRuns s (.mc .e) = true ∧ s.pkg.domLock = false ∧ bit v 63 = true ∧ domValidate s (fld v 0 24) ≠ 0) ∧
    (∃ (s : State) (v : Word), agentRuns s (.mc .e) = true ∧ s.pkg.domLock = false ∧ bit v 63 = true ∧ domValidate s (fld v 0 24) = 0) ∧
    (∃ (s : State) (k : SleeveId), agentRuns s (.mc .e) = true ∧ s.pkg.waLock.getLsbD k = true) ∧ (∃ (s : State) (k : SleeveId), agentRuns s (.mc .e) = true ∧ s.pkg.waLock.getLsbD k = false) :=
  ⟨⟨{ State.reset with pkg := { Pkg.reset with domLock := true } }, by decide⟩, ⟨State.reset, 5, by decide⟩,
   ⟨State.reset, 0x8000000000000000, by decide⟩,
   ⟨{ State.reset with pkg := { Pkg.reset with fuseDone := true, excl := [(0, 0)] } }, 0x8000000000000000, by decide⟩,
   ⟨{ State.reset with pkg := { Pkg.reset with waLock := 8 } }, 3, by decide⟩, ⟨State.reset, 11, by decide⟩⟩

/-! ### FuseReadAndAdmission: its hypotheses are met -/

theorem wit_FuseReadAndAdmission :
    (∃ (s : State) (bl : List (BitVec 256)) (wa : List (BitVec 63)), bl.length = 13 ∧ wa.length = 12 ∧ s.pkg.fuseRead = false ∧
      vestFuseOk (bl.getD 12 0) = false) ∧
    (∃ (s : State) (bl : List (BitVec 256)) (wa : List (BitVec 63)), bl.length = 13 ∧ wa.length = 12 ∧ s.pkg.fuseRead = false ∧
      vestFuseOk (bl.getD 12 0) = true) :=
  ⟨⟨State.reset, List.replicate 13 0, List.replicate 12 0, by decide +kernel⟩,
   ⟨State.reset, List.replicate 12 0 ++ [92883150195399664206193949614055226377050828458830516790967102339546565574656],
     List.replicate 12 0, by decide +kernel⟩⟩

/-! ### CuffTraining: its hypotheses are met -/

theorem wit_CuffTraining :
    (∃ (s : State) (k : SleeveId), (s.cuff k).step ∉ [0, 5, 7, 8]) ∧
    (∃ (s : State) (k : SleeveId), (s.cuff k).step = 5 ∧ (laneRepair s ⟨0, 0, 3, 0⟩).1 ≠ 0) ∧
    (∃ (s : State) (k : SleeveId), (s.cuff k).step = 7 ∧ versionSel (fuseVmap (fuseOf s 12)) (fuseVmap (fuseOf s k)) ≠ 0) ∧
    (∃ (s : State) (k : SleeveId), (s.cuff k).step ≠ 0 ∧ (s.cuff k).attempt < 3) ∧
    (∃ (s : State) (k : SleeveId), (s.cuff k).step ≠ 0 ∧ 3 ≤ (s.cuff k).attempt ∧ (s.cuff k).isRetrain = false) ∧
    (∃ (s : State) (k : SleeveId), (s.cuff k).step ≠ 0 ∧ 3 ≤ (s.cuff k).attempt ∧ (s.cuff k).isRetrain = true) ∧
    (∃ (s : State) (k : SleeveId), (s.cuff k).state = 3 ∧ (laneRepair s ⟨0, 0, 0, 0⟩).1 ≠ 0) ∧
    (∃ (s : State) (k : SleeveId), (s.cuff k).state = 3 ∧ (laneRepair s ⟨0, 1, 3, 0⟩).1 = 0) ∧ (∃ (s : State) (k : SleeveId), (s.cuff k).state ≠ 3) ∧
    (∃ (s : State) (k : SleeveId), slvPresent s k = true ∧ -1 ≤ (s.cuff k).tbOff + 1 ∧ (s.cuff k).tbOff + 1 ≤ 1) ∧
    (∃ (s : State) (k : SleeveId), slvPresent s k = true ∧ ((s.cuff k).tbOff + 2 < -1 ∨ 1 < (s.cuff k).tbOff + 2)) :=
  ⟨⟨State.reset.setCuff 2 { Cuff.reset with step := 4 }, 2, by decide +kernel⟩,
   ⟨State.reset.setCuff 2 { Cuff.reset with step := 5 }, 2, by decide +kernel⟩,
   ⟨{ State.reset.setCuff 2 { Cuff.reset with step := 7 } with
      pkg := { Pkg.reset with dieFuse := [(2, 1 <<< 72), (12, 1 <<< 72)] } }, 2, by decide +kernel⟩,
   ⟨State.reset.setCuff 2 { Cuff.reset with step := 4 }, 2, by decide +kernel⟩,
   ⟨State.reset.setCuff 2 { Cuff.reset with step := 4, attempt := 3 }, 2, by decide +kernel⟩,
   ⟨State.reset.setCuff 2 { Cuff.reset with step := 4, attempt := 3, isRetrain := true }, 2, by decide +kernel⟩,
   ⟨State.reset.setCuff 2 { Cuff.reset with state := 3 }, 2, by decide +kernel⟩,
   ⟨State.reset.setCuff 2 { Cuff.reset with state := 3 }, 2, by decide +kernel⟩, ⟨State.reset, 2, by decide +kernel⟩,
   ⟨{ State.reset with pkg := { Pkg.reset with excl := [(2, 0)] } }, 2, by decide +kernel⟩,
   ⟨{ State.reset with pkg := { Pkg.reset with excl := [(2, 0)] } }, 2, by decide +kernel⟩⟩

/-! ### CuffFlitsAndReplay: its hypotheses are met -/

def demoFlit (seq : BitVec 12) : Flit := { flitOf 0 with slotVc := 0x1FFFFF, seq := seq }
/-- A data flit of empty slots, SEQ 0, with its CRC. -/
def demoBits : BitVec 2048 := 0x1FFFFF <<< 1931
def demoBitsCrc : BitVec 2048 := demoBits ||| (crc32c ((upto 252).map fun i => demoBits.extractLsb' (8 * i) 8)).setWidth 2048 <<< 2016
def demoCuff (c : Cuff) : State := State.reset.setCuff 2 { c with state := 2 }
theorem wit_CuffDataFlit : bandUp (demoCuff Cuff.reset) 2 = true ∧ (flitOf demoBitsCrc).ftype = 0 ∧ flitCrcOk demoBitsCrc = true ∧
    (sendData? (flitOf demoBitsCrc) (endOf ((demoCuff Cuff.reset).cuff 2) false)).isSome = true := by decide +kernel
theorem wit_CuffFlits :
    (demoFlit 0).seq = LinkEnd.reset.nextSeq ∧ LinkEnd.reset.again = none ∧ LinkEnd.reset.replay.length < 128 ∧
      (∀ v, v < 6 → (demoFlit 0).units v ≤ linkCredit LinkEnd.reset v) ∧
    (demoFlit 9).seq ≠ LinkEnd.reset.nextSeq ∧ sendData? (demoFlit 9) LinkEnd.reset = none ∧
    (demoFlit 0).seq = (endOf ((demoCuff Cuff.reset).cuff 2) true).expSeq ∧ (demoFlit 9).seq ≠ (endOf ((demoCuff Cuff.reset).cuff 2) true).expSeq := by
  decide +kernel
theorem wit_CuffControlFlit : flitCrcOk 0 = false := by decide +kernel
theorem wit_CuffFlitsAndReplay :
    (∃ (s : State) (k : SleeveId) (q : Flit), bandUp s k = true ∧ (endOf (s.cuff k) true).replay = q :: [] ∧
      (endOf (s.cuff k) true).replays < (s.cuff k).retryLimF.toNat) ∧
    (∃ (s : State) (k : SleeveId) (q : Flit), bandUp s k = true ∧ (endOf (s.cuff k) true).replay = q :: [] ∧
      (s.cuff k).retryLimF.toNat ≤ (endOf (s.cuff k) true).replays) ∧
    (∃ (s : State) (k : SleeveId), (s.cuff k).state = 2 ∧ 2 ≤ (tabGet s.pkg.cuffVer 0 k).toNat) ∧
    (∃ (s : State) (k : SleeveId), (s.cuff k).step ≠ 7) :=
  ⟨⟨demoCuff { Cuff.reset with vest := { LinkEnd.reset with replay := [demoFlit 5] } }, 2, demoFlit 5, by decide +kernel⟩,
   ⟨demoCuff { Cuff.reset with vest := { LinkEnd.reset with replay := [demoFlit 5], replays := 8 } }, 2, demoFlit 5, by decide +kernel⟩,
   ⟨{ demoCuff Cuff.reset with pkg := { Pkg.reset with cuffVer := [(2, 2)] } }, 2, by decide +kernel⟩,
   ⟨State.reset, 0, by decide +kernel⟩⟩

/-! ### HomeAgentOfAnAddress: its hypotheses are met -/

theorem wit_HomeAgentOfAnAddress : ∃ a b : BitVec 52, a ≠ b ∧ a.toNat / 4096 = b.toNat / 4096 ∧ homeAgent (a.toNat / 64) = 63 :=
  ⟨0xFC0000000040, 0xFC0000000FFF, by decide +kernel⟩

/-! ### InterruptFileAddresses: its hypotheses are met -/

theorem wit_InterruptFileAddresses : ∃ (s : State) (h : Nat), h < 960 ∧ hartPresent s h = true := ⟨demoState demoHart, 0, by decide +kernel⟩

/-! ### BranchesAndPrediction: its hypotheses are met -/

theorem wit_BranchesAndPrediction :
    (∃ (s : State) (h : HartId), (s.hart h).fetchStop = true ∧ (s.hart h).indir = none ∧ bit ((s.hart h).c 0x7B0) 2 = false) ∧
    (∃ (s : State) (h : HartId) (c : Checkpoint), (s.hart h).indir = some c ∧ c.pred = false ∧ bit ((s.hart h).c 0x7B0) 2 = false) ∧
    (∃ (s : State) (h : HartId) (w : Word) (c : Checkpoint), (s.hart h).indir = some c ∧ c.pred = true ∧ c.target ≠ w ∧
      bit ((s.hart h).c 0x7B0) 2 = false) ∧
    (∃ (s : State) (h : HartId), hartIssues s h = true ∧ csrCheck (s.hart h) 0x5C0 true = none ∧
      ((s.hart h).priv = 3 ∨ bit ((s.hart h).c 0x5C0) 7 = false) ∧ redirect (s.hart h).virt 0x5C0 = 0x5C0) ∧
    (∃ (s : State) (h : HartId), hartIssues s h = true ∧ csrCheck (s.hart h) 0x5C1 true = none ∧
      redirect (s.hart h).virt 0x5C1 = 0x5C1) :=
  ⟨⟨demoState { demoHart with fetchStop := true }, 0, by decide +kernel⟩,
   ⟨demoState { demoHart with indir := some (demoInd false) }, 0, demoInd false, by decide +kernel⟩,
   ⟨demoState { demoHart with indir := some (demoInd true) }, 0, 0x80000020, demoInd true, by decide +kernel⟩,
   ⟨demoState demoHart, 0, by decide +kernel⟩, ⟨demoState demoHart, 0, by decide +kernel⟩⟩

theorem wit_IssueHandshake :
    (∃ (s : State) (c : CoreId), handshakes s c = true ∧ (∀ t, t < 4 → (s.hart (coreHart c t)).rest = []) ∧ canOffer s (4 * c) = true ∧
      (fetchInstr (coreHart c 0) 4 (handshakeCounts false c (· == 0) s)).2 = true ∧ ((handshakeCounts false c (· == 0) s).hart (coreHart c 0)).indir = none) ∧
    (∃ (s : State) (h : HartId), (s.hart h).rest = .compute .alu false (some ⟨false, 5, 7⟩) 0 :: [] ∧
      hartRuns s h = true ∧ (s.hart h).prog = false ∧
      bit ((s.hart h).c 0x7B0) 2 = false) :=
  ⟨⟨demoState { demoHart with pc := 0x1200000, sec := true }, 0, by decide +kernel⟩,
   ⟨demoState { demoHart with rest := [.compute .alu false (some ⟨false, 5, 7⟩) 0] }, 0, by decide +kernel⟩⟩

/-! ### TrapEntryToMachineMode: its hypotheses are met -/

theorem wit_TrapEntryToMachineMode : ∃ (s : State) (h : Nat), (s.hart h).indir = none ∧ tabRising (s.hart h).csr = true ∧
    (s.hart h).inReset = false ∧ (plainTrap 11 0 false).walk = none := ⟨demoState demoHart, 0, by decide +kernel⟩

/-! ### TrapsReturnsAndWaits: its hypotheses are met -/

theorem wit_TrapsReturnsAndWaits :
    (∃ (s : State) (h : HartId), hartIssues s h = true ∧ isMonCall (s.hart h) = false ∧ (s.hart h).priv = 3 ∧ (s.hart h).virt = false ∧
      bit ((s.hart h).c 0x7B0) 15 = false ∧ (s.hart h).sec = false ∧ (s.hart h).haltPend = false) ∧
    (∃ (s : State) (h : HartId), hartIssues s h = true ∧ isMonCall (s.hart h) = true) ∧
    (∃ (s : State) (h : HartId), hartIssues s h = true ∧ (s.hart h).sec = true ∧ (s.hart h).priv = 3) ∧
    (∃ (s : State) (h : HartId), hartIssues s h = true ∧ (s.hart h).priv = 1 ∧ (s.hart h).virt = false ∧ (s.hart h).sec = false ∧
      bit ((s.hart h).c 0x300) 22 = false) ∧
    (∃ (s : State) (h : HartId), hartPresent s h = true ∧ (s.hart h).inReset = false ∧ (s.hart h).halted = false ∧
      (s.hart h).stopped = false ∧ (s.slvPwr (hartSleeve h)).sl = 0 ∧ takeable (s.hart h) = some (7, 3)) :=
  ⟨⟨demoState demoHart, 0, by decide +kernel⟩, ⟨demoState { demoHart with priv := 1, x := [(17, 0x09000000)] }, 0, by decide +kernel⟩,
   ⟨demoState demoSec, 0, by decide +kernel⟩, ⟨demoState { demoHart with priv := 1 }, 0, by decide +kernel⟩,
   ⟨demoState { demoHart with mtip := true, csr := [(0x300, 8), (0x304, 0x80)] }, 0, by decide +kernel⟩⟩

/-! ### CachedLoadsAndStores: its hypotheses are met -/

theorem wit_GeneralRegisters : ∃ (x : Hart) (r : XReg), tabWf 0 x.x = true ∧ r ≠ 0 := ⟨{ Hart.reset with x := [(3, 4)] }, 3, by decide +kernel⟩

theorem wit_CachedLoadsAndStores :
    (∃ (s : State) (h : HartId) (z : Size) (va : Word) (t : Xl), hartIssues s h = true ∧ loadIll (s.hart h) .signed z = false ∧
      storeIll (s.hart h) .int z = false ∧ va.toNat % sizeBytes z = 0 ∧ reach h (accOf (s.hart h) .load) va.toNat s = (s, some t) ∧
      reach h (accOf (s.hart h) .store) va.toNat s = (s, some t) ∧ pathOf s h t = .cached ∧
      ((linesOf t.pa (sizeBytes z)).any fun m => lineWait s (hartCore h) m false) = false ∧
      ((linesOf t.pa (sizeBytes z)).any fun m => lineWait s (hartCore h) m true) = false ∧
      (∀ own, coreMeter true h ((linesOf t.pa (sizeBytes z)).filter fun m => lineMiss s (hartCore h) m own).length
        (.load h .signed z 5 va false []) s = (s, true)) ∧
      firstPoison (cachedRead h t.pa (sizeBytes z) s).2 = none) ∧
    (∃ (s : State) (h : HartId) (z : Size) (va : Word) (t : Xl), hartIssues s h = true ∧
      reach h (accOf (s.hart h) .load) va.toNat s = (s, some t) ∧ pathOf s h t = .plain ∧ va.toNat % sizeBytes z = 0 ∧
      lineBusy s (t.pa / 64) = false ∧ coreMeter true h 1 (.load h .signed z 5 va false []) s = (s, true) ∧
      (cohRead s t.pa (sizeBytes z)).2 = false) :=
  ⟨⟨demoState demoSec, 0, .b8, 0x1200040, demoXl, by decide +kernel⟩,
   ⟨demoDram demoUser, 0, .b8, 0x100010040, demoNc, by decide +kernel⟩⟩

/-! ### AtomicsAndReservations: its hypotheses are met -/

theorem wit_AtomicsAndReservations :
    (∃ (s : State) (h : HartId) (va : Word) (t : Xl), hartIssues s h = true ∧ va.toNat % 8 = 0 ∧
      reach h (accOf (s.hart h) .load) va.toNat s = (s, some t) ∧ reach h (accOf (s.hart h) .store) va.toNat s = (s, some t) ∧
      pathOf s h t = .cached ∧ lineWait s (hartCore h) (t.pa / 64) false = false ∧ (s.hart h).resv ≠ some (t.pa / 64) ∧
      coreMeter true h (if lineMiss s (hartCore h) (t.pa / 64) false then 1 else 0) (.lr h true 5 va []) s = (s, true) ∧
      (readLine h (t.pa / 64) (countMiss h (t.pa / 64) s)).2.poison = false) ∧
    (∃ (s : State) (h : HartId) (va : Word) (t : Xl), hartIssues s h = true ∧ va.toNat % 8 = 0 ∧
      reach h (accOf (s.hart h) .store) va.toNat s = (s, some t) ∧ pathOf s h t = .cached ∧ (s.hart h).resv = some (t.pa / 64) ∧
      lineWait s (hartCore h) (t.pa / 64) true = false ∧
      coreMeter true h (if lineMiss s (hartCore h) (t.pa / 64) true then 1 else 0) (.sc h true 5 6 va []) s = (s, true) ∧
      amoPlace s h .add t = .l1d ∧ (ownLine h (t.pa / 64) (countMiss h (t.pa / 64) s)).2.poison = false) :=
  ⟨⟨demoState demoSec, 0, 0x1200040, demoXl, by decide +kernel⟩,
   ⟨demoState { demoSec with resv := some 0x48001 }, 0, 0x1200040, demoXl, by decide +kernel⟩⟩

/-! ### CacheBlockOperations: its hypotheses are met -/

def demoCbo (v : Word) : Hart := { demoSec with x := [(10, 0x1200040), (11, v)] }
theorem wit_CacheBlockOperations :
    (∃ (s : State) (h : HartId) (r q : XReg) (t : Xl), hartIssues s h = true ∧ cboGate (s.hart h) 6 1 = .go false ∧
      cboGate (s.hart h) 4 2 = .go false ∧ cboGate (s.hart h) 7 1 = .go false ∧ ((s.hart h).gx q).toNat < 4 ∧
      reachCbo h ((s.hart h).gx r).toNat s = (s, some t) ∧ cacheable (regionOf s t.pa) = true ∧ homeWait s (t.pa / 64) = false ∧
      reach h (accOf (s.hart h) .store) ((s.hart h).gx r).toNat s = (s, some t) ∧ pathOf s h t = .cached ∧
      lineWait s (hartCore h) (t.pa / 64) true = false ∧
      coreMeter true h (if lineMiss s (hartCore h) (t.pa / 64) true then 1 else 0) (.cboZero h r) s = (s, true)) ∧
    (∃ (s : State) (h : HartId) (r : XReg) (e : CLine), hartIssues s h = true ∧ (s.hart h).priv = 3 ∧ cswOk ((s.hart h).gx r) = true ∧
      fld ((s.hart h).gx r) 0 2 = 0 ∧ tabFind ((fld ((s.hart h).gx r) 16 12).toNat * 8 + (fld ((s.hart h).gx r) 4 4).toNat)
        (s.core (hartCore h)).l1d.ents = some e ∧ lineBusy s e.line = false) ∧
    (∃ (s : State) (h : HartId) (r : XReg), hartIssues s h = true ∧ (s.hart h).priv = 3 ∧ cswOk ((s.hart h).gx r) = true ∧
      fld ((s.hart h).gx r) 0 2 = 2 ∧ tabFind ((fld ((s.hart h).gx r) 16 12).toNat * 8 + (fld ((s.hart h).gx r) 4 4).toNat)
        (s.core (hartCore h)).l2.ents = none) :=
  ⟨⟨demoState (demoCbo 2), 0, 10, 11, demoXl, by decide +kernel⟩,
   ⟨{ demoState (demoCbo 0) with cores := [(0, { Core.reset with l1d := ⟨[(0, ⟨0x48000, .M, 5, false⟩)], []⟩ })] }, 0, 11,
     ⟨0x48000, .M, 5, false⟩, by decide +kernel⟩,
   ⟨demoState (demoCbo 2), 0, 11, by decide +kernel⟩⟩

/-! ### FencesPrefetchesAndBlockRegisters: its hypotheses are met -/

theorem wit_FencesPrefetchesAndBlockRegisters :
    (∃ (s : State) (h : HartId), hartIssues s h = true ∧ (s.hart h).virt = false ∧ (s.hart h).priv ≠ 0 ∧
      ((s.hart h).priv = 1 → bit ((s.hart h).c 0x300) 20 = false) ∧ csrCheck (s.hart h) (blkCsr (.blk 7)) true = none ∧
      csrCheck (s.hart h) (blkCsr (.hblkpa 0)) true = none) ∧
    (∃ (s : State) (c : CoreId) (i n : Nat) (e : Stream) (h : HartId), (s.core c).str1[i]? = some e ∧ h = Fin.ofNat 960 e.hart ∧
      n / 64 = e.page ∧ corePresent s c = true ∧ tabGet s.pwr.coreSl 0 c.val = 0 ∧ (s.hart h).heldAcc = false ∧
      refusal s (.hart h) (s.hart h).sec false (64 * n) = none ∧ pathOf s h ⟨64 * n, 0, false, [], [], [], [], false⟩ = .cached ∧
      lineWait s c n false = false ∧
      (if lineMiss s c n false then injTake c (agentTid s (.hart h)) 1 s else (s, none)) = (s, none)) :=
  ⟨⟨demoState { demoHart with priv := 1 }, 0, by decide +kernel⟩,
   ⟨{ demoState demoSec with cores := [(0, { Core.reset with str1 := [⟨0x1200, 0, 0x48000, 1, 2⟩] })] }, 0, 0, 0x48001,
     ⟨0x1200, 0, 0x48000, 1, 2⟩, 0, by decide +kernel⟩⟩

/-! ### HemWatchdogAndMonitorReady: its hypotheses are met -/

def demoCloak (c : Cloak) : State := { State.reset with cloak := c }
theorem wit_HemWatchdogAndMonitorReady :
    (∃ (s : State) (a : Agent), agentRuns s a = true ∧ agentSecure s a = true ∧ s.cloak.hemLock = false ∧ s.cloak.hemBusy = true) ∧
    (∃ (s : State) (a : Agent) (v : Word), agentRuns s a = true ∧ agentSecure s a = true ∧ s.cloak.hemLock = false ∧ s.cloak.hemBusy = false ∧
      (fld v 21 31).toNat * 0x200000 < 0x100000000) ∧
    (∃ (s : State) (a : Agent) (v : Word), agentRuns s a = true ∧ agentSecure s a = true ∧ s.cloak.hemLock = false ∧ s.cloak.hemBusy = false ∧
      0x60100000000 < (fld v 21 31).toNat * 0x200000) ∧
    (∃ (s : State) (a : Agent) (v : Word), agentRuns s a = true ∧ agentSecure s a = true ∧ s.cloak.hemLock = false ∧ s.cloak.hemBusy = false ∧
      0x100000000 ≤ (fld v 21 31).toNat * 0x200000 ∧ (fld v 21 31).toNat * 0x200000 ≤ 0x60100000000 ∧
      hemConflict s ((fld v 21 31).toNat * 0x200000) = false ∧ s.cloak.wdtLock = false ∧ s.cloak.wdtStep = 0 ∧ bit v 63 = false) ∧
    (∃ (s : State) (a : Agent), agentRuns s a = true ∧ agentSecure s a = true ∧ s.cloak.hemLock = true) ∧
    (∃ (s : State) (o : BitVec 31), s.cloak.hemOld = some o ∧ s.coh.txns = [] ∧ s.coh.dir = []) ∧
    (∃ s : State, s.cloak.wdtEn = true ∧ s.cloak.wdtStep = 0 ∧ s.pls.step = 0 ∧ s.stor.st = 0) ∧
    (∃ s : State, s.cloak.wdtStep ≠ 0) :=
  ⟨⟨demoCloak { Cloak.reset with hemBusy := true }, .cloak, by decide +kernel⟩, ⟨State.reset, .cloak, 0xFFFFFFFF, by decide +kernel⟩,
   ⟨State.reset, .cloak, 0x60100200000, by decide +kernel⟩, ⟨State.reset, .cloak, 0x60100000000, by decide +kernel⟩,
   ⟨demoCloak { Cloak.reset with hemLock := true }, .cloak, by decide +kernel⟩,
   ⟨demoCloak { Cloak.reset with hemOld := some 0x800 }, 0x800, by decide +kernel⟩,
   ⟨demoCloak { Cloak.reset with wdtEn := true }, by decide +kernel⟩, ⟨demoCloak { Cloak.reset with wdtStep := 3 }, by decide +kernel⟩⟩

/-! ### MonitorCallsAnswer: its hypotheses are met -/

def demoCall (n : Word) : State :=
  demoDram { demoHart with priv := 1, x := [(10, 0x100010000), (11, 2000), (12, 0x100020000), (17, n)] }
theorem wit_MonitorCallsAnswer :
    (∀ n ∈ [0x09000000, 0x09000001, 0x09000010, 0x09000011, 0x09000020, 0x09000030], ∃ (s : State) (h : HartId),
      hartIssues s h = true ∧ inCall (s.hart h) = false ∧ isMonCall (s.hart h) = true ∧ ((s.hart h).gx 17).toNat = n ∧
      (s.hart h).gx 16 = 0) ∧
    (∃ (s : State) (h : HartId), ((s.hart h).gx 17).toNat = 0x09000010 ∧ 1936 ≤ ((s.hart h).gx 11).toNat ∧
      bufferOk (monitorEntry h s) h ((s.hart h).gx 10).toNat ((s.hart h).gx 11).toNat = true ∧
      bufferOk (monitorEntry h s) h ((s.hart h).gx 12).toNat 32 = true ∧
      (cohRead (monitorEntry h s).draw ((s.hart h).gx 12).toNat 32).2 = false) :=
  ⟨by
    intro n hn
    refine ⟨demoCall (BitVec.ofNat 64 n), 0, ?_⟩
    simp only [List.mem_cons, List.not_mem_nil, or_false] at hn
    rcases hn with rfl | rfl | rfl | rfl | rfl | rfl <;> decide +kernel,
   ⟨demoCall 0x09000010, 0, by decide +kernel⟩⟩

/-! ### ClaimsAndPowerRequests: its hypotheses are met -/

def demoPwr (p : Pwr) : State := { State.reset with pwr := p }
theorem wit_ClaimsAndPowerRequests :
    (∃ (s : State) (b : BlockId), b.val ≠ 33 ∧ s.thm.shut = 0 ∧ 12 ≤ b.val ∧ blockState s b ≠ 0 ∧ (∀ o ∈ s.pwr.deferred, o.block ≠ b) ∧
      (∀ o ∈ s.pwr.ops, o.block ≠ b) ∧ secOnly s b .dictionary = false) ∧
    (∃ (s : State) (b : BlockId) (w : Requester), opNamed s 1 b = true ∧ opNamed s 2 b = true ∧ s.thm.shut = 0 ∧ 12 ≤ b.val ∧
      opCond s 1 b = true ∧ opCond s 2 b = true ∧ blockState s b = 0 ∧ blockState s b ≠ 2 ∧ (reqNormal s w = false ∨ claimed s b = false) ∧
      (∀ o ∈ s.pwr.ops, o.block ≠ b)) ∧
    (∃ (s : State) (b : BlockId) (w : Requester), opNamed s 2 b = true ∧ s.thm.shut = 0 ∧ 12 ≤ b.val ∧ opCond s 2 b = true ∧
      blockState s b ≠ 2 ∧ reqNormal s w = true ∧ claimed s b = true ∧ (∀ o ∈ s.pwr.deferred, o.block ≠ b)) ∧
    (∃ (s : State) (b : BlockId) (o : PwrOp), s.pwr.ops.find? (fun o => o.block = b) = some o ∧ opWaits o s = false) ∧
    (∃ (s : State) (a : Agent), agentRuns s a = true ∧ agentSecure s a = true ∧ s.pwr.deferred = [] ∧ s.pwr.offPending = none) ∧
    (∃ (s : State) (a : Agent) (o : PwrOp), agentRuns s a = true ∧ agentSecure s a = true ∧ s.pwr.deferred = [o] ∧ s.pwr.offPending = none) ∧
    (∃ (s : State) (b : BlockId) (o : PwrOp), s.pwr.deferred.find? (fun o => o.block = b) = some o) ∧
    (∃ s : State, s.pwr.pk3 = true ∧ ¬ (s.pwr.pk3Cause = 2 ∧ 80000 ≤ maxReading s.thm.sensors)) :=
  ⟨⟨demoPwr { Pwr.reset with blocks := [(34, 2)] }, 34, by decide +kernel⟩, ⟨State.reset, 14, .dictionary, by decide +kernel⟩,
   ⟨{ State.reset with cloak := { Cloak.reset with claim := 0x400000000 } }, 34, .dictionary, by decide +kernel⟩,
   ⟨demoPwr { Pwr.reset with ops := [⟨14, 2, .lace, none, 0⟩] }, 14, ⟨14, 2, .lace, none, 0⟩, by decide +kernel⟩,
   ⟨State.reset, .cloak, by decide +kernel⟩,
   ⟨demoPwr { Pwr.reset with deferred := [⟨14, 2, .lace, none, 0⟩] }, .cloak, ⟨14, 2, .lace, none, 0⟩, by decide +kernel⟩,
   ⟨demoPwr { Pwr.reset with deferred := [⟨14, 2, .lace, none, 0⟩] }, 14, ⟨14, 2, .lace, none, 0⟩, by decide +kernel⟩,
   ⟨demoPwr { Pwr.reset with pk3 := true, pk3Cause := 1 }, by decide +kernel⟩⟩

/-! ### PerformanceSleepAndWake: its hypotheses are met -/

theorem wit_PerformanceSleepAndWake :
    (∃ (s : State) (k : SleeveId), (s.slvPwr k).busy = true) ∧
    (∃ (s : State) (m : BitVec 10), m.toNat ≤ s.pwr.limit.toNat ∧ s.pwr.limit.toNat * 95 ≤ m.toNat * 100) ∧
    (∃ (s : State) (m : BitVec 10) (k : Nat), s.pwr.limit.toNat < m.toNat ∧
      limiterPick { s with pwr := { s.pwr with meas := m, belowCnt := 0 } } = some k) ∧
    (∃ (s : State) (sc : Scope) (st : Nat), opOn sc s.pwr.entering = false ∧ opOn sc s.pwr.waking = false ∧
      (stateList s sc).find? (fun st => entryOk s sc st && stateFits s sc st && decide (stateOf s sc < st)) = some st) ∧
    (∃ (s : State) (sc : Scope) (o : SleepOp), s.pwr.entering.find? (fun o => o.scope = sc) = some o ∧ unacked s sc = false) ∧
    (∃ (s : State) (c : CoreId), opOn (.core c) s.pwr.waking = false ∧ s.pwr.entering = [] ∧ coreSl s c ≠ 0 ∧ (s.slvPwr (Fin.ofNat 12 (c.val / 20)).val).sl = 0 ∧ s.pwr.pk = 0 ∧
      nextEvent s (.core c) = some (77, 1)) ∧
    (∃ (s : State) (sc : Scope) (o : SleepOp), s.pwr.waking.find? (fun o => o.scope = sc) = some o ∧ packageFirst s sc = false ∧ stepWaits o s = false ∧ o.step < 4) ∧
    (∃ (s : State) (sc : Scope) (o : SleepOp), s.pwr.waking.find? (fun o => o.scope = sc) = some o ∧ packageFirst s sc = false ∧ stepWaits o s = false ∧ 4 ≤ o.step) :=
  ⟨⟨State.reset.setSlvPwr 3 { SlvPwr.reset with busy := true }, 3, by decide +kernel⟩, ⟨State.reset, 740, by decide +kernel⟩,
   ⟨demoState demoHart, 800, 0, by decide +kernel⟩,
   ⟨{ demoState demoHart with harts := [(0, { demoHart with wfi := true }), (1, { demoHart with wfi := true }),
      (2, { demoHart with wfi := true }), (3, { demoHart with wfi := true })] }, .core 0, 2, by decide +kernel⟩,
   ⟨demoPwr { Pwr.reset with entering := [⟨.core 3, 2, 0, 0⟩] }, .core 3, ⟨.core 3, 2, 0, 0⟩, by decide +kernel⟩,
   ⟨{ demoPwr { Pwr.reset with coreSl := [(3, 2)] } with mtimecmp := [(12, 77)] }, 3, by decide +kernel⟩,
   ⟨demoPwr { Pwr.reset with waking := [⟨.core 3, 2, 1, 1⟩] }, .core 3, ⟨.core 3, 2, 1, 1⟩, by decide +kernel⟩,
   ⟨demoPwr { Pwr.reset with waking := [⟨.core 3, 2, 4, 1⟩] }, .core 3, ⟨.core 3, 2, 4, 1⟩, by decide +kernel⟩⟩

theorem wit_LacePort : (∃ s : State, s.lace.dyn = none) ∧ (∃ (s : State) (a : BitVec 7), laceHit s a = true) ∧
    (∃ (s : State) (a : BitVec 7), laceHit s a = false) ∧
    (∃ s : State, s.lace.lacepd = true ∧ s.thm.shut = 0 ∧ s.stor.st = 0 ∧ claimsOn s = 0) :=
  ⟨⟨State.reset, by decide +kernel⟩, ⟨State.reset, 0x58, by decide +kernel⟩, ⟨State.reset, 0x20, by decide +kernel⟩,
   ⟨{ State.reset with lace := { Lace.reset with lacepd := true } }, by decide +kernel⟩⟩
/-- The premise that the sender runs is met by the Cloak in every state, so in the states of the witness beside it. -/
theorem wit_PerformanceSleepAndWake_runs : ∀ s : State, agentRuns s .cloak = true := fun _ => rfl

/-! ### SleeveCacheControl: its hypotheses are met -/

def demoSlv (v : Slv) : State := { demoState demoHart with slvs := [(0, v)] }
theorem wit_SleeveCacheControl :
    (∃ (s : State) (a : Agent) (k : SleeveId), agentRuns s a = true ∧ refusal s a (agentSecure s a) true (0x20000000 + 0x4000000 * k.val + 0x20000) = none ∧
      refusal s a (agentSecure s a) true (0x20000000 + 0x4000000 * k.val + 0x20008) = none ∧ (s.slv k).busy = true) ∧
    (∃ (s : State) (a : Agent) (k : SleeveId) (v : Word), agentRuns s a = true ∧ refusal s a (agentSecure s a) true (0x20000000 + 0x4000000 * k.val + 0x20000) = none ∧
      refusal s a (agentSecure s a) true (0x20000000 + 0x4000000 * k.val + 0x20008) = none ∧ (s.slv k).busy = false ∧ 8 < (fld v 0 4).toNat) ∧
    (∃ (s : State) (a : Agent) (k : SleeveId) (v : Word), agentRuns s a = true ∧ refusal s a (agentSecure s a) true (0x20000000 + 0x4000000 * k.val + 0x20000) = none ∧
      refusal s a (agentSecure s a) true (0x20000000 + 0x4000000 * k.val + 0x20008) = none ∧ (s.slv k).busy = false ∧ fld v 0 4 ≠ 0 ∧ featOn s 2 = false ∧
      fld v 0 16 ≠ 0 ∧ featOn s 3 = false) ∧
    (∃ (s : State) (a : Agent) (k : SleeveId) (v : Word), agentRuns s a = true ∧ refusal s a (agentSecure s a) true (0x20000000 + 0x4000000 * k.val + 0x20000) = none ∧
      refusal s a (agentSecure s a) true (0x20000000 + 0x4000000 * k.val + 0x20008) = none ∧ (s.slv k).busy = false ∧ (fld v 0 4).toNat ≤ 8 ∧
      featOn s 2 = true ∧ fld v 0 4 ≠ (s.slv k).count ∧ featOn s 3 = true ∧ fld v 0 16 &&& (s.slv k).scr = 0 ∧
      fld v 0 16 ≠ (s.slv k).wayReq) ∧
    (∃ (s : State) (a : Agent) (k : SleeveId) (v : Word), agentRuns s a = true ∧ refusal s a (agentSecure s a) true (0x20000000 + 0x4000000 * k.val + 0x20000) = none ∧
      refusal s a (agentSecure s a) true (0x20000000 + 0x4000000 * k.val + 0x20008) = none ∧ (s.slv k).busy = false ∧ featOn s 3 = true ∧
      fld v 0 16 &&& (s.slv k).scr ≠ 0) ∧
    (∀ st ∈ [1, 2, 3], ∃ (s : State) (k : SleeveId), (s.slv k).scr = scratchWays 0 ∧ (s.slv k).convTo = some 8 ∧ (s.slv k).convStep = st) ∧
    (∃ (s : State) (k : SleeveId), (s.slv k).scr = scratchWays 8 ∧ (s.slv k).convTo = some 0 ∧ (s.slv k).convStep = 1) ∧
    (∃ (s : State) (k : SleeveId), (s.slv k).scr = scratchWays 8 ∧ (s.slv k).convTo = some 0 ∧ (s.slv k).convStep = 2) ∧
    (∃ (s : State) (k : SleeveId), (s.slv k).scr = scratchWays 0 ∧ (s.slv k).convTo = some 0) ∧
    (∃ (s : State) (k : SleeveId) (w : Fin 16), (s.slv k).convTo = none ∧ (s.slv k).drain.getLsbD w = true ∧ (s.slv k).powerUp = 0) ∧
    (∃ (s : State) (k : SleeveId) (w : Fin 16), (s.slv k).powerUp.getLsbD w = true) ∧
    (∃ (s : State) (a : Agent) (k : SleeveId), agentRuns s a = true ∧ refusal s a (agentSecure s a) true (0x20000000 + 0x4000000 * k.val + 0x20000) = some .reserved ∧
      refusal s a (agentSecure s a) true (0x20000000 + 0x4000000 * k.val + 0x20008) = some .reserved) ∧
    (∃ (s : State) (b : MergeBank) (e : MergeEnt), (mergeEnts s b).find? (fun e => e.word == 0x4400000) = some e) :=
  ⟨⟨demoSlv { Slv.reset with busy := true }, .hart 0, 0, by decide +kernel⟩, ⟨demoSlv Slv.reset, .hart 0, 0, 15, by decide +kernel⟩,
   ⟨demoSlv Slv.reset, .hart 0, 0, 1, by decide +kernel⟩,
   ⟨{ demoSlv Slv.reset with pkg := { (demoSlv Slv.reset).pkg with dieFuse := [(0, 0xFFFFF <<< 156 ||| 0xC <<< 124), (12, 0xC <<< 124)] } }, .hart 0, 0,
     8, by decide +kernel⟩,
   ⟨{ demoSlv { Slv.reset with scr := 0x8000 } with
      pkg := { (demoSlv Slv.reset).pkg with dieFuse := [(0, 0xFFFFF <<< 156 ||| 0xC <<< 124), (12, 0xC <<< 124)] } }, .hart 0, 0, 0x8000, by decide +kernel⟩,
   by
    intro st hs
    exact ⟨demoSlv { Slv.reset with convTo := some 8, convStep := st }, 0, by
      simp only [List.mem_cons, List.not_mem_nil, or_false] at hs
      rcases hs with rfl | rfl | rfl <;> decide +kernel⟩,
   ⟨demoSlv { Slv.reset with scr := 0xFF00, convTo := some 0, convStep := 1 }, 0, by decide +kernel⟩,
   ⟨demoSlv { Slv.reset with scr := 0xFF00, convTo := some 0, convStep := 2 }, 0, by decide +kernel⟩,
   ⟨demoSlv { Slv.reset with convTo := some 0 }, 0, by decide +kernel⟩,
   ⟨demoSlv { Slv.reset with drain := 2 }, 0, 1, by decide +kernel⟩, ⟨demoSlv { Slv.reset with powerUp := 2 }, 0, 1, by decide +kernel⟩,
   ⟨demoSlv Slv.reset, .hart 0, 5, by decide +kernel⟩,
   ⟨demoSlv { Slv.reset with merge := [(0, [⟨0x4400000, 1, 7⟩])] }, .slice 0 0, ⟨0x4400000, 1, 7⟩, by decide +kernel⟩⟩

/-! ### CoherenceRequestsOfCachingAgents: its hypotheses are met -/

theorem wit_CoherenceRequestsOfCachingAgents :
    let ok (c : Nat) (l : Level) (a n : Nat) (s : State) : Prop := mayAsk s (mkMsg l c a homeEnd n) = true ∧ msgBlocked (mkMsg l c a homeEnd n) s = false ∧
      agentOff s l a = false ∧ cacheable (regionOf s (64 * n)) = true ∧ domainOk s (domainOf s 0) (64 * n) = true
    (∃ (s : State) (n : Nat) (t : Txn), ok 1 .vest 0 n s ∧ txnOf s .vest n = some t ∧ t.wait ≠ []) ∧
    (∃ (s : State) (n : Nat), ok 1 .vest 0 n s ∧ ok 2 .vest 0 n s ∧ ok 3 .vest 0 n s ∧ s.coh.queue = [] ∧ txnOf s .vest n = none ∧ dirSt s n = some (.x 1)) ∧
    (∃ (s : State) (n o : Nat) (p : List Nat), ok 1 .vest 0 n s ∧ ok 2 .vest 0 n s ∧ ok 3 .vest 0 n s ∧ ok 4 .vest 0 n s ∧
      s.coh.queue = [] ∧ txnOf s .vest n = none ∧ dirSt s n = some (.p p) ∧ nearestSlv s 0 (p.filter (· ≠ 0)) = some o ∧
      o ∈ p.filter (· ≠ 0) ∧ p.contains 0 = true ∧ p.filter (· ≠ 0) ≠ []) ∧
    (∃ (s : State) (n : Nat), ok 1 (.sleeve 0) 0 n s ∧ ok 2 (.sleeve 0) 0 n s ∧
      s.coh.queue = [] ∧ txnOf s (.sleeve 0) n = none ∧ scratchSlv n = none ∧ slvLevel s 0 n = .I ∧
      homeRoom (let u := takeMsg (mkMsg (.sleeve 0) 1 0 homeEnd n) s; { u with coh := { u.coh with mshr := [⟨.sleeve 0, 0, n, false, false, true, false, false, []⟩] } })
        (.sleeve 0) n = true ∧
      mshrOf (takeMsg (mkMsg (.sleeve 0) 1 0 homeEnd n) s) (.sleeve 0) 0 n = none) ∧
    (∃ (s : State) (n : Nat), mayAsk s (mkMsg .vest 1 3 homeEnd n) = true ∧ msgBlocked (mkMsg .vest 1 3 homeEnd n) s = false ∧ agentOff s .vest 3 = true) :=
  ⟨⟨demoCoh { Coh.reset with txns := [{ mkTxn .vest .rds 0 0x40000 none 0 with wait := [1] }] }, 0x40000,
     { mkTxn .vest .rds 0 0x40000 none 0 with wait := [1] }, by decide +kernel⟩,
   ⟨demoCoh { Coh.reset with dir := [(dirSetOf 0x40000 * 16, ⟨0x40000, .x 1⟩)] }, 0x40000, by decide +kernel⟩,
   ⟨demoCoh { Coh.reset with dir := [(dirSetOf 0x40000 * 16, ⟨0x40000, .p [0, 1]⟩)] }, 0x40000, 1, [0, 1], by decide +kernel⟩,
   ⟨demoCoh Coh.reset, 0x40000, by decide +kernel⟩, ⟨demoCoh Coh.reset, 0x40000, by decide +kernel⟩⟩

/-! ### RequestsOfAgentsThatCacheNothing: its hypotheses are met -/

theorem wit_RequestsOfAgentsThatCacheNothing :
    (∃ (s : State) (w : Agent) (n : Nat) (k : UcsKind), agentRuns s w = true ∧ refusal s w (agentSecure s w) false (64 * n) = some k ∧
      refusal s w (agentSecure s w) true (64 * n) = some k) ∧
    (∃ (s : State) (w : Agent) (n : Nat), agentRuns s w = true ∧ refusal s w (agentSecure s w) true (64 * n) = none ∧
      refusal s w (agentSecure s w) false (64 * n) = none ∧ regionOf s (64 * n) = .sram ∧ s.coh.queue = [] ∧ txnOf s .vest n = none ∧
      dirFind s n = none ∧ dirSt s n = none ∧ linePoison s n = false ∧ dirRoom s n = true ∧ txnHeld s n = false) ∧
    (∃ (s : State) (w : Agent) (n o : Nat), agentRuns s w = true ∧ refusal s w (agentSecure s w) true (64 * n) = none ∧
      refusal s w (agentSecure s w) false (64 * n) = none ∧ regionOf s (64 * n) = .sram ∧ s.coh.queue = [] ∧ txnOf s .vest n = none ∧
      dirSt s n = some (.x o) ∧ dirHolders s n 12 ≠ []) ∧
    (∃ (s : State) (w : Agent) (n : Nat) (t : Txn), agentRuns s w = true ∧ refusal s w (agentSecure s w) false (64 * n) = none ∧ regionOf s (64 * n) = .sram ∧
      txnOf s .vest n = some t ∧ t.wait ≠ []) :=
  ⟨⟨demoCoh Coh.reset, .iommu, 0x1000, .reserved, by decide +kernel⟩, ⟨demoCoh Coh.reset, .cloak, 0x40000, by decide +kernel⟩,
   ⟨demoCoh { Coh.reset with dir := [(dirSetOf 0x40000 * 16, ⟨0x40000, .x 1⟩)] }, .cloak, 0x40000, 1, by decide +kernel⟩,
   ⟨demoCoh { Coh.reset with txns := [{ mkTxn .vest .rds 0 0x40000 none 0 with wait := [1] }] }, .cloak, 0x40000,
     { mkTxn .vest .rds 0 0x40000 none 0 with wait := [1] }, by decide +kernel⟩⟩

/-! ### SnoopsAndAnswers: its hypotheses are met -/

def demoLine (st : LState) : State :=
  { demoCoh Coh.reset with
    slvs := [(0, { Slv.reset with sf := [(sfSetOf 0x40000 * 12, ⟨0x40000, st, 1, none⟩)] })]
    cores := [(0, { Core.reset with l2 := { Core.reset.l2 with ents := [(l2T 0x40000 * 8, ⟨0x40000, st, 5, false⟩)] } })] }
def snpDemo (c : Nat) : Msg := { mkMsg .vest c homeEnd 0 0x40000 with req := if c = 0x12 then farEnd + agentNode .cloak else 0 }
def snpOk (s : State) (m : Msg) : Bool := !msgBlocked m s && !agentOff (takeMsg m s) m.lvl m.dest && !snoopHeld (takeMsg m s) m
theorem wit_SnoopsAndAnswers :
    (∀ c ∈ [0x10, 0x11, 0x12, 0x13], ∃ (s : State) (d : (LineData × Bool) × Bool), snpOk s (snpDemo c) = true ∧
      mshrOf (takeMsg (snpDemo c) s) .vest 0 0x40000 = none ∧ wbOut (takeMsg (snpDemo c) s) .vest 0 0x40000 = none ∧
      agentData (takeMsg (snpDemo c) s) .vest 0 0x40000 = some d) ∧
    (∃ s : State, snpOk s (snpDemo 0x10) = true ∧ mshrOf (takeMsg (snpDemo 0x10) s) .vest 0 0x40000 = none ∧
      wbOut (takeMsg (snpDemo 0x10) s) .vest 0 0x40000 = none ∧ agentData (takeMsg (snpDemo 0x10) s) .vest 0 0x40000 = none) ∧
    (∀ b ∈ [true, false], ∃ (s : State) (w : WbOut), snpOk s (snpDemo 0x13) = true ∧ mshrOf (takeMsg (snpDemo 0x13) s) .vest 0 0x40000 = none ∧
      wbOut (takeMsg (snpDemo 0x13) s) .vest 0 0x40000 = some w ∧ w.left = b ∧ agentData (takeMsg (snpDemo 0x13) s) .vest 0 0x40000 = none) ∧
    (∃ (s : State) (m : Mshr), snpOk s (snpDemo 0x13) = true ∧ mshrOf (takeMsg (snpDemo 0x13) s) .vest 0 0x40000 = some m ∧ s.coh.queue = []) ∧
    (∃ s : State, msgBlocked (snpDemo 0x13) s = false ∧ agentOff (takeMsg (snpDemo 0x13) s) .vest 0 = false ∧
      snoopHeld (takeMsg (snpDemo 0x13) s) (snpDemo 0x13) = true) ∧
    (∀ c ∈ [0x20, 0x21, 0x22, 0x23, 0x24, 0x31], ∃ (s : State) (n : Nat) (t : Txn), t.wait.contains 0 = true ∧
      txnOf (takeMsg (toHome .vest c 0 n) s) .vest n = some t ∧ msgBlocked (toHome .vest c 0 n) s = false ∧
      agentOff (takeMsg (toHome .vest c 0 n) s) .vest 0 = false) ∧
    (∃ (s : State) (n : Nat), txnOf (takeMsg (toHome .vest 0x23 0 n) s) .vest n = none ∧ msgBlocked (toHome .vest 0x23 0 n) s = false ∧
      agentOff (takeMsg (toHome .vest 0x23 0 n) s) .vest 0 = false) :=
  ⟨by
    intro c hc
    refine ⟨demoLine .M, ((5, false), true), ?_⟩
    simp only [List.mem_cons, List.not_mem_nil, or_false] at hc
    rcases hc with rfl | rfl | rfl | rfl <;> decide +kernel,
   ⟨demoCoh Coh.reset, by decide +kernel⟩,
   by
    intro b hb
    refine ⟨demoCoh { Coh.reset with wbs := [⟨.vest, 0, 0x40000, b, b⟩] }, ⟨.vest, 0, 0x40000, b, b⟩, ?_⟩
    simp only [List.mem_cons, List.not_mem_nil, or_false] at hb
    rcases hb with rfl | rfl <;> decide +kernel,
   ⟨demoCoh { Coh.reset with mshr := [⟨.vest, 0, 0x40000, false, false, true, false, false, []⟩] },
     ⟨.vest, 0, 0x40000, false, false, true, false, false, []⟩, by decide +kernel⟩,
   ⟨demoState { demoHart with resv := some 0x40000, resHold := some 0 }, by decide +kernel⟩,
   by
    intro c hc
    refine ⟨demoCoh { Coh.reset with txns := [{ mkTxn .vest .wrfull 99 0x40000 (some .cloak) 0 with wait := [0, 1] }] }, 0x40000,
      { mkTxn .vest .wrfull 99 0x40000 (some .cloak) 0 with wait := [0, 1] }, ?_⟩
    simp only [List.mem_cons, List.not_mem_nil, or_false] at hc
    rcases hc with rfl | rfl | rfl | rfl | rfl | rfl <;> decide +kernel,
   ⟨demoCoh Coh.reset, 0x40000, by decide +kernel⟩⟩

/-! ### WriteBacksDataAndCompletions: its hypotheses are met -/

theorem wit_WriteBacksDataAndCompletions :
    let here (s : State) (m : Msg) : Prop := msgBlocked m s = false ∧ agentOff (takeMsg m s) m.lvl m.fr = false
    let came (s : State) (m : Msg) : Prop := msgBlocked m s = false ∧ agentOff (takeMsg m s) m.lvl m.dest = false
    (∀ c ∈ [0x32, 0x33, 0x25], ∃ (s : State) (n : Nat), here s (toHome .vest c 0 n) ∧ txnOf s .vest n = none) ∧
    (∀ c ∈ [0x32, 0x25], ∃ (s : State) (n : Nat) (t : Txn), here s (toHome .vest c 0 n) ∧
      txnOf (takeMsg (toHome .vest c 0 n) s) .vest n = some t ∧ t.wait.contains 0 = true) ∧
    (∃ (s : State) (n : Nat), here s (toHome (.sleeve 0) 0x32 0 n) ∧ txnOf s (.sleeve 0) n = none) ∧
    (∃ (s : State) (n : Nat), here s { toHome (.sleeve 0) 0x34 0 n with data := 5 } ∧
      (sfCores (noteWb (.sleeve 0) 0 n true false (takeMsg { toHome (.sleeve 0) 0x34 0 n with data := 5 } s)) 0 n).contains 0 = true) ∧
    (∃ (s : State) (n : Nat), here s (toHome .vest 0x33 0 n) ∧ sfFind (l3Mod 0 n (fun e => { e with st := if e.st = .M then .E else e.st })
      (homeWbK 0 n 0 false (noteWb .vest 0 n true false (takeMsg (toHome .vest 0x33 0 n) s)))) 0 n = none) ∧
    (∃ (s : State) (n : Nat) (x : Nat × SfEnt) (u : State), here s (toHome .vest 0x33 0 n) ∧ u = (l3Mod 0 n (fun e => { e with st := if e.st = .M then .E else e.st })
      (homeWbK 0 n 0 false (noteWb .vest 0 n true false (takeMsg (toHome .vest 0x33 0 n) s)))) ∧ sfFind u 0 n = some x ∧ x.2.st = .M ∧ ownerCore u 0 n = none) ∧
    (∀ b ∈ [true, false], ∃ (s : State) (n : Nat) (w : WbOut), wbOut s .vest 0 n = some w ∧ w.wb = b ∧
      came s (toAgent .vest 0x27 0 n) ∧ came s (toAgent .vest 0x28 0 n)) ∧
    (∃ (s : State) (n : Nat), wbOut s .vest 0 n = none ∧ mshrOf (takeMsg (toAgent .vest 0x26 0 n) s) .vest 0 n = none ∧
      came s (toAgent .vest 0x27 0 n) ∧ came s (toAgent .vest 0x26 0 n)) ∧
    (∃ (s : State) (n : Nat) (m : Mshr) (q : Msg), q = dataMsg s .vest 0 n .M 7 false ∧ msgBlocked q s = false ∧
      agentOff (takeMsg q s) .vest 0 = false ∧ mshrOf (takeMsg q s) .vest 0 n = some m ∧ m.needData = true) ∧
    (∃ (s : State) (n : Nat) (m : Mshr), came s (toAgent .vest 0x26 0 n) ∧ mshrOf (takeMsg (toAgent .vest 0x26 0 n) s) .vest 0 n = some m ∧ m.needCmp = true) ∧
    (∃ (s : State) (n : Nat), msgBlocked (toAgent .vest 0x26 5 n) s = false ∧ agentOff (takeMsg (toAgent .vest 0x26 5 n) s) .vest 5 = true) ∧
    (∃ (s : State) (n : Nat), msgBlocked (toAgent .vest 0x26 0 n) s = true) := by
  refine ⟨fun c hc => ⟨demoCoh Coh.reset, 0x40000, ?_⟩, fun c hc => ⟨demoCoh { Coh.reset with
      txns := [{ mkTxn .vest .wrfull 99 0x40000 (some .cloak) 0 with wait := [0, 1] }] }, 0x40000,
      { mkTxn .vest .wrfull 99 0x40000 (some .cloak) 0 with wait := [0, 1] }, ?_⟩, ⟨demoCoh Coh.reset, 0x40000, by decide +kernel⟩,
    ⟨demoLine .E, 0x40000, by decide +kernel⟩,
    ⟨demoCoh Coh.reset, 0x40000, by decide +kernel⟩,
    ⟨{ demoLine .M with cores := [] }, 0x40000, (sfSetOf 0x40000 * 12, ⟨0x40000, .M, 1, none⟩), _, by decide +kernel, rfl, by decide +kernel⟩,
    fun b hb => ⟨demoCoh { Coh.reset with wbs := [⟨.vest, 0, 0x40000, b, b⟩] }, 0x40000, ⟨.vest, 0, 0x40000, b, b⟩, ?_⟩,
    ⟨demoCoh Coh.reset, 0x40000, by decide +kernel⟩,
    ⟨demoCoh { Coh.reset with mshr := [⟨.vest, 0, 0x40000, true, false, true, true, false, []⟩] }, 0x40000,
      ⟨.vest, 0, 0x40000, true, false, true, true, false, []⟩, _, rfl, by decide +kernel⟩,
    ⟨demoCoh { Coh.reset with mshr := [⟨.vest, 0, 0x40000, true, false, true, true, false, []⟩] }, 0x40000,
      ⟨.vest, 0, 0x40000, true, false, true, true, false, []⟩, by decide +kernel⟩, ⟨demoCoh Coh.reset, 0x40000, by decide +kernel⟩,
    ⟨sendMsg (toAgent .vest 0x27 0 0x40000) (sendMsg (toAgent .vest 0x28 0 0x40000) (demoCoh Coh.reset)), 0x40000, by decide +kernel⟩⟩
  · simp only [List.mem_cons, List.not_mem_nil, or_false] at hc
    rcases hc with rfl | rfl | rfl <;> decide +kernel
  · simp only [List.mem_cons, List.not_mem_nil, or_false] at hc
    rcases hc with rfl | rfl <;> decide +kernel
  · simp only [List.mem_cons, List.not_mem_nil, or_false] at hb
    rcases hb with rfl | rfl <;> decide +kernel

/-! ### IoPacketsAtTargetsAndRequesters: its hypotheses are met -/

def demoPort (x : Port) (l : PLink) : State :=
  { demoState demoHart with pcie := { Pcie.reset with ports := [(0, x)], links := [(0, l)] } }
theorem wit_IoPacketsAtTargetsAndRequesters :
    let ok (u : State) (p : IoPkt) (w : Bool) : Prop := refusal u p.who (agentSecure u p.who) w p.addr = none
    let rd (s : State) (p : IoPkt) : Packet := ioPkt s 0x48 p 8 0 []
    let wr (c : Nat) (s : State) (p : IoPkt) : Packet := ioPkt s c p 8 0 (zeros 8)
    (∃ (s : State) (p : IoPkt) (k : UcsKind), pktBlocked s (rd s p) = false ∧ pktBlocked s (wr 0x40 s p) = false ∧
      refusal (pktTake (rd s p) s) p.who (agentSecure (pktTake (rd s p) s) p.who) false p.addr = some k ∧
      refusal (pktTake (wr 0x40 s p) s) p.who (agentSecure (pktTake (wr 0x40 s p) s) p.who) true p.addr = some k) ∧
    (∃ (s : State) (p : IoPkt) (h f o : Nat), pktBlocked s (rd s p) = false ∧ pktBlocked s (wr 0x40 s p) = false ∧
      ok (pktTake (rd s p) s) p false ∧ ok (pktTake (wr 0x40 s p) s) p true ∧
      regionOf (pktTake (wr 0x40 s p) s) p.addr = .imsic h f o ∧ hartFailed (pktTake (wr 0x40 s p) s) h = false) ∧
    (∃ (s : State) (p : IoPkt) (o : Nat), pktBlocked s (rd s p) = false ∧ pktBlocked s (wr 0x40 s p) = false ∧ pktBlocked s (wr 0x49 s p) = false ∧
      ok (pktTake (rd s p) s) p false ∧ ok (pktTake (wr 0x40 s p) s) p true ∧ ok (pktTake (wr 0x49 s p) s) p true ∧
      regionOf (pktTake (rd s p) s) p.addr = .vestMmio o ∧
      (mmioRead p.who ((regOf (.vestMmio o)).getD none) p.addr 8 (pktTake (rd s p) s)).isSome = true ∧
      (mmioWrite p.who ((regOf (.vestMmio o)).getD none) p.addr (zeros 8) (pktTake (wr 0x40 s p) s)).isSome = true) ∧
    (∃ (s : State) (p : IoPkt) (q : Nat), pktBlocked s (rd s p) = false ∧ pktBlocked s (wr 0x40 s p) = false ∧ pktBlocked s (wr 0x49 s p) = false ∧
      ok (pktTake (wr 0x49 s p) s) p true ∧ regionOf (pktTake (wr 0x49 s p) s) p.addr = .pcie q ∧ ownSpace p.addr = false ∧
      linkServes (pktTake (wr 0x49 s p) s) q (winLink s q p.addr) = true) ∧
    (∃ (s : State) (tag : BitVec 12) (w : Agent) (q a : Nat), waitingAt (pktTake (cplFor s tag w 0 []) s) tag w = some (q, a) ∧
      pktBlocked s (cplFor s tag w 0 []) = false ∧ (∀ h, w ≠ .hart h)) ∧
    (∃ (s : State) (tag : BitVec 12) (h : HartId) (q a : Nat), waitingAt (pktTake (cplFor s tag (.hart h) 1 []) s) tag (.hart h) = some (q, a) ∧
      pktBlocked s (cplFor s tag (.hart h) 1 []) = false ∧ pktBlocked s (cplFor s tag (.hart h) 0 [7]) = false) ∧
    (∃ (s : State) (tag : BitVec 12) (w : Agent), waitingAt (pktTake (cplFor s tag w 0 []) s) tag w = none ∧ pktBlocked s (cplFor s tag w 0 []) = false) ∧
    (∃ (s : State) (p : IoPkt), pktBlocked s (rd s p) = true) ∧
    (∃ (s : State) (a h f o : Nat) (v : BitVec 32), msiFlight s a v = none ∧ regionOf s a = .imsic h f o ∧ hartFailed s h = false) ∧
    (∃ (s : State) (a h f o : Nat) (v : BitVec 32), msiFlight s a v = none ∧ regionOf s a = .imsic h f o ∧ hartFailed s h = true) ∧
    (∃ (s : State) (a : Nat) (v : BitVec 32), msiFlight s a v = none ∧ regionOf s a = .reserved) ∧
    (∃ (s : State) (a h f o : Nat) (v : BitVec 32) (g : Flight), msiFlight s a v = some g ∧ pktBlocked s g.pkt = false ∧
      regionOf (pktTake g.pkt s) a = .imsic h f o ∧ hartFailed (pktTake g.pkt s) h = false) ∧
    (∃ (s : State) (pt : InjPoint) (a : Fin 256), s.fab.asked.contains (allowKey (pointNo pt) a) = true) ∧
    (∃ (s : State) (pt : InjPoint) (a : Fin 256), s.fab.asked.contains (allowKey (pointNo pt) a) = false) :=
  ⟨⟨demoState demoHart, ⟨.iommu, 0x40000, 1⟩, .reserved, by decide +kernel⟩,
   ⟨demoState demoHart, ⟨.iommu, 0x60000000, 1⟩, 0, 0, 0, by decide +kernel⟩,
   ⟨demoState demoHart, ⟨.iommu, 0x8210100, 1⟩, 0x210100, by decide +kernel⟩,
   ⟨demoPort Port.reset { PLink.reset with up := true, dpc := false }, ⟨.cloak, 0x80008000, 1⟩, 0, by decide +kernel⟩,
   ⟨demoPort { Port.reset with wait := [(1, (.cloak, 0x80008000))] } PLink.reset, 1, .cloak, 0, 0x80008000, by decide +kernel, by decide +kernel,
     by intro h; simp⟩,
   ⟨demoPort { Port.reset with wait := [(1, (.hart 0, 0x80008000))] } PLink.reset, 1, 0, 0, 0x80008000, by decide +kernel⟩,
   ⟨State.reset, 1, .cloak, by decide +kernel⟩,
   ⟨sendPacket (ioPkt State.reset 0x48 ⟨.iommu, 0x60000008, 2⟩ 8 0 []) State.reset, ⟨.iommu, 0x60000000, 1⟩, by decide +kernel⟩,
   ⟨demoState demoHart, 0x60000000, 0, 0, 0, 5, by decide +kernel⟩,
   ⟨{ demoState demoHart with coh := { Coh.reset with fstop := [(0, { FStop.reset with active := true })] } }, 0x60000000, 0, 0, 0, 5,
     by decide +kernel⟩,
   ⟨demoState demoHart, 0x40000, 5, by decide +kernel⟩,
   ⟨sendPacket (ioPacket State.reset 0x41 (.device 0 0 0) 0x60000000 4 0 0 (leBytes 4 5)) (demoState demoHart), 0x60000000, 0, 0, 0, 5,
     ⟨ioPacket State.reset 0x41 (.device 0 0 0) 0x60000000 4 0 0 (leBytes 4 5), .src, 0⟩, by decide +kernel⟩,
   ⟨{ State.reset with fab := { Fab.reset with asked := [allowKey 246 0] } }, .store, 0, by decide +kernel⟩,
   ⟨State.reset, .store, 0, by decide +kernel⟩⟩

/-! ### RegisterWrites: its hypotheses are met -/

theorem wit_RegisterWrites :
    (∃ (s : State) (w : Agent) (r : Reg) (o : Nat), agentRuns s w = true ∧ secureOff r = some o ∧ agentSecure s w = false) ∧
    (∃ (s : State) (w : Agent) (r : Reg) (o : Nat), agentRuns s w = true ∧ secureOff r = some o ∧ agentSecure s w = true) ∧
    (∃ (s : State) (r : Reg) (q : QId), agentRuns s .cloak = true ∧ pageOf r = some q) ∧
    (∃ (s : State) (h : HartId) (n : BitVec 12), agentRuns s (.hart h) = true ∧ hartIssues s h = true ∧ csrCheck (s.hart h) n.toNat true = none) ∧
    (∃ v : Word, 1 ≤ (fld v 0 8).toNat ∧ (fld v 0 8).toNat ≤ 64) ∧ (∃ v : Word, (fld v 0 8).toNat < 1) ∧
    (∃ v : Word, 64 < (fld v 0 8).toNat) ∧
    (∃ v : Word, 10 ≤ (fld v 16 16).toNat ∧ (fld v 16 16).toNat ≤ 10000 ∧ 1 ≤ (fld v 0 16).toNat ∧ (fld v 0 16).toNat ≤ 1000 ∧
      (fld v 0 16).toNat + 10 ≤ (fld v 16 16).toNat) ∧
    (∃ v : Word, (fld v 16 16).toNat < (fld v 0 16).toNat + 10) :=
  ⟨⟨State.reset, .mc .e, .hem, 0, by decide +kernel⟩, ⟨State.reset, .cloak, .hem, 0, by decide +kernel⟩, ⟨State.reset, .sqPush 3, 3, by decide +kernel⟩,
   ⟨demoState demoHart, 0, 0x340, by decide +kernel⟩, ⟨64, by decide⟩, ⟨0, by decide⟩, ⟨65, by decide⟩, ⟨0x140001, by decide⟩, ⟨0, by decide⟩⟩

/-! ### DramBringUpAndMap: its hypotheses are met -/

def demoChan (c : Chan) : State := { demoState demoHart with dram := { Dram.reset with chans := [(0, c)] } }
def demoDimm : Dimm := ⟨true, 4, 16, 1, 1, 16, 48, false, 0, 0⟩
theorem wit_DramBringUpAndMap :
    (∃ d : List (Fin 3), d.length = 12) ∧
    (∀ k ∈ [2, 7, 8], ∃ (s : State) (n : ChanId), (s.chan n).step = k ∧ (s.chan n).dpc.toNat ≤ 1) ∧
    (∃ (s : State) (n : ChanId), (s.chan n).step = 2 ∧ 1 < (s.chan n).dpc.toNat) ∧
    (∃ (s : State) (n : ChanId), (s.chan n).step = 3 ∧ configCause (s.chan n).spd.dimms ≠ 0) ∧
    (∃ (s : State) (n : ChanId) (d : Dimm) (l : List Dimm), (s.chan n).step = 3 ∧ configCause (s.chan n).spd.dimms = 0 ∧
      (s.chan n).spd.dimms = d :: l) ∧
    (∃ (s : State) (n : ChanId) (k : Nat), (s.chan n).step = k ∧ 4 ≤ k ∧ k ≤ 6) ∧
    (∃ (s : State) (n : ChanId), 5 ≤ (s.chan n).step ∧ (s.chan n).attempt < 3) ∧
    (∃ (s : State) (n : ChanId), 5 ≤ (s.chan n).step ∧ 3 ≤ (s.chan n).attempt) ∧
    (∃ (s : State) (n : ChanId), (s.chan n).state = 3) ∧ (∃ s : State, agentRuns s .cloak = true ∧ s.dram.mapLock = true) ∧
    (∃ (s : State) (v : Word), s.dram.mapLock = false ∧ bit v 63 = true ∧ mapValidate s (fld v 28 12) (bit v 9) ≠ 0) ∧
    (∃ (s : State) (v : Word), s.dram.mapLock = false ∧ bit v 63 = true ∧ s.dram.chLoaded = true ∧ (fld v 2 3).toNat < 5 ∧
      mapValidate s (fld v 28 12) (bit v 9) = 0) := by
  refine ⟨⟨List.replicate 12 1, by decide⟩, fun k hk => ⟨demoChan { Chan.reset with step := k, dpc := 1 }, 0, ?_⟩,
    ⟨demoChan { Chan.reset with step := 2, dpc := 2 }, 0, by decide +kernel⟩,
    ⟨demoChan { Chan.reset with step := 3, spd := ⟨[{ demoDimm with rdimm := false }], 0⟩ }, 0, by decide +kernel⟩,
    ⟨demoChan { Chan.reset with step := 3, spd := ⟨[demoDimm], 0⟩ }, 0, demoDimm, [], by decide +kernel⟩,
    ⟨demoChan { Chan.reset with step := 5 }, 0, 5, by decide +kernel⟩, ⟨demoChan { Chan.reset with step := 8, attempt := 2 }, 0, by decide +kernel⟩,
    ⟨demoChan { Chan.reset with step := 5, attempt := 3 }, 0, by decide +kernel⟩, ⟨demoChan { Chan.reset with state := 3 }, 0, by decide +kernel⟩,
    ⟨demoDram demoHart, by decide +kernel⟩, ⟨State.reset, 0x8000000000000000, by decide +kernel⟩,
    ⟨{ demoState demoHart with dram := { Dram.reset with chans := [(0, { Chan.reset with state := 3 })], chLoaded := true } },
      0x8000000010000000, by decide +kernel⟩⟩
  simp only [List.mem_cons, List.not_mem_nil, or_false] at hk
  rcases hk with rfl | rfl | rfl <;> decide +kernel

/-! ### InterleaveIsInvertible: its hypotheses are met -/

theorem wit_InterleaveIsInvertible : ∃ (g : Nat) (l : List Nat), 0 < g ∧ l.Nodup ∧ l ≠ [] := ⟨256, [0, 3, 5], by decide⟩

/-! ### DramServiceAndProtection: its hypotheses are met -/

theorem wit_DramServiceAndProtection :
    (∃ (s : State) (n : ChanId), (s.chan n).state ≠ 3 ∧ issues s n = false) ∧
    (∃ (s : State) (n : ChanId), (s.chan n).state = 3 ∧ 64 ≤ (s.chan n).rq.length) ∧
    (∃ (s : State) (n : ChanId), (s.chan n).state = 3 ∧ 64 ≤ (s.chan n).wq.length) ∧
    (∃ (s : State) (n : ChanId), (s.chan n).state = 3 ∧ selfRefresh s n = false ∧ (s.chan n).wq.length < 64 ∧ (s.chan n).rq.length < 64 ∧
      hitsWait (s.modChan n applyTh) n 1 2 = false) ∧
    (∃ (s : State) (n : ChanId), (s.chan n).state = 3 ∧ selfRefresh s n = false ∧
      hitsWait (s.modChan n applyTh) n 0 0 = true ∧ tabGet ((s.modChan n applyTh).chan n).postp 0 0 = 3) ∧
    (∃ (s : State) (n : ChanId), issues s n = true ∧ firstIdx isRead (s.chan n).reqs = some 1) ∧
    (∃ (s : State) (n i j : Nat) (e : DQEnt) (w : BitVec 64 × BitVec 512 × Bool), (s.chan n).reqs[i]? = some e ∧ e.rq.wr = some w ∧
      firstIdx (fun x : DQEnt => x.rq.loc == e.rq.loc) ((s.chan n).reqs.take i) = some j) ∧
    (∃ (s : State) (n : ChanId), (s.chan n).hotRec = true) ∧ (∃ (s : State) (n : ChanId), (s.chan n).hotRec = false) ∧
    (∃ (s : State) (n : ChanId), s.dram.scrubEn = true ∧ issues s n = true ∧ s.pls.pf = false) ∧
    (∃ l : List (Nat × Nat), l.length ≤ 32) :=
  ⟨⟨State.reset, 0, by decide +kernel⟩,
   ⟨demoChan { Chan.reset with state := 3, reqs := List.replicate 64 ⟨⟨7, none, []⟩, 0⟩ }, 0, by decide +kernel⟩,
   ⟨demoChan { Chan.reset with state := 3, reqs := List.replicate 64 ⟨⟨7, some (1, 5, false), []⟩, 0⟩ }, 0, by decide +kernel⟩,
   ⟨demoChan { Chan.reset with state := 3 }, 0, by decide +kernel⟩,
   ⟨demoChan { Chan.reset with state := 3, reqs := [⟨⟨0, none, []⟩, 0⟩], openRow := [(0, 0)], postp := [(0, 3)] }, 0, by decide +kernel⟩,
   ⟨demoChan { Chan.reset with state := 3, reqs := [⟨⟨7, some (1, 5, false), []⟩, 0⟩, ⟨⟨7, none, []⟩, 0⟩] }, 0, by decide +kernel⟩,
   ⟨demoChan { Chan.reset with reqs := [⟨⟨7, none, []⟩, 0⟩, ⟨⟨7, some (1, 5, false), []⟩, 0⟩] }, 0, 1, 0, ⟨⟨7, some (1, 5, false), []⟩, 0⟩,
     (1, 5, false), by decide +kernel⟩,
   ⟨demoChan { Chan.reset with hotRec := true }, 0, by decide +kernel⟩, ⟨State.reset, 0, by decide +kernel⟩,
   ⟨{ demoState demoHart with dram := { Dram.reset with chans := [(0, { Chan.reset with state := 3 })], scrubEn := true } }, 0, by decide +kernel⟩,
   ⟨[], by decide⟩⟩

/-! ### CxlMemoryDecodersAndIsolation: its hypotheses are met -/

def demoCxl (d : CxlDec) (up : Bool) : State :=
  { demoState demoHart with
    pkg := { (demoState demoHart).pkg with dieFuse := [(0, 0xFFFFF <<< 156 ||| 0x80 <<< 124), (12, 0x80 <<< 124)] }
    dram := { Dram.reset with decs := [(0, d)] }
    pcie := { Pcie.reset with links := [(0, { PLink.reset with up := up, cxl := up })] } }
theorem wit_CxlMemoryDecodersAndIsolation :
    (∃ (s : State) (k : Fin 16) (v : Word), agentRuns s .cloak = true ∧ (s.dec k).commit = false ∧ bit v 63 = true ∧ (fld v 60 3).toNat < 4 ∧ fld v 57 3 ≠ 7 ∧
      commitOk s k { s.dec k with
        iw := if (fld v 60 3).toNat < 4 then fld v 60 3 else (s.dec k).iw, ig := if fld v 57 3 = 7 then (s.dec k).ig else fld v 57 3
        limit := fld v 32 24, base := fld v 0 24 } = true) ∧
    (∃ (s : State) (k : Fin 16) (v : Word), agentRuns s .cloak = true ∧ (s.dec k).commit = false ∧ bit v 63 = true ∧
      commitOk s k { s.dec k with
        iw := if (fld v 60 3).toNat < 4 then fld v 60 3 else (s.dec k).iw, ig := if fld v 57 3 = 7 then (s.dec k).ig else fld v 57 3
        limit := fld v 32 24, base := fld v 0 24 } = false) ∧
    (∃ (s : State) (k : Fin 16), agentRuns s .cloak = true ∧ (s.dec k).commit = true) ∧ (∃ s : State, s.dram.recalls ≠ []) ∧
    (∃ (s : State) (p : PortId) (l : LinkId), cxlLink s (4 * p + l) = true ∧ s.dram.cxlIso.getLsbD (4 * p + l) = false) ∧
    (∃ (s : State) (p : PortId) (l : LinkId), cxlLink s (4 * p + l) = false) :=
  ⟨⟨demoCxl CxlDec.reset true, 0, 0x8000800000008000, by decide +kernel⟩, ⟨State.reset, 0, 0x8000000000000000, by decide +kernel⟩,
   ⟨demoCxl { CxlDec.reset with commit := true } true, 0, by decide +kernel⟩,
   ⟨{ State.reset with dram := { Dram.reset with recalls := [CxlDec.reset] } }, by decide +kernel⟩,
   ⟨demoCxl CxlDec.reset true, 0, 0, by decide +kernel⟩, ⟨demoCxl CxlDec.reset false, 0, 0, by decide +kernel⟩⟩

/-! ### FailStopAndDomainReset: its hypotheses are met -/

def demoFs (f : FStop) : State := demoCoh { Coh.reset with fstop := [(1, f)] }
theorem wit_FailStopAndDomainReset :
    (∃ (s : State) (k : SleeveId) (n : Nat) (t : Txn), txnOf s (.sleeve k) n = some t ∧ t.wait ≠ []) ∧
    (∀ w ∈ [none, some Agent.cloak], ∃ (s : State) (h : Fin 64) (n : Nat) (t : Txn), txnOf s .vest n = some t ∧ t.wait ≠ [] ∧
      homeAgent n = h.val ∧ txnHeld s n = false ∧ t.who = w ∧
      (t.wait.any (cuffPaused s) || (decide (t.req < 12) && cuffPaused s t.req)) = false) ∧
    (∃ (s : State) (h : Fin 64) (n : Nat), homeAgent n ≠ h.val ∧ txnHeld s n = false) ∧
    (∃ (s : State) (h : Fin 64) (n : Nat) (f : Flight), homeAgent n = h.val ∧ txnHeld s n = false ∧ txnOf s .vest n = none ∧
      memoryAnswer s n = some f ∧ nodeDie f.pkt.dst < 12 ∧ cuffPaused s (nodeDie f.pkt.dst) = false) ∧
    (∃ (s : State) (d : Nat), (s.fstop d).active = true) ∧ (∃ (s : State) (d : Nat), (s.fstop d).active = false ∧ domSleeves s d = []) ∧
    (∃ (s : State) (d : DomId), (s.fstop d).active = true ∧ (s.fstop d).scan = true ∧ s.coh.txns = []) ∧
    (∃ (s : State) (a : Agent), agentRuns s a = true ∧ domrstAllowed s a = false) ∧
    (∃ (s : State) (a : Agent), agentRuns s a = true ∧ domrstAllowed s a = true ∧ (∀ d < 4, (s.fstop d).active = false)) ∧
    (∃ (s : State) (a : Agent) (v : Word) (d : DomId), agentRuns s a = true → domrstAllowed s a = true ∧ fld v 0 4 = BitVec.ofNat 4 (2 ^ d.val) ∧
      (s.fstop d).active = true ∧ (s.fstop d).rst = false ∧ s.dbg.bist = [] ∧
      (upto 12).filter (fun k => domainOf s k == d.val && slvPresent s k) = []) :=
  ⟨⟨demoCoh { Coh.reset with txns := [{ mkTxn (.sleeve 0) .rds 0 0x40000 none 0 with wait := [1] }] }, 0, 0x40000,
     { mkTxn (.sleeve 0) .rds 0 0x40000 none 0 with wait := [1] }, by decide +kernel⟩,
   by
    intro w hw
    simp only [List.mem_cons, List.not_mem_nil, or_false] at hw
    rcases hw with rfl | rfl
    · exact ⟨demoCoh { Coh.reset with txns := [{ mkTxn .vest .rds 0 0x40000 none 0 with wait := [1] }] }, 1, 0x40000,
        { mkTxn .vest .rds 0 0x40000 none 0 with wait := [1] }, by decide +kernel⟩
    · exact ⟨demoCoh { Coh.reset with txns := [{ mkTxn .vest .wrfull 99 0x40000 (some .cloak) 0 with wait := [1] }] }, 1, 0x40000,
        { mkTxn .vest .wrfull 99 0x40000 (some .cloak) 0 with wait := [1] }, by decide +kernel⟩,
   ⟨demoState demoHart, 0, 0x40000, by decide +kernel⟩,
   ⟨sendPacket ⟨0x0101f21030680000, 0x40000, 0, 2, [0, 0]⟩ State.reset, 1, 0x40000,
     ⟨⟨0x0101f21030680000, 0x40000, 0, 2, [0, 0]⟩, .src, 0⟩, by decide +kernel⟩,
   ⟨demoFs { FStop.reset with active := true }, 1, by decide +kernel⟩, ⟨demoFs FStop.reset, 1, by decide +kernel⟩,
   ⟨demoFs { FStop.reset with active := true, scan := true }, 1, by decide +kernel⟩, ⟨demoState demoHart, .iommu, by decide +kernel⟩,
   ⟨demoState demoHart, .mc .e, by decide +kernel⟩, ⟨demoFs { FStop.reset with active := true }, .mc .e, 2, 1, by decide +kernel⟩⟩

/-! ### StorageEnableAndRecovery: its hypotheses are met -/

theorem wit_StorageEnableAndRecovery :
    (∃ s : State, s.stor.st = 0 ∧ enableRefusal s ≠ 0) ∧ (∃ s : State, s.stor.st = 0 ∧ enableRefusal s = 0) ∧
    (∃ v : Word, bit v 63 = true) ∧ (∃ v : Word, bit v 63 = false) ∧
    (∃ s : State, s.stor.st = 2 ∧ ∃ e ∈ s.stor.pairs, e.2.en = true) ∧ (∃ s : State, s.stor.st = 2 ∧ ∀ e ∈ s.stor.pairs, e.2.en = false) ∧
    (∃ s : State, s.stor.st = 1 ∧ s.pls.recRes ≠ 0) ∧ (∃ s : State, s.stor.st = 1 ∧ s.pls.recRes = 0 ∧ s.pls.slots ≠ []) ∧
    (∃ s : State, s.stor.st = 1 ∧ s.pls.recRes = 0 ∧ s.pls.slots = []) ∧ (∃ s : State, s.stor.st = 8 ∧ s.pls.slots = []) :=
  ⟨⟨State.reset, by decide +kernel⟩,
   ⟨{ State.reset with
      dram := { Dram.reset with mapLock := true, pwben := true }
      cloak := { Cloak.reset with hemAddr := 0x1000 }
      boot := { Boot.reset with mediaFw := true }
      ftl := { Ftl.reset with rLock := true, lgs := [(0, { LgSt.reset with state := 2 })] } }, by decide +kernel⟩,
   ⟨0x8000000000000000, by decide⟩, ⟨0, by decide⟩, ⟨demoStor { Stor.reset with st := 2, pairs := [(0, { QPair.reset with en := true })] },
     by decide +kernel, (0, { QPair.reset with en := true }), by decide +kernel⟩,
   ⟨demoStor { Stor.reset with st := 2 }, by decide +kernel⟩,
   ⟨{ demoStor { Stor.reset with st := 1 } with pls := { Pls.reset with recRes := 2 } }, by decide +kernel⟩,
   ⟨{ demoStor { Stor.reset with st := 1 } with pls := { Pls.reset with slots := [⟨0, 0, 0, 0, [], false, 0, 0, 0, none, false, false, 0, none⟩] } },
     by decide +kernel⟩,
   ⟨demoStor { Stor.reset with st := 1 }, by decide +kernel⟩, ⟨demoStor { Stor.reset with st := 8 }, by decide +kernel⟩⟩
/-- The premise that the sender runs is met by the Cloak in every state, so in the states of the witness beside it. -/
theorem wit_StorageEnableAndRecovery_runs : ∀ s : State, agentRuns s .cloak = true := fun _ => rfl

/-! ### QueuePairsAndTheirResets: its hypotheses are met -/

def demoQp (p : QPair) : State := demoStor { Stor.reset with st := 2, pairs := [(0, p)] }
theorem wit_QueuePairsAndTheirResets :
    (∃ (s : State) (q : QId) (v : Word), agentRuns s .cloak = true ∧ bit v 63 = true ∧ enableCheck q v s = 0) ∧
    (∃ (s : State) (q : QId) (v : Word), agentRuns s .cloak = true ∧ bit v 63 = true ∧ enableCheck q v s ≠ 0) ∧
    (∃ (s : State) (q : QId) (v : Word), agentRuns s .cloak = true ∧ bit v 63 = false ∧ (s.qp q).en = true ∧ cfgDiffers v (s.qp q) = false ∧ (s.qp q).state ≠ 2) ∧
    (∃ (s : State) (q : QId) (v : Word), agentRuns s .cloak = true ∧ bit v 63 = false ∧ (s.qp q).en = false) ∧
    (∃ (s : State) (a : Agent) (q : QId), agentRuns s a = true ∧ pageRefused s a q = true) ∧
    (∃ (s : State) (a : Agent) (q : QId), agentRuns s a = true ∧ pageRefused s a q = false ∧ (s.qp q).en = true ∧ (s.qp q).state = 1 ∧
      (s.qp q).sq.length < sqWords (s.qp q) ∧ (s.qp q).cq.length ≤ (s.qp q).rp) ∧
    (∃ (s : State) (a : Agent) (q : QId), agentRuns s a = true ∧ pageRefused s a q = false ∧ (s.qp q).en = true ∧ (s.qp q).state = 2) ∧
    (∃ (s : State) (a : Agent) (q : QId), agentRuns s a = true ∧ pageRefused s a q = false ∧ (s.qp q).en = false ∧ (s.qp q).state ≠ 1) ∧
    (∃ (s : State) (a : Agent) (q : QId) (w : Word × Bool), agentRuns s a = true ∧ pageRefused s a q = false ∧ (s.qp q).en = true ∧
      (s.qp q).cq[(s.qp q).rp]? = some w) ∧
    (∃ (s : State) (q : QId), (s.qp q).intEn = true ∧ (s.qp q).pend ≠ 0) ∧ (∃ (s : State) (q : QId), (s.qp q).intEn = false) :=
  ⟨⟨demoQp QPair.reset, 0, 0x8000045000000000, by decide +kernel⟩, ⟨State.reset, 0, 0x8000045000000000, by decide +kernel⟩,
   ⟨demoQp { QPair.reset with en := true, state := 1 }, 0, at_ 46 QPair.reset.cls ||| at_ 40 QPair.reset.sqsz ||| at_ 36 QPair.reset.cqsz, by decide +kernel⟩,
   ⟨State.reset, 0, 0, by decide +kernel⟩, ⟨demoQp { QPair.reset with tid := 5 }, .iommu, 0, by decide +kernel⟩,
   ⟨demoQp { QPair.reset with en := true, state := 1 }, .cloak, 0, by decide +kernel⟩,
   ⟨demoQp { QPair.reset with en := true, state := 2 }, .cloak, 0, by decide +kernel⟩, ⟨State.reset, .cloak, 0, by decide +kernel⟩,
   ⟨demoQp { QPair.reset with en := true, cq := [(7, true)] }, .cloak, 0, (7, true), by decide +kernel⟩,
   ⟨demoQp { QPair.reset with intEn := true, pend := 1 }, 0, by decide +kernel⟩, ⟨State.reset, 0, by decide +kernel⟩⟩

/-! ### StoreQueuesKeepTheirDepth: its hypotheses are met -/

theorem wit_StoreQueuesKeepTheirDepth :
    ∃ (s : State) (a : Agent) (q : QId), agentRuns s a = true ∧ tabRising s.stor.pairs = true ∧ (∀ p ∈ s.stor.pairs, p.2.sq.length ≤ sqWords p.2) ∧
      pageRefused s a q = false ∧ (s.qp q).en = true :=
  ⟨demoQp { QPair.reset with en := true, state := 1 }, .cloak, 0, by decide +kernel⟩

/-! ### StoreCommandsRun: its hypotheses are met -/

def demoCmd (opc : Nat) (started issued : Bool) : Cmd :=
  ⟨7, 0, 0, opc, 0, 0, 0, 0, 0, 0x100010000, 0, false, started, issued, false, [], [], []⟩
def demoCmds (l : List Cmd) : State := demoStor { Stor.reset with st := 2, cmds := l }
/-- One WRITE of segment 0, which a fill collects; or whose merge's successor slot is full. -/
def demoFill (full : Bool) : State :=
  { demoDram demoHart with
    stor := { Stor.reset with st := 2, cmds := [demoCmd 2 false false] }
    ftl := { Ftl.reset with maps := { Maps.reset with
      descs := [⟨0, true, 0, 0, full, if full then some 0 else none, 0, false, none, 2, 0⟩] } } }
theorem wit_StoreCommandsRun :
    (pick State.reset).2 = none ∧
    (∃ (s u : State) (q : Nat) (ws : List Word) (r : List (Word × Bool)), pick s = (u, some q) ∧ firstPacket (u.qp q).sq = some (ws, r)) ∧
    (∀ o ∈ [0, 1, 3, 4], ∃ (s : State) (id : Nat) (c : Cmd), startedCmd s id o = some c ∧ (blkSeg s c 0).1 = (blkSeg s c c.nlb).1) ∧
    (∃ (s : State) (id : Nat), ∀ o ∈ [0, 1, 3, 4], startedCmd s id o = none) ∧
    (∃ (s : State) (id : Nat) (c : Cmd), (s.stor.cmds.find? fun c => c.id == id && c.opc == 2 && !c.issued) = some c ∧
      ∃ e ∈ s.stor.cmds.takeWhile (fun d => d.id ≠ id), lockClash e c = true) ∧
    (∃ (s : State) (id : Nat) (c : Cmd), (s.stor.cmds.find? fun c => c.id == id && c.opc == 2 && !c.issued) = some c ∧
      ∀ e ∈ s.stor.cmds.takeWhile (fun d => d.id ≠ id), lockClash e c = false) ∧
    (∀ pr ∈ [Prep.ok, .wait], ∃ (s : State) (id : Nat) (c : Cmd),
      (s.stor.cmds.find? fun c => c.id == id && c.opc == 2 && !c.issued) = some c ∧
      (∀ e ∈ s.stor.cmds.takeWhile (fun d => d.id ≠ id), lockClash e c = false) ∧
      (meterSource c s).2 = true ∧
      (prepAll c ((meterSource c s).1.ns c.nsid).lgmask (readSource c (c.nlb + 1) 0 none (meterSource c s).1).2.1 (segsOf (meterSource c s).1 c)
        (readSource c (c.nlb + 1) 0 none (meterSource c s).1).1).2.2 = pr) ∧
    (∃ (s : State) (c : Cmd), (meterSource c s).2 = false) ∧
    (∃ (s : State) (id : Nat) (c : Cmd), (s.stor.cmds.find? fun c => c.id == id && c.started && c.issued) = some c ∧ c.opc ≠ 4 ∧
      c.todo = [] ∧ c.errs = []) ∧
    (∃ (s : State) (id : Nat) (c : Cmd), (s.stor.cmds.find? fun c => c.id == id && c.started && c.issued) = some c ∧ c.opc ≠ 4 ∧
      c.todo ≠ []) ∧
    (∃ (s : State) (id : Nat) (c : Cmd) (k : BitVec 8), (s.stor.cmds.find? fun c => c.id == id && c.started) = some c ∧
      ((failCmd c k s).stor.cmds.find? fun c => c.id == id && c.started && c.issued) =
        some { c with errs := [(0, scInternal)] } ∧ c.opc ≠ 4 ∧ c.todo = []) := by
  refine ⟨by decide +kernel,
    ⟨demoQp { QPair.reset with en := true, state := 1, cls := 0, sqsz := 4, cqsz := 5, sq := [(0, true)] }, demoQp { QPair.reset with
      en := true, state := 1, cls := 0, sqsz := 4, cqsz := 5, sq := [(0, true)] }, 0, [0], [], by decide +kernel⟩,
    fun o ho => ⟨demoCmds [demoCmd o true false], 7, demoCmd o true false, ?_⟩, ⟨State.reset, 7, by decide +kernel⟩,
    ⟨demoCmds [{ demoCmd 2 true false with id := 3, lock := true }, { demoCmd 2 false false with lock := true }], 7,
      { demoCmd 2 false false with lock := true }, by decide +kernel⟩,
    ⟨demoCmds [demoCmd 2 false false], 7, demoCmd 2 false false, by decide +kernel⟩,
    fun pr hp => ⟨demoFill (pr = .wait), 7, demoCmd 2 false false, ?_⟩,
    ⟨{ demoState demoHart with fab := { Fab.reset with held := [⟨0, 0, 0, .source 7⟩] } }, demoCmd 2 true false, by decide +kernel⟩,
    ⟨demoCmds [demoCmd 1 true true], 7, demoCmd 1 true true, by decide +kernel⟩,
    ⟨demoCmds [{ demoCmd 1 true true with todo := [0] }], 7, { demoCmd 1 true true with todo := [0] }, by decide +kernel⟩,
    ⟨demoCmds [demoCmd 0 true true], 7, demoCmd 0 true true, 3, by decide +kernel⟩⟩
  · simp only [List.mem_cons, List.not_mem_nil, or_false] at ho
    rcases ho with rfl | rfl | rfl | rfl <;> decide +kernel
  · simp only [List.mem_cons, List.not_mem_nil, or_false] at hp
    rcases hp with rfl | rfl <;> decide +kernel

/-! ### FlashOperationsEnd: its hypotheses are met -/

def demoOp (k : FOpKind) : FOp := ⟨1, k, 5, 0, true, 0, [], none, false, 0, 0, FUnit.none⟩
def demoFtl (o : FOp) : State := { demoState demoHart with ftl := { Ftl.reset with ops := [o] } }
def demoRead (o : FOp) : State :=
  { demoState demoHart with ftl := { Ftl.reset with ops := [o], media := [(unitKey (bandEb (demoFtl o) 5 0) 0, FUnit.none)] } }
theorem wit_FlashOperationsEnd :
    (∃ s : State, findOp s 1 = none) ∧
    (∃ (s : State) (o : FOp) (x : FUnit), findOp s 1 = some o ∧ opRuns s o = true ∧ opClass o = 0 ∧
      readUnit (countRead o s) o true = some x) ∧
    (∃ (s : State) (o : FOp) (n : Nat), findOp s 1 = some o ∧ opRuns s o = true ∧ opClass o = 0 ∧
      readUnit (countRead o s) o true = none ∧ o.kind ≠ .verify ∧ nextStep (countRead o s) o = some n) ∧
    (∃ (s : State) (o : FOp), findOp s 1 = some o ∧ opRuns s o = true ∧ opClass o = 0 ∧
      readUnit (countRead o s) o true = none ∧ o.kind ≠ .verify ∧ nextStep (countRead o s) o = none) ∧
    (∃ (s : State) (o : FOp), findOp s 1 = some o ∧ opRuns s o = true ∧ o.kind = .verify ∧ readUnit (countRead o s) o true = none) ∧
    (∃ (s : State) (o : FOp), findOp s 1 = some o ∧ opRuns s o = true ∧ opClass o = 1) ∧
    (∃ (s : State) (o : FOp) (pos : Nat), findOp s 1 = some o ∧ opRuns s o = true ∧ o.kind = .erase pos) :=
  ⟨⟨State.reset, by decide +kernel⟩, ⟨demoRead (demoOp .sample), demoOp .sample, FUnit.none, by decide +kernel⟩,
   ⟨demoFtl (demoOp .sample), demoOp .sample, 1, by decide +kernel⟩,
   ⟨demoFtl { demoOp .sample with step := 4 }, { demoOp .sample with step := 4 }, by decide +kernel⟩,
   ⟨demoFtl (demoOp .verify), demoOp .verify, by decide +kernel⟩, ⟨demoFtl (demoOp .ckpt), demoOp .ckpt, by decide +kernel⟩,
   ⟨demoFtl (demoOp (.erase 0)), demoOp (.erase 0), 0, by decide +kernel⟩⟩

/-! ### MergesFillsAndJournalRecords: its hypotheses are met -/

def demoDesc (d : FDesc) : State :=
  { demoStor { Stor.reset with st := 2 } with ftl := { Ftl.reset with maps := { Maps.reset with
      segs := [(3, { SegEnt.reset with v := true, band := 5 })], bands := [(5, { Band.none with due := 4 })], descs := [d] } } }
def demoFDesc : FDesc := ⟨3, true, 7, 0, false, none, 0, false, none, 0, 0⟩
theorem wit_MergesFillsAndJournalRecords :
    (∃ s : State, s.stor.st = 2 ∧ mergeAllowed s 3 = true) ∧ (∃ s : State, s.stor.st ≠ 2) ∧
    (∃ (s : State) (d : FDesc), s.desc 3 = some d ∧ d.run = true ∧ d.step = 4) ∧ (∃ s : State, s.desc 3 = none) ∧
    (∃ (s : State) (d : FDesc), s.desc 3 = some d ∧ d.run = false ∧ d.fill = true) ∧
    (∃ s : State, s.stor.st = 2 ∧ s.pls.snap = none) ∧ (∃ s : State, s.stor.st = 2 ∧ s.pls.snap.isSome = true) :=
  ⟨⟨demoDesc demoFDesc, by decide +kernel⟩, ⟨State.reset, by decide +kernel⟩,
   ⟨demoDesc { demoFDesc with run := true, step := 4 }, { demoFDesc with run := true, step := 4 }, by decide +kernel⟩,
   ⟨State.reset, by decide +kernel⟩, ⟨demoDesc demoFDesc, demoFDesc, by decide +kernel⟩, ⟨demoStor { Stor.reset with st := 2 }, by decide +kernel⟩,
   ⟨{ demoStor { Stor.reset with st := 2 } with pls := { Pls.reset with snap := some (snapshot State.reset) } }, by decide +kernel⟩⟩

/-! ### HoldupBankAndTests: its hypotheses are met -/

def demoHold (h : Hold) : State := { demoStor { Stor.reset with st := 2 } with hold := h }
theorem wit_HoldupBankAndTests :
    (∃ s : State, s.hold.busy = false) ∧ (∃ s : State, s.hold.busy = true) ∧ (∃ v : Word, bit v 63 = false) ∧
    (∃ v : Word, bit v 63 = true) ∧ (∃ s : State, storDisabled s = false) ∧ (∃ s : State, storDisabled s = true) ∧
    (∀ b : Bool, ∃ s : State, storDisabled s = false ∧ s.hold.vchg ≠ 0 ∧ s.hold.busy = false ∧ nearVchg s.hold = b) ∧
    (∃ s : State, storDisabled s = false ∧ s.hold.vchg = 0) ∧
    (∃ s : State, s.hold.valid = true ∧ testAllowed s = true ∧ s.hold.vchg ≠ 0 ∧ s.hold.busy = false) ∧
    (∃ s : State, s.hold.busy = true ∧ s.hold.waiting = true) ∧
    (∀ n ∈ [1, 2, 3], ∃ s : State, s.hold.busy = true ∧ s.hold.waiting = false ∧ s.hold.step = n) ∧
    (∃ (s : State) (x : DictCtx) (w : Session), reqState s x = .fresh w ∧ w.level ≠ 0) :=
  ⟨⟨State.reset, by decide +kernel⟩, ⟨demoHold { Hold.reset with busy := true }, by decide +kernel⟩, ⟨0, by decide⟩,
   ⟨0x8000000000000000, by decide⟩, ⟨demoStor { Stor.reset with st := 2 }, by decide +kernel⟩, ⟨State.reset, by decide +kernel⟩,
   fun b => ⟨demoHold { Hold.reset with vchg := 100, vnow := if b then 1000 else 0 }, by cases b <;> decide +kernel⟩,
   ⟨demoHold { Hold.reset with vchg := 0 }, by decide +kernel⟩,
   ⟨{ demoHold { Hold.reset with vchg := 100, valid := true } with pins := { Pins.reset with inReset := false } }, by decide +kernel⟩,
   ⟨demoHold { Hold.reset with busy := true, waiting := true }, by decide +kernel⟩,
   fun n _ => ⟨demoHold { Hold.reset with busy := true, waiting := false, step := n }, rfl, rfl, rfl⟩,
   ⟨demoAdp { Adp.reset 0 with sessions := [demoSess] }, ⟨demoSess.sid, 5⟩, demoSess, by decide +kernel⟩⟩
/-- The premise that the sender runs is met by the Cloak in every state, so in the states of the witness beside it. -/
theorem wit_HoldupBankAndTests_runs : ∀ s : State, agentRuns s .cloak = true := fun _ => rfl

/-! ### PowerFailureAndDrain: its hypotheses are met -/

theorem wit_PowerFailureAndDrain :
    (∃ s : State, s.pwr.pk3 = true) ∧ (∃ s : State, s.pins.inReset = true) ∧
    (∀ n ∈ [0, 4, 5, 6, 7, 8], ∃ s : State, s.pwr.pk3 = false ∧ s.pins.inReset = false ∧ s.pls.step = n) :=
  ⟨⟨{ State.reset with pwr := { Pwr.reset with pk3 := true } }, rfl⟩, ⟨State.reset, rfl⟩,
   fun n _ => ⟨{ demoState demoHart with pins := { Pins.reset with inReset := false }, pls := { Pls.reset with step := n } }, rfl, rfl, rfl⟩⟩

/-! ### BeltChargesAndPeriods: its hypotheses are met -/

def demoAct : Act := { Act.reset 9 with en := true, active := true, cls := 1, scope := 0xF, tid := 3, budgetF := 10 }
def demoBelt (v : Act) (h : List HeldItem) : State :=
  { demoState demoHart with belt := { Belt.reset with acts := [(9, v)], held := h } }
theorem wit_BeltChargesAndPeriods :
    (∃ (s : State) (i : BeltItem) (n : Fin (2 ^ 46)), i.line = some n ∧ i.cls = 1 ∧ (s.coh.txns.any fun t => t.lvl == Level.vest && t.line == n.val) = true) ∧
    (∃ (s : State) (i : BeltItem), matchAct s i.eng i.tid i.cls (if i.scope.val < scopesOf i.cls then i.scope else 0) = none) ∧
    (∃ s : State, matchAct s false 3 1 0 = some 9 ∧ heldBefore s 9 0 = false ∧ canCover s 9 0 4 = true) ∧
    (∃ s : State, matchAct s false 3 1 0 = some 9 ∧ heldBefore s 9 0 = true) ∧
    (∃ s : State, matchAct s false 3 1 0 = some 9 ∧ canCover s 9 0 40 = false) ∧
    (∃ (s : State) (a : Fin 256) (v : Word), actReject s a (s.act a) (actWritten a v (s.act a)).1 ≠ 0) ∧
    (∃ (s : State) (a : Fin 256) (v : Word), actReject s a (s.act a) (actWritten a v (s.act a)).1 = 0) :=
  ⟨⟨demoCoh { Coh.reset with txns := [mkTxn .vest .rds 0 0x40000 none 0] }, ⟨false, 3, 1, 0, 4, some 0x40000⟩, 0x40000, by decide +kernel⟩,
   ⟨State.reset, ⟨false, 3, 1, 0, 4, none⟩, by decide +kernel⟩, ⟨demoBelt demoAct [], by decide +kernel⟩,
   ⟨demoBelt demoAct [⟨9, 0, 1, .item, false⟩], by decide +kernel⟩, ⟨demoBelt demoAct [], by decide +kernel⟩,
   ⟨demoBelt demoAct [], 10, 0x87C0000300000001, by decide +kernel⟩, ⟨State.reset, 10, 0x87C0000300000001, by decide +kernel⟩⟩
/-- The premise that the sender runs is met by the Cloak in every state, so in the states of the witness beside it. -/
theorem wit_BeltChargesAndPeriods_runs : ∀ s : State, agentRuns s .cloak = true := fun _ => rfl

/-! ### TenantResetAndShare: its hypotheses are met -/

theorem wit_TenantResetAndShare :
    (∀ b : Bool, ∃ s : State, s.belt.tBusy = b) ∧ (∃ v : Word, bit v 63 = true) ∧ (∃ v : Word, bit v 63 = false) ∧
    (∀ b : Bool, ∃ (s : State) (x : DictCtx) (w : Session), reqState s x = .fresh w ∧ w.level ≠ 0 ∧ s.belt.tBusy = b) ∧
    (∃ (s : State) (x : DictCtx) (w : Session), reqState s x = .fresh w ∧ (upto 256).find? (fun i =>
      (s.act i).en && !(s.act i).eng && decide ((s.act i).tid = 3) && decide ((s.act i).cls.toNat = 1)) = some 9) ∧
    (∃ (s : State) (a : Nat), ((upto 256).find? fun i => !(s.act i).en && !(s.act i).active) = some a ∧
      (wrAct a (cat [on 63 true, on 62 true, at_ 58 (1 : BitVec 3), at_ 54 (0xF : BitVec 4), at_ 32 (3 : BitVec 12),
        at_ 0 (BitVec.ofNat 32 (shareBudget s 1 50))]) s).belt.errCode = 0) ∧
    (∃ s : State, ((upto 256).find? fun i => !(s.act i).en && !(s.act i).active) = none) :=
  ⟨fun b => ⟨{ State.reset with belt := { Belt.reset with tBusy := b } }, rfl⟩, ⟨0x8000000000000000, by decide⟩, ⟨0, by decide⟩,
   fun b => ⟨{ demoAdp { Adp.reset 0 with sessions := [demoSess] } with belt := { Belt.reset with tBusy := b } }, ⟨7, 5⟩, demoSess,
     by cases b <;> decide +kernel⟩,
   ⟨{ demoAdp { Adp.reset 0 with sessions := [demoSess] } with belt := { Belt.reset with acts := [(9, demoAct)] } }, ⟨7, 5⟩, demoSess,
     by decide +kernel⟩,
   ⟨State.reset, 3, by decide +kernel⟩,
   ⟨{ State.reset with belt := { Belt.reset with acts := (upto 256).map fun i => (i, demoAct) } }, by decide +kernel⟩⟩
/-- The premise that the sender runs is met by the Cloak in every state, so in the states of the witness beside it. -/
theorem wit_TenantResetAndShare_runs : ∀ s : State, agentRuns s .cloak = true := fun _ => rfl

/-! ### SensorsFlowAndCoolant: its hypotheses are met -/

def demoThm (t : Thm) : State := { demoState demoHart with thm := t }
theorem wit_SensorsFlowAndCoolant :
    (∃ l : List Int, l.length = 56) ∧ (∃ l : List Int, l.length ≠ 56) ∧ (∀ b : Bool, ∃ s : State, s.thm.noFlow = b) ∧
    (∃ s : State, s.thm.duty < s.tobj.vmin) ∧ (∃ s : State, s.tobj.vmin ≤ s.thm.duty) ∧
    (∃ s : State, s.thm.shortFrom.isSome = true) ∧ (∃ s : State, s.thm.shortFrom = none) :=
  ⟨⟨List.replicate 56 0, by decide +kernel⟩, ⟨[], by decide⟩, fun b => ⟨demoThm { Thm.reset with noFlow := b }, rfl⟩,
   ⟨demoThm { Thm.reset with duty := 0 }, by decide +kernel⟩, ⟨demoThm { Thm.reset with duty := 1000 }, by decide +kernel⟩,
   ⟨demoThm { Thm.reset with shortFrom := some 0 }, rfl⟩, ⟨State.reset, rfl⟩⟩

/-! ### ThermalModelCapsAndShutdown: its hypotheses are met -/

def demoHsc (v : SlvPwr) : State := { demoState demoHart with pwr := { Pwr.reset with slv := [(0, v)] } }
theorem wit_ThermalModelCapsAndShutdown :
    (∃ s : State, (s.slvPwr 0).hscLow = true) ∧
    (∃ s : State, (s.slvPwr 0).hscLow = false ∧ (s.slvPwr 0).hot < (s.tobj.tjCtl : Int) * 1000 ∧ 9 ≤ (s.slvPwr 0).hscTick) ∧
    (∃ s : State, (s.slvPwr 0).hscLow = false ∧ (s.slvPwr 0).hot < (s.tobj.tjCtl : Int) * 1000 ∧ (s.slvPwr 0).hscTick < 9) ∧
    (∃ s : State, s.thm.shut ≠ 0) ∧ (∃ s : State, s.pwr.pk3 = true) ∧ (∃ s : State, s.thm.shut = 0 ∧ s.pwr.pk3 = false) ∧
    (∀ b c : Bool, ∃ s : State, s.thm.noFlow = b ∧ s.tobj.vmode.getLsbD 15 = c) :=
  ⟨⟨demoHsc { SlvPwr.reset with hscLow := true }, by decide +kernel⟩, ⟨demoHsc { SlvPwr.reset with hscTick := 9 }, by decide +kernel⟩,
   ⟨demoHsc { SlvPwr.reset with hscTick := 0 }, by decide +kernel⟩, ⟨demoThm { Thm.reset with shut := 2 }, by decide +kernel⟩,
   ⟨{ State.reset with pwr := { Pwr.reset with pk3 := true } }, rfl⟩, ⟨State.reset, by decide +kernel⟩,
   fun b c => ⟨{ demoThm { Thm.reset with noFlow := b } with tobj := { ThmObj.reset with vmode := if c then 0x8000 else 0 } },
     by cases b <;> cases c <;> decide +kernel⟩⟩

/-! ### BootSequenceAndRelease: its hypotheses are met -/

def demoBoot (x : Boot) : State := { demoState demoHart with boot := x, pins := { Pins.reset with inReset := false } }
def demoMc : State := { demoState demoHart with own := { Own.reset with holder := 1, phase := 2, rstE := false, aliveE := some 0 } }
theorem wit_BootSequenceAndRelease :
    (∃ s : State, s.pins.inReset = true) ∧ (∃ s : State, s.boot.romStop = true) ∧
    (∀ n : Nat, ∃ s : State, s.boot.romStop = false ∧ s.pins.inReset = false ∧ s.boot.step = n) ∧
    (∀ b c : Bool, ∃ s : State, s.boot.romStop = false ∧ s.pins.inReset = false ∧ s.boot.step = 3 ∧ s.pkg.fuseRead = b ∧ s.pkg.vestBad = c) ∧
    (∃ (s : State) (f : BootFacts) (c : Nat), pickSlot s 1 f = (none, c)) ∧
    (∃ s : State, 6 ≤ s.boot.step ∧ s.boot.keys = false) ∧ (∃ s : State, s.boot.step < 6) ∧
    (∃ (s : State) (m : Mc), agentRuns s (.mc m) = true ∧ mcHolds s m = true) ∧
    (∃ (s : State) (w : Agent), agentRuns s w = true ∧ ∀ m, w = .mc m → mcHolds s m = false) ∧
    (∃ s : State, s.boot.romStop = false ∧ s.pins.inReset = false ∧ s.boot.step = 8 ∧ s.pkg.domLock = true) ∧
    (∃ s : State, s.boot.romStop = false ∧ s.pins.inReset = false ∧ s.boot.step = 9 ∧
      (presentSleeves s).any (fun k => !s.pkg.slvHeld.getLsbD k) = true) :=
  ⟨⟨State.reset, rfl⟩, ⟨demoBoot { Boot.reset with romStop := true }, rfl⟩, fun n => ⟨demoBoot { Boot.reset with step := n, romStop := false }, rfl, rfl, rfl⟩,
   fun b c => ⟨{ demoBoot { Boot.reset with step := 3, romStop := false } with pkg := { Pkg.reset with fuseRead := b, vestBad := c } }, rfl, rfl, rfl, rfl, rfl⟩,
   ⟨State.reset, ⟨[(2, ⟨false, true⟩), (3, ⟨false, true⟩)]⟩, 14, by decide +kernel⟩, ⟨demoBoot { Boot.reset with step := 6, keys := false }, by decide +kernel⟩, ⟨State.reset, by decide +kernel⟩,
   ⟨demoMc, .e, by decide +kernel⟩, ⟨demoMc, .pocket, rfl, fun _ h => by cases h⟩,
   ⟨{ demoBoot { Boot.reset with step := 8, romStop := false } with pkg := { Pkg.reset with domLock := true } }, rfl, rfl, rfl, rfl⟩,
   ⟨{ demoBoot { Boot.reset with step := 9, romStop := false } with pkg := { (demoState demoHart).pkg with slvHeld := 0 } }, by decide +kernel⟩⟩

/-! ### OwnershipOfThePackage: its hypotheses are met -/

def demoOwn (o : Own) : State := { demoState demoHart with own := o }
theorem wit_OwnershipOfThePackage :
    (∃ (s : State) (m : Mc), mcLive s m = false) ∧ (∀ p ∈ [(0 : BitVec 2), 2], ∃ (s : State) (m : Mc), mcLive s m = true ∧ s.own.phase = p) ∧
    (∀ b c : Bool, ∃ s : State, s.own.phase = 1 ∧ s.own.claimE = b ∧ s.own.claimW = c) ∧ (∃ s : State, s.own.phase ≠ 1) ∧
    (∃ (s : State) (m : Mc), mcLive s m = true ∧ s.own.phase = 2 ∧ s.own.holder = mcCode (!mcBit m) ∧ s.own.present (!mcBit m) = false) ∧
    (∃ (s : State) (m : Mc), mcLive s m = true ∧ s.own.phase = 2 ∧ s.own.holder = mcCode (mcBit m) ∧ s.own.present (!mcBit m) = true) ∧
    (∃ s : State, s.own.phase = 2 ∧ s.own.present true = false ∧ s.own.present false = false) ∧
    (∃ s : State, disagree s.own = true) ∧ (∃ s : State, disagree s.own = false) ∧ (∀ b : Bool, ∃ s : State, s.own.reload = b) :=
  ⟨⟨State.reset, .e, by decide +kernel⟩, fun p _ => ⟨demoOwn { Own.reset with rstE := false, safe := false, phase := p }, .e, rfl, rfl⟩,
   fun b c => ⟨demoOwn { Own.reset with phase := 1, claimE := b, claimW := c }, rfl, rfl, rfl⟩, ⟨State.reset, by decide +kernel⟩,
   ⟨demoOwn { Own.reset with rstE := false, phase := 2, holder := 2 }, .e, by decide +kernel⟩,
   ⟨demoOwn { Own.reset with rstE := false, phase := 2, holder := 1, aliveW := some 0 }, .e, by decide +kernel⟩,
   ⟨demoOwn { Own.reset with phase := 2 }, by decide +kernel⟩,
   ⟨demoOwn { Own.reset with aliveE := some 0, aliveW := some 0, absE := true, absW := true }, by decide +kernel⟩,
   ⟨State.reset, by decide +kernel⟩, fun b => ⟨demoOwn { Own.reset with reload := b }, rfl⟩⟩

/-! ### SecurityServicesOfTheDictionary: its hypotheses are met -/

theorem wit_SecurityServicesOfTheDictionary :
    (∃ (s : State) (x : DictCtx) (w : Session), reqState s x = .fresh w ∧ w.level ≠ 0 ∧ s.dbg.tok = none ∧ s.own.phase ≠ 2) ∧
    (∃ (s : State) (x : DictCtx) (w : Session), reqState s x = .fresh w ∧ w.level ≠ 0 ∧ featOn s 8 = true) ∧
    (∃ (s : State) (x : DictCtx) (w : Session), reqState s x = .fresh w ∧ w.level ≠ 0 ∧ featOn s 8 = false) ∧
    (∃ (s : State) (x : DictCtx) (w : Session), reqState s x = .fresh w ∧ w.level ≠ 0 ∧ featOn s 8 = true ∧ s.dbg.tok.isSome = true) ∧
    (∃ (s : State) (x : DictCtx) (w : Session), reqState s x = .fresh w ∧ w.level ≠ 0 ∧ s.own.phase = 2 ∧
      s.own.present (decide (s.own.holder ≠ 1)) = true) :=
  ⟨⟨demoAdp { Adp.reset 0 with sessions := [demoSess] }, ⟨7, 5⟩, demoSess, by decide +kernel⟩,
   ⟨{ demoAdp { Adp.reset 0 with sessions := [demoSess] } with pkg := { Pkg.reset with fuseDone := true, dieFuse := [(12, 0xFFFFFFFF <<< 124)] } },
     ⟨7, 5⟩, demoSess, by decide +kernel⟩,
   ⟨demoAdp { Adp.reset 0 with sessions := [demoSess] }, ⟨7, 5⟩, demoSess, by decide +kernel⟩,
   ⟨{ demoAdp { Adp.reset 0 with sessions := [demoSess] } with
      pkg := { Pkg.reset with fuseDone := true, dieFuse := [(12, 0xFFFFFFFF <<< 124)] }, dbg := { Dbg.reset with tok := some ([], []) } },
     ⟨7, 5⟩, demoSess, by decide +kernel⟩,
   ⟨{ demoAdp { Adp.reset 0 with sessions := [demoSess] } with own := { Own.reset with phase := 2, holder := 1, aliveW := some 0 } },
     ⟨7, 5⟩, demoSess, by decide +kernel⟩⟩

/-! ### PocketRecordsAndPorts: its hypotheses are met -/

def demoPkt (p : Pkt) : State := { demoAdp { Adp.reset 0 with sessions := [demoSess] } with pkt := p }
def demoRpt : Report := mkReport 0x1000 3 0x012 false 16 []
def demoRec : PktRec := ⟨0, 5, 1, demoRpt, false, false⟩
theorem wit_PocketRecordsAndPorts :
    (∃ s : State, s.pkt.queue = []) ∧ (∃ (s : State) (e : PktEntry), s.pkt.queue = [e]) ∧
    (∀ b c : Bool, ∃ s : State, s.pkt.msiDefer = b ∧ s.pkt.msiEn = c) ∧ (∀ n : BitVec 2, ∃ s : State, s.pkt.mirState = n) ∧
    (∃ (s : State) (w : Agent), clearAgent s w = some 1) ∧ (∃ (s : State) (w : Agent), clearAgent s w = none) ∧
    (∃ (s : State) (g : PktRec), portSelect 0 s.pkt = some g ∧ s.pkt.rdBuf = [] ∧ s.pkt.rdLoaded = false) ∧ (∃ s : State, portSelect 0 s.pkt = none ∧ s.pkt.rdBuf = []) ∧
    (∃ s : State, s.pkt.rdBuf = [5]) ∧
    (∃ (s : State) (x : DictCtx) (w : Session), reqState s x = .fresh w ∧ w.level ≠ 0 ∧ s.pkt.mir0[0]? = some ⟨1, [demoRec]⟩ ∧ s.pkt.mir1[0]? = none) :=
  ⟨⟨State.reset, rfl⟩, ⟨demoPkt { Pkt.reset with queue := [⟨demoRpt, 0, 1, false⟩] }, ⟨demoRpt, 0, 1, false⟩, rfl⟩,
   fun b c => ⟨demoPkt { Pkt.reset with msiDefer := b, msiEn := c }, rfl, rfl⟩, fun n => ⟨demoPkt { Pkt.reset with mirState := n }, rfl⟩,
   ⟨State.reset, .mc .e, by decide +kernel⟩, ⟨State.reset, .iommu, by decide +kernel⟩,
   ⟨demoPkt { Pkt.reset with ring := [demoRec] }, demoRec, by decide +kernel⟩, ⟨State.reset, by decide +kernel⟩,
   ⟨demoPkt { Pkt.reset with rdBuf := [5] }, rfl⟩,
   ⟨demoPkt { Pkt.reset with mir0 := [⟨1, [demoRec]⟩] }, ⟨7, 5⟩, demoSess, by decide +kernel⟩⟩
/-- The premise that the sender runs is met by the Cloak in every state, so in the states of the witness beside it. -/
theorem wit_PocketRecordsAndPorts_runs : ∀ s : State, agentRuns s .cloak = true := fun _ => rfl

/-! ### PocketIngressKeepsItsBounds: its hypotheses are met -/

theorem wit_PocketIngressKeepsItsBounds : (∃ s t : State, ingressOk s.pkt ∧ exec (.errorReport demoRpt) s = .next t) :=
  ⟨State.reset, _, ⟨by decide +kernel, fun k => Nat.zero_le _⟩, rfl⟩

/-! ### NetworkAndSessions: its hypotheses are met -/

def demoHs (l : BitVec 8) : Handshake := ⟨⟨0, 0⟩, 9, l, [], [], [], 0, []⟩
def demoNet (x : Adp) : State :=
  { demoAdp { x with dad := 1 } with own := { Own.reset with holder := 1 }, boot := { Boot.reset with keys := true } }
def demoDgram (type tag : Nat) : List Byte :=
  [0x44, 0x50, 1, BitVec.ofNat 8 type, 7, 0, 0, 0, 1, 0, 0, 0, 0, 0, 0, 0, 8, 0, 0, 1, 0, 0, 0, 0] ++ List.replicate (8 + tag) 0
theorem wit_NetworkAndSessions :
    (∃ s : State, s.pins.inReset = true) ∧ (∃ s : State, s.pins.inReset = false ∧ s.adp.dad = 0) ∧ (∃ s : State, adpServes s = false) ∧
    (∃ b : List Byte, adpHeaderOk b 0 = false ∧ adpHeaderOk b 32 = false) ∧ (∃ b : List Byte, leNat (sl b 3 1) = 3 ∧ adpHeaderOk b 0 = true) ∧
    (∃ b : List Byte, 0x10 ≤ leNat (sl b 3 1) ∧ leNat (sl b 3 1) ≤ 0x17 ∧ adpHeaderOk b 32 = true) ∧
    (∃ s : State, adpServes s = true ∧ (s.adp.blocked.any fun k => k.1 = 0) = true) ∧
    (∃ s : State, adpServes s = true ∧ (s.adp.blocked.any fun k => k.1 = 0) = false) ∧
    (∃ b : List Byte, b.length ≠ 1608) ∧ (∃ b : List Byte, b.length = 1608 ∧ leNat (sl b 32 1) ≤ 2) ∧
    (∃ s : State, s.adp.hs.find? (·.sid = 9) = none) ∧ (∀ l ∈ [(1 : BitVec 8), 2], ∃ (s : State) (h : Handshake), s.adp.hs.find? (·.sid = 9) = some h ∧ h.level = l) ∧
    (∃ b : List Byte, b.length = 3080) ∧ (∃ b : List Byte, b.length ≠ 3080) ∧
    (∃ (s : State) (h : Handshake), (∀ b : List Byte, keyListed h.keys (sl b 0 1793) 2 = false) ∧ enrolOpen s 2 = false) ∧
    (∃ s : State, findSession s 7 = none) ∧ (∃ (s : State) (w : Session), findSession s 7 = some w) :=
  ⟨⟨State.reset, rfl⟩, ⟨demoBoot0, rfl, rfl⟩, ⟨State.reset, by decide +kernel⟩, ⟨[], by decide +kernel⟩,
   ⟨demoDgram 3 0, by decide +kernel⟩, ⟨demoDgram 0x10 32, by decide +kernel⟩,
   ⟨demoNet { Adp.reset 0 with blocked := [(0, 0)] }, by decide +kernel⟩, ⟨demoNet (Adp.reset 0), by decide +kernel⟩,
   ⟨[], by decide⟩, ⟨List.replicate 1608 0, by decide +kernel⟩, ⟨State.reset, by decide +kernel⟩,
   fun l hl => ⟨demoNet { Adp.reset 0 with hs := [demoHs l] }, demoHs l, by
     simp only [List.mem_cons, List.not_mem_nil, or_false] at hl; rcases hl with rfl | rfl <;> decide +kernel⟩,
   ⟨List.replicate 3080 0, by decide +kernel⟩, ⟨[], by decide⟩,
   ⟨State.reset, demoHs 2, fun b => by
     have h : ∀ k ∈ upto 16, (clientKey (demoHs 2).keys k).en = false := by decide +kernel
     simp only [keyListed, List.any_eq_false]
     intro k hk; rw [h k hk]; simp, by decide +kernel⟩,
   ⟨State.reset, by decide +kernel⟩, ⟨demoAdp { Adp.reset 0 with sessions := [demoSess] }, demoSess, by decide +kernel⟩⟩

/-! ### DictionaryRequests: its hypotheses are met -/

def demoS : State := demoAdp { Adp.reset 0 with sessions := [{ demoSess with kept := [⟨3, [1]⟩] }] }
def demoSub : Sub := ⟨5, 7, ⟨0, 0⟩, 0x1000, 0, 0, 100, []⟩
theorem wit_DictionaryRequests :
    (∃ (s : State) (x : DictCtx), findSession s x.sid = none) ∧
    (∃ (s : State) (x : DictCtx) (w : Session) (b : List Byte), findSession s x.sid = some w ∧ reqState s x = .kept b) ∧
    (∃ (s : State) (x : DictCtx) (w : Session), findSession s x.sid = some w ∧ reqState s x = .stale) ∧
    (∃ (s : State) (x : DictCtx) (e : DictEntry) (w : Session) (o : Obj), reqState s x = .fresh w ∧ writeCheck s (lvlOf w) e = .inl o) ∧
    (∃ (s : State) (x : DictCtx) (e : DictEntry) (w : Session), reqState s x = .fresh w ∧ writeCheck s (lvlOf w) e = .inr stNoObject ∧
      objOf e.index e.sub = none) ∧
    (∃ es : List DictEntry, countOk es = false) ∧ (∃ es : List DictEntry, countOk es = true) ∧
    (∃ (s : State) (e : DictEntry) (o : Obj), readCheck s 2 e.index e.sub = .inl o ∧ subInt 0 0 = some 100 ∧ s.adp.subs = []) ∧
    (∃ (s : State) (x : DictCtx) (w : Session) (b : Sub), reqState s x = .fresh w ∧
      (s.adp.subs.find? fun q => q.id = 5 ∧ q.sid = x.sid) = some b ∧ s.adp.subs.find? (·.id = 5) = some b) ∧
    (∃ (s : State) (x : DictCtx) (w : Session), reqState s x = .fresh w ∧ (s.adp.subs.find? fun q => q.id = 5 ∧ q.sid = x.sid) = none ∧
      s.adp.subs.find? (·.id = 5) = none) ∧
    (∃ (s t : State) (x : DictCtx), exec (.tokrevoke x) s = .next t) :=
  ⟨⟨State.reset, ⟨7, 5⟩, by decide +kernel⟩, ⟨demoS, ⟨7, 3⟩, _, [1], rfl, by decide +kernel⟩, ⟨demoS, ⟨7, 4⟩, _, rfl, by decide +kernel⟩,
   ⟨demoS, ⟨7, 5⟩, ⟨0x5002, 1, [1, 0]⟩, _, (objOf 0x5002 1).get (by decide +kernel), rfl, by decide +kernel⟩,
   ⟨demoS, ⟨7, 5⟩, ⟨0xFFFF, 0, []⟩, _, rfl, by decide +kernel⟩, ⟨[], by decide⟩, ⟨[⟨0, 0, []⟩], by decide⟩,
   ⟨demoS, ⟨0x5002, 1, []⟩, (objOf 0x5002 1).get (by decide +kernel), by decide +kernel, by decide +kernel, rfl⟩,
   ⟨demoAdp { Adp.reset 0 with sessions := [demoSess], subs := [demoSub] }, ⟨7, 5⟩, demoSess, demoSub, by decide +kernel⟩,
   ⟨demoS, ⟨7, 5⟩, _, rfl, by decide +kernel⟩, ⟨demoS, _, ⟨7, 5⟩, rfl⟩⟩

/-! ### PlatformCommandsOfTheDictionary: its hypotheses are met -/

def demoNs (n : Ns) (c : Option NsCmd) : State :=
  { demoAdp { Adp.reset 0 with sessions := [demoSess] } with
    stor := { Stor.reset with st := 2 }
    ftl := { Ftl.reset with maps := { Maps.reset with nss := [(1, n)] }, nsCmd := c } }
def demoGeo : Geo := ⟨4, 100, false, 1, 2, 384, 1, 1, 1, 1, 1, 1, 1⟩
def demoLg : State :=
  { demoNs ⟨1, 1, 0, 10, 5⟩ none with
    ftl := { (demoNs ⟨1, 1, 0, 10, 5⟩ none).ftl with
      lgs := [(0, { LgSt.reset with state := 2, fmt := true, geo := demoGeo })]
      maps := { Maps.reset with nss := [(1, ⟨1, 1, 0, 10, 5⟩)], bands := (upto 1100).map fun i => (i, { Band.none with st := .free }) } } }
theorem wit_PlatformCommandsOfTheDictionary :
    (∃ (s : State) (x : DictCtx) (w : Session), reqState s x = .fresh w ∧ w.level = 0) ∧
    (∃ (s : State) (x : DictCtx) (w : Session), reqState s x = .fresh w ∧ w.level ≠ 0 ∧ s.stor.st ≠ 2 ∧
      (∃ k : BitVec 8, k.toNat ≤ 3 ∧ goCheck s 12 (k.setWidth 2) = 0)) ∧
    (∃ (s : State) (x : DictCtx) (w : Session), reqState s x = .fresh w ∧ w.level ≠ 0 ∧ s.stor.st = 2 ∧ s.ftl.nsCmd.isSome = true) ∧
    (∃ (s : State) (x : DictCtx) (w : Session) (b : Nat), reqState s x = .fresh w ∧ w.level ≠ 0 ∧ s.stor.st = 2 ∧ s.ftl.nsCmd = none ∧
      (s.ns 2).state = 0 ∧ maskOk s 1 = true ∧ nsegTotal s + 5 ≤ min 458752 (lsegMax s) ∧ lowestBase s 5 = some b) ∧
    (∃ (s : State) (x : DictCtx) (w : Session), reqState s x = .fresh w ∧ w.level ≠ 0 ∧ s.stor.st = 2 ∧ s.ftl.nsCmd = none ∧
      (s.ns 1).state = 1 ∧ 5 < (s.ns 1).nseg ∧ (s.ns 1).nseg < 12 ∧
      rangeFree s 1 ((s.ns 1).sbase + (s.ns 1).nseg) (12 - (s.ns 1).nseg) = true ∧ nsegTotal s + 12 - (s.ns 1).nseg ≤ min 458752 (lsegMax s)) ∧
    (∃ (s : State) (x : DictCtx) (w : Session) (b : BlockId) (c : Nat), reqState s x = .fresh w ∧ w.level ≠ 0 ∧
      (powerRequest 0 b .dictionary (some x) s).2 = some c) ∧
    (∃ (s : State) (x : DictCtx) (w : Session), reqState s x = .fresh w ∧ w.level ≠ 0 ∧ goCheck s 1 1 = 0) :=
  ⟨⟨demoAdp { Adp.reset 0 with sessions := [{ demoSess with level := 0 }] }, ⟨7, 5⟩, _, rfl, rfl⟩,
   ⟨demoAdp { Adp.reset 0 with sessions := [demoSess] }, ⟨7, 5⟩, demoSess, by decide +kernel, by decide +kernel, by decide +kernel, 1, by decide +kernel⟩,
   ⟨demoNs Ns.reset (some ⟨1, 1, none, 0, 0, []⟩), ⟨7, 5⟩, demoSess, by decide +kernel⟩,
   ⟨demoLg, ⟨7, 5⟩, demoSess, 10, by decide +kernel⟩, ⟨demoLg, ⟨7, 5⟩, demoSess, by decide +kernel⟩,
   ⟨demoAdp { Adp.reset 0 with sessions := [demoSess] }, ⟨7, 5⟩, demoSess, 0, 0, by decide +kernel⟩,
   ⟨{ demoAdp { Adp.reset 0 with sessions := [demoSess] } with
      pkg := { Pkg.reset with fuseDone := true, excl := [(1, 0)], dieFuse := [(1, 0xFFFFF <<< 156)], slvHeld := 0xFFF } }, ⟨7, 5⟩, demoSess, by decide +kernel⟩⟩

/-! ### TestAccessPortAndSelfTest: its hypotheses are met -/

def demoDbg (d : Dbg) : State := { demoState demoHart with dbg := d }
theorem wit_TestAccessPortAndSelfTest :
    (∃ s : State, s.dbg.dmistat ≠ 0) ∧ (∃ (s : State) (v : BitVec 50), s.dbg.dmistat = 0 ∧ v.extractLsb' 0 2 ≠ 1 ∧ v.extractLsb' 0 2 ≠ 2) ∧
    (∀ o ∈ [(1 : BitVec 2), 2], ∃ (s : State) (v : BitVec 50) (m : ModuleId), s.dbg.dmistat = 0 ∧
      dmiModule (v.extractLsb' 34 16).toNat = some m ∧ (m.val = 12 ∨ (s.slvPwr m).sl = 0) ∧ v.extractLsb' 0 2 = o) ∧
    (∃ k : List Byte, k.length = 3136) ∧ (∃ s : State, s.dbg.tok = none) ∧
    (∃ s : State, s.dbg.tok = some ([], []) ∧ s.dbg.tokDict = none) ∧ (∃ s : State, domrstAllowed s .iommu = false) ∧
    (∃ (s : State) (v : Word), domrstAllowed s (.mc .e) = true ∧ fld v 8 4 = 12 ∧ fld v 0 2 = 1 ∧ bit v 63 = true ∧ (s.bist 12).state ≠ 2) ∧
    (∃ s : State, (s.bist 1).state ≠ 2) ∧ (∀ n : Nat, ∃ s : State, (s.bist 1).state = 2 ∧ (s.bist 1).step = n) ∧
    (∃ l : List (BitVec 64), l.length = 78) :=
  ⟨⟨demoDbg { Dbg.reset with dmistat := 3 }, by decide +kernel⟩, ⟨State.reset, 0, by decide +kernel⟩,
   fun o ho => by
     simp only [List.mem_cons, List.not_mem_nil, or_false] at ho
     rcases ho with rfl | rfl
     · exact ⟨demoDbg Dbg.reset, 1, 12, by decide +kernel⟩
     · exact ⟨demoDbg Dbg.reset, 2, 12, by decide +kernel⟩,
   ⟨List.replicate 3136 0, List.length_replicate⟩, ⟨State.reset, rfl⟩, ⟨demoDbg { Dbg.reset with tok := some ([], []) }, rfl, rfl⟩,
   ⟨State.reset, by decide +kernel⟩, ⟨State.reset, 0x8000000000000C01, by decide +kernel⟩, ⟨State.reset, by decide +kernel⟩,
   fun n => ⟨demoDbg { Dbg.reset with bist := [(1, { BistSt.reset with state := 2, step := n })] }, rfl, rfl⟩,
   ⟨List.replicate 78 0, by decide⟩⟩
/-- The premise that the sender runs is met by the Cloak in every state, so in the states of the witness beside it. -/
theorem wit_TestAccessPortAndSelfTest_runs : ∀ s : State, agentRuns s .cloak = true := fun _ => rfl

/-! ### HaltResumeAccessesAndTriggers: its hypotheses are met -/

def demoOut (x : Hart) : State := { demoState x with pkg := { (demoState x).pkg with slvHeld := 0 } }
def demoMod (d : DbgMod) (x : Hart) : State := { demoOut x with dbg := { Dbg.reset with mods := [(0, d)] } }
def demoTrig (d : Word) : Hart := { demoHart with trigs := [(0, ⟨d, 0x80000000, 0⟩)] }
theorem wit_HaltResumeAccessesAndTriggers :
    (∃ s : State, dbgAvail s 0 ≠ 2) ∧
    (∀ b : Bool, ∃ s : State, dbgAvail s 0 = 2 ∧ (s.hart 0).halted = false ∧ sleepScope s 0 = none ∧ dbgHold s 0 = b) ∧
    (∃ (s : State) (c : Scope), dbgAvail s 0 = 2 ∧ (s.hart 0).halted = false ∧ sleepScope s 0 = some c) ∧
    (∃ s : State, dbgAvail s 0 = 2 ∧ (s.hart 0).halted = true ∧ tabGet s.dbg.resGrp 0 0 = 0 ∧ fld ((s.hart 0).c 0x7B0) 0 2 = (3 : BitVec 2)) ∧
    (∃ s : State, fld ((s.hart 0).c 0x7B0) 0 2 ≠ (3 : BitVec 2)) ∧
    (∃ s : State, slvPresent s 1 = false) ∧ (∃ s : State, slvPresent s 0 = true ∧ (s.dm 0).ndm = false) ∧
    (∃ s : State, cmderrOf s 0 ≠ 0) ∧ (∃ s : State, cmderrOf s 0 = 0 ∧ dmBusy s 0 = true) ∧
    (∀ b : Bool, ∃ s : State, cmderrOf s 0 = 0 ∧ dmBusy s 0 = false ∧
      dmHalted (s.modDm 0 fun d => { d with cmd := 0x321001 }) 0 ((s.modDm 0 fun d => { d with cmd := 0x321001 }).dm 0).hartsel.toNat = b) ∧
    (∃ s : State, hartRuns s 0 = true ∧ (s.hart 0).indir = none ∧ (s.hart 0).rest = [] ∧ (s.hart 0).prog = true) ∧
    (∃ (s : State) (v : Word), absRead s 0 0x1001 = some v) ∧ (∃ s t : State, absWrite 0 0x1001 5 s = some t) ∧
    (∃ s : State, (s.dm 0).sbErr ≠ 0) ∧ (∃ s : State, (s.dm 0).sbErr = 0 ∧ (s.dm 0).sbBusyErr = false ∧ (s.dm 0).sbBusy = false) ∧
    (∃ s : State, 3 < (s.dm 0).sbAcc.toNat) ∧ (∃ s : State, (s.dm 0).sbAcc.toNat ≤ 3 ∧ (s.dm 0).sbAddr.toNat % 2 ^ 52 % 2 ^ (s.dm 0).sbAcc.toNat ≠ 0) ∧
    (∃ s : State, (s.dm 0).sbBusy = true) ∧ (∃ s : State, hartRuns s 0 = false) ∧
    (∀ n ∈ [0, 1], ∃ s : State, hartRuns s 0 = true ∧ (s.hart 0).halted = false ∧ (s.hart 0).indir = none ∧ dbgHold s 0 = false ∧ trigChain (s.hart 0) 0 = false ∧
      trigMatch (s.hart 0) ((s.hart 0).trig 0) .exec = true ∧ trigAction ((s.hart 0).trig 0) = n) :=
  ⟨⟨State.reset, by decide +kernel⟩,
   fun b => ⟨demoOut (if b then demoSec else demoHart), by cases b <;> decide +kernel⟩,
   ⟨{ demoOut demoHart with pwr := { Pwr.reset with coreSl := [(0, 2)] } }, .core 0, by decide +kernel⟩,
   ⟨demoOut ({ demoHart with halted := true } : Hart), by decide +kernel⟩,
   ⟨demoState (demoHart.setC 0x7B0 0x40000001), by decide +kernel⟩, ⟨State.reset, by decide +kernel⟩, ⟨demoState demoHart, by decide +kernel⟩,
   ⟨demoMod { DbgMod.reset with cmderr := 2 } demoHart, by decide +kernel⟩,
   ⟨demoOut { demoHart with halted := true, prog := true }, by decide +kernel⟩,
   fun b => ⟨demoMod DbgMod.reset { demoHart with halted := b }, by cases b <;> decide +kernel⟩,
   ⟨demoOut { demoHart with halted := true, prog := true }, by decide +kernel⟩,
   ⟨demoState demoHart, _, rfl⟩, ⟨demoState demoHart, _, rfl⟩, ⟨demoMod { DbgMod.reset with sbErr := 2 } demoHart, by decide +kernel⟩,
   ⟨State.reset, by decide +kernel⟩, ⟨demoMod { DbgMod.reset with sbAcc := 4 } demoHart, by decide +kernel⟩,
   ⟨demoMod { DbgMod.reset with sbAcc := 2, sbAddr := 1 } demoHart, by decide +kernel⟩,
   ⟨demoMod { DbgMod.reset with sbBusy := true } demoHart, by decide +kernel⟩, ⟨State.reset, by decide +kernel⟩,
   fun n hn => by
     simp only [List.mem_cons, List.not_mem_nil, or_false] at hn
     rcases hn with rfl | rfl
     · exact ⟨demoState (demoTrig 0x6000000000000044), by decide +kernel⟩
     · exact ⟨demoState (demoTrig 0x6800000000001044), by decide +kernel⟩⟩

/-! ### InboundRequestsOfDevices: its hypotheses are met -/

def demoPcie (m : BitVec 32) (h : List Held) (tx : List Txn) : State :=
  { demoDram demoHart with
    pcie := { Pcie.reset with links := [(0, { PLink.reset with up := true })], iommu := ⟨[(4, m)], [], [], [⟨5, none, [3, 0, 0, 0, 0, 0, 0, 0]⟩]⟩ }
    coh := { Coh.reset with txns := tx }
    fab := { Fab.reset with held := h } }
def demoReq (a : Nat) : DevReq := ⟨0, 0, 5, none, false, false, BitVec.ofNat 64 a, false⟩
def demoInMet (p : BitVec 8) : State :=
  { demoPcie 1 [] [] with belt := { Belt.reset with acts := [(9, { Act.reset 9 with en := true, active := true, cls := 0, scope := 0xF })] } }
theorem wit_InboundRequestsOfDevices :
    (∃ (s : State) (r : DevReq), linkServes s r.port r.link = true ∧ busOk r = false) ∧
    (∃ (r : DevReq) (d : List Byte), devLenOk r d.length 512 = false) ∧
    (∃ (r : DevReq) (d : List Byte), devLenOk r d.length 512 = true ∧ devLenOk r d.length 4096 = true) ∧
    (∃ (r : DevReq) (n : Nat), devLenOk r n 4096 = false) ∧ (∃ s : State, linkServes s 0 0 = false) ∧
    (∃ (s : State) (r : DevReq) (x : IoOk), linkServes s r.port r.link = true ∧ busOk r = true ∧ (inboundXlate r true true s).2 = some x ∧
      (inboundMeter true r x 1 (.inboundMsi r 0) s (inboundXlate r true true s).1).2 = true ∧
      refusal (inboundMeter true r x 1 (.inboundMsi r 0) s (inboundXlate r true true s).1).1 (devAgent r) false true x.pa = none ∧
      devMem (regionOf (inboundMeter true r x 1 (.inboundMsi r 0) s (inboundXlate r true true s).1).1 x.pa) = true ∧
      (linesOf x.pa 4).length = 1) ∧
    (∃ (s : State) (r : DevReq) (x : IoOk), linkServes s r.port r.link = true ∧ busOk r = true ∧ (inboundXlate r true true s).2 = some x ∧
      (inboundMeter true r x 1 (.inboundMsi r 0) s (inboundXlate r true true s).1).2 = true ∧
      regionOf (inboundMeter true r x 1 (.inboundMsi r 0) s (inboundXlate r true true s).1).1 x.pa = .imsic 0 0 0 ∧
      refusal (inboundMeter true r x 1 (.inboundMsi r 0) s (inboundXlate r true true s).1).1 (devAgent r) false true x.pa = none ∧
      hartFailed (inboundMeter true r x 1 (.inboundMsi r 0) s (inboundXlate r true true s).1).1 0 = false) ∧
    (∃ (s : State) (r : DevReq) (x : IoOk), linkServes s r.port r.link = true ∧ busOk r = true ∧ (inboundXlate r true true s).2 = some x ∧
      (inboundMeter true r x 1 (.inboundMsi r 0) s (inboundXlate r true true s).1).2 = true ∧
      (refusal (inboundMeter true r x 1 (.inboundMsi r 0) s (inboundXlate r true true s).1).1 (devAgent r) false true x.pa).isSome = true) ∧
    (∃ (s : State) (r : DevReq) (x : IoOk), linkServes s r.port r.link = true ∧ busOk r = true ∧ (inboundXlate r true true s).2 = some x ∧
      (inboundMeter true r x 1 (.inboundMsi r 0) s (inboundXlate r true true s).1).2 = false) ∧
    (∃ (s : State) (r : DevReq), linkServes s r.port r.link = true ∧ busOk r = true ∧ (inboundXlate r true true s).2 = none) ∧
    (∃ (s : State) (r : DevReq) (x : IoOk), linkServes s r.port r.link = true ∧ busOk r = true ∧ (inboundXlate r false false s).2 = some x ∧
      (linesOf x.pa 4).any (lineBusy (inboundXlate r false false s).1) = true) ∧
    (∃ (s : State) (r : DevReq) (x : IoOk), linkServes s r.port r.link = true ∧ busOk r = true ∧ (inboundXlate r false false s).2 = some x ∧
      (linesOf x.pa 4).any (lineBusy (inboundXlate r false false s).1) = false ∧
      (inboundMeter true r x 1 (.inboundMemRead r 4 []) s (inboundXlate r false false s).1).2 = true ∧
      refusal (inboundMeter true r x 1 (.inboundMemRead r 4 []) s (inboundXlate r false false s).1).1 (devAgent r) false false x.pa = none ∧
      devMem (regionOf (inboundMeter true r x 1 (.inboundMemRead r 4 []) s (inboundXlate r false false s).1).1 x.pa) = true) ∧
    (∃ (s : State) (r : DevReq) (x : IoOk), linkServes s r.port r.link = true ∧ busOk r = true ∧ (inboundXlate r true false s).2 = some x ∧
      lineBusy (inboundXlate r true false s).1 (x.pa / 64) = false ∧ x.pa % 8 = 0 ∧
      (inboundMeter true r x 1 (.inboundMsi r 0) s (inboundXlate r true false s).1).2 = true ∧
      (cohRead (inboundMeter true r x 1 (.inboundMsi r 0) s (inboundXlate r true false s).1).1 x.pa 8).2 = false ∧
      (devAtomicNew (.swap true) 5 0 (leNat (cohRead (inboundMeter true r x 1 (.inboundMsi r 0) s (inboundXlate r true false s).1).1 x.pa 8).1)).isSome = true) ∧
    (∃ (s : State) (r : DevReq), linkServes s r.port r.link = true ∧ busOk r = true ∧ r.pasid.isSome = true) ∧
    (∃ (s : State) (r : DevReq) (x : IoOk), linkServes s r.port r.link = true ∧ busOk r = true ∧ r.pasid = none ∧
      (ioTranslate (ioReq { r with xlated := false } false true) s).2 = some x) :=
  ⟨⟨demoPcie 1 [] [], { demoReq 0 with rid := 0x1000 }, by decide +kernel⟩, ⟨demoReq 0xFFF, [1, 2], by decide +kernel⟩, ⟨demoReq 0, [1], by decide +kernel⟩, ⟨demoReq 0, 5000, by decide +kernel⟩, ⟨State.reset, by decide +kernel⟩,
   ⟨demoPcie 1 [] [], demoReq 0x100010000, ⟨0x100010000, 0, 0xDF, 12, false⟩, by decide +kernel⟩,
   ⟨demoPcie 1 [] [], demoReq 0x60000000, ⟨0x60000000, 0, 0xDF, 12, false⟩, by decide +kernel⟩,
   ⟨demoPcie 1 [] [], demoReq 0, ⟨0, 0, 0xDF, 12, false⟩, by decide +kernel⟩,
   ⟨demoInMet 1, demoReq 0x100010000, ⟨0x100010000, 0, 0xDF, 12, false⟩, by decide +kernel⟩,
   ⟨demoPcie 0 [] [], demoReq 0x100010000, by decide +kernel⟩,
   ⟨demoPcie 1 [] [mkTxn .vest .rds 0 0x4000400 none 0], demoReq 0x100010000, ⟨0x100010000, 0, 0xDF, 12, false⟩, by decide +kernel⟩,
   ⟨demoPcie 1 [] [], demoReq 0x100010000, ⟨0x100010000, 0, 0xDF, 12, false⟩, by decide +kernel⟩,
   ⟨demoPcie 1 [] [], demoReq 0x100010000, ⟨0x100010000, 0, 0xDF, 12, false⟩, by decide +kernel⟩,
   ⟨demoPcie 1 [] [], { demoReq 0x100010000 with pasid := some 0 }, by decide +kernel⟩,
   ⟨demoPcie 4 [] [], demoReq 0x100010000, ⟨0x100010000, 0, 0xDF, 12, false⟩, by decide +kernel⟩⟩

/-! ### LinksAndIommuRegisters: its hypotheses are met -/

def demoLinks (p : Port) (k : PLink) : State :=
  { demoState demoHart with pins := { Pins.reset with inReset := false }, pcie := { Pcie.reset with ports := [(0, p)], links := [(0, k)] } }
theorem wit_LinksAndIommuRegisters :
    (∃ s : State, s.pins.inReset = false ∧ portOn s 0 = true ∧ 16 ≤ linkLanes (s.port 0).bifurF 0 ∧ 5 + (s.port 0).rateF.toNat ≤ 6) ∧
    (∃ s : State, s.pins.inReset = true) ∧ (∃ s : State, waitsOn s 0 0 = []) ∧ (∃ s : State, waitsOn s 0 0 = [(3, (.cloak, 0x80000000))]) ∧
    (∀ b : Bool, ∃ s : State, (s.link 0).up = b) ∧ (∃ (v : Word), fld v 61 2 = (3 : BitVec 2)) :=
  ⟨⟨demoLinks { Port.reset with bifurF := 0, rateF := 0 } PLink.reset, by decide +kernel⟩, ⟨State.reset, rfl⟩, ⟨State.reset, by decide +kernel⟩,
   ⟨demoLinks { Port.reset with wait := [(3, (.cloak, 0x80000000))] } PLink.reset, by decide +kernel⟩,
   fun b => ⟨demoLinks Port.reset { PLink.reset with up := b, width := 1 }, by cases b <;> decide +kernel⟩, ⟨BitVec.allOnes 64, by decide⟩⟩
/-- The premise that the sender runs is met by the Cloak in every state, so in the states of the witness beside it. -/
theorem wit_LinksAndIommuRegisters_runs : ∀ s : State, agentRuns s .cloak = true := fun _ => rfl

end Sys2Proof.Tests
end

/-! # What a command can answer

`exec` answers a next state for every command and leaves the queue to `step`. Each meaning is `keepQueue` around a body whose every
branch is `done`: the body sends it through an agent (`sentBy`, `securePage`) or branches on the state, and that is all.
One lemma per such form; the cases of the command are then grouped by the form of their body. -/

namespace Sys2Proof.Machine

open Sys2Proof

theorem answersNext_done (s : State) : answersNext (done s) := ⟨s, rfl⟩

theorem answersNext_ite {p : Prop} [Decidable p] {a b : Out} (ha : answersNext a) (hb : answersNext b) :
    answersNext (if p then a else b) := by
  split
  · exact ha
  · exact hb

/-- A command that an agent may not send changes nothing, and so answers too. -/
theorem answersNext_sentBy {who : Agent} {s : State} {o : Out} (h : answersNext o) : answersNext (sentBy who s o) :=
  answersNext_ite h (answersNext_done s)

theorem answersNext_securePage (who : Agent) (off : Nat) (f : State → State) (s : State) : answersNext (securePage who off f s) :=
  answersNext_ite (answersNext_done _) (answersNext_done _)

theorem answersNext_keepQueue {s : State} {o : Out} (h : answersNext o) : answersNext (keepQueue s o) := by
  obtain ⟨t, rfl⟩ := h
  exact answersNext_done _

theorem answersNext_ne_refused {o : Out} (h : answersNext o) (r : Refusal) : o ≠ .refused r := by
  obtain ⟨t, rfl⟩ := h
  nofun

theorem keepQueue_pending {s t : State} {o : Out} (h : keepQueue s o = .next t) : t.pending = s.pending := by
  cases o with
  | next u => cases h; rfl
  | fault f => cases h
  | refused r => cases h

/-- Every meaning is wrapped in `keepQueue`. -/
theorem exec_eq_keepQueue (c : Instr) (s : State) : ∃ o, exec c s = keepQueue s o := by
  cases c <;> unfold exec <;> exact ⟨_, rfl⟩

theorem exec_pending {c : Instr} {s t : State} (h : exec c s = .next t) : t.pending = s.pending := by
  obtain ⟨o, ho⟩ := exec_eq_keepQueue c s
  exact keepQueue_pending (ho.symm.trans h)

/-- Every command is performed: by the form of its meaning, each branch is `done`. -/
theorem exec_answersNext (c : Instr) (s : State) : answersNext (exec c s) := by
  cases c <;> unfold exec <;> refine answersNext_keepQueue ?_
  -- sent by an agent
  case domcfgLock | slvwaLock | scratchWrite | waypdWrite | rdcur | wrfull | wrpart | atomh | atomf | dramMapLock | cxlDecCommit |
      cxlDecDecommit | storEnable | storDisable | sqcEnable | sqcDisable | holdTestStart | actCfgWrite | tenantReset | plReqWrite |
      hartrelSet | rdptrWrite | rddataRead | iommuBlockWrite | dpcRelease | bistGo | iommuCommandQueue =>
    exact answersNext_sentBy (answersNext_done _)
  -- sent to the secure page
  case hemWrite | monrdySet | wdtCtlWrite | wdtKick =>
    exact answersNext_sentBy (answersNext_securePage _ _ _ _)
  -- sent by an agent, then one test
  case claimWrite | domainReset | sqPush | sqPushend | cqMark | cqRewind | cqRelease | queueReset | queueResetDrop =>
    exact answersNext_sentBy (answersNext_ite (answersNext_done _) (answersNext_done _))
  case cqPop =>
    refine answersNext_sentBy (answersNext_ite (answersNext_done _) ?_)
    split <;> exact answersNext_done _
  -- sent by an agent, then a look-up
  case registerWrite | pocketClear =>
    refine answersNext_sentBy ?_
    split <;> exact answersNext_done _
  -- a chain of tests
  case fuseRead | cuffTrainStepDone | cuffTrainTimeout | issueHandshake | branchResolve | wdtWarn | wdtExpire | wdtDrainDeadline |
      wayDrainDone | wayPowerUpDone | failstopScanDone | cuffVersionMsg | cuffRepairMsg | repairPauseDone | sleeveSupplyLoss |
      timebaseCheck | dramStepTimeout | dqsOscCheck | dramRequest | refsbDue | patrolScrubRead | cxlMemTimeout | cxlLinkDown |
      recoveryDone | storDisableDone | mergeStart | holdTestDaily | holdTestChargeTimeout | powerFailDetect | journalTimeRecord |
      checkpointStart | msiCoalesceTimeout | beltPeriodBoundary | plTransitionDone | laceMatch | setdasa | entdaa | flowPulse |
      thermalShutdown | flowShortTimeout | noFlowTimeout | duplicateAddressDetection | mread | mwrite | describe | mcReloadDone |
      packageResetEnd | claimWindowClose | holderAbsentTimeout | disagreeTimeout | aliasKeygenDone | pocketMsiHoldoffExpire |
      mirrorFlushTimeout | inboundMemWrite | inboundMemRead | surpriseLinkDown | dtmcs | sectoken | systemBusAccess | bistStepDone |
      linkUp | systemBusTimeout =>
    repeat' with_reducible refine answersNext_ite ?_ ?_
    all_goals exact answersNext_done _
  -- one look-up
  case msiWrite | dramReadAgeExpire | nop | read | discard | flush | drainStepDone | knownEventWake | notify | pocketRecordWrite |
      completionTimeout =>
    split <;> exact answersNext_done _
  -- look-ups and tests
  case claimBoundExpire | sliceTimeout | haTimeout | cuffAckTimeout | flashProgramDone | mergeMapDurable | fillIdleExpire |
      holdEnergyUpdate | holdTestStepDone | sleepEnter | sleepEntryDone | wakeStepReady | powerReqDone | bootStepDone | tokenVerifyDone |
      pwrfailRelease =>
    repeat' split
    all_goals exact answersNext_done _
  -- look-ups and tests of values named on the way
  case indirectResolve | interruptTake | prefetcherIssue | hemScanDone | scratchStepDone | cuffDataFlit | cuffControlFlit | dramStepDone |
      dimmTempSample | commandAdmit | commandComplete | flashReadDone | flashEraseDone | powerLimiterTick | dmi | triggerFire |
      atsTranslationRequest =>
    dsimp only
    repeat' split
    all_goals exact answersNext_done _
  -- the other commands: one effect, whatever the state
  all_goals exact answersNext_done _

/-- A command is performed, and its effect is on everything but the queue. -/
theorem exec_performs (c : Instr) (s : State) : ∃ t, exec c s = .next t ∧ t.pending = s.pending := by
  obtain ⟨t, ht⟩ := exec_answersNext c s
  exact ⟨t, ht, exec_pending ht⟩

theorem idle_pending (s : State) : (idle s).pending = s.pending := by
  rw [idle]

/-- A step takes the front command off the queue, and with an empty queue leaves it empty. -/
theorem step_takes_front (s : State) : ∃ t, step s = .next t ∧ t.pending = s.pending.tail := by
  cases hq : s.pending with
  | nil => exact ⟨idle s, by simp [step, hq], by simp [idle_pending, hq]⟩
  | cons c rest => simpa [step, hq] using exec_performs c { s with pending := rest }

/-- Settles O3: a step takes the front command off, and the tail of a list of well-formed commands is one. -/
theorem stepKeepsTheQueueWellFormed : Obligations.StepKeepsTheQueueWellFormed := by
  intro s hs
  obtain ⟨t, ht, hq⟩ := step_takes_front s
  refine ⟨t, ht, hq, ?_⟩
  unfold queueOk at hs ⊢
  rw [hq, List.all_eq_true]
  exact fun c hc => List.all_eq_true.mp hs c (List.mem_of_mem_tail hc)

/-- Settles O2, from the form of each meaning. -/
theorem wellFormedCommandsAnswer : Obligations.WellFormedCommandsAnswer :=
  ⟨exec_answersNext, fun c s r => answersNext_ne_refused (exec_answersNext c s) r, fun _ _ _ h => exec_pending h⟩

end Sys2Proof.Machine

/-! # Sparse tables are canonical

Two tables in canonical form that read the same are equal: their heads agree, since the smaller head key would read as the default in
the other table, and their tails again read the same. -/

namespace Sys2Proof.Machine

open Sys2Proof

/-- The parts of the canonical form of a table that is not empty. -/
theorem tabWf_cons {α : Type} [DecidableEq α] {d : α} {e : Nat × α} {r : Tab α} :
    tabWf d (e :: r) = true ↔ tabAbove e.1 r = true ∧ e.2 ≠ d ∧ tabWf d r = true := by
  simp [tabWf, and_assoc]

theorem tabGet_cons_self {α : Type} (e : Nat × α) (r : Tab α) (d : α) : tabGet (e :: r) d e.1 = e.2 := by
  simp [tabGet, tabFind]

theorem tabGet_cons_ne {α : Type} {e : Nat × α} {k : Nat} (r : Tab α) (d : α) (h : k ≠ e.1) : tabGet (e :: r) d k = tabGet r d k := by
  simp [tabGet, tabFind, h.symm]

theorem tabGet_above {α : Type} {r : Tab α} {b k : Nat} (d : α) (w : tabAbove b r = true) (h : k ≤ b) : tabGet r d k = d := by
  simp [tabGet, tabFind_above r b k w h]

/-- A key below a table's first key reads as the default. -/
theorem tabGet_lt_head {α : Type} {e : Nat × α} {r : Tab α} {k : Nat} (d : α) (w : tabAbove e.1 r = true) (h : k < e.1) :
    tabGet (e :: r) d k = d := by
  rw [tabGet_cons_ne r d (by omega), tabGet_above d w (by omega)]

/-- In canonical tables that read the same, no first key is below the other one. -/
theorem head_le_of_reads {α : Type} [DecidableEq α] {d : α} {e f : Nat × α} {t u : Tab α} (ht : tabWf d (e :: t) = true)
    (hu : tabWf d (f :: u) = true) (h : ∀ k, tabGet (e :: t) d k = tabGet (f :: u) d k) : f.1 ≤ e.1 := by
  obtain ⟨-, he, -⟩ := tabWf_cons.mp ht
  obtain ⟨hf, -, -⟩ := tabWf_cons.mp hu
  refine Nat.le_of_not_lt fun hlt => he ?_
  rw [← tabGet_cons_self e t d, h e.1, tabGet_lt_head d hf hlt]

/-- A canonical table that reads as the default everywhere is empty. -/
theorem tab_eq_nil_of_reads {α : Type} [DecidableEq α] {d : α} {t : Tab α} (ht : tabWf d t = true) (h : ∀ k, tabGet t d k = d) : t = [] := by
  cases t with
  | nil => rfl
  | cons e r => exact absurd ((tabGet_cons_self e r d).symm.trans (h e.1)) (tabWf_cons.mp ht).2.1

theorem tab_ext {α : Type} [DecidableEq α] {d : α} {t u : Tab α} (ht : tabWf d t = true) (hu : tabWf d u = true)
    (h : ∀ k, tabGet t d k = tabGet u d k) : t = u := by
  induction t generalizing u with
  | nil => exact (tab_eq_nil_of_reads hu fun k => (h k).symm).symm
  | cons e r ih =>
    cases u with
    | nil => exact tab_eq_nil_of_reads ht h
    | cons f q =>
      have hk : e.1 = f.1 := Nat.le_antisymm (head_le_of_reads hu ht fun k => (h k).symm) (head_le_of_reads ht hu h)
      have hv : e.2 = f.2 := by
        have := h e.1
        rwa [tabGet_cons_self, hk, tabGet_cons_self] at this
      have hef : e = f := Prod.ext hk hv
      subst hef
      obtain ⟨hr, -, wr⟩ := tabWf_cons.mp ht
      obtain ⟨hq, -, wq⟩ := tabWf_cons.mp hu
      have htail : ∀ k, tabGet r d k = tabGet q d k := by
        intro k
        by_cases hke : k = e.1
        · rw [tabGet_above d hr (Nat.le_of_eq hke), tabGet_above d hq (Nat.le_of_eq hke)]
        · rw [← tabGet_cons_ne r d hke, h k, tabGet_cons_ne q d hke]
      rw [ih wr wq htail]

/-- A write of a canonical table, whole. -/
theorem tabSet_writes {α : Type} [DecidableEq α] (t : Tab α) (d : α) (k : Nat) (v : α) (w : tabWf d t = true) :
    tabWf d (tabSet t d k v) = true ∧ tabGet (tabSet t d k v) d k = v ∧ ∀ j, j ≠ k → tabGet (tabSet t d k v) d j = tabGet t d j :=
  ⟨tabWf_set t d k v w, tabGet_set_wf t d k v w, fun j hj => tabGet_set_ne t d k j v hj⟩

/-- Settles O5, by the laws of a table's write and by induction on two tables that read the same. -/
theorem sparseTablesAreCanonicalMemories : Obligations.SparseTablesAreCanonicalMemories :=
  ⟨tabSet_writes, tabSet_writes, fun _ _ _ ht hu h => tab_ext ht hu h⟩

end Sys2Proof.Machine

/-! # Register writes

A REGISTER_WRITE of an agent that runs is `regWriteBy`, which has one equation for each window a register can stand in. -/

namespace Sys2Proof.Machine

open Sys2Proof

/-- A register of a data page does not stand in the secure page. -/
theorem secureOff_of_page {r : Reg} {q : QId} (h : pageOf r = some q) : secureOff r = none := by
  cases r <;> cases h <;> rfl

theorem regWriteBy_secure {who : Agent} {r : Reg} {o : Nat} {v : Word} {s : State} (ho : secureOff r = some o)
    (hs : agentSecure s who = true) : regWriteBy who r v s = regWrite who r v s := by
  simp [regWriteBy, ho, hs]

theorem regWriteBy_world {who : Agent} {r : Reg} {o : Nat} {v : Word} {s : State} (ho : secureOff r = some o)
    (hs : agentSecure s who = false) :
    regWriteBy who r v s = faultAgent who true (reportUcs who .world (0x8000000 + o) true s) := by
  simp [regWriteBy, ho, hs]

theorem regWriteBy_page {who : Agent} {r : Reg} {q : QId} {v : Word} {s : State} (hq : pageOf r = some q) :
    regWriteBy who r v s = if pageRefused s who q then refusePage who q 0 s else regWrite who r v s := by
  simp [regWriteBy, secureOff_of_page hq, hq]

theorem exec_registerWrite_mmio {who : Agent} {r : Reg} {v : Word} {s : State} (hw : agentRuns s who = true) :
    exec (.registerWrite who (.mmio r) v) s = .next { regWriteBy who r v s with pending := s.pending } := by
  show keepQueue s (sentBy who s (done (regWriteBy who r v s))) = _
  rw [sentBy_runs hw, keepQueue_done]

theorem exec_registerWrite_csr {who : Agent} {h : HartId} {n : BitVec 12} {v : Word} {s : State} (hw : agentRuns s who = true)
    (hi : hartIssues s h = true) :
    exec (.registerWrite who (.csr h n) v) s = .next { csrInstr h n.toNat v s with pending := s.pending } := by
  show keepQueue s (sentBy who s (done (byHart h (csrInstr h n.toNat v) s))) = _
  rw [sentBy_runs hw, keepQueue_done, byHart_issues hi]

/-- A register that refuses nobody, whose write leaves the queue: the write is performed. -/
theorem exec_registerWrite_open {who : Agent} {r : Reg} {v : Word} {s t : State} (hw : agentRuns s who = true)
    (ht : regWriteBy who r v s = t) (hp : t.pending = s.pending) : exec (.registerWrite who (.mmio r) v) s = .next t := by
  rw [exec_registerWrite_mmio hw, ht, ← hp]

/-- Two adjacent fields of a word, from bit 0 up, joined again: the word's low bits. -/
theorem cat_adjacent_fields (v : Word) (n m : Nat) : cat [at_ n (fld v n m), at_ 0 (fld v 0 n)] = (v.setWidth (n + m)).setWidth 64 := by
  ext i hi
  by_cases h : i < n
  · have : i < n + m := by omega
    simp [cat, at_, fld, h, this]
  · have hsum : n + (i - n) = i := by omega
    have hlt : i - n < m ↔ i < n + m := by omega
    simp [cat, at_, fld, h, hsum, hlt]

theorem setWidth_32_64 (v : Word) : (v.setWidth 32).setWidth 64 = v &&& 0xFFFFFFFF := by
  apply BitVec.eq_of_toNat_eq
  have h : v.toNat &&& 0xFFFFFFFF = v.toNat % 2 ^ 32 := Nat.and_two_pow_sub_one_eq_mod v.toNat 32
  have hlt : v.toNat % 2 ^ 32 < 2 ^ 64 := by omega
  simpa [h] using hlt

theorem rdRegcfg_eq (s : State) : rdRegcfg s = s.fab.grant.setWidth 64 := by simp [rdRegcfg, at_]

theorem wrRegcfg_good {v : Word} {s : State} (h1 : 1 ≤ (fld v 0 8).toNat) (h2 : (fld v 0 8).toNat ≤ 64) :
    wrRegcfg v s = { s with fab := { s.fab with grant := fld v 0 8 } } := if_pos ⟨h1, h2⟩

theorem wrRegcfg_bad {v : Word} {s : State} (h : (fld v 0 8).toNat < 1 ∨ 64 < (fld v 0 8).toNat) : wrRegcfg v s = s :=
  if_neg (by omega)

theorem wrCohTmo_good {v : Word} {s : State} (h1 : 10 ≤ (fld v 16 16).toNat) (h2 : (fld v 16 16).toNat ≤ 10000)
    (h3 : 1 ≤ (fld v 0 16).toNat) (h4 : (fld v 0 16).toNat ≤ 1000) (h5 : (fld v 0 16).toNat + 10 ≤ (fld v 16 16).toNat) :
    wrCohTmo v s = { s with coh := { s.coh with haTmo := fld v 16 16, slTmo := fld v 0 16 } } := if_pos ⟨h1, h2, h3, h4, h5⟩

theorem wrCohTmo_bad {v : Word} {s : State} (h : (fld v 16 16).toNat < (fld v 0 16).toNat + 10) : wrCohTmo v s = s :=
  if_neg (by omega)

/-- Settles O31, a clause at a time: where the register stands says which equation of `regWriteBy` applies. -/
theorem registerWrites : Obligations.RegisterWrites := by
  refine ⟨?readOnly, ?world, ?secure, ?page, ?csr, ?regcfgGood, ?regcfgBad, ?tmoGood, ?tmoBad, ?ecc⟩
  case readOnly =>
    intro s who v hw r hr
    refine exec_registerWrite_open hw ?_ rfl
    simp only [List.mem_cons, List.not_mem_nil, or_false] at hr
    rcases hr with rfl | rfl | rfl | rfl | rfl | rfl | rfl | rfl | rfl | rfl | rfl | rfl | rfl | rfl | rfl | rfl |
      rfl | rfl | rfl | rfl <;> rfl
  case world =>
    intro s who r o v hw ho hs
    rw [exec_registerWrite_mmio hw, regWriteBy_world ho hs]
  case secure =>
    intro s who r o v hw ho hs
    rw [exec_registerWrite_mmio hw, regWriteBy_secure ho hs]
  case page =>
    intro s who r q v hw hq
    rw [exec_registerWrite_mmio hw, regWriteBy_page hq]
  case csr =>
    -- csrInstr makes the CSR's check itself, so the clause holds with or without its premise
    intro s who h n v hw hi _
    exact exec_registerWrite_csr hw hi
  case regcfgGood =>
    intro s who v hw h1 h2
    exact ⟨_, exec_registerWrite_open hw (wrRegcfg_good h1 h2) rfl, rdRegcfg_eq _, rfl⟩
  case regcfgBad =>
    intro s who v hw h
    exact exec_registerWrite_open hw (wrRegcfg_bad h) rfl
  case tmoGood =>
    intro s who v hw h1 h2 h3 h4 h5
    exact ⟨_, exec_registerWrite_open hw (wrCohTmo_good h1 h2 h3 h4 h5) rfl,
      (cat_adjacent_fields v 16 16).trans (setWidth_32_64 v), rfl⟩
  case tmoBad =>
    intro s who v hw h
    exact exec_registerWrite_open hw (wrCohTmo_bad h) rfl
  case ecc =>
    intro s who v hw
    exact ⟨_, exec_registerWrite_open hw rfl rfl, (cat_adjacent_fields v 32 32).trans (by simp), rfl, rfl⟩

end Sys2Proof.Machine

/-! # The interrupt files in the address map (R31) -/

namespace Sys2Proof.Machine

open Sys2Proof

theorem imsicAt_machine {h o : Nat} (hh : h < 960) (ho : o < 0x1000) : imsicAt (h * 0x1000 + o) = some (h, 0, o) := by
  have hlt : h * 0x1000 + o < 0x3C0000 := by omega
  have hdiv : (h * 0x1000 + o) / 0x1000 = h := by omega
  have hmod : (h * 0x1000 + o) % 0x1000 = o := by omega
  simp only [imsicAt, if_pos hlt, hdiv, hmod]

/-- Page `f` of a hart's block of eight: its supervisor-level file at 0, its guest file `f` above. -/
theorem imsicAt_supervisor {h f o : Nat} (hh : h < 960) (hf : f < 8) (ho : o < 0x1000) :
    imsicAt (0x400000 + h * 0x8000 + f * 0x1000 + o) = some (h, 1 + f, o) := by
  have hge : ¬ 0x400000 + h * 0x8000 + f * 0x1000 + o < 0x3C0000 := by omega
  have hin : 0x400000 ≤ 0x400000 + h * 0x8000 + f * 0x1000 + o ∧ 0x400000 + h * 0x8000 + f * 0x1000 + o < 0x2200000 := by omega
  have hx : 0x400000 + h * 0x8000 + f * 0x1000 + o - 0x400000 = h * 0x8000 + f * 0x1000 + o := by omega
  have hdiv : (h * 0x8000 + f * 0x1000 + o) / 0x8000 = h := by omega
  have hpage : (h * 0x8000 + f * 0x1000 + o) % 0x8000 / 0x1000 = f := by omega
  have hmod : (h * 0x8000 + f * 0x1000 + o) % 0x1000 = o := by omega
  simp only [imsicAt, if_neg hge, if_pos hin, hx, hdiv, hpage, hmod]

theorem imsicAt_outside {x : Nat} (h : 0x2200000 ≤ x ∨ (0x3C0000 ≤ x ∧ x < 0x400000)) : imsicAt x = none := by
  have h1 : ¬ x < 0x3C0000 := by omega
  have h2 : ¬ (0x400000 ≤ x ∧ x < 0x2200000) := by omega
  simp only [imsicAt, if_neg h1, if_neg h2]

/-- In its half GiB the map is the interrupt files' map, with the pages of absent harts reserved (R30). -/
theorem regionOf_imsic {s : State} {x : Nat} (hx : x < 0x20000000) : regionOf s (0x60000000 + x) =
    ((imsicAt x).map fun y => if hartPresent s y.1 then Region.imsic y.1 y.2.1 y.2.2 else .reserved).getD .reserved := by
  have above : ∀ b, b ≤ 0x60000000 → ¬ 0x60000000 + x < b := by omega
  have below : 0x60000000 + x < 0x80000000 := by omega
  rw [regionOf, if_neg (above _ (by decide)), if_neg (above _ (by decide)), if_neg (above _ (by decide)), if_neg (above _ (by decide)),
    if_neg (above _ (by decide)), if_neg (above _ (by decide)), if_neg (above _ (by decide)), if_pos below, Nat.add_sub_cancel_left]
  cases imsicAt x <;> rfl

theorem regionOf_file {s : State} {x h f o : Nat} (hx : x < 0x20000000) (hi : imsicAt x = some (h, f, o)) :
    regionOf s (0x60000000 + x) = if hartPresent s h then .imsic h f o else .reserved := by
  rw [regionOf_imsic hx, hi]; rfl

theorem regionOf_noFile {s : State} {x : Nat} (hx : x < 0x20000000) (hi : imsicAt x = none) :
    regionOf s (0x60000000 + x) = .reserved := by
  rw [regionOf_imsic hx, hi]; rfl

/-- Page `f` of a hart's block of eight holds the hart's file `1 + f`. -/
theorem regionOf_supervisorFile {s : State} {h f o : Nat} (hh : h < 960) (hf : f < 8) (ho : o < 0x1000) :
    regionOf s (0x60400000 + h * 0x8000 + f * 0x1000 + o) = if hartPresent s h then .imsic h (1 + f) o else .reserved := by
  have ha : 0x60400000 + h * 0x8000 + f * 0x1000 + o = 0x60000000 + (0x400000 + h * 0x8000 + f * 0x1000 + o) := by omega
  rw [ha]
  exact regionOf_file (by omega) (imsicAt_supervisor hh hf ho)

/-- Settles O13, by the place of each file in the 32 MiB from 0x6000_0000. -/
theorem interruptFileAddresses : Obligations.InterruptFileAddresses := by
  refine ⟨fun s h o hh ho => ⟨?machine, ?supervisor⟩, ?guest, ?outside⟩
  case machine =>
    rw [Nat.add_assoc]
    exact regionOf_file (by omega) (imsicAt_machine hh ho)
  case supervisor => exact regionOf_supervisorFile (f := 0) hh (by omega) ho
  case guest =>
    intro s h g o hh _ hg ho
    exact regionOf_supervisorFile hh (by omega) ho
  case outside =>
    intro s a ha
    obtain ⟨x, rfl⟩ : ∃ x, a = 0x60000000 + x := ⟨a - 0x60000000, by omega⟩
    exact regionOf_noFile (by omega) (imsicAt_outside (by omega))

end Sys2Proof.Machine

/-! # The locks of VEST.DOMCFG and VEST.SLVWA (R26, R34)

Each register's write has one equation per case of Table 1.11 and R26; an accepted write may release harts, which is outside what
`pkgReportView` shows. -/

namespace Sys2Proof.Machine

open Sys2Proof

theorem exec_domcfgLock {who : Agent} {v : Word} {s : State} (hw : agentRuns s who = true) :
    exec (.domcfgLock who v) s = .next { wrDomcfg v s with pending := s.pending } := by
  show keepQueue s (sentBy who s (done (wrDomcfg v s))) = _
  rw [sentBy_runs hw, keepQueue_done]

theorem exec_slvwaLock {who : Agent} {k : SleeveId} {v : Word} {s : State} (hw : agentRuns s who = true) :
    exec (.slvwaLock who k v) s = .next { wrSlvwa k v s with pending := s.pending } := by
  show keepQueue s (sentBy who s (done (wrSlvwa k v s))) = _
  rw [sentBy_runs hw, keepQueue_done]

theorem wrDomcfg_locked {v : Word} {s : State} (hl : s.pkg.domLock = true) : wrDomcfg v s = s := by
  simp [wrDomcfg, hl]

theorem wrDomcfg_open {v : Word} {s : State} (hl : s.pkg.domLock = false) (hv : bit v 63 = false) :
    wrDomcfg v s = { s with pkg := { s.pkg with dom := fld v 0 24 } } := by
  simp [wrDomcfg, hl, hv]

theorem wrDomcfg_invalid {v : Word} {s : State} (hl : s.pkg.domLock = false) (hv : bit v 63 = true) (hd : domValidate s (fld v 0 24) ≠ 0) :
    wrDomcfg v s = { s with pkg := { s.pkg with cfgErr := BitVec.ofNat 3 (domValidate s (fld v 0 24)) } } := by
  cases hc : domValidate s (fld v 0 24) with
  | zero => exact absurd hc hd
  | succ c => simp [wrDomcfg, hl, hv, hc]

/-- The state in which an accepted DOMCFG lock settles the release of harts (R34, R364). -/
def domLocked (v : Word) (s : State) : State :=
  { s with
    pkg := { s.pkg with domLock := true, cfgErr := 0, dom := fld v 0 24 }
    coh := { s.coh with haTmoF := s.coh.haTmo, slTmoF := s.coh.slTmo } }

theorem wrDomcfg_valid {v : Word} {s : State} (hl : s.pkg.domLock = false) (hv : bit v 63 = true) (hd : domValidate s (fld v 0 24) = 0) :
    wrDomcfg v s = settleRelease (domLocked v s) := by
  simp [wrDomcfg, hl, hv, hd, domLocked]

theorem wrSlvwa_locked {k : Nat} {v : Word} {s : State} (hl : s.pkg.waLock.getLsbD k = true) : wrSlvwa k v s = s := by
  simp [wrSlvwa, hl]

/-- The state in which a write to an unlocked VEST.SLVWA settles the release of harts (R26). -/
def slvwaWritten (k : Nat) (v : Word) (s : State) : State :=
  { s with pkg := { s.pkg with
    wa := tabSet s.pkg.wa 0 k (fld v 0 63 &&& tabGet s.pkg.waImp 0 k)
    waLock := setBit s.pkg.waLock k (bit v 63) } }

theorem wrSlvwa_open {k : Nat} {v : Word} {s : State} (hl : s.pkg.waLock.getLsbD k = false) :
    wrSlvwa k v s = settleRelease (slvwaWritten k v s) := by
  simp [wrSlvwa, hl, slvwaWritten]

/-- Settles O8, a case of the two registers' writes at a time; the release that an accepted write settles changes nothing of
`pkgReportView`. -/
theorem domainAndWorkaroundLocks : Obligations.DomainAndWorkaroundLocks := by
  refine ⟨?locked, ?unlocked, ?invalid, ?valid, ?waLocked, ?waOpen⟩
  case locked =>
    intro s a v hw hl
    rw [exec_domcfgLock hw, wrDomcfg_locked hl]
  case unlocked =>
    intro s a v hw hl hv
    rw [exec_domcfgLock hw, wrDomcfg_open hl hv]
  case invalid =>
    intro s a v hw hl hv hd
    rw [exec_domcfgLock hw, wrDomcfg_invalid hl hv hd]
  case valid =>
    intro s a v hw hl hv hd
    refine ⟨_, exec_domcfgLock hw, ?_⟩
    rw [wrDomcfg_valid hl hv hd]
    have hview := settleRelease_view (domLocked v s)
    simp only [pkgReportView, pkgView, Prod.mk.injEq] at hview
    obtain ⟨⟨hfuse, -, hexcl, hfab, hlock, herr, hdom, -, -, -⟩, hpkt, hha, hsl, hpins⟩ := hview
    exact ⟨hlock, herr, hdom, hha, hsl, hfuse, hexcl, hfab, hpkt, hpins⟩
  case waLocked =>
    intro s a k v hw hl
    rw [exec_slvwaLock hw, wrSlvwa_locked hl]
  case waOpen =>
    intro s a k v hw hl
    refine ⟨_, exec_slvwaLock hw, ?_⟩
    rw [wrSlvwa_open hl]
    have hview := settleRelease_view (slvwaWritten k v s)
    simp only [pkgReportView, pkgView, Prod.mk.injEq] at hview
    obtain ⟨⟨-, -, hexcl, hfab, -, -, hdom, hwa, hlock, -⟩, hpkt, -, -, hpins⟩ := hview
    exact ⟨hwa, hlock, hdom, hexcl, hfab, hpkt, hpins⟩

end Sys2Proof.Machine

/-! # Requests of agents that cache nothing (R140, Table 6.6)

A request that finds its line idle begins at once: it waits where holders are to be snooped, and otherwise ends at once, with the
effect that `finishVest` gives its kind. -/

namespace Sys2Proof.Machine

open Sys2Proof

/-! ### The groups a write at the home stays within -/

theorem setPoison_frame (n : Nat) (p : Bool) (s : State) : setPoison n p s = s.withArrays (setPoison n p s) := rfl

theorem setByte_frame (a : Nat) (b : Byte) (s : State) : setByte a b s = s.withArrays (setByte a b s) := by
  unfold setByte
  split
  · rfl
  · split
    · exact setMapByte_frame a b s
    · rfl

theorem drainEntry_frame (b : MergeBank) (w : Nat) (s : State) : drainEntry b w s = s.withArrays (drainEntry b w s) := by
  unfold drainEntry
  split
  · rfl
  · rw [foldl_frame _ ?_ (upto 8), setMerge_frame]
    · rfl
    · intro a i
      split
      · exact setByte_frame _ _ _
      · rfl

theorem arrayWord_frame (b : MergeBank) (w : Nat) (m : BitVec 8) (d : Word) (s : State) :
    arrayWord b w m d s = s.withArrays (arrayWord b w m d s) := by
  unfold arrayWord
  dsimp only
  repeat' split
  · rfl
  · rw [setBytes_frame, setMerge_frame]; rfl
  · rw [drainEntry_frame, setMerge_frame]; rfl
  · rw [setMerge_frame]; rfl
  · rw [setMerge_frame, drainEntry_frame]; rfl
  · rw [setMerge_frame]; rfl
  · rw [setMerge_frame]; rfl

theorem putPart_frame (n : Nat) (d : LineData) (m : BitVec 64) (s : State) : putPart n d m s = s.withArrays (putPart n d m s) := by
  unfold putPart
  split
  · exact foldl_frame _ (fun _ _ => arrayWord_frame _ _ _ _ _) _ _
  · exact setBytes_frame _ _ s

theorem writeAt_frame (n : Nat) (m : BitVec 64) (d : LineData) (p : Bool) (s : State) :
    writeAt n m d p s = s.withArrays (writeAt n m d p s) := by
  unfold writeAt
  split
  · exact memPut_frame n d p s
  · split
    · rw [setPoison_frame, putPart_frame]; rfl
    · exact memPut_frame _ _ _ s

theorem clearResv_frame (n : Nat) (e : Option Nat) (s : State) : clearResv n e s = { s with harts := (clearResv n e s).harts } := by
  unfold clearResv
  refine foldl_inv (fun a : State => a = { s with harts := a.harts }) _ (fun a x h => ?_) _ _ rfl
  split
  · rw [h]; rfl
  · exact h

/-! ### What a request is, and what it begins with -/

/-- The requests of Table 6.6: a read, a write of bytes, an atomic. -/
def rdcurTxn (s : State) (w : Agent) (n : Nat) : Txn := mkTxn .vest .rdcur (farEnd + agentNode w) n (some w) s.time

def writeTxn (k : ReqKind) (s : State) (w : Agent) (n : Nat) (m : BitVec 64) (d : LineData) (p : Bool) : Txn :=
  { mkTxn .vest k (farEnd + agentNode w) n (some w) s.time with mask := m, val := d, poison := p }

def atomTxn (s : State) (w : Agent) (op : AmoOp) (dbl : Bool) (a : Nat) (v : Word) : Txn :=
  { mkTxn .vest .atom (farEnd + agentNode w) (a / 64) (some w) s.time with aop := some (op, dbl, a, v) }

theorem exec_rdcur {w : Agent} {n : Nat} {errs : List ArrErr} {s : State} (hw : agentRuns s w = true) :
    exec (.rdcur w n errs) s = .next { plainReq w (64 * n) false (rdcurTxn s w n) (meet errs s) with pending := s.pending } := by
  show keepQueue s (sentBy w s (done _)) = _
  rw [sentBy_runs hw, keepQueue_done]; rfl

theorem exec_wrfull {w : Agent} {n : Nat} {d : LineData} {p : Bool} {s : State} (hw : agentRuns s w = true) :
    exec (.wrfull w n d p) s =
      .next { plainReq w (64 * n) true (writeTxn .wrfull s w n (BitVec.allOnes 64) d p) s with pending := s.pending } := by
  show keepQueue s (sentBy w s (done _)) = _
  rw [sentBy_runs hw, keepQueue_done]; rfl

theorem exec_wrpart {w : Agent} {n : Nat} {m : BitVec 64} {d : LineData} {p : Bool} {s : State} (hw : agentRuns s w = true) :
    exec (.wrpart w n m d p) s = .next { plainReq w (64 * n) true (writeTxn .wrpart s w n m d p) s with pending := s.pending } := by
  show keepQueue s (sentBy w s (done _)) = _
  rw [sentBy_runs hw, keepQueue_done]; rfl

theorem exec_atomh {w : Agent} {op : AmoOp} {dbl : Bool} {a : Nat} {v : Word} {s : State} (hw : agentRuns s w = true) :
    exec (.atomh w op dbl a v) s = .next { atomReq w op dbl a v s with pending := s.pending } := by
  show keepQueue s (sentBy w s (done _)) = _
  rw [sentBy_runs hw, keepQueue_done]

/-- An atomic at the home agent and one at the DRAM controller have one meaning (R144). -/
theorem exec_atomf_eq_atomh (w : Agent) (op : AmoOp) (dbl : Bool) (a : Nat) (v : Word) (s : State) :
    exec (.atomf w op dbl a v) s = exec (.atomh w op dbl a v) s := rfl

theorem atomReq_misaligned {w : Agent} {op : AmoOp} {dbl : Bool} {a : Nat} {v : Word} {s : State}
    (ha : ¬ a % (if dbl then 8 else 4) = 0) : atomReq w op dbl a v s = { s with answer := .error } := if_pos ha

theorem atomReq_aligned {w : Agent} {op : AmoOp} {dbl : Bool} {a : Nat} {v : Word} {s : State}
    (ha : a % (if dbl then 8 else 4) = 0) : atomReq w op dbl a v s = plainReq w a true (atomTxn s w op dbl a v) s :=
  if_neg (fun h => h ha)

theorem plainReq_refused {w : Agent} {a : Nat} {wr : Bool} {t : Txn} {s : State} {k : UcsKind}
    (h : refusal s w (agentSecure s w) wr a = some k) : plainReq w a wr t s = refuse w k a s := by
  simp only [plainReq, h]

/-- A request that is not refused, for an address of memory that has a home agent. -/
def homed (s : State) (w : Agent) (wr : Bool) (a : Nat) : Prop :=
  refusal s w (agentSecure s w) wr a = none ∧
    (regionOf s a = .bootRom ∨ regionOf s a = .sram ∨ regionOf s a = .dram ∨ regionOf s a = .cxl)

theorem plainReq_homed {w : Agent} {a : Nat} {wr : Bool} {t : Txn} {s : State} (h : homed s w wr a) :
    plainReq w a wr t s = arrive t s := by
  obtain ⟨hr, hreg⟩ := h
  rcases hreg with hreg | hreg | hreg | hreg <;> simp only [plainReq, hr, hreg]

/-! ### A transaction at the Vest's homes -/

/-- A transaction becomes active. -/
def activeTxn (t : Txn) (s : State) : State := { s with coh := { s.coh with txns := s.coh.txns ++ [{ t with since := s.time }] } }

theorem dropTxn_activeTxn {t : Txn} {s : State} (h : txnOf s t.lvl t.line = none) : dropTxn t.lvl t.line (activeTxn t s) = s := by
  have hkeep : s.coh.txns.filter (fun u => ¬ (u.lvl = t.lvl ∧ u.line = t.line)) = s.coh.txns := by
    refine List.filter_eq_self.mpr fun u hu => decide_eq_true fun ⟨hlvl, hline⟩ => List.find?_eq_none.mp h u hu ?_
    simp only [hlvl, hline, beq_self_eq_true, Bool.and_self]
  have hnew : [{ t with since := s.time }].filter (fun u => ¬ (u.lvl = t.lvl ∧ u.line = t.line)) = [] := by simp
  simp only [dropTxn, activeTxn, List.filter_append, hkeep, hnew, List.append_nil]

theorem dirSt_eq_none {s : State} {n : Nat} (h : dirFind s n = none) : dirSt s n = none := by simp [dirSt, h]

theorem dirHolders_eq_nil {s : State} {n k : Nat} (h : dirFind s n = none) : dirHolders s n k = [] := by simp [dirHolders, h]

/-- The directory has room for a line that it has an entry for. -/
theorem dirRoom_of_found {s : State} {n : Nat} (h : dirFind s n ≠ none) : dirRoom s n = true := by
  simp [dirRoom, Option.isSome_iff_ne_none.mpr h]

theorem dirRoom_of_owned {s : State} {n o : Nat} (h : dirSt s n = some (.x o)) : dirRoom s n = true :=
  dirRoom_of_found fun hn => by simp [dirSt_eq_none hn] at h

theorem dirRoom_of_held {s : State} {n k : Nat} (h : dirHolders s n k ≠ []) : dirRoom s n = true :=
  dirRoom_of_found fun hn => h (dirHolders_eq_nil hn)

theorem dirErase_of_none {s : State} {n : Nat} (h : dirFind s n = none) : dirErase n s = s := by simp [dirErase, h]

theorem line_ne_of_dirFind {s : State} {n w : Nat} {e : DirEnt} (h : dirFind s n = none) (hw : w ∈ upto 16)
    (he : tabFind (dirSetOf n * 16 + w) s.coh.dir = some e) : e.line ≠ n := by
  intro hn
  have hway := List.findSome?_eq_none_iff.mp h w hw
  simp [he, hn] at hway

theorem vestBusy_activeTxn {t : Txn} {s : State} {n : Nat} (h : n ≠ t.line) : vestBusy (activeTxn t s) n = vestBusy s n := by
  simp [vestBusy, activeTxn, h.symm]

theorem dirPinned_activeTxn {t : Txn} {s : State} {n : Nat} (h : n ≠ t.line) : dirPinned (activeTxn t s) n = dirPinned s n := by
  unfold dirPinned
  rw [vestBusy_activeTxn h]
  rfl

theorem dirWay_activeTxn {t : Txn} {s : State} {k w : Nat} (h : ∀ e, tabFind (k * 16 + w) s.coh.dir = some e → e.line ≠ t.line) :
    dirWay (activeTxn t s) k w = dirWay s k w := by
  have hdir : (activeTxn t s).coh.dir = s.coh.dir := rfl
  unfold dirWay
  rw [hdir]
  cases he : tabFind (k * 16 + w) s.coh.dir with
  | none => rfl
  | some e => exact congrArg (!·) (dirPinned_activeTxn (h e he))

/-- A transaction pins the entry of its own line only, which then has its room (R141). -/
theorem dirRoom_activeTxn {t : Txn} {s : State} (h : dirRoom s t.line = true) : dirRoom (activeTxn t s) t.line = true := by
  by_cases hf : dirFind s t.line = none
  · have hsome : (upto 16).any (dirWay s (dirSetOf t.line)) = true := by simpa [dirRoom, hf] using h
    obtain ⟨w, hw, hr⟩ := List.any_eq_true.mp hsome
    have hway := dirWay_activeTxn (t := t) fun e he => line_ne_of_dirFind hf hw he
    exact Bool.or_eq_true_iff.mpr (.inr (List.any_eq_true.mpr ⟨w, hw, hway.trans hr⟩))
  · exact dirRoom_of_found hf

/-! ### Its beginning -/

/-- The requests whose effect invalidates every copy (Table 6.6). -/
def invalidates (k : ReqKind) : Prop := k = .wrfull ∨ k = .wrpart ∨ k = .atom

theorem startVest_invalidates {t : Txn} {s : State} (hk : invalidates t.kind) : startVest t s =
    activeTxn { t with wait := dirHolders s t.line 12 } (sendSnoops .vest 0x13 t.line t.req (dirHolders s t.line 12) s) := by
  rcases hk with hk | hk | hk <;> simp only [startVest, hk] <;> rfl

theorem startVest_rdcur_owned {t : Txn} {s : State} {o : Nat} (hk : t.kind = .rdcur) (hd : dirSt s t.line = some (.x o)) :
    startVest t s = activeTxn { t with wait := [o], fwd := some o } (sendSnoops .vest 0x12 t.line t.req [o] s) := by
  simp only [startVest, hk, hd]; rfl

theorem startVest_rdcur_memory {t : Txn} {s : State} (hk : t.kind = .rdcur) (hd : ∀ o, dirSt s t.line ≠ some (.x o)) :
    startVest t s = activeTxn { t with got := some (memCopy s t.line) } s := by
  simp only [startVest, hk]
  rfl

theorem sendSnoops_coh (l : Level) (c n r : Nat) (hs : List Nat) (s : State) : (sendSnoops l c n r hs s).coh = s.coh := by
  obtain ⟨m, hm⟩ := sendSnoops_net l c n r hs s
  rw [hm]

theorem sendSnoops_pending (l : Level) (c n r : Nat) (hs : List Nat) (s : State) : (sendSnoops l c n r hs s).pending = s.pending := by
  obtain ⟨m, hm⟩ := sendSnoops_net l c n r hs s
  rw [hm]

/-- A request for an idle line whose transaction begins with snoops waits for their answers. -/
theorem arrive_snoops {t t' : Txn} {s : State} {c : Nat} (hl : t.lvl = .vest) (hi : lineIdle .vest t.line s) (hr : dirRoom s t.line = true)
    (hs : startVest t s = activeTxn t' (sendSnoops .vest c t.line t.req t'.wait s)) (hl' : t'.lvl = .vest) (hn' : t'.line = t.line)
    (hw : t'.wait ≠ []) : arrive t s = activeTxn t' (sendSnoops .vest c t.line t.req t'.wait s) := by
  obtain ⟨hq, hx⟩ := hi
  refine arrive_begins (t' := { t' with since := (sendSnoops .vest c t.line t.req t'.wait s).time }) (by rw [hl]; exact hx) hq
    (by rw [hl]; exact hr) (by rw [hl]; exact hs) ?_ (hl'.trans hl.symm) hn' (.inl hw)
  show (sendSnoops .vest c t.line t.req t'.wait s).coh.txns ++ _ = _
  rw [sendSnoops_coh]

/-- A request for an idle line whose transaction begins with nothing to wait for ends at once. -/
theorem arrive_ends {t t' : Txn} {s v : State} (hl : t.lvl = .vest) (hi : lineIdle .vest t.line s) (hr : dirRoom s t.line = true)
    (hh : txnHeld s t.line = false) (hs : startVest t s = activeTxn t' s) (hl' : t'.lvl = .vest) (hn' : t'.line = t.line)
    (hw : t'.wait = []) (hm : t'.home = false) (hv : finishVest { t' with since := s.time } s = v) (hc : v.coh = s.coh) :
    arrive t s = v := by
  obtain ⟨hq, hx⟩ := hi
  have hx' : txnOf s t'.lvl t'.line = none := by rw [hl', hn']; exact hx
  have hfound : txnOf (activeTxn t' s) .vest t.line = some { t' with since := s.time } := find_append_txn hx hl' hn'
  have hdrop : dropTxn .vest t.line (activeTxn t' s) = s := by rw [← hl', ← hn']; exact dropTxn_activeTxn hx'
  have hroom : dirRoom (activeTxn t' s) t.line = true := by
    rw [← hn'] at hr ⊢
    exact dirRoom_activeTxn hr
  rw [arrive_starts (by rw [hl]; exact hx) hq (by rw [hl]; exact hr), hl]
  show runLine 5 .vest t.line (startVest t s) = v
  rw [hs, runLine_finish hfound ⟨hw, hm⟩ hroom hh, hdrop]
  show runLine 4 .vest t.line (finishVest _ s) = v
  rw [hv]
  exact runLine_idle (by unfold txnOf; rw [hc]; exact hx) (by rw [hc]; exact hq)

/-! ### Its end -/

theorem finishVest_rdcur {t : Txn} {s : State} {d : LineData × Bool} (hk : t.kind = .rdcur) (hf : 12 ≤ t.req) (hg : t.got = some d) :
    finishVest t s = answerCur t d s := by
  have : ¬ t.req < 12 := by omega
  simp [finishVest, this, hk, hg]

theorem finishVest_write {t : Txn} {s : State} (hk : t.kind = .wrfull ∨ t.kind = .wrpart) (hf : 12 ≤ t.req) (hg : t.got = none)
    (hd : dirFind s t.line = none) : finishVest t s = writeAt t.line t.mask t.val t.poison (clearResv t.line none s) := by
  have : ¬ t.req < 12 := by omega
  rcases hk with hk | hk <;> simp [finishVest, this, hk, hg, dirErase_of_none hd]

theorem finishVest_atom {t : Txn} {s : State} (hk : t.kind = .atom) (hf : 12 ≤ t.req) (hg : t.got = none)
    (hd : dirFind s t.line = none) : finishVest t s = performAtom t s := by
  have : ¬ t.req < 12 := by omega
  simp [finishVest, this, hk, hg, dirErase_of_none hd]

theorem answerCur_clean {t : Txn} {w : Agent} {d : LineData × Bool} {s : State} (hw : t.who = some w) (hp : d.2 = false) :
    answerCur t d s = { s with answer := .bytes (bytesOfLine d.1) } := by
  simp [answerCur, hw, hp]

theorem performAtom_clean {t : Txn} {s : State} {op : AmoOp} {dbl : Bool} {a : Nat} {v : Word} (ho : t.aop = some (op, dbl, a, v))
    (hp : linePoison s (a / 64) = false) : performAtom t s = { (atomAt op dbl a v (clearResv (a / 64) none s)).1 with
      answer := .word (atomAt op dbl a v (clearResv (a / 64) none s)).2 } := by
  simp [performAtom, ho, hp]

theorem clearResv_coh (n : Nat) (e : Option Nat) (s : State) : (clearResv n e s).coh = s.coh := by rw [clearResv_frame]

theorem writeAt_coh (n : Nat) (m : BitVec 64) (d : LineData) (p : Bool) (s : State) : (writeAt n m d p s).coh = s.coh := by
  rw [writeAt_frame]; rfl

theorem atomAt_coh (op : AmoOp) (dbl : Bool) (a : Nat) (v : Word) (s : State) : (atomAt op dbl a v s).1.coh = s.coh := by
  dsimp only [atomAt]
  rw [putPart_frame]; rfl

theorem farReq_ge (w : Agent) : 12 ≤ farEnd + agentNode w := by
  unfold farEnd
  omega

/-! ### Each request, from its arrival -/

theorem arrive_rdcur_memory {u s : State} {w : Agent} {n : Nat} (hi : lineIdle .vest n s) (hr : dirRoom s n = true) (hh : txnHeld s n = false)
    (hd : ∀ o, dirSt s n ≠ some (.x o)) (hp : linePoison s n = false) :
    arrive (rdcurTxn u w n) s = { s with answer := .bytes (bytesOfLine (memLine s n)) } := by
  refine arrive_ends (t' := { rdcurTxn u w n with got := some (memCopy s n) }) rfl hi hr hh (startVest_rdcur_memory rfl hd) rfl rfl rfl rfl
    ?_ rfl
  rw [finishVest_rdcur (d := memCopy s n) rfl (farReq_ge w) rfl]
  exact answerCur_clean (w := w) (d := memCopy s n) rfl hp

theorem arrive_rdcur_owned {s : State} {w : Agent} {n o : Nat} (hi : lineIdle .vest n s) (hd : dirSt s n = some (.x o)) :
    arrive (rdcurTxn s w n) s =
      activeTxn { rdcurTxn s w n with wait := [o], fwd := some o } (sendSnoops .vest 0x12 n (farEnd + agentNode w) [o] s) :=
  arrive_snoops rfl hi (dirRoom_of_owned hd) (startVest_rdcur_owned rfl hd) rfl rfl (List.cons_ne_nil _ _)

/-- With no entry in the directory, a write is made at the home. -/
theorem arrive_write {s : State} {k : ReqKind} {w : Agent} {n : Nat} {m : BitVec 64} {d : LineData} {p : Bool}
    (hk : k = .wrfull ∨ k = .wrpart) (hi : lineIdle .vest n s) (hr : dirRoom s n = true) (hh : txnHeld s n = false)
    (hd : dirFind s n = none) : arrive (writeTxn k s w n m d p) s = writeAt n m d p (clearResv n none s) := by
  have hs : startVest (writeTxn k s w n m d p) s = activeTxn (writeTxn k s w n m d p) s := by
    rw [startVest_invalidates (hk.elim .inl (.inr ∘ .inl)), show (writeTxn k s w n m d p).line = n from rfl, dirHolders_eq_nil hd]; rfl
  exact arrive_ends rfl hi hr hh hs rfl rfl rfl rfl (finishVest_write hk (farReq_ge w) rfl hd)
    ((writeAt_coh _ _ _ _ _).trans (clearResv_coh _ _ _))

theorem arrive_atom {s : State} {w : Agent} {op : AmoOp} {dbl : Bool} {a : Nat} {v : Word} (hi : lineIdle .vest (a / 64) s)
    (hr : dirRoom s (a / 64) = true) (hh : txnHeld s (a / 64) = false) (hd : dirFind s (a / 64) = none)
    (hp : linePoison s (a / 64) = false) : arrive (atomTxn s w op dbl a v) s =
      { (atomAt op dbl a v (clearResv (a / 64) none s)).1 with answer := .word (atomAt op dbl a v (clearResv (a / 64) none s)).2 } := by
  have hs : startVest (atomTxn s w op dbl a v) s = activeTxn (atomTxn s w op dbl a v) s := by
    rw [startVest_invalidates (.inr (.inr rfl)), show (atomTxn s w op dbl a v).line = a / 64 from rfl, dirHolders_eq_nil hd]; rfl
  refine arrive_ends rfl hi hr hh hs rfl rfl rfl rfl ?_ ((atomAt_coh op dbl a v _).trans (clearResv_coh (a / 64) none s))
  exact (finishVest_atom (t := { atomTxn s w op dbl a v with since := s.time }) rfl (farReq_ge w) rfl hd).trans (performAtom_clean rfl hp)

/-- Of a line that Sleeves hold, a write or an atomic first has every copy given up. -/
theorem arrive_invalidates_held {t : Txn} {s : State} (hl : t.lvl = .vest) (hk : invalidates t.kind) (hi : lineIdle .vest t.line s)
    (hh : dirHolders s t.line 12 ≠ []) : arrive t s =
      activeTxn { t with wait := dirHolders s t.line 12 } (sendSnoops .vest 0x13 t.line t.req (dirHolders s t.line 12) s) :=
  arrive_snoops hl hi (dirRoom_of_held hh) (startVest_invalidates hk) hl rfl hh

/-- A next state that keeps the queue, as `exec` writes it. -/
theorem next_pending_self {s t : State} (h : t.pending = s.pending) :
    (Host.Outcome.next { t with pending := s.pending } : Out) = .next t := by rw [← h]

/-- Settles O27: each request's arrival, by whether it is refused, must wait, or ends at once. -/
theorem requestsOfAgentsThatCacheNothing : Obligations.RequestsOfAgentsThatCacheNothing := by
  unfold Obligations.RequestsOfAgentsThatCacheNothing
  dsimp only
  refine ⟨?rdRefused, ?wrRefused, ?rdMemory, ?rdOwned, ?full, ?part, ?wrHeld, ?atom, ?atomHeld, ?misaligned, ?queues⟩
  case rdRefused =>
    intro s w n errs k hw hr
    rw [exec_rdcur hw, plainReq_refused hr]
  case wrRefused =>
    intro s w n m d p k hw hr
    rw [exec_wrfull hw, exec_wrpart hw, plainReq_refused hr, plainReq_refused hr]
    exact ⟨rfl, rfl⟩
  case rdMemory =>
    intro s w n errs hw hm ⟨hi, hr, hh⟩ hd hp
    rw [exec_rdcur hw, plainReq_homed hm, arrive_rdcur_memory hi hr hh hd hp]
  case rdOwned =>
    intro s w n o hw hm hi hd
    rw [exec_rdcur hw, meet_nil, plainReq_homed hm, arrive_rdcur_owned hi hd]
    exact next_pending_self (sendSnoops_pending _ _ _ _ _ _)
  case full =>
    intro s w n d p hw hm ⟨hi, hr, hh⟩ hd
    rw [exec_wrfull hw, plainReq_homed hm, arrive_write (.inl rfl) hi hr hh hd]
  case part =>
    intro s w n m d p hw hm ⟨hi, hr, hh⟩ hd
    rw [exec_wrpart hw, plainReq_homed hm, arrive_write (.inr rfl) hi hr hh hd]
  case wrHeld =>
    intro s w n m d p hw hm hi hh
    constructor
    · rw [exec_wrfull hw, plainReq_homed hm, arrive_invalidates_held (t := writeTxn .wrfull s w n _ d p) rfl (.inl rfl) hi hh]
      exact next_pending_self (sendSnoops_pending _ _ _ _ _ _)
    · rw [exec_wrpart hw, plainReq_homed hm, arrive_invalidates_held (t := writeTxn .wrpart s w n m d p) rfl (.inr (.inl rfl)) hi hh]
      exact next_pending_self (sendSnoops_pending _ _ _ _ _ _)
  case atom =>
    intro s w op dbl a v hw ha hm ⟨hi, hr, hh⟩ hd hp
    rw [exec_atomf_eq_atomh, exec_atomh hw, atomReq_aligned ha, plainReq_homed hm, arrive_atom hi hr hh hd hp]
    exact ⟨rfl, rfl⟩
  case atomHeld =>
    intro s w op dbl a v hw ha hm hi hh
    rw [exec_atomh hw, atomReq_aligned ha, plainReq_homed hm, arrive_invalidates_held (t := atomTxn s w op dbl a v) rfl (.inr (.inr rfl)) hi hh]
    exact next_pending_self (sendSnoops_pending _ _ _ _ _ _)
  case misaligned =>
    intro s w op dbl a v hw ha
    rw [exec_atomf_eq_atomh, exec_atomh hw, atomReq_misaligned ha]
    exact ⟨rfl, rfl⟩
  case queues =>
    intro s w n t hw hm ht hwait
    rw [exec_rdcur hw, meet_nil, plainReq_homed hm, arrive_waits ht fun h => hwait h.1]
    rfl

end Sys2Proof.Machine

/-! # The fuse read and the admission of the Sleeves (R17 to R20)

The blocks are stored once; then each Sleeve is decided in turn, and deciding one touches no identity block, and of the others neither
the EXCL code nor the Cuff. -/

namespace Sys2Proof.Machine

open Sys2Proof

/-- A table filled from a function of the key reads as the function at every key filled. -/
theorem tabGet_fill {α : Type} [DecidableEq α] (d : α) (f : Nat → α) (j : Nat) : ∀ (l : List Nat) (t : Tab α), tabWf d t = true →
    tabGet (l.foldl (fun a k => tabSet a d k (f k)) t) d j = if j ∈ l then f j else tabGet t d j
  | [], _, _ => by simp
  | k :: r, t, w => by
    rw [List.foldl_cons, tabGet_fill d f j r _ (tabWf_set t d k (f k) w)]
    by_cases hr : j ∈ r
    · simp [hr]
    · by_cases hk : j = k
      · subst hk
        simp [hr, tabGet_set_wf t d j (f j) w]
      · simp [hr, hk, tabGet_set_ne t d k j (f k) hk]

theorem fillFree_full {α : Type} {n : Nat} {f : Nat → α} {l : List α} {s : State} (h : l.length = n) : fillFree n f l s = (s, l) :=
  if_pos h

/-! ### What is stored -/

/-- The state in which a good Vest block lets the Sleeves be decided: every block stored as read (R18, R457). -/
def fuseStored (blocks : List (BitVec 256)) (waImp : List (BitVec 63)) (s : State) : State :=
  { s with pkg := { s.pkg with
    dieFuse := (upto 12).foldl (fun a k => tabSet a 0 k (blockRead s k (blocks.getD k 0))) (tabSet [] 0 12 (blocks.getD 12 0))
    fuseRead := true
    waImp := (upto 12).foldl (fun a k => tabSet a 0 k (waImp.getD k 0)) [] } }

/-- Sleeves decided one after another. -/
def admitAll (l : List Nat) (s : State) : State := l.foldl (fun a k => admitSleeve k a) s

/-- A next state as `exec` writes it, named by what it shares with the state before its queue is put back. -/
theorem next_requeued {o : Out} {s t : State} (h : o = .next { t with pending := s.pending }) :
    ∃ u, o = .next u ∧ u.pkg = t.pkg ∧ u.fab = t.fab := ⟨_, h, rfl, rfl⟩

theorem exec_fuseRead_bad {blocks : List (BitVec 256)} {waImp : List (BitVec 63)} {s : State} (hb : blocks.length = 13)
    (hw : waImp.length = 12) (hr : s.pkg.fuseRead = false) (hv : vestFuseOk (blocks.getD 12 0) = false) :
    exec (.fuseRead blocks waImp) s = .next { s with
      pkg := { s.pkg with dieFuse := tabSet [] 0 12 (blocks.getD 12 0), fuseRead := true, vestBad := true } } := by
  show execFuseRead blocks waImp s = _
  simp only [execFuseRead, hr, fillFree_full hb, fillFree_full hw, hv, Bool.false_eq_true, if_false, keepQueue_done]

theorem exec_fuseRead_good {blocks : List (BitVec 256)} {waImp : List (BitVec 63)} {s : State} (hb : blocks.length = 13)
    (hw : waImp.length = 12) (hr : s.pkg.fuseRead = false) (hv : vestFuseOk (blocks.getD 12 0) = true) :
    exec (.fuseRead blocks waImp) s = .next { admitAll (upto 12) (fuseStored blocks waImp s) with pending := s.pending } := by
  show execFuseRead blocks waImp s = _
  simp only [execFuseRead, hr, fillFree_full hb, fillFree_full hw, hv, Bool.false_eq_true, if_false, if_true, keepQueue_done]
  rfl

theorem fuseOf_fuseStored_vest (blocks : List (BitVec 256)) (waImp : List (BitVec 63)) (s : State) :
    fuseOf (fuseStored blocks waImp s) 12 = blocks.getD 12 0 := by
  have hfill := tabGet_fill 0 (fun k => blockRead s k (blocks.getD k 0)) 12 (upto 12) (tabSet [] 0 12 (blocks.getD 12 0)) (tabWf_set _ _ _ _ rfl)
  rw [if_neg (by simp [upto]), tabGet_set_wf _ _ _ _ rfl] at hfill
  exact hfill

theorem fuseOf_fuseStored_sleeve (blocks : List (BitVec 256)) (waImp : List (BitVec 63)) (s : State) {k : Nat} (hk : k < 12) :
    fuseOf (fuseStored blocks waImp s) k = blockRead s k (blocks.getD k 0) := by
  have hfill := tabGet_fill 0 (fun k => blockRead s k (blocks.getD k 0)) k (upto 12) (tabSet [] 0 12 (blocks.getD 12 0)) (tabWf_set _ _ _ _ rfl)
  rw [if_pos (show k ∈ upto 12 from List.mem_range.mpr hk)] at hfill
  exact hfill

/-! ### One Sleeve excluded, or its Cuff's training started -/

/-- A Cuff that an exclusion leaves untrained (R20). -/
def cuffUntrained (c : Cuff) : Cuff := { c with state := 0, step := 0, phyOn := false, mods := 0 }

/-- An exclusion settles the package in a state that has the code and the Cuff written (R20). -/
theorem exclude_view (k c : Nat) (s : State) :
    pkgView (exclude k c s) = pkgView ((setExcl k (BitVec.ofNat 4 c) s).modCuff k cuffUntrained) :=
  congrArg Prod.fst (settle_view _)

theorem exclude_pkg (k c : Nat) (s : State) : (exclude k c s).pkg.dieFuse = s.pkg.dieFuse ∧
    (exclude k c s).pkg.fuseRead = s.pkg.fuseRead ∧ (exclude k c s).pkg.excl = tabSet s.pkg.excl 0xF k (BitVec.ofNat 4 c) := by
  have hf := exclude_view k c s
  simp only [pkgView, Prod.mk.injEq] at hf
  obtain ⟨hfuse, hread, hexcl, -⟩ := hf
  exact ⟨hfuse, hread, hexcl⟩

theorem cuff_exclude_ne {k c j : Nat} {s : State} (h : j ≠ k) : (exclude k c s).cuff j = s.cuff j := by
  have hf := exclude_view k c s
  simp only [pkgView, Prod.mk.injEq] at hf
  obtain ⟨-, -, -, hfab, -⟩ := hf
  calc (exclude k c s).cuff j = ((setExcl k (BitVec.ofNat 4 c) s).modCuff k cuffUntrained).cuff j := by unfold State.cuff; rw [hfab]
    _ = s.cuff j := cuff_setCuff_ne _ k j _ h

theorem exclOf_exclude_ne {k c j : Nat} {s : State} (h : j ≠ k) : exclOf (exclude k c s) j = exclOf s j := by
  obtain ⟨-, -, hexcl⟩ := exclude_pkg k c s
  unfold exclOf
  rw [hexcl, tabGet_set_ne _ _ _ _ _ h]

theorem exclOf_exclude_self {k c : Nat} {s : State} (h : c < 15) : exclOf (exclude k c s) k = BitVec.ofNat 4 c := by
  obtain ⟨-, -, hexcl⟩ := exclude_pkg k c s
  have hc : BitVec.ofNat 4 c ≠ 0xF := by bv_omega
  unfold exclOf
  rw [hexcl, tabGet_set_self _ _ _ _ hc]

theorem cuff_trainStart_ne {k j step attempt : Nat} {r : Bool} {s : State} (h : j ≠ k) : (trainStart k step attempt r s).cuff j = s.cuff j :=
  cuff_setCuff_ne s k j _ h

/-- Admission has the causes of Table 1.2. -/
theorem admissionCheck_le (vest b : BitVec 256) (k : Nat) : admissionCheck vest b k ≤ 4 := by
  unfold admissionCheck
  repeat' split
  all_goals omega

/-! ### One Sleeve decided -/

theorem admitSleeve_pass {k : Nat} {s : State} (h : admissionCheck (fuseOf s 12) (fuseOf s k) k = 0) :
    admitSleeve k s = trainStart k 2 1 false s := by
  simp only [admitSleeve, h]

theorem admitSleeve_fail {k : Nat} {s : State} (h : admissionCheck (fuseOf s 12) (fuseOf s k) k ≠ 0) :
    admitSleeve k s = exclude k (admissionCheck (fuseOf s 12) (fuseOf s k) k) s := by
  cases hc : admissionCheck (fuseOf s 12) (fuseOf s k) k with
  | zero => exact absurd hc h
  | succ c => simp only [admitSleeve, hc]

theorem admitSleeve_fuses (k : Nat) (s : State) : (admitSleeve k s).pkg.dieFuse = s.pkg.dieFuse ∧
    (admitSleeve k s).pkg.fuseRead = s.pkg.fuseRead := by
  by_cases h : admissionCheck (fuseOf s 12) (fuseOf s k) k = 0
  · rw [admitSleeve_pass h]
    exact ⟨rfl, rfl⟩
  · rw [admitSleeve_fail h]
    obtain ⟨hfuse, hread, -⟩ := exclude_pkg k (admissionCheck (fuseOf s 12) (fuseOf s k) k) s
    exact ⟨hfuse, hread⟩

theorem admitSleeve_ne {k j : Nat} {s : State} (hj : j ≠ k) :
    exclOf (admitSleeve k s) j = exclOf s j ∧ (admitSleeve k s).cuff j = s.cuff j := by
  by_cases h : admissionCheck (fuseOf s 12) (fuseOf s k) k = 0
  · rw [admitSleeve_pass h]
    exact ⟨rfl, cuff_trainStart_ne hj⟩
  · rw [admitSleeve_fail h]
    exact ⟨exclOf_exclude_ne hj, cuff_exclude_ne hj⟩

/-! ### All of them decided -/

theorem admitAll_fuses (l : List Nat) (s : State) : (admitAll l s).pkg.dieFuse = s.pkg.dieFuse ∧
    (admitAll l s).pkg.fuseRead = s.pkg.fuseRead :=
  foldl_inv (fun a : State => a.pkg.dieFuse = s.pkg.dieFuse ∧ a.pkg.fuseRead = s.pkg.fuseRead) _
    (fun a k ⟨hf, hr⟩ => ⟨(admitSleeve_fuses k a).1.trans hf, (admitSleeve_fuses k a).2.trans hr⟩) l s ⟨rfl, rfl⟩

theorem admitAll_notMem {j : Nat} : ∀ (l : List Nat) (s : State), j ∉ l →
    exclOf (admitAll l s) j = exclOf s j ∧ (admitAll l s).cuff j = s.cuff j
  | [], _, _ => ⟨rfl, rfl⟩
  | k :: r, s, h => by
    obtain ⟨hjk, hjr⟩ : j ≠ k ∧ j ∉ r := by simpa using h
    obtain ⟨he, hc⟩ := admitAll_notMem r (admitSleeve k s) hjr
    obtain ⟨he', hc'⟩ := admitSleeve_ne (s := s) hjk
    exact ⟨he.trans he', hc.trans hc'⟩

/-- What all decisions leave of a Sleeve is what its own decision left, in a state with the same blocks and the same EXCL code. -/
theorem admitAll_mem {l : List Nat} {k : Nat} (s : State) (hn : l.Nodup) (hk : k ∈ l) :
    ∃ u : State, u.pkg.dieFuse = s.pkg.dieFuse ∧ exclOf u k = exclOf s k ∧
      exclOf (admitAll l s) k = exclOf (admitSleeve k u) k ∧ (admitAll l s).cuff k = (admitSleeve k u).cuff k := by
  obtain ⟨before, after, rfl⟩ := List.append_of_mem hk
  obtain ⟨-, hafter, hdisj⟩ := List.nodup_append.mp hn
  have hnb : k ∉ before := fun h => hdisj k h k List.mem_cons_self rfl
  have hna : k ∉ after := (List.nodup_cons.mp hafter).1
  have hsplit : admitAll (before ++ k :: after) s = admitAll after (admitSleeve k (admitAll before s)) := by
    simp only [admitAll, List.foldl_append, List.foldl_cons]
  obtain ⟨hexcl, hcuff⟩ := admitAll_notMem after (admitSleeve k (admitAll before s)) hna
  rw [hsplit]
  exact ⟨admitAll before s, (admitAll_fuses before s).1, (admitAll_notMem before s hnb).1, hexcl, hcuff⟩

theorem fuseOf_congr {s u : State} (h : u.pkg.dieFuse = s.pkg.dieFuse) (k : Nat) : fuseOf u k = fuseOf s k := by
  unfold fuseOf
  rw [h]

theorem exclOf_admitAll_fail {l : List Nat} {k : Nat} {s : State} (hn : l.Nodup) (hk : k ∈ l)
    (h : admissionCheck (fuseOf s 12) (fuseOf s k) k ≠ 0) :
    exclOf (admitAll l s) k = BitVec.ofNat 4 (admissionCheck (fuseOf s 12) (fuseOf s k) k) := by
  obtain ⟨u, hu, -, hexcl, -⟩ := admitAll_mem s hn hk
  have hle := admissionCheck_le (fuseOf s 12) (fuseOf s k) k
  rw [← fuseOf_congr hu 12, ← fuseOf_congr hu k] at h hle ⊢
  rw [hexcl, admitSleeve_fail h, exclOf_exclude_self (by omega)]

theorem admitAll_pass {l : List Nat} {k : Nat} {s : State} (hn : l.Nodup) (hk : k ∈ l)
    (h : admissionCheck (fuseOf s 12) (fuseOf s k) k = 0) : exclOf (admitAll l s) k = exclOf s k ∧
      ((admitAll l s).cuff k).state = 1 ∧ ((admitAll l s).cuff k).step = 2 ∧ ((admitAll l s).cuff k).attempt = 1 := by
  obtain ⟨u, hu, hsame, hexcl, hcuff⟩ := admitAll_mem s hn hk
  rw [← fuseOf_congr hu 12, ← fuseOf_congr hu k] at h
  rw [admitSleeve_pass h] at hexcl hcuff
  have htrain : (trainStart k 2 1 false u).cuff k = _ := cuff_setCuff_self u k _ fun hr => by
    have := congrArg Cuff.step hr
    simp [Cuff.reset] at this
  rw [hexcl, hcuff, htrain]
  exact ⟨hsame, rfl, rfl, rfl⟩

theorem fuseOf_of_pkg {s u : State} (h : u.pkg = s.pkg) (k : Nat) : fuseOf u k = fuseOf s k := fuseOf_congr (by rw [h]) k

theorem exclOf_of_pkg {s u : State} (h : u.pkg = s.pkg) (k : Nat) : exclOf u k = exclOf s k := by
  unfold exclOf
  rw [h]

theorem cuff_of_fab {s u : State} (h : u.fab = s.fab) (k : Nat) : u.cuff k = s.cuff k := by
  unfold State.cuff
  rw [h]

/-- The decisions on the blocks stored, for one Sleeve. -/
theorem admitAll_fuseStored {blocks : List (BitVec 256)} {waImp : List (BitVec 63)} {s : State} {k : Nat} (hk : k < 12) :
    let t := admitAll (upto 12) (fuseStored blocks waImp s)
    let check := admissionCheck (blocks.getD 12 0) (blockRead s k (blocks.getD k 0)) k
    fuseOf t k = blockRead s k (blocks.getD k 0) ∧ (check ≠ 0 → exclOf t k = BitVec.ofNat 4 check) ∧
      (check = 0 → exclOf t k = exclOf s k ∧ (t.cuff k).state = 1 ∧ (t.cuff k).step = 2 ∧ (t.cuff k).attempt = 1) := by
  have hmem : k ∈ upto 12 := List.mem_range.mpr hk
  have hslv := fuseOf_fuseStored_sleeve blocks waImp s hk
  have hfail := exclOf_admitAll_fail (s := fuseStored blocks waImp s) List.nodup_range hmem
  have hpass := admitAll_pass (s := fuseStored blocks waImp s) List.nodup_range hmem
  rw [fuseOf_fuseStored_vest, hslv] at hfail hpass
  exact ⟨(fuseOf_congr (admitAll_fuses _ _).1 k).trans hslv, hfail, hpass⟩

/-- Settles O9: the blocks as stored, then the decision of each Sleeve on them. -/
theorem fuseReadAndAdmission : Obligations.FuseReadAndAdmission := by
  refine ⟨fun s blocks waImp hb hw hr hv => exec_fuseRead_bad hb hw hr hv, ?good⟩
  case good =>
    intro s blocks waImp hb hw hr hv
    obtain ⟨t, ht, hpkg, hfab⟩ := next_requeued (exec_fuseRead_good hb hw hr hv)
    refine ⟨t, ht, ?_⟩
    simp only [fuseOf_of_pkg hpkg, exclOf_of_pkg hpkg, cuff_of_fab hfab, hpkg]
    obtain ⟨hfuse, hread⟩ := admitAll_fuses (upto 12) (fuseStored blocks waImp s)
    refine ⟨hread, (fuseOf_congr hfuse 12).trans (fuseOf_fuseStored_vest blocks waImp s), fun k => ?_⟩
    exact admitAll_fuseStored k.isLt

end Sys2Proof.Machine

/-! # A step (R56)

With nothing under way each part of the idle step leaves the state as it is, but for the timebase's count. -/

namespace Sys2Proof.Machine

open Sys2Proof

theorem meshTick_empty {s : State} (h : s.fab.mesh.flights = []) : meshTick s = s := by
  simp [meshTick, h, heads, heads.go]

theorem flitTick_untrained {s : State} {k : Nat} (h : bandUp s k = false) (toVest : Bool) : flitTick toVest s k = s := by
  simp [flitTick, h]

/-- A list of steps none of which changes the state leaves it as it is. -/
theorem foldl_fixed {α β : Type} {f : α → β → α} {a : α} {l : List β} (h : ∀ b ∈ l, f a b = a) : l.foldl f a = a := by
  induction l with
  | nil => rfl
  | cons b r ih =>
    rw [List.foldl_cons, h b (.head _)]
    exact ih fun c hc => h c (.tail _ hc)

theorem cuffTick_untrained {s : State} (h : ∀ k, k < 12 → bandUp s k = false) : cuffTick s = s := by
  have round (toVest : Bool) : (upto 12).foldl (flitTick toVest) s = s :=
    foldl_fixed fun k hk => flitTick_untrained (h k (List.mem_range.mp hk)) toVest
  rw [cuffTick, round, round]

theorem cohTick_quiet {s : State} (hq : s.coh.queue = []) (hl : s.coh.late = []) (ht : s.coh.txns = []) : cohTick s = s := by
  have hs : settleTxns s = s := by simp [settleTxns, ht]
  simp [cohTick, hs, hq, hl]

theorem passAll_empty {s : State} (hf : s.fab.passed = []) (hb : s.belt.passed = []) : passAll s = s := by
  have hs : ({ s with fab := { s.fab with passed := [] }, belt := { s.belt with passed := [] } } : State) = s := by
    rw [← hf, ← hb]
  simp [passAll, hf, hb, hs]

/-- An idle step with nothing under way counts the timebase alone (logs 3 and 120). -/
theorem idle_quiet {s : State} (hm : s.fab.mesh.flights = []) (hf : s.fab.passed = []) (hb : s.belt.passed = [])
    (hc : ∀ k, k < 12 → bandUp s k = false) (hq : s.coh.queue = []) (hl : s.coh.late = []) (ht : s.coh.txns = []) :
    idle s = { s with time := s.time + 1 } := by
  have mesh : meshTick { s with time := s.time + 1 } = { s with time := s.time + 1 } := meshTick_empty hm
  have cuffs : cuffTick { s with time := s.time + 1 } = { s with time := s.time + 1 } := cuffTick_untrained hc
  have homes : cohTick { s with time := s.time + 1 } = { s with time := s.time + 1 } := cohTick_quiet hq hl ht
  have items : passAll { s with time := s.time + 1 } = { s with time := s.time + 1 } := passAll_empty hf hb
  rw [idle, mesh, cuffs, homes, items]

theorem step_empty {s : State} (h : s.pending = []) : step s = .next (idle s) := by
  simp [step, h]

/-- Settles O1: by the two cases of `step`, and the idle step with nothing under way. -/
theorem stepRunsTheFrontCommand : Obligations.StepRunsTheFrontCommand := by
  refine ⟨fun c rest s => rfl, fun s hp => ⟨step_empty hp, (idle_pending s).trans hp⟩, ?quiet⟩
  case quiet =>
    intro s hp hm hf hb hc hq hl ht
    rw [step_empty hp, idle_quiet hm hf hb hc hq hl ht]

end Sys2Proof.Machine

/-! # Taking a trap into M-mode (R42, R66 to R68)

A trap writes a list of CSRs, each once; the words that an obligation names are read off that list. -/

namespace Sys2Proof.Machine

open Sys2Proof

/-- CSRs written one after another. -/
def writeCsrs (l : List (Nat × Word)) (x : Hart) : Hart := l.foldl (fun y e => y.setC e.1 e.2) x

theorem writeCsrs_frame (l : List (Nat × Word)) (x : Hart) : writeCsrs l x = { x with csr := (writeCsrs l x).csr } := by
  induction l generalizing x with
  | nil => rfl
  | cons e r ih => exact ih (x.setC e.1 e.2)

theorem c_writeCsrs_notMem {n : Nat} {l : List (Nat × Word)} {x : Hart} (h : ∀ e ∈ l, e.1 ≠ n) : (writeCsrs l x).c n = x.c n := by
  induction l generalizing x with
  | nil => rfl
  | cons e r ih => exact (ih fun f hf => h f (.tail _ hf)).trans (tabGet_set_ne_any _ _ _ _ _ _ (h e (.head _)).symm)

/-- A CSR written once reads as the word written. -/
theorem c_writeCsrs_mem {l : List (Nat × Word)} {x : Hart} (w : tabRising x.csr = true) (hn : (l.map (·.1)).Nodup) :
    ∀ e ∈ l, (writeCsrs l x).c e.1 = e.2 := by
  induction l generalizing x with
  | nil => nofun
  | cons e r ih =>
    obtain ⟨he, hr⟩ := List.nodup_cons.mp hn
    have hw : tabRising (x.setC e.1 e.2).csr = true := csrRising_setC x e.1 e.2 w
    intro f hf
    obtain rfl | hf := List.mem_cons.mp hf
    · refine (c_writeCsrs_notMem (x := x.setC f.1 f.2) fun g hg heq => he ?_).trans (tabGet_set_rising _ _ _ _ w)
      exact List.mem_map.mpr ⟨g, hg, heq⟩
    · exact ih hw hr f hf

/-- mstatus as a trap into M-mode leaves it: GVA, MPV, MPP and MPIE written, MIE cleared. -/
def trapStatus (st : Word) (gva virt : Bool) (priv : BitVec 2) : Word :=
  (st &&& ~~~(0x000000C000001888 : Word)) ||| cat [on 38 gva, on 39 virt, at_ 11 priv, on 7 (bit st 3)]

theorem trapStatus_mie (st : Word) (gva virt : Bool) (priv : BitVec 2) : bit (trapStatus st gva virt priv) 3 = false := by
  simp [trapStatus, bit, cat, on, at_]

theorem trapStatus_mpie (st : Word) (gva virt : Bool) (priv : BitVec 2) : bit (trapStatus st gva virt priv) 7 = bit st 3 := by
  simp [trapStatus, bit, cat, on, at_]

theorem trapStatus_mpp (st : Word) (gva virt : Bool) (priv : BitVec 2) : fld (trapStatus st gva virt priv) 11 2 = priv := by
  ext i hi
  obtain rfl | rfl : i = 0 ∨ i = 1 := by omega
  all_goals simp [trapStatus, fld, bit, cat, on, at_]

/-- The hart where its trap begins: what it had under way has ended. -/
def unwound (x : Hart) : Hart := squashPath { x with resv := none, resHold := none, heldAcc := false, walkPaid := none, wfi := false, io := none }

theorem unwound_eq {x : Hart} (hi : x.indir = none) : unwound x =
    { x with resv := none, resHold := none, heldAcc := false, walkPaid := none, wfi := false, io := none, rest := [], fetchStop := false } := by
  simp [unwound, squashPath, hi]

/-- What a trap into M-mode writes, in its order; `inst` is the transformed instruction. -/
def machineWrites (intr : Bool) (t : Trap) (inst : Word) (x : Hart) : List (Nat × Word) :=
  [(0x341, x.pc), (0x342, BitVec.ofNat 64 t.cause ||| on 63 intr), (0x343, t.tval), (0x34B, t.tval2), (0x34A, inst),
    (0x300, trapStatus (x.c 0x300) t.gva x.virt x.priv)]

/-- The hart in M-mode, at its vector or at the secure entry. -/
def machineEntered (s : State) (intr : Bool) (t : Trap) (x : Hart) : Hart :=
  { writeCsrs (machineWrites intr t
      (if intr then 0 else if t.impl then 0x3000 else if memExc t.cause then Config.freeWord s.free else 0) x) x with
    priv := 3, virt := false, pc := if x.sec then monEntry s + 0x100 else vectorOf (x.c 0x305) intr t.cause }

theorem machineEntered_frame (s : State) (intr : Bool) (t : Trap) (x : Hart) : machineEntered s intr t x =
    { x with
      csr := (machineEntered s intr t x).csr, priv := 3, virt := false
      pc := if x.sec then monEntry s + 0x100 else vectorOf (x.c 0x305) intr t.cause } := by
  rw [machineEntered, writeCsrs_frame]

theorem machineEntered_reads {s : State} {intr : Bool} {t : Trap} {x : Hart} (w : tabRising x.csr = true) :
    let y := machineEntered s intr t x
    y.c 0x341 = x.pc ∧ y.c 0x342 = (BitVec.ofNat 64 t.cause ||| on 63 intr) ∧ y.c 0x343 = t.tval ∧ y.c 0x34B = t.tval2 ∧
      y.c 0x300 = trapStatus (x.c 0x300) t.gva x.virt x.priv := by
  have reads := fun inst => c_writeCsrs_mem (l := machineWrites intr t inst x) w (by simp [machineWrites])
  simp only [machineWrites, List.forall_mem_cons] at reads
  obtain ⟨hepc, hcause, htval, htval2, -, hstatus, -⟩ := reads _
  exact ⟨hepc, hcause, htval, htval2, hstatus⟩

theorem enterTrap_mode3 {s : State} {h : Nat} {intr : Bool} {t : Trap} (hw : t.walk = none) :
    enterTrap h 3 intr t s = { s.setHart h (machineEntered s intr t (unwound (s.hart h))) with
      free := s.free + 1, fab := { s.fab with held := s.fab.held.filter fun e => !heldOf h e } } := by
  unfold enterTrap
  simp only [hw]
  rfl

/-- A hart that has left reset is in the table of the harts after its trap. -/
theorem hart_enterTrap_mode3 {s : State} {h : Nat} {intr : Bool} {t : Trap} (hi : (s.hart h).indir = none) (hw : t.walk = none)
    (hr : (s.hart h).inReset = false) : (enterTrap h 3 intr t s).hart h = machineEntered s intr t (unwound (s.hart h)) := by
  rw [enterTrap_mode3 hw]
  refine hart_setHart_self s h _ fun heq => ?_
  have hreset : (machineEntered s intr t (unwound (s.hart h))).inReset = true := congrArg Hart.inReset heq
  rw [machineEntered_frame, unwound_eq hi] at hreset
  exact absurd (hr.symm.trans hreset) (by decide)

/-- Settles O15: the CSRs by the list written, the rest by the frames of the hart and of the state. -/
theorem trapEntryToMachineMode : Obligations.TrapEntryToMachineMode := by
  intro s h intr t hi w hw hr x u y
  have hy : y = machineEntered s intr t (unwound x) := hart_enterTrap_mode3 hi hw hr
  have hu : u = _ := enterTrap_mode3 hw
  have hx : unwound x = _ := unwound_eq hi
  obtain ⟨hepc, hcause, htval, htval2, hstatus⟩ :=
    machineEntered_reads (s := s) (intr := intr) (t := t) (x := unwound x) (by rw [hx]; exact w)
  rw [← hy] at hepc hcause htval htval2 hstatus
  rw [hx] at hepc hstatus
  refine ⟨?priv, ?virt, hepc, hcause, htval, htval2, ?mie, ?mpie, ?mpp, ?pc, ?sec, ?x, ?f, ?resv, ?wfi, ?harts, ?dram, ?cores, ?slvs,
    ?coh, ?cloak⟩
  case mie => rw [hstatus, trapStatus_mie]
  case mpie => rw [hstatus, trapStatus_mpie]; rfl
  case mpp => rw [mppOf, hstatus, trapStatus_mpp]
  case harts => intro j hj; rw [hu]; exact hart_setHart_ne s h j _ hj
  case dram | cores | slvs | coh | cloak => rw [hu]; rfl
  case pc => rw [hy, machineEntered_frame, hx]; rfl
  case priv | virt | sec | x | f | resv | wfi => rw [hy, machineEntered_frame, hx]

end Sys2Proof.Machine

/-! # The commands of a hart that issues: traps, returns and waits (R42, R66 to R69)

The command of a hart that issues is the instruction's effect, on everything but the queue; what the effect is follows from the hart's mode. -/

namespace Sys2Proof.Machine

open Sys2Proof

/-- A command of a hart that issues is its instruction's effect. -/
theorem done_byHart {s : State} {h : Nat} {f : State → State} (hi : hartIssues s h = true) :
    keepQueue s (done (byHart h f s)) = .next { f s with pending := s.pending } := by
  rw [byHart_issues hi, keepQueue_done]

theorem exec_ecall {s : State} {h : HartId} (hi : hartIssues s h = true) : exec (.ecall h) s =
    .next { (if isMonCall (s.hart h) then monitorEntry h s else envCall h s) with pending := s.pending } :=
  done_byHart hi

theorem exec_monitorCall_eq_ecall (h : HartId) (s : State) : exec (.monitorCall h) s = exec (.ecall h) s := rfl

/-- M-mode takes its own exceptions. -/
theorem excMode_machine {x : Hart} (h : x.priv = 3) (cause : Nat) : excMode x cause = 3 := if_pos (.inl h)

theorem takeTrap_machine {s : State} {h : Nat} (t : Trap) (hi : hartIssues s h = true) (hm : (s.hart h).priv = 3) :
    takeTrap h t s = enterTrap h 3 false t s := by
  rw [takeTrap_eq h t s (hartIssues_prog hi), excMode_machine hm]

theorem exec_secureTrap {s : State} {h : HartId} (t : TrapInfo) (hi : hartIssues s h = true) : exec (.secureTrap h t) s =
    .next { takeTrap h ⟨t.cause, t.tval, t.tval2, (s.hart h).virt && memExc t.cause, false, none⟩ s with pending := s.pending } :=
  done_byHart hi

/-- EBREAK in M-mode where dcsr.ebreakm is clear: a breakpoint exception (Table 2.3). -/
theorem exec_ebreak_machine {s : State} {h : HartId} (c : Bool) (hi : hartIssues s h = true) (hm : (s.hart h).priv = 3)
    (hv : (s.hart h).virt = false) (hd : bit ((s.hart h).c 0x7B0) 15 = false) :
    exec (.ebreak h c) s = .next { enterTrap h 3 false (plainTrap 3 (s.hart h).pc false) s with pending := s.pending } := by
  refine (done_byHart hi).trans ?_
  dsimp only
  rw [if_neg (by simp [hartIssues_prog hi]), if_neg (by simp [hm, hv, hd]), hv, takeTrap_machine _ hi hm]

/-- A return outside a program buffer, then a halt that waited for it. -/
theorem exec_xret {s : State} {h : HartId} (isS : Bool) (hi : hartIssues s h = true) :
    exec (.xret h isS) s = .next { haltIfPending h (if isS then sret h s else mret h s) with pending := s.pending } := by
  refine (done_byHart hi).trans ?_
  rw [if_neg (by simp [hartIssues_prog hi])]

theorem mret_machine {s : State} {h : Nat} (hm : (s.hart h).priv = 3) (hs : (s.hart h).sec = false) :
    mret h s = s.setHart h (mretState (countInst 1 (s.hart h))) :=
  if_neg (by simp [hm, hs])

theorem sret_supervisor {s : State} {h : Nat} (hm : (s.hart h).priv = 1) (hv : (s.hart h).virt = false) (hs : (s.hart h).sec = false)
    (ht : bit ((s.hart h).c 0x300) 22 = false) : sret h s = s.setHart h (sretHs (countInst 1 (s.hart h))) := by
  unfold sret
  dsimp only
  rw [if_neg (by simp [hs]), if_neg (by simp [hv]), if_neg (by simp [hm, ht])]

theorem exec_ubxWswitch_secure {s : State} {h : HartId} (hi : hartIssues s h = true) (hs : (s.hart h).sec = true) :
    exec (.ubxWswitch h) s = .next { leaveSecure h s with pending := s.pending } := by
  refine (done_byHart hi).trans ?_
  rw [doWswitch, if_neg (by simp [hartIssues_prog hi]), if_pos hs]

/-- WFI in M-mode retires, and waits while no enabled interrupt is pending. -/
theorem exec_wfi_machine {s : State} {h : HartId} (hi : hartIssues s h = true) (hm : (s.hart h).priv = 3) (hv : (s.hart h).virt = false) :
    exec (.wfi h) s = .next (if mipOf (s.hart h) &&& (s.hart h).c 0x304 = 0
      then (retire h 4 s).modHart h fun y => { y with wfi := true } else retire h 4 s) := by
  refine (done_byHart hi).trans ?_
  dsimp only
  rw [if_neg (by simp [hm]), if_neg (by simp [hv]), if_neg (by simp [hm])]
  simp only [hartIssues_prog hi, true_and]
  split <;> rfl

/-- The interrupt that a hart takes now (R68). -/
theorem exec_interruptTake {s : State} {h : HartId} {i mode : Nat} (hp : hartPresent s h = true) (hr : (s.hart h).inReset = false)
    (hh : (s.hart h).halted = false) (hs : (s.hart h).stopped = false) (hl : (s.slvPwr (hartSleeve h)).sl = 0)
    (ht : takeable (s.hart h) = some (i, mode)) :
    exec (.interruptTake h) s = .next { enterTrap h mode true (plainTrap i 0 false) s with pending := s.pending } := by
  show execInterruptTake h s = _
  unfold execInterruptTake
  dsimp only
  rw [if_neg (by simp [hp, hr, hh, hs, hl])]
  simp only [ht, keepQueue_done]

/-- Settles O16: each command by the effect that the hart's mode gives it. -/
theorem trapsReturnsAndWaits : Obligations.TrapsReturnsAndWaits := by
  refine ⟨?ecall, ?monitorCall, ?secureTrap, ?ebreak, ?mret, ?sret, ?wswitch, ?wfi, ?interrupt, fun s h => rfl⟩
  case ecall =>
    intro s h hi hm
    rw [exec_ecall hi, hm]
    rfl
  case monitorCall =>
    intro s h hi hm
    rw [exec_monitorCall_eq_ecall, exec_ecall hi, hm]
    rfl
  case secureTrap =>
    intro s h t hi _ hm
    rw [exec_secureTrap t hi, takeTrap_machine _ hi hm]
  case ebreak => exact fun s h c hi hm hv hd => exec_ebreak_machine c hi hm hv hd
  case mret =>
    intro s h hi hm hs _
    rw [exec_xret false hi, if_neg Bool.false_ne_true, mret_machine hm hs]
  case sret =>
    intro s h hi hm hv hs ht
    rw [exec_xret true hi, if_pos rfl, sret_supervisor hm hv hs ht]
  case wswitch => exact fun s h hi hs => exec_ubxWswitch_secure hi hs
  case wfi => exact fun s h hi hm hv => exec_wfi_machine hi hm hv
  case interrupt => exact fun s h i mode hp hr hh hs hl ht => exec_interruptTake hp hr hh hs hl ht

end Sys2Proof.Machine

/-! # Issue, branch resolution and the prediction registers (R38 to R40, R43, R45 to R53) -/

namespace Sys2Proof.Machine

open Sys2Proof

/-! ### The handshake of a core -/

/-- A list of steps of which only that of `k` does anything is that step. -/
theorem foldl_only {α β : Type} [DecidableEq β] {f : α → β → α} {k : β} (h : ∀ a b, b ≠ k → f a b = a) :
    ∀ {l : List β} (a : α), l.Nodup → k ∈ l → l.foldl f a = f a k
  | b :: r, a, hn, hk => by
    obtain ⟨hb, hr⟩ := List.nodup_cons.mp hn
    rw [List.foldl_cons]
    by_cases hbk : b = k
    · subst hbk
      exact foldl_fixed fun c hc => h _ c fun he => hb (he ▸ hc)
    · rw [h a b hbk, foldl_only h a hr ((List.mem_cons.mp hk).resolve_left (Ne.symm hbk))]

/-- What hart `t` of a core is offered in a handshake. -/
def offerAt (o0 o1 o2 o3 : Offer) (t : Nat) : Offer := [o0, o1, o2, o3].getD t .notReady

/-- The instruction that hart `t` of a core places first. -/
def placed (s : State) (c : CoreId) (o : Nat → Offer) (t : Nat) : Option IssueInstr := offerOf s (4 * c + t) (o t)

/-- The round-robin order of a core. -/
def issueOrder (s : State) (c : CoreId) : List Nat := (upto 4).map fun i => ((s.core c).rr % 4 + i) % 4

theorem issueOrder_perm (s : State) (c : CoreId) : (issueOrder s c).Nodup ∧ 0 ∈ issueOrder s c := by
  have rotations : ∀ r < 4, ((upto 4).map fun i => (r + i) % 4).Nodup ∧ 0 ∈ (upto 4).map fun i => (r + i) % 4 := by decide
  exact rotations _ (Nat.mod_lt _ (by decide))

/-- The harts of a core considered in turn. -/
def considerAll (s : State) (c : CoreId) (o : Nat → Offer) (a : Slots) : Slots :=
  (issueOrder s c).foldl (fun a t => considerHart (coreHart c t) (placed s c o t) a) a

/-- The round-robin pointer of a core advances. -/
def rrAdvanced (s : State) (c : CoreId) (u : State) : State := u.modCore c fun k => { k with rr := ((s.core c).rr % 4 + 1) % 4 }

theorem handshakeCounts_congr {p : Bool} {c : CoreId} {r r' : Nat → Bool} {s : State} (h : ∀ t, t < 4 → r t = r' t) :
    handshakeCounts p c r s = handshakeCounts p c r' s := by
  have threads : upto 4 = [0, 1, 2, 3] := by decide
  simp only [handshakeCounts, threads, List.foldl_cons, List.foldl_nil, h 0 (by omega), h 1 (by omega), h 2 (by omega), h 3 (by omega)]

/-- A handshake of a core none of whose harts has anything left of an earlier one: the counts, the offers in turn, a second
instruction of the hart that issued alone, and the pointer. -/
theorem exec_issueHandshake {s : State} {c : CoreId} {o0 o1 o2 o3 : Offer} {p : Bool} (hs : handshakes s c = true)
    (hr : ∀ t, t < 4 → (s.hart (coreHart c t)).rest = []) :
    let o := offerAt o0 o1 o2 o3
    exec (.issueHandshake c o0 o1 o2 o3 p []) s = .next
      { rrAdvanced s c (secondOffer (fun h => nextOf (o (h % 4)))
          (considerAll s c o ⟨handshakeCounts p c (fun t => (placed s c o t).isSome) s, []⟩)).st with pending := s.pending } := by
  show execIssueHandshake c o0 o1 o2 o3 p s [] = _
  unfold execIssueHandshake
  rw [if_neg (by simp [hs])]
  simp only [meet_nil, goOn_core hr, keepQueue_done]
  rfl

theorem offerAt_other {o0 : Offer} {t : Nat} (h : t ≠ 0) : offerAt o0 .notReady .notReady .notReady t = .notReady := by
  rcases t with _ | _ | _ | _ | t
  · exact absurd rfl h
  all_goals rfl

/-- A handshake in which at most hart 0 of the core offers, and one instruction at most. -/
theorem exec_issueHandshake_first {s : State} {c : CoreId} {o0 : Offer} {p : Bool} (hs : handshakes s c = true)
    (hr : ∀ t, t < 4 → (s.hart (coreHart c t)).rest = []) (ho : nextOf o0 = none) :
    exec (.issueHandshake c o0 .notReady .notReady .notReady p []) s = .next
      { rrAdvanced s c (considerHart (coreHart c 0) (offerOf s (4 * c) o0)
          ⟨handshakeCounts p c (fun t => t == 0 && (offerOf s (4 * c) o0).isSome) s, []⟩).st with pending := s.pending } := by
  have others {t : Nat} (ht : t ≠ 0) : placed s c (offerAt o0 .notReady .notReady .notReady) t = none := by
    rw [placed, offerAt_other ht, offerOf]
  have counts : handshakeCounts p c (fun t => (placed s c (offerAt o0 .notReady .notReady .notReady) t).isSome) s =
      handshakeCounts p c (fun t => t == 0 && (offerOf s (4 * c) o0).isSome) s := by
    refine handshakeCounts_congr fun t _ => ?_
    by_cases ht : t = 0
    · subst ht; rfl
    · simp [others ht, ht]
  have turns (a : Slots) : considerAll s c (offerAt o0 .notReady .notReady .notReady) a = considerHart (coreHart c 0) (offerOf s (4 * c) o0) a :=
    foldl_only (fun b t ht => by rw [others ht, considerHart_none]) a (issueOrder_perm s c).1 (issueOrder_perm s c).2
  have seconds (h : Nat) : nextOf (offerAt o0 .notReady .notReady .notReady (h % 4)) = none := by
    by_cases ht : h % 4 = 0
    · rw [ht]; exact ho
    · rw [offerAt_other ht, nextOf]
  rw [exec_issueHandshake hs hr, secondOffer_none seconds, counts, turns]

/-- An instruction that is neither a branch nor an indirect, placed by a hart on no predicted path: its fetch, its count, and its effect. -/
theorem issueInstr_committed {h : HartId} {i : IssueInstr} {s u : State} (hi : (s.hart h).indir = none)
    (hind : ∀ cc rd rs1, i ≠ .indirect cc rd rs1) (hbr : i ≠ .branch) (hf : fetchInstr h (fetchLen i) s = (u, true)) :
    issueInstr h i s = (runRest h 1 ((countEvent h 1 1 u).modHart h fun x => { x with rest := [i] }), true) := by
  unfold issueInstr
  rw [if_neg (by simp [hi]), hf]
  cases i with
  | branch => exact absurd rfl hbr
  | indirect cc rd rs1 => exact absurd rfl (hind cc rd rs1)
  | _ => rfl

/-- The first hart considered in a handshake takes a slot when its instruction issues. -/
theorem considerHart_first {h : HartId} {i : IssueInstr} {s u : State} (hi : issueInstr h i s = (u, true)) :
    considerHart h (some i) ⟨s, []⟩ = ⟨u, [(h.val, issueCls i)]⟩ := by
  simp [considerHart, hi]

/-! ### What has issued is performed -/

/-- A hart that runs outside a program buffer and does not step performs an instruction with nothing around it. -/
theorem actHart_free {s : State} {h : Nat} {f : State → State} (hp : (s.hart h).prog = false) (hd : bit ((s.hart h).c 0x7B0) 2 = false) :
    actHart h f s = f s := by
  simp only [actHart, stepHalt, stepDone, hp, hd, Bool.false_and, Bool.false_eq_true, if_false, ite_self]

theorem stepDone_free {s : State} {h : Nat} {x : Hart} (hd : bit (x.c 0x7B0) 2 = false) : stepDone h x s = s := by
  simp only [stepDone, hd, Bool.false_and, Bool.false_eq_true, if_false]

theorem doItem_compute {h : HartId} {k : ExecCls} {cc : Bool} {w : Option RegWrite} {fl : BitVec 5} {s : State}
    (hf : k = .fp → fpOff (s.hart h) = false) :
    doItem h (.compute k cc w fl) s = retire h (ilen cc) (s.modHart h (computePut k w fl)) :=
  if_neg fun ⟨hk, hoff⟩ => by simp [hf hk] at hoff

/-! ### Resolution -/

theorem exec_branchResolve {s : State} {h : HartId} {w : Word} (hf : (s.hart h).fetchStop = true) (hi : (s.hart h).indir = none)
    (hd : bit ((s.hart h).c 0x7B0) 2 = false) :
    exec (.branchResolve h w) s = .next ((retire h 0 s).modHart h fun y => { y with fetchStop := false, pc := w }) := by
  show execBranchResolve h w s = _
  unfold execBranchResolve
  dsimp only
  rw [if_pos (by simp [hf, hi]), stepDone_free hd]
  rfl

/-- The state in which a resolved indirect has retired (R46). -/
def resolved (h : HartId) (c : Checkpoint) (w : Word) (s : State) : State := indirectDone h c w (itbUpdate h c.hist c.pc w s)

/-- A hart of the resolved state whose return stack is put right from the checkpoint (R50). -/
def rasRepaired (h : HartId) (c : Checkpoint) (w : Word) (s : State) : State :=
  (resolved h c w s).modHart h fun y => { y with ras := rasMove (s.hart h) c.pop c.push c.ras }

theorem exec_indirectResolve_repair {s : State} {h : HartId} {w : Word} {c : Checkpoint} (hi : (s.hart h).indir = some c)
    (hp : c.pred = true → c.target ≠ w) (hd : bit ((s.hart h).c 0x7B0) 2 = false) :
    exec (.indirectResolve h w) s = .next { (if c.pred then countEvent h 6 (s.hart h).wrong (countEvent h 5 1 (rasRepaired h c w s))
      else rasRepaired h c w s) with pending := s.pending } := by
  show execIndirectResolve h w s = _
  unfold execIndirectResolve
  simp only [hi, stepDone_free hd]
  rw [if_neg (by simpa using hp)]
  rfl

theorem exec_indirectResolve_hit {s : State} {h : HartId} {w : Word} {c : Checkpoint} (hi : (s.hart h).indir = some c)
    (hp : c.pred = true) (ht : c.target = w) (hd : bit ((s.hart h).c 0x7B0) 2 = false) :
    exec (.indirectResolve h w) s = .next { runRest h (s.hart h).path.length (((s.hart h).specFill.reverse.foldl (installFill h)
      (countEvent h 1 (s.hart h).wrong (resolved h c w s))).modHart h fun y => { y with rest := (s.hart h).path }) with
        pending := s.pending } := by
  show execIndirectResolve h w s = _
  unfold execIndirectResolve
  simp only [hi, stepDone_free hd]
  rw [if_pos (by simp [hp, ht])]
  rfl

/-! ### ubxbpc and ubxbpkey -/

/-- A flush of ubxbpc that the mode allows (R47, log 136). -/
theorem bpcFlush_allowed {s : State} {h : HartId} {itb : Bool} (hc : csrCheck (s.hart h) 0x5C0 true = none)
    (hl : (s.hart h).priv = 3 ∨ bit ((s.hart h).c 0x5C0) 7 = false) :
    bpcFlush h itb s = retire h 4 (if itb then s.setCore (hartCore h) { s.core (hartCore h) with itb := [] }
      else s.setHart h { s.hart h with ras := [], hist := 0 }) := by
  unfold bpcFlush
  simp only [hc, if_pos hl]
  rfl

theorem csrInstr_bpc {s : State} {h : HartId} {v : Word} (hc : csrCheck (s.hart h) 0x5C0 true = none)
    (hr : redirect (s.hart h).virt 0x5C0 = 0x5C0) : csrInstr h 0x5C0 v s = retire h 4 (wrBpc h v s) := by
  rw [csrInstr_ok hc, if_pos hr]

theorem csrInstr_bpkey {s : State} {h : HartId} {v : Word} (hc : csrCheck (s.hart h) 0x5C1 true = none)
    (hr : redirect (s.hart h).virt 0x5C1 = 0x5C1) : csrInstr h 0x5C1 v s = retire h 4 (s.setHart h ((s.hart h).setC 0x5C1 v)) := by
  rw [csrInstr_ok hc, hr, if_neg (by decide), if_pos rfl]
  rfl

/-- Settles O14: the handshake by its one offer at most, a resolution by its prediction, a register by the check of its write. -/
theorem branchesAndPrediction : Obligations.BranchesAndPrediction := by
  refine ⟨?idle, ?one, ?compute, ?branch, ?unpredicted, ?wrong, ?right, ?rasflush, ?itbflush, ?bpc, ?bpkey⟩
  case idle =>
    intro s c p hs hr
    rw [exec_issueHandshake_first hs hr rfl, offerOf, considerHart_none]
    simp only [Option.isSome_none, Bool.and_false]
    rfl
  case one =>
    intro s u c i p hs hr hc hi hind hbr hf
    have hoffer : offerOf s (4 * c) (.ready i none) = some i := if_pos hc
    rw [exec_issueHandshake_first hs hr rfl, hoffer]
    simp only [Option.isSome_some, Bool.and_true]
    rw [considerHart_first (issueInstr_committed hi hind hbr hf)]
    rfl
  case compute =>
    intro s h k cc w fl r hrest hruns hp hd hfp
    rw [runRest_one hrest hruns, actHart_free hp hd, doItem_compute hfp]
  case branch => exact fun s h w hf hi hd => exec_branchResolve hf hi hd
  case unpredicted =>
    intro s h w c hi hp hd
    rw [exec_indirectResolve_repair hi (by simp [hp]) hd, if_neg (by simp [hp])]
    rfl
  case wrong =>
    intro s h w c hi hp ht hd
    rw [exec_indirectResolve_repair hi (fun _ => ht) hd, if_pos hp]
    rfl
  case right => exact fun s h w c hi hp ht hd => exec_indirectResolve_hit hi hp ht hd
  case rasflush =>
    intro s h hi hc hl
    refine (done_byHart hi).trans ?_
    rw [bpcFlush_allowed hc hl]
    rfl
  case itbflush =>
    intro s h hi hc hl
    refine (done_byHart hi).trans ?_
    rw [bpcFlush_allowed hc hl]
    rfl
  case bpc =>
    intro s h v hi hc hr
    refine (done_byHart hi).trans ?_
    rw [csrInstr_bpc hc hr]
  case bpkey =>
    intro s h v hi hc hr
    refine (done_byHart hi).trans ?_
    rw [csrInstr_bpkey hc hr]
    rfl

end Sys2Proof.Machine

/-! # General registers, loads and stores (R42, R86, R103, R104, R128, R167, R168)

An access of an existing form, aligned and reaching its address, is its path's own load or store; that path then performs it where no
line waits and the regulator passes its packets. -/

namespace Sys2Proof.Machine

open Sys2Proof

/-! ### General registers -/

theorem setX_of_ne {x : Hart} {r : XReg} (v : Word) (h : r ≠ 0) : x.setX r v = { x with x := tabSet x.x 0 r.val v } :=
  if_neg fun hr => h (Fin.ext hr)

theorem gx_of_ne {x : Hart} {r : XReg} (h : r ≠ 0) : x.gx r = tabGet x.x 0 r.val := if_neg fun hr => h (Fin.ext hr)

theorem gx_setX_self {x : Hart} {r : XReg} (v : Word) (w : tabWf 0 x.x = true) (h : r ≠ 0) : (x.setX r v).gx r = v := by
  rw [gx_of_ne h, setX_of_ne v h]
  exact tabGet_set_wf x.x 0 r.val v w

theorem gx_setX_ne {x : Hart} {r q : XReg} (v : Word) (h : q ≠ r) : (x.setX r v).gx q = x.gx q := by
  by_cases hr : r = 0
  · rw [hr, setX_zero]
  · by_cases hq : q = 0
    · rw [hq, gx_zero, gx_zero]
    · rw [gx_of_ne hq, gx_of_ne hq, setX_of_ne v hr]
      exact tabGet_set_ne x.x 0 r.val q.val v fun he => h (Fin.ext he)

/-! ### Loads -/

theorem doLoad_cached {s s1 : State} {h : HartId} {k : LoadKind} {z : Size} {rd : XReg} {va : Word} {c m : Bool} {t : Xl}
    (hill : loadIll (s.hart h) k z = false) (hk : isHlv k = false) (hal : va.toNat % sizeBytes z = 0)
    (hr : reach h (accOf (s.hart h) .load) va.toNat s = (s1, some t)) (hp : pathOf s1 h t = .cached) :
    doLoad m h k z rd va c s =
      loadCached m h (.load h k z rd va c []) k z rd va.toNat (ilen c) (accOf (s.hart h) .load).virt t s1 := by
  unfold doLoad
  simp only [hill, hk, hal, hr, hp, Bool.false_eq_true, if_false, if_true, ne_eq, not_true_eq_false, false_and]

/-- A load at its home, whose line no transaction holds and whose packet the regulator passes. -/
theorem doLoad_plain {s s1 s2 : State} {h : HartId} {k : LoadKind} {z : Size} {rd : XReg} {va : Word} {c m : Bool} {t : Xl}
    (hill : loadIll (s.hart h) k z = false) (hk : isHlv k = false) (hal : va.toNat % sizeBytes z = 0)
    (hr : reach h (accOf (s.hart h) .load) va.toNat s = (s1, some t)) (hp : pathOf s1 h t = .plain)
    (hb : lineBusy s1 (t.pa / 64) = false) (hm : coreMeter m h 1 (.load h k z rd va c []) s1 = (s2, true)) :
    doLoad m h k z rd va c s = loadUncached h k z rd va.toNat (ilen c) (accOf (s.hart h) .load).virt t .plain s2 := by
  unfold doLoad
  simp only [hill, hk, hal, hr, hp, hb, hm, Bool.false_eq_true, if_false, ne_eq, not_true_eq_false, false_and, and_false, reduceCtorEq]

theorem loadCached_ready {s1 s2 : State} {h : HartId} {cmd : Instr} {k : LoadKind} {z : Size} {rd : XReg} {va len : Nat} {gva m : Bool}
    {t : Xl} (hw : ((linesOf t.pa (sizeBytes z)).any fun m => lineWait s1 (hartCore h) m false) = false)
    (hm : coreMeter m h ((linesOf t.pa (sizeBytes z)).filter fun m => lineMiss s1 (hartCore h) m false).length cmd s1 = (s2, true))
    (hp : firstPoison (cachedRead h t.pa (sizeBytes z) s2).2 = none) :
    loadCached m h cmd k z rd va len gva t s1 = loadDone h k z rd len t (gather t.pa (sizeBytes z) (cachedRead h t.pa (sizeBytes z) s2).2)
      (train h (t.pa / 64) (cachedRead h t.pa (sizeBytes z) s2).1) := by
  unfold loadCached
  simp only [hw, hm, hp, Bool.false_eq_true, if_false]

theorem loadUncached_plain {s : State} {h : HartId} {k : LoadKind} {z : Size} {rd : XReg} {va len : Nat} {gva : Bool} {t : Xl}
    (hp : (cohRead s t.pa (sizeBytes z)).2 = false) :
    loadUncached h k z rd va len gva t .plain s = loadDone h k z rd len t (cohRead s t.pa (sizeBytes z)).1 s := by
  unfold loadUncached
  simp only [hp, Bool.false_eq_true, if_false]

/-! ### Stores -/

theorem doStore_cached {s s1 : State} {h : HartId} {k : StoreKind} {z : Size} {rs2 : XReg} {va : Word} {c m : Bool} {t : Xl}
    (hill : storeIll (s.hart h) k z = false) (hk : k ≠ .hsv) (hal : va.toNat % sizeBytes z = 0)
    (hr : reach h (accOf (s.hart h) .store) va.toNat s = (s1, some t)) (hp : pathOf s1 h t = .cached) :
    doStore m h k z rs2 va c s = storeCached m h (.store h k z rs2 va c []) (storeBytes (s.hart h) k z rs2) (ilen c) t s1 := by
  unfold doStore
  simp only [hill, hk, hal, hr, hp, Bool.false_eq_true, if_false, if_true, ne_eq, not_true_eq_false, false_and]

theorem leBytes_length (n v : Nat) : (leBytes n v).length = n := by
  induction n generalizing v with
  | zero => rfl
  | succ n ih => simp [leBytes, ih]

theorem storeBytes_length (x : Hart) (k : StoreKind) (z : Size) (r : XReg) : (storeBytes x k z r).length = sizeBytes z := leBytes_length _ _

theorem storeCached_ready {s1 s2 : State} {h : HartId} {cmd : Instr} {b : List Byte} {len : Nat} {m : Bool} {t : Xl}
    (hw : ((linesOf t.pa b.length).any fun m => lineWait s1 (hartCore h) m true) = false)
    (hm : coreMeter m h ((linesOf t.pa b.length).filter fun m => lineMiss s1 (hartCore h) m true).length cmd s1 = (s2, true)) :
    storeCached m h cmd b len t s1 = storeDone h len t (train h (t.pa / 64) (cachedWrite h t.pa b s2)) := by
  unfold storeCached
  simp only [hw, hm, Bool.false_eq_true, if_false]

/-! ### The commands -/

theorem exec_load {s : State} {h : HartId} {k : LoadKind} {z : Size} {rd : XReg} {va : Word} {c : Bool} (hi : hartIssues s h = true)
    (hc : c = true → loadC k z = true) :
    exec (.load h k z rd va c []) s = .next { doLoad true h k z rd va c s with pending := s.pending } := by
  have hcc : (c && loadC k z) = c := by simpa using hc
  show keepQueue s (done (byHartMeet h [] (doLoad true h k z rd va (c && loadC k z)) s)) = _
  rw [byHartMeet_issues hi, hcc, keepQueue_done]

theorem exec_store {s : State} {h : HartId} {k : StoreKind} {z : Size} {rs2 : XReg} {va : Word} {c : Bool} (hi : hartIssues s h = true)
    (hc : c = true → storeC k z = true) :
    exec (.store h k z rs2 va c []) s = .next { doStore true h k z rs2 va c s with pending := s.pending } := by
  have hcc : (c && storeC k z) = c := by simpa using hc
  show keepQueue s (done (byHartMeet h [] (doStore true h k z rs2 va (c && storeC k z)) s)) = _
  rw [byHartMeet_issues hi, hcc, keepQueue_done]

/-- A memory command of a hart that its array errors do not stop: the errors, then the access. -/
theorem done_byHartMeet {s : State} {h : HartId} {errs : List ArrErr} {f : State → State} (hi : hartIssues s h = true)
    (hs : ((meet errs s).hart h).stopped = false) :
    keepQueue s (done (byHartMeet h errs f s)) = .next { f (meet errs s) with pending := s.pending } := by
  rw [byHartMeet_errs hi hs, keepQueue_done]

/-- Settles O17: the registers by the laws of their table, an access by its path and the regulator's grant. -/
theorem cachedLoadsAndStores : Obligations.CachedLoadsAndStores := by
  refine ⟨fun x v => ⟨setX_zero x v, gx_zero x⟩, ?register, ?loadCached, ?loadPlain, ?storeCached, ?errors⟩
  case register =>
    intro x r v w h
    refine ⟨gx_setX_self v w h, fun q hq => gx_setX_ne v hq, ?_⟩
    rw [setX_of_ne v h]
    exact ⟨rfl, rfl, rfl, tabWf_set x.x 0 r.val v w⟩
  case loadCached =>
    intro s s1 s2 h k z rd va c t hi hc hill hk hal hr hp hw hm hpo
    rw [exec_load hi hc, doLoad_cached hill hk hal hr hp, loadCached_ready hw hm hpo]
    rfl
  case loadPlain =>
    intro s s1 s2 h k z rd va c t hi hc hill hk hal hr hp hb hm hpo
    rw [exec_load hi hc, doLoad_plain hill hk hal hr hp hb hm, loadUncached_plain hpo]
    rfl
  case storeCached =>
    intro s s1 s2 h k z rs2 va c t hi hc hill hk hal hr hp hw hm
    rw [← storeBytes_length (s.hart h) k z rs2] at hw hm
    rw [exec_store hi hc, doStore_cached hill hk hal hr hp, storeCached_ready hw hm]
    rfl
  case errors =>
    exact fun s h k w z r va c errs hi hs => ⟨done_byHartMeet hi hs, done_byHartMeet hi hs⟩

end Sys2Proof.Machine

/-! # The secure page: the Hem, MONRDY and the watchdog (R73 to R81, R380)

A write of a secure agent to the secure page is the register's own effect. The watchdog's expiry writes its record, halts the harts and
withdraws what waits; none of that touches the write buffer, the storage or the timebase, so with storage idle the reset follows at once. -/

namespace Sys2Proof.Machine

open Sys2Proof

/-- A write to the secure page by a secure agent that runs (R73). -/
theorem securePage_secure {a : Agent} {s : State} (hr : agentRuns s a = true) (hs : agentSecure s a = true) (off : Nat) (f : State → State) :
    keepQueue s (sentBy a s (securePage a off f s)) = .next { f s with pending := s.pending } := by
  rw [sentBy_runs hr, securePage, if_pos hs, keepQueue_done]

/-- A write to the secure page by an agent of the other world is refused, and reported (R73). -/
theorem securePage_world {a : Agent} {s : State} (hr : agentRuns s a = true) (hs : agentSecure s a = false) (off : Nat) (f : State → State) :
    keepQueue s (sentBy a s (securePage a off f s)) =
      .next { faultAgent a true (reportUcs a .world (0x08000000 + off) true s) with pending := s.pending } := by
  rw [sentBy_runs hr, securePage, if_neg (by simp [hs]), keepQueue_done]

/-! ### The Hem -/

theorem wrHem_locked {v : Word} {s : State} (hl : s.cloak.hemLock = true) : wrHem v s = s := if_pos hl

theorem wrHem_busy {v : Word} {s : State} (hl : s.cloak.hemLock = false) (hb : s.cloak.hemBusy = true) :
    wrHem v s = { s with cloak := { s.cloak with hemErr := 3 } } := by
  simp [wrHem, hl, hb]

theorem wrHem_outside {v : Word} {s : State} (hl : s.cloak.hemLock = false) (hb : s.cloak.hemBusy = false)
    (ho : (fld v 21 31).toNat * 0x200000 < 0x100000000 ∨ 0x60100000000 < (fld v 21 31).toNat * 0x200000) :
    wrHem v s = { s with cloak := { s.cloak with hemErr := 1 } } := by
  unfold wrHem
  simp only [hl, hb, if_pos ho, Bool.false_eq_true, if_false]

theorem wrHem_moves {v : Word} {s : State} (hl : s.cloak.hemLock = false) (hb : s.cloak.hemBusy = false)
    (h1 : 0x100000000 ≤ (fld v 21 31).toNat * 0x200000) (h2 : (fld v 21 31).toNat * 0x200000 ≤ 0x60100000000)
    (hc : hemConflict s ((fld v 21 31).toNat * 0x200000) = false) :
    wrHem v s = { s with cloak := { s.cloak with
      hemErr := 0, hemAddr := fld v 21 31, hemLock := bit v 63, hemBusy := decide (fld v 21 31 ≠ s.cloak.hemAddr)
      hemOld := if fld v 21 31 ≠ s.cloak.hemAddr then some s.cloak.hemAddr else none } } := by
  have hin : ¬ ((fld v 21 31).toNat * 0x200000 < 0x100000000 ∨ 0x60100000000 < (fld v 21 31).toNat * 0x200000) := by omega
  unfold wrHem
  simp only [hl, hb, hc, if_neg hin, Bool.false_eq_true, if_false, decide_eq_true_eq]

theorem recallRange_empty {s : State} (lo hi : Nat) (hd : s.coh.dir = []) : recallRange lo hi s = s := by
  simp [recallRange, recallLines, hd]

/-- A scan that finds no line to recall and no transaction to wait for ends (R75). -/
theorem exec_hemScanDone_empty {s : State} {o : BitVec 31} (ho : s.cloak.hemOld = some o) (ht : s.coh.txns = []) (hd : s.coh.dir = []) :
    exec .hemScanDone s = .next { s with cloak := { s.cloak with hemBusy := false, hemOld := none } } := by
  show execHemScanDone s = _
  simp only [execHemScanDone, ho, ht, List.any_nil, Bool.false_eq_true, if_false, recallRange_empty _ _ hd, keepQueue_done]

/-! ### The watchdog's registers -/

theorem wdtRestart_idle {s : State} (h : s.cloak.wdtStep = 0) :
    wdtRestart s = { s with cloak := { s.cloak with wdtFrom := s.time, wdtWarn := false } } := if_neg (by simp [h])

theorem wrWdtctl_idle {v : Word} {s : State} (hl : s.cloak.wdtLock = false) (hw : s.cloak.wdtStep = 0)
    (ht : bit v 63 = false ∨ (1 ≤ (fld v 0 16).toNat ∧ (fld v 0 16).toNat ≤ 60000)) :
    wrWdtctl v s = { s with cloak := { s.cloak with
      wdtLock := bit v 63, wdtEn := bit v 62
      wdtTmo := if 1 ≤ (fld v 0 16).toNat ∧ (fld v 0 16).toNat ≤ 60000 then fld v 0 16 else s.cloak.wdtTmo
      wdtFrom := s.time, wdtWarn := false } } := by
  have hok : (bit v 63 && !decide (1 ≤ (fld v 0 16).toNat ∧ (fld v 0 16).toNat ≤ 60000)) = false := by
    rcases ht with h | h
    · rw [h, Bool.false_and]
    · rw [decide_eq_true h, Bool.not_true, Bool.and_false]
  unfold wrWdtctl
  simp only [hl, hok, Bool.or_self, Bool.false_eq_true, if_false, decide_eq_true_eq]
  exact wdtRestart_idle hw

theorem wrWdtkick_idle {v : Word} {s : State} (hw : s.cloak.wdtStep = 0) : wrWdtkick v s =
    if fld v 0 16 = 0xC10A then { s with cloak := { s.cloak with wdtFrom := s.time, wdtWarn := false } } else s := by
  rw [wrWdtkick, wdtRestart_idle hw]

theorem wrMonrdy_one (s : State) : wrMonrdy 1 s = settleRelease { s with boot := { s.boot with monrdy := true } } := by
  have h1 : bit (1 : Word) 0 = true := rfl
  rw [wrMonrdy, h1, Bool.or_true]

theorem exec_wdtWarn_running {s : State} (he : s.cloak.wdtEn = true) (hw : s.cloak.wdtStep = 0) :
    exec .wdtWarn s = .next { s with cloak := { s.cloak with wdtWarn := true } } := by
  show execWdtWarn s = _
  rw [execWdtWarn, if_pos ⟨he, hw⟩, keepQueue_done]

/-! ### What a protective action changes before its end -/

theorem sendErrMsi_frame (s : State) : sendErrMsi s = { s with pkt := (sendErrMsi s).pkt, harts := (sendErrMsi s).harts } := by
  unfold sendErrMsi
  dsimp only
  split
  · rw [imsicSet_frame]
  · rfl

theorem errMsiFor_frame (c : BitVec 3) (s : State) :
    errMsiFor c s = { s with pkt := (errMsiFor c s).pkt, harts := (errMsiFor c s).harts } := by
  unfold errMsiFor
  dsimp only
  repeat' split
  · rfl
  · exact sendErrMsi_frame s
  · exact sendErrMsi_frame s
  · rfl

theorem recordNow_frame (r : Report) (s : State) :
    recordNow r s = { s with pkt := (recordNow r s).pkt, harts := (recordNow r s).harts } := by
  rw [recordNow, errMsiFor_frame]

theorem wakePackage_frame (s : State) : wakePackage s = { s with pwr := (wakePackage s).pwr } := by
  unfold wakePackage
  split <;> rfl

theorem stopAllHarts_frame (s : State) : stopAllHarts s =
    { s with pwr := (stopAllHarts s).pwr, dbg := (stopAllHarts s).dbg, harts := (stopAllHarts s).harts } := by
  unfold stopAllHarts
  rw [wakePackage_frame]

theorem cmdDoneFor_frame (x : DictCtx) (i : BitVec 16) (u : BitVec 8) (st : Nat) (v : List Byte) (s : State) :
    cmdDoneFor x i u st v s = { s with adp := (cmdDoneFor x i u st v s).adp } := by
  unfold cmdDoneFor
  dsimp only
  repeat' split
  · rfl
  · rw [modSession_frame, sendIn_frame]
  · rfl

theorem endReq_frame (o : PwrOp) (oc : Nat) (s : State) :
    endReq o oc s = { s with pwr := (endReq o oc s).pwr, adp := (endReq o oc s).adp } := by
  unfold endReq
  dsimp only
  repeat' split
  · rw [cmdDoneFor_frame, setReqstat_frame]
  · rw [cmdDoneFor_frame]
  · rfl
  · rfl

theorem endOff_frame (o : PwrOp) (oc : Nat) (s : State) :
    endOff o oc s = { s with lace := (endOff o oc s).lace, adp := (endOff o oc s).adp } := by
  unfold endOff
  dsimp only
  repeat' split
  · rw [cmdDoneFor_frame]
  · rw [cmdDoneFor_frame]
  · rfl
  · rfl

theorem withdraw_frame (b : Nat) (s : State) : withdraw b s = { s with pwr := (withdraw b s).pwr, adp := (withdraw b s).adp } := by
  unfold withdraw
  split
  · rfl
  · rw [endReq_frame]

/-- What neither a request's end nor a record of the Pocket changes: the write buffer, the storage and the timebase. -/
def drainView (s : State) : Pls × Stor × Nat := (s.pls, s.stor, s.time)

theorem drainView_withdraw (b : Nat) (s : State) : drainView (withdraw b s) = drainView s := by
  rw [withdraw_frame]
  rfl

theorem drainView_withdrawAll (s : State) : drainView (withdrawAll s) = drainView s := by
  have each : drainView ((upto 40).foldl (fun a b => withdraw b a) s) = drainView s :=
    foldl_inv (fun a => drainView a = drainView s) _ (fun a b h => (drainView_withdraw b a).trans h) _ _ rfl
  unfold withdrawAll
  dsimp only
  split
  · rw [endOff_frame]
    simp only [drainView] at each ⊢
    exact each
  · exact each

theorem drainView_stopAllHarts (s : State) : drainView (stopAllHarts s) = drainView s := by
  rw [stopAllHarts_frame]
  rfl

theorem drainView_recordNow (r : Report) (s : State) : drainView (recordNow r s) = drainView s := by
  rw [recordNow_frame]
  rfl

theorem mirrorAll_frame (n : Nat) (s : State) : mirrorAll n s = { s with pkt := (mirrorAll n s).pkt } := by
  induction n generalizing s with
  | zero => rfl
  | succ n ih =>
    unfold mirrorAll
    split
    · rw [ih]
    · rfl

/-! ### The watchdog's expiry -/

/-- The watchdog's record is written, every hart is halted, and what waits is withdrawn (Table 3.11, steps 1 and 2). -/
def wdtHalted (s : State) : State :=
  withdrawAll (stopAllHarts (recordNow (wdtRecord s) { s with cloak := { s.cloak with wdtStep := 3 } }))

theorem wdtHalted_keeps (s : State) : (wdtHalted s).pls = s.pls ∧ (wdtHalted s).stor = s.stor ∧ (wdtHalted s).time = s.time := by
  have view : drainView (wdtHalted s) = drainView { s with cloak := { s.cloak with wdtStep := 3 } } := by
    rw [wdtHalted, drainView_withdrawAll, drainView_stopAllHarts, drainView_recordNow]
  simpa only [drainView, Prod.mk.injEq] using view

/-- With no drain running and storage not active, the expiry goes on to its end at once (R81). -/
theorem exec_wdtExpire_idle {s : State} (he : s.cloak.wdtEn = true) (hw : s.cloak.wdtStep = 0) (hp : s.pls.step = 0)
    (ha : storActive s = false) : exec .wdtExpire s = .next { wdtFinish (wdtHalted s) with pending := s.pending } := by
  obtain ⟨hpls, hstor, -⟩ := wdtHalted_keeps s
  have hactive : storActive (wdtHalted s) = false := by
    unfold storActive at ha ⊢
    rw [hstor, ha]
  show execWdtExpire s = _
  unfold execWdtExpire
  rw [if_neg (by simp [he, hw])]
  dsimp only
  rw [← wdtHalted, hpls, if_neg (by simp [hp]), hactive, if_neg Bool.false_ne_true, keepQueue_done]

/-- A watchdog's reset is asserted at the time its expiry ends. -/
theorem wdtFinish_intReset (s : State) : (wdtFinish s).pins.intReset = some s.time := by
  have ht : (mirrorAll 1024 s).time = s.time := by rw [mirrorAll_frame]
  exact congrArg some ht

theorem exec_wdtDrainDeadline_running {s : State} (hw : s.cloak.wdtStep ≠ 0) : exec .wdtDrainDeadline s =
    .next { internalReset true true { s with pins := { s.pins with evWdt := true } } with pending := s.pending } := by
  show execWdtDrainDeadline s = _
  rw [execWdtDrainDeadline, if_neg hw, keepQueue_done]

/-- Settles O21: a write by its register's cases, an expiry by what its first steps leave unchanged. -/
theorem hemWatchdogAndMonitorReady : Obligations.HemWatchdogAndMonitorReady := by
  refine ⟨?busy, ?outside, ?moves, ?locked, ?mc, fun s o ho ht hd => exec_hemScanDone_empty ho ht hd, ?monrdy, ?ctl, ?kick,
    fun s he hw => exec_wdtWarn_running he hw, ?expire, ?deadline⟩
  case busy =>
    intro s a v hr hs hl hb
    refine (securePage_secure hr hs 0 (wrHem v)).trans ?_
    rw [wrHem_busy hl hb]
  case outside =>
    intro s a v hr hs hl hb ho
    refine (securePage_secure hr hs 0 (wrHem v)).trans ?_
    rw [wrHem_outside hl hb ho]
  case moves =>
    intro s a v hr hs hl hb h1 h2 hc
    refine (securePage_secure hr hs 0 (wrHem v)).trans ?_
    rw [wrHem_moves hl hb h1 h2 hc]
  case locked =>
    intro s a v hr hs hl
    refine (securePage_secure hr hs 0 (wrHem v)).trans ?_
    rw [wrHem_locked hl]
  case mc => exact fun s m v => ⟨_, securePage_world (a := .mc m) rfl rfl 0 (wrHem v), rfl, rfl⟩
  case monrdy =>
    intro s a hr hs
    refine (securePage_secure hr hs 0x400 (wrMonrdy 1)).trans ?_
    rw [wrMonrdy_one]
  case ctl =>
    intro s a v hr hs hl hw ht
    refine (securePage_secure hr hs 0x100 (wrWdtctl v)).trans ?_
    rw [wrWdtctl_idle hl hw ht]
  case kick =>
    intro s a v hr hs hw
    refine (securePage_secure hr hs 0x110 (wrWdtkick v)).trans ?_
    rw [wrWdtkick_idle hw]
    split <;> rfl
  case expire =>
    intro s he hw hp hst
    obtain ⟨-, -, htime⟩ := wdtHalted_keeps s
    refine ⟨_, exec_wdtExpire_idle he hw hp (by simp [storActive, hst]), rfl, ?_, rfl, rfl, rfl⟩
    exact (wdtFinish_intReset (wdtHalted s)).trans (congrArg some htime)
  case deadline =>
    exact fun s hw => ⟨_, exec_wdtDrainDeadline_running hw, rfl, rfl, rfl, rfl, rfl, rfl, rfl, rfl⟩

end Sys2Proof.Machine

/-! # The monitor calls (R67, R69, R71, R72, R390)

A call's entry leaves the caller's general registers as they are, so that the monitor reads the arguments the caller passed. Checks that
the call meets leave the monitor's choice alone (log 75): DENIED, BUSY, or the function served. -/

namespace Sys2Proof.Machine

open Sys2Proof

/-! ### The entry -/

/-- The hart as a monitor call leaves it at the monitor's entry. -/
def monitorEntered (s : State) (x : Hart) : Hart :=
  { clearPaths (machineEntered s false (plainTrap 9 0 false) (unwound x)) with sec := true, pc := monEntry s }

theorem monitorEntered_frame {s : State} {x : Hart} (hi : x.indir = none) :
    (monitorEntered s x).x = x.x ∧ (monitorEntered s x).inReset = x.inReset := by
  simp only [monitorEntered, clearPaths]
  rw [machineEntered_frame, unwound_eq hi]
  exact ⟨rfl, rfl⟩

/-- A hart out of reset that enters the monitor. -/
theorem hart_monitorEntry {s : State} {h : Nat} (hi : (s.hart h).indir = none) (hr : (s.hart h).inReset = false) :
    (monitorEntry h s).hart h = monitorEntered s (s.hart h) := by
  have entered : monitorEntry h s = (enterTrap h 3 false (plainTrap 9 0 false) s).setHart h (monitorEntered s (s.hart h)) := by
    unfold monitorEntry
    dsimp only
    rw [modHart_eq, hart_enterTrap_mode3 hi rfl hr]
    rfl
  rw [entered]
  refine hart_setHart_self _ h _ fun heq => ?_
  obtain ⟨-, hreset⟩ := monitorEntered_frame (s := s) hi
  exact absurd (hr.symm.trans (hreset.symm.trans (congrArg Hart.inReset heq))) (by decide)

theorem hartIssues_inReset {s : State} {h : Nat} (hi : hartIssues s h = true) : (s.hart h).inReset = false := by
  obtain ⟨hruns, -⟩ := hartIssues_parts hi
  simp only [hartRuns, Bool.and_eq_true, Bool.not_eq_true'] at hruns
  obtain ⟨⟨⟨⟨⟨⟨⟨⟨-, hreset⟩, -⟩, -⟩, -⟩, -⟩, -⟩, -⟩, -⟩ := hruns
  exact hreset

theorem gx_monitorEntry {s : State} {h : Nat} (hi : hartIssues s h = true) (r : XReg) : ((monitorEntry h s).hart h).gx r = (s.hart h).gx r := by
  obtain ⟨-, -, hindir, -⟩ := hartIssues_parts hi
  obtain ⟨hx, -⟩ := monitorEntered_frame (s := s) hindir
  unfold Hart.gx
  rw [hart_monitorEntry hindir (hartIssues_inReset hi), hx]

/-! ### The checks and the return -/

/-- Checks that a call meets leave the monitor's choice (R72, log 75). -/
theorem callChecks_met {x : Hart} (g : State → CallResult) (s : State) (hl : callListed (x.gx 17).toNat = true) (ha : x.gx 16 = 0) :
    callChecks x true true g s = g s.draw ∨ callChecks x true true g s = (s.draw, .error 4) ∨
      callChecks x true true g s = (s.draw, .error 6) := by
  unfold callChecks
  rw [if_neg (by simp [hl]), if_neg (by simp [ha]), if_neg (by simp)]
  split
  · exact .inr (.inl rfl)
  · exact .inr (.inr rfl)
  · exact .inl rfl

/-- A call that fails: the monitor is entered, a0 takes the status, and the caller goes on after its ECALL (R69, Table 3.6). -/
theorem serveCall_error (s : State) (h : HartId) (n : Nat) (f : Hart → State → CallResult) (u : State) (e : Nat)
    (h1 : inCall (s.hart h) = false) (h2 : isMonCall (s.hart h) = true) (h3 : ((s.hart h).gx 17).toNat = n)
    (hf : f ((monitorEntry h s).hart h) (monitorEntry h s) = (u, .error e)) :
    serveCall h n f s = leaveSecure h (u.modHart h fun y => (y.setX 10 (0 - BitVec.ofNat 64 e)).setC 0x341 (y.c 0x341 + 4)) := by
  unfold serveCall
  simp only [h1, h2]
  rw [if_neg (by simp), if_neg (by simp [h3])]
  simp only [Bool.false_eq_true, if_false, hf]

/-- A hart that issues makes the monitor call `n`, with a6 zero. -/
def CallMade (s : State) (h : HartId) (n : Nat) : Prop :=
  hartIssues s h = true ∧ inCall (s.hart h) = false ∧ isMonCall (s.hart h) = true ∧ ((s.hart h).gx 17).toNat = n ∧ (s.hart h).gx 16 = 0

/-- The outcome of a call that the monitor serves in state `u`, with value `v`. -/
def callReturned (s : State) (h : HartId) (v : Word) (u : State) : Out :=
  .next { leaveSecure h (u.modHart h fun y => (((y.setX 10 0).setC 0x341 (y.c 0x341 + 4)).setX 11 v)) with pending := s.pending }

/-- The outcome of a call that the monitor's policy or its shared resources refuse, with status `e`. -/
def callDenied (s : State) (h : HartId) (e : Nat) : Out :=
  .next { leaveSecure h ((monitorEntry h s).draw.modHart h fun y =>
    ((y.setX 10 (0 - BitVec.ofNat 64 e)).setC 0x341 (y.c 0x341 + 4))) with pending := s.pending }

/-- A call is served, or returns DENIED or BUSY. -/
def CallServed (s : State) (h : HartId) (o r : Out) : Prop := o = r ∨ o = callDenied s h 4 ∨ o = callDenied s h 6

/-- A call whose checks are met is served with the value of its function `g`, or returns DENIED or BUSY. -/
theorem callServed_of_checks {s u : State} {h : HartId} {n : Nat} {v : Word} {f : Hart → State → CallResult} {g : State → CallResult}
    (hc : CallMade s h n) (hl : callListed n = true)
    (hf : f ((monitorEntry h s).hart h) (monitorEntry h s) = callChecks ((monitorEntry h s).hart h) true true g (monitorEntry h s))
    (hg : g (monitorEntry h s).draw = (u, .ok v)) :
    CallServed s h (keepQueue s (done (byHart h (serveCall h n f) s))) (callReturned s h v u) := by
  obtain ⟨hi, hin, hmon, hnum, ha6⟩ := hc
  have checks := callChecks_met (x := (monitorEntry h s).hart h) g (monitorEntry h s)
    (by rw [gx_monitorEntry hi, hnum, hl]) (by rw [gx_monitorEntry hi, ha6])
  rw [← hf, hg] at checks
  rw [done_byHart hi]
  rcases checks with hok | hdenied | hbusy
  · exact .inl (by rw [serveCall_ok s h n f u v hin hmon hnum hok]; rfl)
  · exact .inr (.inl (by rw [serveCall_error s h n f _ 4 hin hmon hnum hdenied]; rfl))
  · exact .inr (.inr (by rw [serveCall_error s h n f _ 6 hin hmon hnum hbusy]; rfl))

/-! ### The calls without buffers -/

/-- A call without buffers is served with its value after the entry, or returns DENIED or BUSY. -/
theorem callServed_plain {s : State} {h : HartId} {n : Nat} {v : Word} {f : Hart → State → Word} (hc : CallMade s h n)
    (hl : callListed n = true) (hv : f ((monitorEntry h s).hart h) (monitorEntry h s).draw = v) :
    CallServed s h (keepQueue s (done (byHart h (serveCall h n (plainCall f)) s))) (callReturned s h v (monitorEntry h s).draw) :=
  callServed_of_checks hc hl rfl (by rw [hv])

theorem rdHem_draw (s : State) : rdHem s.draw = rdHem s := rfl

theorem rdClaim_draw (s : State) : rdClaim s.draw = rdClaim s := rfl

/-! ### The calls with buffers -/

theorem pubkeyCall_checks {h : Nat} {x : Hart} {s : State} (hlen : 1793 ≤ (x.gx 11).toNat)
    (hb : bufferOk s h (x.gx 10).toNat (x.gx 11).toNat = true) :
    pubkeyCall h x s = callChecks x true true
      (fun u => (cohWrite (x.gx 10).toNat ((aliasPub u ++ zeros 1793).take 1793) false u, .ok 1793)) s := by
  simp only [pubkeyCall, hb, decide_eq_true hlen]

theorem attestCall_checks {h : Nat} {x : Hart} {s : State} (hlen : 1936 ≤ (x.gx 11).toNat)
    (hb : bufferOk s h (x.gx 10).toNat (x.gx 11).toNat = true) (hn : bufferOk s h (x.gx 12).toNat 32 = true) :
    attestCall h x s = callChecks x true true (fun u =>
      if (cohRead u (x.gx 12).toNat 32).2 then (u, .error 1)
      else (cohWrite (x.gx 10).toNat (attReport u (cohRead u (x.gx 12).toNat 32).1) false u.draw, .ok 1936)) s := by
  simp only [attestCall, hb, hn, decide_eq_true hlen, Bool.and_self]

/-- Settles O22: each call by what its function returns at the entry, where its checks are met. -/
theorem monitorCallsAnswer : Obligations.MonitorCallsAnswer := by
  refine ⟨?version, ?probe, ?hem, ?claim, ?pubkey, ?attest⟩
  case version => exact fun s h hc => callServed_plain hc rfl rfl
  case probe =>
    intro s h hc
    have ⟨hi, _⟩ := hc
    refine callServed_plain hc rfl ?_
    rw [gx_monitorEntry hi]
  case hem => exact fun s h hc => callServed_plain hc rfl (rdHem_draw _)
  case claim => exact fun s h hc => callServed_plain hc rfl (rdClaim_draw _)
  case pubkey =>
    intro s h hc hlen hb
    have ⟨hi, _⟩ := hc
    refine callServed_of_checks hc rfl (pubkeyCall_checks ?_ ?_) ?_
    all_goals simp only [gx_monitorEntry hi]
    · exact hlen
    · exact hb
  case attest =>
    intro s h hc hlen hb hn hp
    have ⟨hi, _⟩ := hc
    refine callServed_of_checks hc rfl (attestCall_checks ?_ ?_ ?_) ?_
    all_goals simp only [gx_monitorEntry hi]
    · exact hlen
    · exact hb
    · exact hn
    · rw [if_neg (by simp [hp])]

end Sys2Proof.Machine

/-! # Claims, clock and power requests, and the end of PK3 (R83, R84, R332, R333)

A request passes its tests and is final, deferred, or proceeds. One that proceeds on a block with no operation under way is added to the
operations, and REQSTAT shows it. -/

namespace Sys2Proof.Machine

open Sys2Proof

theorem find_block_none {b : BlockId} {l : List PwrOp} (h : ∀ o ∈ l, o.block ≠ b) : l.find? (fun o => o.block.val = b.val) = none :=
  List.find?_eq_none.mpr fun o ho => by simpa using fun he => h o ho (Fin.ext he)

theorem withdraw_none {b : BlockId} {s : State} (h : ∀ o ∈ s.pwr.deferred, o.block ≠ b) : withdraw b.val s = s := by
  rw [withdraw, find_block_none h]

theorem any_block_false {b : BlockId} {l : List PwrOp} (h : ∀ o ∈ l, o.block ≠ b) : (l.any fun q => q.block = b) = false := by
  simpa using h

/-- A request that replaces no operation joins the operations, and REQSTAT shows it busy (R332). -/
theorem proceed_new {o : PwrOp} {s : State} (h : ∀ q ∈ s.pwr.ops, q.block ≠ o.block) : proceed o s = { s with pwr := { s.pwr with
    ops := s.pwr.ops ++ [o], reqBusy := true, reqTarget := BitVec.ofNat 6 o.block, reqOutcome := 0 } } := by
  have hold : (s.pwr.ops.filter fun q => q.block = o.block) = [] := by simpa using h
  have hkeep : (s.pwr.ops.filter fun q => q.block ≠ o.block) = s.pwr.ops := by simpa using h
  simp only [proceed, hold, List.foldl_nil, hkeep, setReqstat, ocDone, BitVec.ofNat_eq_ofNat]

/-- The power-up of a block other than a Sleeve is its operation alone. -/
theorem powerUp_of_not_sleeve {o : PwrOp} {s : State} (h : 12 ≤ o.block.val) : powerUp o s = proceed o s := by
  unfold powerUp
  dsimp only
  rw [if_neg (by omega)]

/-! ### A request -/

/-- A power-up of a block that is not in its running state proceeds. -/
theorem powerRequest_up {s : State} {b : BlockId} {w : Requester} {ctx : Option DictCtx} (hn : opNamed s 0 b = true) (ht : s.thm.shut = 0)
    (hb : 12 ≤ b.val) (hstate : blockState s b ≠ 0) (hd : ∀ o ∈ s.pwr.deferred, o.block ≠ b) (hsec : secOnly s b w = false) :
    (powerRequest 0 b w ctx s).1 = proceed ⟨b, 0, w, ctx, s.time⟩ s := by
  have hawake : blockAwake s b = false := by simp [blockAwake, hstate]
  have hcond : opCond s 0 b = true := rfl
  unfold powerRequest
  dsimp only
  rw [if_neg (by simp [hn]), if_neg (by simp [ht]), if_neg (by omega), if_neg (by simp [hcond]), if_pos rfl, if_neg (by simp [hsec]),
    withdraw_none hd, if_neg (by simp [hawake]), powerUp_of_not_sleeve hb]

/-- A stop or a power-off whose tests pass: deferred where the block is claimed against the normal world, else it proceeds. -/
theorem powerRequest_stop {s : State} {b : BlockId} {w : Requester} {ctx : Option DictCtx} {op : Nat} (h0 : op ≠ 0)
    (hn : opNamed s op b = true) (ht : s.thm.shut = 0) (hb : 12 ≤ b.val) (hc : opCond s op b = true)
    (hstate : ¬ (blockState s b = op ∨ blockState s b = 2)) : powerRequest op b w ctx s =
      if reqNormal s w && claimed s b then
        if s.pwr.deferred.any fun q => q.block = b then (setReqstat false b ocBusy s, some ocBusy)
        else (setReqstat true b ocDeferred { s with pwr := { s.pwr with deferred := s.pwr.deferred ++ [⟨b, op, w, ctx, s.time⟩] } },
          some ocDeferred)
      else (proceed ⟨b, op, w, ctx, s.time⟩ s, some ocDeferred) := by
  unfold powerRequest
  dsimp only
  rw [if_neg (by simp [hn]), if_neg (by simp [ht]), if_neg (by omega), if_neg (by simp [hc]), if_neg h0, if_neg hstate]

/-- A stop or a power-off that no claim stands in the way of proceeds. -/
theorem powerRequest_stop_proceeds {s : State} {b : BlockId} {w : Requester} {ctx : Option DictCtx} {op : Nat} (h0 : op ≠ 0)
    (hn : opNamed s op b = true) (ht : s.thm.shut = 0) (hb : 12 ≤ b.val) (hc : opCond s op b = true)
    (hstate : ¬ (blockState s b = op ∨ blockState s b = 2)) (hfree : reqNormal s w = false ∨ claimed s b = false) :
    (powerRequest op b w ctx s).1 = proceed ⟨b, op, w, ctx, s.time⟩ s := by
  have hopen : (reqNormal s w && claimed s b) = false := by
    rcases hfree with h | h <;> simp [h]
  rw [powerRequest_stop h0 hn ht hb hc hstate, hopen, if_neg Bool.false_ne_true]

/-- A stop or a power-off of the normal world on a claimed block is deferred (R83). -/
theorem powerRequest_stop_defers {s : State} {b : BlockId} {w : Requester} {ctx : Option DictCtx} {op : Nat} (h0 : op ≠ 0)
    (hn : opNamed s op b = true) (ht : s.thm.shut = 0) (hb : 12 ≤ b.val) (hc : opCond s op b = true)
    (hstate : ¬ (blockState s b = op ∨ blockState s b = 2)) (hw : reqNormal s w = true) (hclaim : claimed s b = true)
    (hd : ∀ o ∈ s.pwr.deferred, o.block ≠ b) : (powerRequest op b w ctx s).1 =
      setReqstat true b ocDeferred { s with pwr := { s.pwr with deferred := s.pwr.deferred ++ [⟨b, op, w, ctx, s.time⟩] } } := by
  rw [powerRequest_stop h0 hn ht hb hc hstate, if_pos (by simp [hw, hclaim]), any_block_false hd, if_neg Bool.false_ne_true]

theorem exec_powerReqDone_ready {s : State} {b : BlockId} {o : PwrOp} (ho : s.pwr.ops.find? (fun o => o.block = b) = some o)
    (hw : opWaits o s = false) : exec (.powerReqDone b) s = .next { endReq o ocDone (opEffect o.op b.val
      { s with pwr := { s.pwr with ops := s.pwr.ops.filter fun q => q.block ≠ b } }) with pending := s.pending } := by
  show execPowerReqDone b s = _
  simp only [execPowerReqDone, ho, hw, Bool.false_eq_true, if_false, keepQueue_done]

/-! ### Claims -/

/-- The claim register written, with the requests that its cleared blocks held taken off. -/
def claimSet (v : Word) (s : State) : State :=
  { s with
    cloak := { s.cloak with claim := fld v 0 40 }
    pwr := { s.pwr with
      secHeld := newlyHeld s (fld v 0 40), deferred := s.pwr.deferred.filter fun o => (fld v 0 40).getLsbD o.block.val } }

theorem claimSet_none {v : Word} {s : State} (hd : s.pwr.deferred = []) : claimSet v s =
    { s with cloak := { s.cloak with claim := fld v 0 40 }, pwr := { s.pwr with secHeld := newlyHeld s (fld v 0 40) } } := by
  rw [claimSet, hd, List.filter_nil, ← hd]

theorem claimSet_one {v : Word} {s : State} {o : PwrOp} (hd : s.pwr.deferred = [o]) (ho : (fld v 0 40).getLsbD o.block.val = false) :
    claimSet v s = { s with
      cloak := { s.cloak with claim := fld v 0 40 }
      pwr := { s.pwr with secHeld := newlyHeld s (fld v 0 40), deferred := [] } } := by
  rw [claimSet, hd, List.filter_cons_of_neg (by simpa using ho), List.filter_nil]

theorem endReq_offPending (o : PwrOp) (oc : Nat) (s : State) : (endReq o oc s).pwr.offPending = s.pwr.offPending := by
  unfold endReq
  dsimp only
  repeat' split
  · rw [cmdDoneFor_frame]
    rfl
  · rw [cmdDoneFor_frame]
  · rfl
  · rfl

theorem proceed_offPending (o : PwrOp) (s : State) : (proceed o s).pwr.offPending = s.pwr.offPending := by
  have ended (l : List PwrOp) : (l.foldl (fun a q => endReq q ocWithdrawn a) s).pwr.offPending = s.pwr.offPending :=
    foldl_inv (fun a => a.pwr.offPending = s.pwr.offPending) _ (fun a q h => (endReq_offPending q ocWithdrawn a).trans h) _ _ rfl
  exact ended _

theorem proceedAll_offPending (l : List PwrOp) (s : State) : (l.foldl (fun a o => proceed o a) s).pwr.offPending = s.pwr.offPending :=
  foldl_inv (fun a => a.pwr.offPending = s.pwr.offPending) _ (fun a o h => (proceed_offPending o a).trans h) _ _ rfl

/-- With no power-off of the package pending, a write of CLAIM lets the deferred requests of the blocks it clears proceed (R83). -/
theorem wrClaim_proceeds {v : Word} {s : State} (hp : s.pwr.offPending = none) : wrClaim v s =
    (s.pwr.deferred.filter fun o => !(fld v 0 40).getLsbD o.block.val).foldl (fun a o => proceed o a) (claimSet v s) := by
  have hnone := (proceedAll_offPending (s.pwr.deferred.filter fun o => !(fld v 0 40).getLsbD o.block.val) (claimSet v s)).trans hp
  unfold claimSet at hnone ⊢
  unfold wrClaim
  simp only [hnone]

theorem exec_claimWrite_secure {s : State} {a : Agent} (v : Word) (hr : agentRuns s a = true) (hs : agentSecure s a = true) :
    exec (.claimWrite a v) s = .next { wrClaim v s with pending := s.pending } := by
  show execClaimWrite a v s = _
  rw [execClaimWrite, sentBy_runs hr, if_pos hs, keepQueue_done]

theorem exec_claimBoundExpire_deferred {s : State} {b : BlockId} {o : PwrOp} (ho : s.pwr.deferred.find? (fun o => o.block = b) = some o) :
    exec (.claimBoundExpire b) s = .next { reportClaimref b o.who (endReq o ocRefused
      { s with pwr := { s.pwr with deferred := s.pwr.deferred.filter fun o => o.block ≠ b } }) with pending := s.pending } := by
  show execClaimBoundExpire b s = _
  simp only [execClaimBoundExpire, ho, keepQueue_done]

/-! ### The end of PK3 -/

theorem leavePk3_wakes {s : State} (src : Nat) (hp : s.pwr.pk3 = true) (hh : ¬ (s.pwr.pk3Cause = 2 ∧ 80000 ≤ maxReading s.thm.sensors)) :
    leavePk3 src s = { setWakesrc 7 0xF 0xFF src s with
      pwr := { (setWakesrc 7 0xF 0xFF src s).pwr with pk3 := false }, pins := { s.pins with evPk3 := true } } := by
  rw [leavePk3, if_neg (by simp [hp]), if_neg hh]
  rfl

/-- The low byte of the word written to WAKESRC is the source (Table 13.5). -/
theorem setWakesrc_source (left sleeve core src : Nat) (s : State) :
    (setWakesrc left sleeve core src s).pwr.wakesrc.extractLsb' 0 8 = BitVec.ofNat 8 src := by
  ext i hi
  have h16 : i < 16 := by omega
  have h28 : i < 28 := by omega
  have h32 : i < 32 := by omega
  have h64 : i < 64 := by omega
  simp [setWakesrc, cat, at_, h16, h28, h32, h64, hi]

/-- Settles O23: a request by the tests it passes, a claim's write by the requests it lets proceed. -/
theorem claimsAndPowerRequests : Obligations.ClaimsAndPowerRequests := by
  refine ⟨?up, ?stop, ?off, ?deferred, fun s b o ho hw => exec_powerReqDone_ready ho hw, ?claim, ?release,
    fun s b o ho => exec_claimBoundExpire_deferred ho, ?wake⟩
  case up =>
    intro s b w h33 ht hb hstate hd ho hsec
    have hn : opNamed s 0 b = true := by simp [opNamed, h33, show ¬ b.val < 12 by omega]
    show keepQueue s (done (powerRequest 0 b w none s).1) = _
    rw [powerRequest_up hn ht hb hstate hd hsec, proceed_new ho, keepQueue_done]
  case stop =>
    intro s b w hn ht hb hc hstate hfree ho
    show keepQueue s (done (powerRequest 1 b w none s).1) = _
    rw [powerRequest_stop_proceeds (by decide) hn ht hb hc (by omega) hfree, proceed_new ho, keepQueue_done]
  case off =>
    intro s b w hn ht hb hc hstate hfree ho
    show keepQueue s (done (powerRequest 2 b w none s).1) = _
    rw [powerRequest_stop_proceeds (by decide) hn ht hb hc (by omega) hfree, proceed_new ho, keepQueue_done]
  case deferred =>
    intro s b w hn ht hb hc hstate hw hclaim hd
    show keepQueue s (done (powerRequest 2 b w none s).1) = _
    rw [powerRequest_stop_defers (by decide) hn ht hb hc (by omega) hw hclaim hd, keepQueue_done]
    rfl
  case claim =>
    intro s a v hr hs hd hp
    rw [exec_claimWrite_secure v hr hs, wrClaim_proceeds hp, claimSet_none hd, hd, List.filter_nil, List.foldl_nil]
  case release =>
    intro s a v o hr hs hd hp hclear
    rw [exec_claimWrite_secure v hr hs, wrClaim_proceeds hp, claimSet_one hd hclear, hd, List.filter_cons_of_pos (by simpa using hclear),
      List.filter_nil, List.foldl_cons, List.foldl_nil]
  case wake =>
    intro s hp hh
    refine ⟨{ leavePk3 9 s with pending := s.pending }, rfl, ?_⟩
    rw [leavePk3_wakes 9 hp hh]
    exact ⟨rfl, rfl, setWakesrc_source 7 0xF 0xFF 9 s, rfl, rfl⟩

end Sys2Proof.Machine

/-! # Translation fences, block registers and prefetches (R91, R97, R101, R104, R105)

A fence of a hart that issues in a mode that may execute it invalidates what its operands name and retires. A write of a block register
goes to the register itself while V = 0. A prefetch is its access alone, and a trained stream fills the line that its masks and its
allowance pass. -/

namespace Sys2Proof.Machine

open Sys2Proof

/-! ### The fences -/

/-- The test by which TVM makes a fence illegal (Table 4.9) fails outside U-mode when TVM is clear in S-mode. -/
theorem not_fenceIll {x : Hart} (hu : x.priv ≠ 0) (ht : x.priv = 1 → bit (x.c 0x300) 20 = false) :
    ¬ (x.priv = 0 ∨ x.priv = 1 ∧ bit (x.c 0x300) 20 = true) := by
  rintro (h0 | ⟨h1, hb⟩)
  · exact hu h0
  · exact absurd hb (by rw [ht h1]; decide)

theorem exec_sfenceVma {s : State} {h : HartId} (rs1 rs2 : XReg) (hi : hartIssues s h = true) (hv : (s.hart h).virt = false)
    (hu : (s.hart h).priv ≠ 0) (ht : (s.hart h).priv = 1 → bit ((s.hart h).c 0x300) 20 = false) :
    exec (.sfenceVma h rs1 rs2) s = .next { retire h 4 (fenceGuard .single (fenceOp (s.hart h) rs1 rs2 1 16)
      (sfence h (fenceOp (s.hart h) rs1 rs2 1 16)) s) with pending := s.pending } := by
  refine (done_byHart hi).trans ?_
  dsimp only
  rw [if_neg (by simp [hv]), if_neg (not_fenceIll hu ht)]

theorem exec_hfenceVvma {s : State} {h : HartId} (rs1 rs2 : XReg) (hi : hartIssues s h = true) (hv : (s.hart h).virt = false)
    (hu : (s.hart h).priv ≠ 0) :
    exec (.hfenceVvma h rs1 rs2) s = .next { retire h 4 (fenceGuard .vs (fenceOp (s.hart h) rs1 rs2 1 16)
      (hfenceVvma h (fenceOp (s.hart h) rs1 rs2 1 16)) s) with pending := s.pending } := by
  refine (done_byHart hi).trans ?_
  dsimp only
  rw [if_neg (by simp [hv]), if_neg hu, doVvma]

theorem exec_hfenceGvma {s : State} {h : HartId} (rs1 rs2 : XReg) (hi : hartIssues s h = true) (hv : (s.hart h).virt = false)
    (hu : (s.hart h).priv ≠ 0) (ht : (s.hart h).priv = 1 → bit ((s.hart h).c 0x300) 20 = false) :
    exec (.hfenceGvma h rs1 rs2) s = .next { retire h 4 (fenceGuard .g (fenceOp (s.hart h) rs1 rs2 4 12)
      (hfenceGvma h (fenceOp (s.hart h) rs1 rs2 4 12)) s) with pending := s.pending } := by
  refine (done_byHart hi).trans ?_
  dsimp only
  rw [if_neg (by simp [hv]), if_neg (not_fenceIll hu ht)]

/-! ### The block registers -/

theorem redirect_host (n : Nat) : redirect false n = n := if_pos rfl

/-- The block registers lie above the branch-prediction registers, which are the two written otherwise (Table 2.9). -/
theorem blkCsr_ge (b : BlkReg) : 0x5D0 ≤ blkCsr b := by
  cases b <;> exact Nat.le_add_right_of_le (by decide)

/-- A permitted write of a block register while V = 0 is the register's own, and retires (R91). -/
theorem exec_blockRegWrite {s : State} {h : HartId} {b : BlkReg} (v : Word) (hi : hartIssues s h = true)
    (hc : csrCheck (s.hart h) (blkCsr b) true = none) (hv : (s.hart h).virt = false) :
    exec (.blockRegWrite h b v) s = .next (retire h 4 (s.setHart h (csrWrite s (s.hart h) (blkCsr b) v))) := by
  have hb := blkCsr_ge b
  refine (done_byHart hi).trans ?_
  rw [csrInstr_ok hc, hv, redirect_host, if_neg (by omega), if_neg (by omega)]
  rfl

/-- A write of a block output register sets it under the mask of Table 4.3 and empties the L1 TLBs. -/
theorem csrWrite_blkpa (s : State) (x : Hart) (k : Fin 8) (v : Word) : csrWrite s x (0x5D8 + k) v =
    { x.maskC (0x5D8 + k) 0xFFFFFF0FFFFFFFFF v with itlb := [], dtlb := [] } :=
  match k with
  | 0 | 1 | 2 | 3 | 4 | 5 | 6 | 7 => rfl

/-! ### Prefetches -/

/-- A prefetch that finds no array error is its access, and retires whatever that found (R104). -/
theorem exec_prefetch {s : State} {h : HartId} (k : PrefetchKind) (r : XReg) (off : BitVec 12) (hi : hartIssues s h = true) :
    exec (.prefetch h k r off []) s = .next { prefetchInstr h k r off s with pending := s.pending } := by
  show keepQueue s (done (byHartMeet h [] (prefetchInstr h k r off) s)) = _
  rw [byHartMeet_issues hi, keepQueue_done]

/-- A trained stream that no mask, no transaction and no lack of allowance drops fills its line (R105). -/
theorem exec_prefetcherIssue {s s1 : State} {c : CoreId} {l2 : Bool} {i n : Nat} {e : Stream} {h : HartId}
    (he : (if l2 then (s.core c).str2 else (s.core c).str1)[i]? = some e) (hh : h = Fin.ofNat 960 e.hart) (hn : n / 64 = e.page)
    (hc : corePresent s c = true) (hl : tabGet s.pwr.coreSl 0 c.val = 0) (ha : (s.hart h).heldAcc = false)
    (hr : refusal s (.hart h) (s.hart h).sec false (64 * n) = none) (hp : pathOf s h ⟨64 * n, 0, false, [], [], [], [], false⟩ = .cached)
    (hw : lineWait s c n false = false)
    (ht : (if lineMiss s c n false then injTake c (agentTid s (.hart h)) 1 s else (s, none)) = (s1, none)) :
    exec (.prefetcherIssue c l2 i n) s =
      .next { (if l2 then (walkLine h n s1).1 else (readLine h n s1).1) with pending := s.pending } := by
  show execPrefetcherIssue c l2 i n s = _
  simp only [execPrefetcherIssue, he, ← hh]
  rw [if_neg (by simpa [hn, hc, hl, ha, hr, hw] using hp), ht, keepQueue_done]

/-- Settles O20: a fence and a prefetch by their hart's issue, a block register by its number, a stream by the tests it passes. -/
theorem fencesPrefetchesAndBlockRegisters : Obligations.FencesPrefetchesAndBlockRegisters := by
  refine ⟨?fences, fun s h b v => exec_blockRegWrite v, csrWrite_blkpa, ?prefetch, ?errors, ?stream⟩
  case fences =>
    exact fun s h rs1 rs2 hi hv hu ht =>
      ⟨exec_sfenceVma rs1 rs2 hi hv hu ht, exec_hfenceVvma rs1 rs2 hi hv hu, exec_hfenceGvma rs1 rs2 hi hv hu ht⟩
  case prefetch => exact fun s h k r off hi => exec_prefetch k r off hi
  case errors => exact fun s h k r off errs hi hs => done_byHartMeet hi hs
  case stream =>
    exact fun s s1 c l2 i n e h he hh hn hc hl ha hr hp hw ht => exec_prefetcherIssue he hh hn hc hl ha hr hp hw ht

end Sys2Proof.Machine

/-! # The cache-block operations (R109 to R113)

A CBO that its gate lets go and that reaches a cacheable line with nothing in the way acts at its level: the standard forms at the
domain's. A set-and-way operation of M-mode acts on the entry that its operand names. -/

namespace Sys2Proof.Machine

open Sys2Proof

/-- A command whose body comes to a state is performed with that state's effect. -/
theorem keepQueue_done_eq {s t u : State} (h : t = u) : keepQueue s (done t) = .next { u with pending := s.pending } := by
  rw [h, keepQueue_done]

/-! ### By line -/

/-- A CBO whose line is reached, in cacheable memory, with nothing in the way (R109, R110). -/
theorem doCbo_acts {s s1 : State} {h : HartId} {o : CboOp} {lvl : Nat} {inst va : Word} {fl : Bool} {t : Xl}
    (hg : cboGateOf (s.hart h) o = .go fl) (hr : reachCbo h va.toNat s = (s1, some t)) (hc : cacheable (regionOf s1 t.pa) = true)
    (hw : homeWait s1 (t.pa / 64) = false) : doCbo h o lvl inst va s =
      retire h 4 (fillTlbs h .load t (untouched h (opLevel h (cboDo o fl) lvl (t.pa / 64)) s1)) := by
  unfold doCbo
  simp only [hg, hr, hc, hw, Bool.true_eq_false, Bool.false_eq_true, if_false]

/-- Level 3 is every cache of the hart's domain (Table 5.4). -/
theorem opLevel_domain (h : HartId) (o : CboOp) (n : Nat) : opLevel h o 3 n = opDomain h o n := by
  cases o <;> rfl

theorem stdCbo_acts {s s1 : State} {h : HartId} {o : CboOp} (imm : Nat) {rs1 : XReg} {fl : Bool} {t : Xl} (hi : hartIssues s h = true)
    (hg : cboGateOf (s.hart h) o = .go fl) (hr : reachCbo h ((s.hart h).gx rs1).toNat s = (s1, some t))
    (hc : cacheable (regionOf s1 t.pa) = true) (hw : homeWait s1 (t.pa / 64) = false) : stdCbo h o imm rs1 s =
      retire h 4 (fillTlbs h .load t (untouched h (opDomain h (cboDo o fl) (t.pa / 64)) s1)) := by
  unfold stdCbo
  rw [byHart_issues hi, doCbo_acts hg hr hc hw, opLevel_domain]

theorem lvCbo_acts {s s1 : State} {h : HartId} {o : CboOp} (f7 : Nat) {rs1 rs2 : XReg} {fl : Bool} {t : Xl} (hi : hartIssues s h = true)
    (hg : cboGateOf (s.hart h) o = .go fl) (hl : ((s.hart h).gx rs2).toNat < 4)
    (hr : reachCbo h ((s.hart h).gx rs1).toNat s = (s1, some t)) (hc : cacheable (regionOf s1 t.pa) = true)
    (hw : homeWait s1 (t.pa / 64) = false) : lvCbo h o f7 rs1 rs2 s =
      retire h 4 (fillTlbs h .load t (untouched h (opLevel h (cboDo o fl) ((s.hart h).gx rs2).toNat (t.pa / 64)) s1)) := by
  unfold lvCbo
  rw [byHart_issues hi, doLv, if_neg (by omega), doCbo_acts hg hr hc hw]

theorem cboDo_inval (fl : Bool) : cboDo .inval fl = if fl then .flush else .inval := by
  cases fl <;> rfl

/-! ### CBO.ZERO -/

/-- A line owned in the L1D and zeroed, without its poison. -/
def zeroedLine (h : HartId) (n : Nat) (s : State) : State :=
  clearResv n (some h.val) (putOwned h { (ownLine h n s).2 with data := 0, poison := false } (ownLine h n s).1)

theorem doZero_cached {s s1 s2 : State} {h : HartId} {rs1 : XReg} {fl : Bool} {t : Xl} {m : Bool} (hg : cboGate (s.hart h) 7 1 = .go fl)
    (hr : reach h (accOf (s.hart h) .store) ((s.hart h).gx rs1).toNat s = (s1, some t)) (hp : pathOf s1 h t = .cached)
    (hw : lineWait s1 (hartCore h) (t.pa / 64) true = false)
    (hm : coreMeter m h (if lineMiss s1 (hartCore h) (t.pa / 64) true then 1 else 0) (.cboZero h rs1) s1 = (s2, true)) :
    doZero m h rs1 s =
      retire h 4 (fillTlbs h .store t (untouched h (zeroedLine h (t.pa / 64)) (countMiss h (t.pa / 64) s2))) := by
  unfold doZero
  simp only [hg, hr, hp, hw, hm, Bool.false_eq_true, if_false]
  rfl

/-! ### By set and way -/

/-- What a set-and-way operation does with the entry it names: the entry's line waits for its transaction, and an empty entry has
nothing to act on (R113). -/
def cswAct (h : HartId) (e : Option CLine) (f : Nat → CLine → State → State) (s : State) : State :=
  match e with
  | some e => if lineBusy s e.line then s else retire h 4 (untouched h (f e.line e) s)
  | none => retire h 4 s

theorem cswAct_free {h : HartId} {e : CLine} {f : Nat → CLine → State → State} {s : State} (hb : lineBusy s e.line = false) :
    cswAct h (some e) f s = retire h 4 (untouched h (f e.line e) s) := if_neg (by simp [hb])

/-- An operation on the L1D, whose operand names an entry (Table 5.5). -/
theorem doCsw_l1d {s : State} {h : HartId} {o : CboOp} {f7 : Nat} {rs1 : XReg} (hp : (s.hart h).priv = 3)
    (hok : cswOk ((s.hart h).gx rs1) = true) (hc : fld ((s.hart h).gx rs1) 0 2 = 0) : doCsw h o f7 rs1 s =
      cswAct h (tabFind ((fld ((s.hart h).gx rs1) 16 12).toNat * 8 + (fld ((s.hart h).gx rs1) 4 4).toNat)
        (s.core (hartCore h)).l1d.ents) (cswL1d h o) s := by
  unfold doCsw
  simp only [hp, hok, hc]
  rfl

/-- An operation on the L2, whose operand names an entry (Table 5.5). -/
theorem doCsw_l2 {s : State} {h : HartId} {o : CboOp} {f7 : Nat} {rs1 : XReg} (hp : (s.hart h).priv = 3)
    (hok : cswOk ((s.hart h).gx rs1) = true) (hc : fld ((s.hart h).gx rs1) 0 2 = 2) : doCsw h o f7 rs1 s =
      cswAct h (tabFind ((fld ((s.hart h).gx rs1) 16 12).toNat * 8 + (fld ((s.hart h).gx rs1) 4 4).toNat)
        (s.core (hartCore h)).l2.ents) (cswL2 h o) s := by
  unfold doCsw
  simp only [hp, hok, hc]
  rfl

theorem csw_l1d_entry {s : State} {h : HartId} {rs1 : XReg} {e : CLine} (o : CboOp) (f7 : Nat) (hi : hartIssues s h = true)
    (hp : (s.hart h).priv = 3) (hok : cswOk ((s.hart h).gx rs1) = true) (hc : fld ((s.hart h).gx rs1) 0 2 = 0)
    (he : tabFind ((fld ((s.hart h).gx rs1) 16 12).toNat * 8 + (fld ((s.hart h).gx rs1) 4 4).toNat) (s.core (hartCore h)).l1d.ents = some e)
    (hb : lineBusy s e.line = false) : keepQueue s (done (byHart h (doCsw h o f7 rs1) s)) =
      .next { retire h 4 (untouched h (cswL1d h o e.line e) s) with pending := s.pending } := by
  rw [keepQueue_done, byHart_issues hi, doCsw_l1d hp hok hc, he, cswAct_free hb]

theorem csw_l2_empty {s : State} {h : HartId} {rs1 : XReg} (o : CboOp) (f7 : Nat) (hi : hartIssues s h = true)
    (hp : (s.hart h).priv = 3) (hok : cswOk ((s.hart h).gx rs1) = true) (hc : fld ((s.hart h).gx rs1) 0 2 = 2)
    (he : tabFind ((fld ((s.hart h).gx rs1) 16 12).toNat * 8 + (fld ((s.hart h).gx rs1) 4 4).toNat) (s.core (hartCore h)).l2.ents = none) :
    keepQueue s (done (byHart h (doCsw h o f7 rs1) s)) = .next (retire h 4 s) := by
  rw [keepQueue_done, byHart_issues hi, doCsw_l2 hp hok hc, he]
  rfl

/-- Settles O19: a line by its gate and its reach, an entry by the array that its operand names. -/
theorem cacheBlockOperations : Obligations.CacheBlockOperations := by
  refine ⟨?cleanFlush, ?inval, ?lvCleanFlush, ?lvInval, ?zero, ?entry, ?empty⟩
  case cleanFlush =>
    exact fun s s1 h rs1 fl t hi hg hr hc hw =>
      ⟨keepQueue_done_eq (stdCbo_acts (o := .clean) 1 hi hg hr hc hw),
       keepQueue_done_eq (stdCbo_acts (o := .flush) 2 hi hg hr hc hw)⟩
  case inval =>
    intro s s1 h rs1 fl t hi hg hr hc hw
    rw [← cboDo_inval]
    exact keepQueue_done_eq (stdCbo_acts (o := .inval) 0 hi hg hr hc hw)
  case lvCleanFlush =>
    exact fun s s1 h rs1 rs2 fl t hi hg hl hr hc hw =>
      ⟨keepQueue_done_eq (lvCbo_acts (o := .clean) 1 hi hg hl hr hc hw),
       keepQueue_done_eq (lvCbo_acts (o := .flush) 3 hi hg hl hr hc hw)⟩
  case lvInval =>
    intro s s1 h rs1 rs2 fl t hi hg hl hr hc hw
    rw [← cboDo_inval]
    exact keepQueue_done_eq (lvCbo_acts (o := .inval) 2 hi hg hl hr hc hw)
  case zero =>
    intro s s1 s2 h rs1 fl t hi hg hr hp hw hm
    refine keepQueue_done_eq ((byHart_issues hi).trans ?_)
    exact doZero_cached hg hr hp hw hm
  case entry =>
    exact fun s h rs1 e hi hp hok hc he hb =>
      ⟨csw_l1d_entry .clean 1 hi hp hok hc he hb, csw_l1d_entry .inval 2 hi hp hok hc he hb,
       csw_l1d_entry .flush 3 hi hp hok hc he hb⟩
  case empty =>
    exact fun s h rs1 hi hp hok hc he =>
      ⟨csw_l2_empty .clean 1 hi hp hok hc he, csw_l2_empty .inval 2 hi hp hok hc he, csw_l2_empty .flush 3 hi hp hok hc he⟩

end Sys2Proof.Machine

/-! # The control of the sleeve cache (R115 to R120, R127)

SCRATCH.COUNT and WAYPD.REQ stand in the Sleeve's register window, which refuses first; then each write has one equation per case of
Table 5.7. A conversion's step is chosen by the count of the ways that SCR names, and that count is what SCR was made from. -/

namespace Sys2Proof.Machine

open Sys2Proof

/-! ### The Sleeve's window -/

/-- A register of a Sleeve's window at which the sender is refused. -/
theorem regWriteBy_sleeve_refused {who : Agent} {r : Reg} {k o : Nat} {v : Word} {s : State} {u : UcsKind} (h0 : secureOff r = none)
    (h1 : pageOf r = none) (h2 : sleeveOff r = some (k, o))
    (hu : refusal s who (agentSecure s who) true (0x20000000 + 0x4000000 * k + o) = some u) : regWriteBy who r v s =
      faultAgent who true (reportUcs who u (0x20000000 + 0x4000000 * k + o) false s) := by
  simp only [regWriteBy, h0, h1, h2, hu]

theorem regWriteBy_sleeve {who : Agent} {r : Reg} {k o : Nat} {v : Word} {s : State} (h0 : secureOff r = none)
    (h1 : pageOf r = none) (h2 : sleeveOff r = some (k, o))
    (hu : refusal s who (agentSecure s who) true (0x20000000 + 0x4000000 * k + o) = none) :
    regWriteBy who r v s = regWrite who r v s := by
  simp only [regWriteBy, h0, h1, h2, hu]

theorem exec_scratchWrite_refused {s : State} {a : Agent} {k : SleeveId} (v : Word) {u : UcsKind} (hr : agentRuns s a = true)
    (hu : refusal s a (agentSecure s a) true (0x20000000 + 0x4000000 * k.val + 0x20000) = some u) : exec (.scratchWrite a k v) s =
      .next { faultAgent a true (reportUcs a u (0x20000000 + 0x4000000 * k.val + 0x20000) false s) with pending := s.pending } := by
  show keepQueue s (sentBy a s (done (regWriteBy a (.l3cScratch k) v s))) = _
  rw [sentBy_runs hr, regWriteBy_sleeve_refused rfl rfl rfl hu, keepQueue_done]

theorem exec_waypdWrite_refused {s : State} {a : Agent} {k : SleeveId} (v : Word) {u : UcsKind} (hr : agentRuns s a = true)
    (hu : refusal s a (agentSecure s a) true (0x20000000 + 0x4000000 * k.val + 0x20008) = some u) : exec (.waypdWrite a k v) s =
      .next { faultAgent a true (reportUcs a u (0x20000000 + 0x4000000 * k.val + 0x20008) false s) with pending := s.pending } := by
  show keepQueue s (sentBy a s (done (regWriteBy a (.l3cWaypd k) v s))) = _
  rw [sentBy_runs hr, regWriteBy_sleeve_refused rfl rfl rfl hu, keepQueue_done]

theorem exec_scratchWrite {s : State} {a : Agent} {k : SleeveId} (v : Word) (hr : agentRuns s a = true)
    (hu : refusal s a (agentSecure s a) true (0x20000000 + 0x4000000 * k.val + 0x20000) = none) :
    exec (.scratchWrite a k v) s = .next { wrScratch k v s with pending := s.pending } := by
  show keepQueue s (sentBy a s (done (regWriteBy a (.l3cScratch k) v s))) = _
  rw [sentBy_runs hr, regWriteBy_sleeve rfl rfl rfl hu, keepQueue_done]
  rfl

theorem exec_waypdWrite {s : State} {a : Agent} {k : SleeveId} (v : Word) (hr : agentRuns s a = true)
    (hu : refusal s a (agentSecure s a) true (0x20000000 + 0x4000000 * k.val + 0x20008) = none) :
    exec (.waypdWrite a k v) s = .next { wrWaypd k v s with pending := s.pending } := by
  show keepQueue s (sentBy a s (done (regWriteBy a (.l3cWaypd k) v s))) = _
  rw [sentBy_runs hr, regWriteBy_sleeve rfl rfl rfl hu, keepQueue_done]
  rfl

/-! ### The two registers (Table 5.7) -/

theorem wrScratch_busy {k : Nat} {v : Word} {s : State} (hb : (s.slv k).busy = true) : wrScratch k v s = l3Err k 3 s := if_pos hb

theorem wrScratch_unmet {k : Nat} {v : Word} {s : State} (hb : (s.slv k).busy = false)
    (hn : 8 < (fld v 0 4).toNat ∨ (fld v 0 4 ≠ 0 ∧ featOn s 2 = false)) : wrScratch k v s = l3Err k 1 s := by
  simp only [wrScratch, hb, Bool.false_eq_true, if_false, if_pos hn]

/-- The Sleeve's control after a COUNT that may be had: refused for a requested way, the value in force, or a conversion begun. -/
theorem wrScratch_met {k : Nat} {v : Word} {s : State} (hb : (s.slv k).busy = false) (h8 : (fld v 0 4).toNat ≤ 8)
    (hf : fld v 0 4 = 0 ∨ featOn s 2 = true) : wrScratch k v s = s.setSlv k (
      if scratchWays (fld v 0 4).toNat &&& (s.slv k).wayReq ≠ 0 then { s.slv k with err := 2 }
      else if fld v 0 4 = (s.slv k).count then { s.slv k with err := 0 }
      else { s.slv k with
        err := 0, busy := true, count := fld v 0 4, convTo := some (fld v 0 4).toNat, convStep := 1
        drain := if (s.slv k).count.toNat < (fld v 0 4).toNat then scratchWays (fld v 0 4).toNat &&& ~~~ (s.slv k).scr
          else (s.slv k).drain }) := by
  have hmet : ¬ (8 < (fld v 0 4).toNat ∨ (fld v 0 4 ≠ 0 ∧ featOn s 2 = false)) := by
    rcases hf with hf | hf <;> simp [h8, hf]
  unfold wrScratch
  dsimp only
  rw [if_neg (by simp [hb]), if_neg hmet]
  simp only [decide_eq_true_eq, apply_ite (s.setSlv k)]
  rfl

theorem wrWaypd_busy {k : Nat} {v : Word} {s : State} (hb : (s.slv k).busy = true) : wrWaypd k v s = l3Err k 3 s := if_pos hb

theorem wrWaypd_unmet {k : Nat} {v : Word} {s : State} (hb : (s.slv k).busy = false) (hn : fld v 0 16 ≠ 0) (hf : featOn s 3 = false) :
    wrWaypd k v s = l3Err k 1 s := by
  simp only [wrWaypd, hb, Bool.false_eq_true, if_false, if_pos (And.intro hn hf)]

theorem wrWaypd_met {k : Nat} {v : Word} {s : State} (hb : (s.slv k).busy = false) (hf : fld v 0 16 = 0 ∨ featOn s 3 = true) :
    wrWaypd k v s = if fld v 0 16 &&& (s.slv k).scr ≠ 0 then l3Err k 2 s
      else if fld v 0 16 = (s.slv k).wayReq then l3Err k 0 s
      else wayBusy k (s.modSlv k fun c => { c with
        err := 0, wayReq := fld v 0 16, drain := fld v 0 16 &&& ~~~ c.wayReq, powerUp := c.wayReq &&& ~~~ fld v 0 16 }) := by
  have hmet : ¬ (fld v 0 16 ≠ 0 ∧ featOn s 3 = false) := by
    rcases hf with hf | hf <;> simp [hf]
  simp only [wrWaypd, hb, if_neg hmet, Bool.false_eq_true, if_false]

/-! ### The steps of a conversion (Tables 5.8 and 5.9) -/

/-- The number of the ways that SCR names. -/
def scratchCount (scr : BitVec 16) : Nat := (upto 16).foldl (fun a w => if scr.getLsbD w then a + 1 else a) 0

theorem scratchCount_scratchWays {n : Nat} (h : n ≤ 8) : scratchCount (scratchWays n) = n := by
  have small : ∀ m : Fin 9, scratchCount (scratchWays m) = m := by decide
  exact small ⟨n, by omega⟩

/-- A conversion goes on to its next step. -/
def convNext (k : Nat) (s : State) : State := s.modSlv k fun v => { v with convStep := v.convStep + 1 }

/-- A conversion ends. -/
def convEnd (k : Nat) (s : State) : State := s.modSlv k fun v => { v with convTo := none, convStep := 0, busy := false, drain := 0 }

/-- Step `j` of a conversion from `m` to more ways, `n` (Table 5.8). -/
def moreStep (k m n j : Nat) (s : State) : State :=
  match j with
  | 1 => convNext k ((upto 16).foldl (fun a w => if (s.slv k).drain.getLsbD w then emptyWay k w a else a) s)
  | 2 => convNext k ((waysFrom m n).foldl (fun a w => clearScratch k w a) s)
  | _ => convEnd k (s.modSlv k fun v => { v with scr := scratchWays n })

/-- Step `j` of a conversion from `m` to fewer ways, `n` (Table 5.9). -/
def fewerStep (k m n j : Nat) (s : State) : State :=
  match j with
  | 1 => convNext k ((waysFrom n m).foldl (fun a w => dropScratchCopies k w a) s)
  | _ => convNext k (((waysFrom n m).foldl (fun a w => clearScratch k w a) s).modSlv k fun v => { v with scr := scratchWays n })

/-- A step of the conversion to `n` ways of a Sleeve with `m` scratch ways. -/
theorem exec_scratchStepDone {s : State} {k : SleeveId} {m n : Nat} (hm : m ≤ 8) (hs : (s.slv k).scr = scratchWays m)
    (hc : (s.slv k).convTo = some n) : exec (.scratchStepDone k) s =
      .next { (if m < n then moreStep k m n (s.slv k).convStep s else if n < m then fewerStep k m n (s.slv k).convStep s
        else convEnd k s) with pending := s.pending } := by
  have hold := scratchCount_scratchWays hm
  rw [← hs, scratchCount] at hold
  show execScratchStepDone k s = keepQueue s (done _)
  unfold execScratchStepDone
  simp only [hc, hold]
  generalize (s.slv k).convStep = j
  by_cases hmore : m < n
  · rw [if_pos hmore, if_pos hmore]
    exact match j with | 0 | 1 | 2 | _ + 3 => rfl
  · rw [if_neg hmore, if_neg hmore]
    by_cases hfewer : n < m
    · rw [if_pos hfewer, if_pos hfewer]
      exact match j with | 0 | 1 | _ + 2 => rfl
    · rw [if_neg hfewer, if_neg hfewer]
      rfl

theorem exec_scratchStepDone_more {s : State} {k : SleeveId} {m n j : Nat} (hlt : m < n) (hn : n ≤ 8) (hs : (s.slv k).scr = scratchWays m)
    (hc : (s.slv k).convTo = some n) (hj : (s.slv k).convStep = j) :
    exec (.scratchStepDone k) s = .next { moreStep k m n j s with pending := s.pending } := by
  rw [exec_scratchStepDone (by omega) hs hc, if_pos hlt, hj]

theorem exec_scratchStepDone_fewer {s : State} {k : SleeveId} {m n j : Nat} (hlt : n < m) (hm : m ≤ 8) (hs : (s.slv k).scr = scratchWays m)
    (hc : (s.slv k).convTo = some n) (hj : (s.slv k).convStep = j) :
    exec (.scratchStepDone k) s = .next { fewerStep k m n j s with pending := s.pending } := by
  rw [exec_scratchStepDone hm hs hc, if_neg (by omega), if_pos hlt, hj]

/-- With the ways as many as the conversion's aim, it ends. -/
theorem exec_scratchStepDone_end {s : State} {k : SleeveId} {n : Nat} (hn : n ≤ 8) (hs : (s.slv k).scr = scratchWays n)
    (hc : (s.slv k).convTo = some n) : exec (.scratchStepDone k) s = .next { convEnd k s with pending := s.pending } := by
  rw [exec_scratchStepDone hn hs hc, if_neg (Nat.lt_irrefl n), if_neg (Nat.lt_irrefl n)]

/-! ### The power of a way (Table 5.10) -/

theorem exec_wayDrainDone_drained {s : State} {k : SleeveId} {w : Fin 16} (hc : (s.slv k).convTo = none) (hp : (s.slv k).powerUp = 0)
    (hd : (s.slv k).drain.getLsbD w = true) : exec (.wayDrainDone k w) s = .next { wayBusy k ((emptyWay k w s).modSlv k fun v =>
      { v with off := setBit v.off w true, drain := setBit v.drain w false }) with pending := s.pending } := by
  show execWayDrainDone k w s = _
  unfold execWayDrainDone
  dsimp only
  rw [if_neg (by simp [hc, hp, hd]), keepQueue_done]

theorem exec_wayPowerUpDone_rising {s : State} {k : SleeveId} {w : Fin 16} (hp : (s.slv k).powerUp.getLsbD w = true) :
    exec (.wayPowerUpDone k w) s = .next { wayBusy k (s.modSlv k fun v =>
      { v with off := setBit v.off w false, powerUp := setBit v.powerUp w false }) with pending := s.pending } := by
  show execWayPowerUpDone k w s = _
  unfold execWayPowerUpDone
  rw [if_neg (by simp [hp]), keepQueue_done]

/-! ### Merge entries (R127) -/

theorem drainEntry_found {s : State} {b : MergeBank} {w : Nat} {e : MergeEnt} (he : (mergeEnts s b).find? (fun e => e.word == w) = some e) :
    drainEntry b w s = (upto 8).foldl (fun a i => if e.mask.getLsbD i then setByte (8 * w + i) (e.data.extractLsb' (8 * i) 8) a else a)
      (setMerge b ((mergeEnts s b).filter fun e => e.word ≠ w) s) := by
  simp only [drainEntry, he]

theorem exec_mergeEntryIdleDrain_ue {s : State} {b : MergeBank} {w : Nat} {e : MergeEnt}
    (he : (mergeEnts s b).find? (fun e => e.word == w) = some e) :
    exec (.mergeEntryIdleDrain b w true) s = .next { homeUe (8 * w) (drainEntry b w s) with pending := s.pending } := by
  have hany : (mergeEnts s b).any (fun e => e.word == w) = true :=
    List.any_eq_true.mpr ⟨e, List.mem_of_find?_eq_some he, List.find?_some (p := fun e : MergeEnt => e.word == w) he⟩
  show execMergeEntryIdleDrain b w s true = _
  unfold execMergeEntryIdleDrain
  dsimp only
  rw [hany, Bool.and_true, if_pos rfl, keepQueue_done]

/-- Settles O25: a register's write by the cases of its table, a conversion's step by the counts it goes between. -/
theorem sleeveCacheControl : Obligations.SleeveCacheControl := by
  unfold Obligations.SleeveCacheControl
  dsimp only
  refine ⟨?refused, ?busy, ?countUnmet, ?countMet, ?reqUnmet, ?reqScratch, ?reqStarts, ?clearMore, ?moreEnds, ?dropFewer, ?emptyMore,
    ?clearFewer, fun s k n hn hs hc => exec_scratchStepDone_end hn hs hc, fun s k w hc hp hd => exec_wayDrainDone_drained hc hp hd,
    fun s k w hp => exec_wayPowerUpDone_rising hp, ?drain, fun s b w e he => exec_mergeEntryIdleDrain_ue he⟩
  case refused => exact fun s a k v u hr => ⟨exec_scratchWrite_refused v hr, exec_waypdWrite_refused v hr⟩
  case busy =>
    intro s a k v hr hs hw hb
    rw [exec_scratchWrite v hr hs, exec_waypdWrite v hr hw, wrScratch_busy hb, wrWaypd_busy hb]
    exact ⟨rfl, rfl⟩
  case countUnmet =>
    intro s a k v hr hs hb hn
    rw [exec_scratchWrite v hr hs, wrScratch_unmet hb hn]
    rfl
  case countMet =>
    intro s a k v hr hs hb h8 hf
    rw [exec_scratchWrite v hr hs, wrScratch_met hb h8 hf]
    rfl
  case reqUnmet =>
    intro s a k v hr hw hb hn hf
    rw [exec_waypdWrite v hr hw, wrWaypd_unmet hb hn hf]
    rfl
  case reqScratch =>
    intro s a k v hr hw hb hf hc
    rw [exec_waypdWrite v hr hw, wrWaypd_met hb hf, if_pos hc]
    rfl
  case reqStarts =>
    intro s a k v hr hw hb hf hc hn
    rw [exec_waypdWrite v hr hw, wrWaypd_met hb hf, if_neg (not_not_intro hc), if_neg hn]
    rfl
  case clearMore => exact fun s k m n hlt hn hs hc hj => exec_scratchStepDone_more hlt hn hs hc hj
  case moreEnds => exact fun s k m n hlt hn hs hc hj => exec_scratchStepDone_more hlt hn hs hc hj
  case emptyMore => exact fun s k m n hlt hn hs hc hj => exec_scratchStepDone_more hlt hn hs hc hj
  case dropFewer => exact fun s k m n hlt hm hs hc hj => exec_scratchStepDone_fewer hlt hm hs hc hj
  case clearFewer => exact fun s k m n hlt hm hs hc hj => exec_scratchStepDone_fewer hlt hm hs hc hj
  case drain =>
    intro s b w e he
    show keepQueue s (done (drainEntry b w s)) = _
    rw [drainEntry_found he, keepQueue_done]

end Sys2Proof.Machine

/-! # Snoops at their holders, and the answers at the home (R134, R138, R140, R142, R143)

A message that no earlier packet holds up leaves the network and is received. A snoop received is kept back, held behind the holder's own
request, or answered from what the holder has; a response received goes to the transaction that awaits it. -/

namespace Sys2Proof.Machine

open Sys2Proof

/-! ### The reception of a snoop -/

/-- A home's snoop of a holder, for a requester. -/
def snoopMsg (l : Level) (cmd a r n : Nat) : Msg := { mkMsg l cmd homeEnd a n with req := r }

/-- A snoop that has left the network, at a holder that is on. -/
def receiveSnoop (m : Msg) (s : State) : State :=
  if snoopHeld s m then { s with coh := { s.coh with late := s.coh.late ++ [m] } } else serveSnoop m s

theorem snoopIn_eq (l : Level) (cmd a r n : Nat) (s : State) : snoopIn l cmd a r n s =
    onMsg (snoopMsg l cmd a r n) s fun u => if agentOff u l a then u else receiveSnoop (snoopMsg l cmd a r n) u := rfl

theorem snoopIn_taken {l : Level} {cmd a r n : Nat} {s : State} (hb : msgBlocked (snoopMsg l cmd a r n) s = false)
    (ho : agentOff (takeMsg (snoopMsg l cmd a r n) s) l a = false) :
    snoopIn l cmd a r n s = receiveSnoop (snoopMsg l cmd a r n) (takeMsg (snoopMsg l cmd a r n) s) := by
  rw [snoopIn_eq, on_take hb, ho, if_neg Bool.false_ne_true]

/-- A snoop that an LR hold or a collecting slice holds back is kept (R138, R145). -/
theorem snoopIn_held {l : Level} {cmd a r n : Nat} {s u : State} (hb : msgBlocked (snoopMsg l cmd a r n) s = false)
    (hu : u = takeMsg (snoopMsg l cmd a r n) s) (ho : agentOff u l a = false) (hh : snoopHeld u (snoopMsg l cmd a r n) = true) :
    snoopIn l cmd a r n s = { u with coh := { u.coh with late := u.coh.late ++ [snoopMsg l cmd a r n] } } := by
  subst hu
  exact (snoopIn_taken hb ho).trans (if_pos hh)

theorem snoopIn_serves {l : Level} {cmd a r n : Nat} {s u : State} (hb : msgBlocked (snoopMsg l cmd a r n) s = false)
    (hu : u = takeMsg (snoopMsg l cmd a r n) s) (ho : agentOff u l a = false) (hh : snoopHeld u (snoopMsg l cmd a r n) = false) :
    snoopIn l cmd a r n s = serveSnoop (snoopMsg l cmd a r n) u := by
  subst hu
  exact (snoopIn_taken hb ho).trans (if_neg (by simp [hh]))

/-- A holder's own request for the line still queues at the home. -/
def asksFirst (s : State) (l : Level) (a n : Nat) : Bool := s.coh.queue.any fun t => t.lvl == l && t.line == n && t.req == a

/-- A snoop behind the holder's own request, which the home has served, is held with it (R134). -/
theorem serveSnoop_behind {l : Level} {cmd a r n : Nat} {u : State} {m : Mshr} (hm : mshrOf u l a n = some m)
    (hq : asksFirst u l a n = false) : serveSnoop (snoopMsg l cmd a r n) u =
      setMshr l a n (fun q => { q with held := q.held ++ [snoopMsg l cmd a r n] }) u := by
  unfold asksFirst at hq
  simp only [serveSnoop, snoopMsg, mkMsg, hm, hq, Bool.false_eq_true, if_false]

theorem serveSnoop_answers {l : Level} {cmd a r n : Nat} {u : State} (h : mshrOf u l a n = none ∨ asksFirst u l a n = true) :
    serveSnoop (snoopMsg l cmd a r n) u = answerSnoop (snoopMsg l cmd a r n) u := by
  unfold asksFirst at h
  unfold serveSnoop
  dsimp only [snoopMsg, mkMsg]
  rcases h with h | h
  · rw [h]
  · rw [h]
    split <;> rfl

/-! ### The answer (Table 6.5) -/

/-- A holder's answer to the home. -/
def answerHome (cmd : Nat) (l : Level) (a n : Nat) (s : State) : State := sendMsg (mkMsg l cmd a homeEnd n) s

/-- A holder's data goes home where it is dirty. -/
def dirtyHome (l : Level) (a n : Nat) (d : (LineData × Bool) × Bool) (s : State) : State :=
  if d.2 then sendMsg { mkMsg l 0x31 a homeEnd n with data := d.1.1, poison := d.1.2 } s else s

/-- No WbM of the holder is outstanding for the line. -/
def noWbm (s : State) (l : Level) (a n : Nat) : Prop := (wbOut s l a n).any (·.left) = false

theorem noWbm_of_none {s : State} {l : Level} {a n : Nat} (h : wbOut s l a n = none) : noWbm s l a n := by
  rw [noWbm, h]; rfl

theorem answerSnoop_wbm {l : Level} {cmd a r n : Nat} {u : State} {w : WbOut} (hw : wbOut u l a n = some w) (hl : w.left = true) :
    answerSnoop (snoopMsg l cmd a r n) u = answerHome 0x24 l a n u := if_pos (by simpa [snoopMsg, mkMsg, hw] using hl)

theorem answerSnoop_nothing {l : Level} {cmd a r n : Nat} {u : State} (hw : noWbm u l a n) (hd : agentData u l a n = none) :
    answerSnoop (snoopMsg l cmd a r n) u = answerHome 0x23 l a n u := by
  unfold noWbm at hw
  simp only [answerSnoop, snoopMsg, mkMsg, hw, hd, Bool.false_eq_true, if_false]
  rfl

/-- What a holder of a copy does for each snoop. -/
def snoopAnswer (l : Level) (cmd a r n : Nat) (d : (LineData × Bool) × Bool) (u : State) : State :=
  match cmd with
  | 0x10 => answerHome 0x20 l a n (dirtyHome l a n d (sendData l a r n (shareGrant u l a n r) d.1 (agentShare l a n u)))
  | 0x11 => answerHome 0x21 l a n (sendData l a r n .M d.1 (snoopDrop l a n u))
  | 0x12 => answerHome 0x22 l a n (sendData l a r n .I d.1 (setTxn l n (fun t => { t with got := some d.1 }) u))
  | _ => answerHome 0x23 l a n (dirtyHome l a n d (snoopDrop l a n u))

theorem answerSnoop_copy {l : Level} {cmd a r n : Nat} {u : State} {d : (LineData × Bool) × Bool} (hw : noWbm u l a n)
    (hd : agentData u l a n = some d) : answerSnoop (snoopMsg l cmd a r n) u = snoopAnswer l cmd a r n d u := by
  unfold noWbm at hw
  simp only [answerSnoop, snoopMsg, mkMsg, hw, hd, Bool.false_eq_true, if_false]
  rfl

/-- A snoop that is received at once: nothing holds it up or back, and the home has not served a request of the holder's own. -/
def atOnce (s : State) (m : Msg) : Prop :=
  msgBlocked m s = false ∧ agentOff (takeMsg m s) m.lvl m.dest = false ∧ snoopHeld (takeMsg m s) m = false ∧
    (mshrOf (takeMsg m s) m.lvl m.dest m.line = none ∨ asksFirst (takeMsg m s) m.lvl m.dest m.line = true)

theorem snoopIn_atOnce {l : Level} {cmd a r n : Nat} {s u : State} (h : atOnce s (snoopMsg l cmd a r n))
    (hu : u = takeMsg (snoopMsg l cmd a r n) s) : snoopIn l cmd a r n s = answerSnoop (snoopMsg l cmd a r n) u := by
  obtain ⟨hb, ho, hh, hm⟩ := h
  subst hu
  exact (snoopIn_serves hb rfl ho hh).trans (serveSnoop_answers hm)

/-- The answer of a holder with a copy. -/
theorem snoopIn_copy {l : Level} {cmd a r n : Nat} {s u : State} {d : (LineData × Bool) × Bool} (h : atOnce s (snoopMsg l cmd a r n))
    (hu : u = takeMsg (snoopMsg l cmd a r n) s) (hw : wbOut u l a n = none) (hd : agentData u l a n = some d) :
    snoopIn l cmd a r n s = snoopAnswer l cmd a r n d u := by
  rw [snoopIn_atOnce h hu, answerSnoop_copy (noWbm_of_none hw) hd]

/-! ### A response at the home -/

theorem response_taken {m : Msg} {s : State} {f : Txn → State → State} {t : Txn} (hb : msgBlocked m s = false)
    (ho : agentOff (takeMsg m s) m.lvl m.fr = false) (ht : txnOf (takeMsg m s) m.lvl m.line = some t) (hw : t.wait.contains m.fr = true) :
    response m s f = serveLine m.lvl m.line (f t (takeMsg m s)) := by
  unfold response
  rw [on_take hb]
  simp only [ho, ht, hw, Bool.false_eq_true, if_false, if_true]

/-- A response that no transaction awaits is a protocol error (R143). -/
theorem response_unawaited {m : Msg} {s : State} {f : Txn → State → State} (hb : msgBlocked m s = false)
    (ho : agentOff (takeMsg m s) m.lvl m.fr = false) (ht : txnOf (takeMsg m s) m.lvl m.line = none) :
    response m s f = protoError m.lvl m.fr m.line (takeMsg m s) := by
  unfold response
  rw [on_take hb]
  simp only [ho, ht, Bool.false_eq_true, if_false]

/-- Settles O28: a snoop by what the holder has of the line, a response by the transaction that awaits it. -/
theorem snoopsAndAnswers : Obligations.SnoopsAndAnswers := by
  unfold Obligations.SnoopsAndAnswers
  dsimp only
  refine ⟨?fwdsNone, ?fwds, ?fwdo, ?cur, ?inval, ?wbOut, ?behind, ?kept, ?answers, ?rspcur, ?unawaited⟩
  case fwdsNone =>
    intro s l a r n errs u h hu hw hd
    exact keepQueue_done_eq ((snoopIn_atOnce h hu).trans (answerSnoop_nothing (noWbm_of_none hw) hd))
  case fwds => exact fun s l a r n errs u d h hu hw hd => keepQueue_done_eq (snoopIn_copy h hu hw hd)
  case fwdo => exact fun s l a r n errs u d h hu hw hd => keepQueue_done_eq (snoopIn_copy h hu hw hd)
  case cur => exact fun s k w n errs u d h hu hw hd => keepQueue_done_eq (snoopIn_copy h hu hw hd)
  case inval => exact fun s l a n errs u d h hu hw hd => keepQueue_done_eq (snoopIn_copy h hu hw hd)
  case wbOut =>
    intro s l a n errs u w h hu hw
    refine ⟨fun hl => ?_, fun hl hd => ?_⟩
    · exact keepQueue_done_eq ((snoopIn_atOnce h hu).trans (answerSnoop_wbm hw hl))
    · have hno : noWbm u l a n := by rw [noWbm, hw]; exact hl
      exact keepQueue_done_eq ((snoopIn_atOnce h hu).trans (answerSnoop_nothing hno hd))
  case behind =>
    intro s l a n errs u m hb hu ho hh hm hq
    exact keepQueue_done_eq ((snoopIn_serves hb hu ho hh).trans (serveSnoop_behind hm hq))
  case kept => exact fun s l a n errs u hb hu ho hh => keepQueue_done_eq (snoopIn_held hb hu ho hh)
  case answers =>
    intro s l a n t hw
    refine ⟨?_, ?_, ?_, ?_, ?_⟩
    · exact fun ⟨hb, ho⟩ ht => keepQueue_done_eq (response_taken hb ho ht hw)
    · exact fun ⟨hb, ho⟩ ht => keepQueue_done_eq (response_taken hb ho ht hw)
    · exact fun ⟨hb, ho⟩ ht => keepQueue_done_eq (response_taken hb ho ht hw)
    · exact fun ⟨hb, ho⟩ ht => keepQueue_done_eq (response_taken hb ho ht hw)
    · rintro d p m rfl ⟨hb, ho⟩ ht
      exact keepQueue_done_eq (response_taken hb ho ht hw)
  case rspcur =>
    rintro s k n t u ⟨hb, ho⟩ rfl ht hw
    exact keepQueue_done_eq (response_taken hb ho ht hw)
  case unawaited =>
    exact fun s l a n ⟨hb, ho⟩ ht => keepQueue_done_eq (response_unawaited hb ho ht)

end Sys2Proof.Machine

/-! # Requests of devices (R419, R420, R423, Table 17.4)

A request over a link that serves, of a bus that may request, is translated, admitted by its activity's allowance, and then permitted or
refused; each of these stages has one equation, and the request's effect comes last. -/

namespace Sys2Proof.Machine

open Sys2Proof

/-! ### Length and link -/

theorem exec_inboundMemWrite {s : State} {r : DevReq} {d : List Byte} (e : Bool) (h : devLenOk r d.length 512 = true) :
    exec (.inboundMemWrite r d e) s = .next { inMemWrite true r d e (.inboundMemWrite r d e) s with pending := s.pending } := by
  show keepQueue s (if devLenOk r d.length 512 then _ else _) = _
  rw [if_pos h, keepQueue_done]

theorem exec_inboundMemWrite_badLength {s : State} {r : DevReq} {d : List Byte} (e : Bool) (h : devLenOk r d.length 512 = false) :
    exec (.inboundMemWrite r d e) s = .next (logAer r.port s) := by
  show keepQueue s (if devLenOk r d.length 512 then _ else _) = _
  rw [if_neg (by simp [h]), keepQueue_done]
  rfl

theorem exec_inboundMemRead {s : State} {r : DevReq} {n : Nat} (errs : List ArrErr) (h : devLenOk r n 4096 = true) :
    exec (.inboundMemRead r n errs) s =
      .next { inMemRead true r n (.inboundMemRead r n []) (meet errs s) with pending := s.pending } := by
  show keepQueue s (if devLenOk r n 4096 then _ else _) = _
  rw [if_pos h, keepQueue_done]

theorem exec_inboundMemRead_badLength {s : State} {r : DevReq} {n : Nat} (errs : List ArrErr) (h : devLenOk r n 4096 = false) :
    exec (.inboundMemRead r n errs) s = .next (logAer r.port s) := by
  show keepQueue s (if devLenOk r n 4096 then _ else _) = _
  rw [if_neg (by simp [h]), keepQueue_done]
  rfl

section Down

variable {s : State} {r : DevReq} (hl : linkServes s r.port r.link = false)
include hl

theorem inMemWrite_linkDown (d : List Byte) (e : Bool) (c : Instr) (m : Bool) : inMemWrite m r d e c s = s := if_pos hl

theorem inMemRead_linkDown (n : Nat) (c : Instr) (m : Bool) : inMemRead m r n c s = s := if_pos hl

theorem inAtomic_linkDown (o : DevAtomic) (v w : Word) (c : Instr) (m : Bool) : inAtomic m r o v w c s = s := if_pos hl

theorem exec_atsTranslationRequest_linkDown : exec (.atsTranslationRequest r) s = .next s := by
  show keepQueue s (if linkServes s r.port r.link = false then done s else _) = _
  rw [if_pos hl, keepQueue_done]

end Down

/-! ### Requests that are not supported -/

section Served

variable {s : State} {r : DevReq} (hl : linkServes s r.port r.link = true)
include hl

theorem inMemWrite_badBus (d : List Byte) (e : Bool) (c : Instr) (m : Bool) (hb : busOk r = false) :
    inMemWrite m r d e c s = logAer r.port s := by
  unfold inMemWrite
  rw [if_neg (by simp [hl]), if_pos hb]

theorem inMemRead_badBus (n : Nat) (c : Instr) (m : Bool) (hb : busOk r = false) : inMemRead m r n c s = answerUr (logAer r.port s) := by
  unfold inMemRead
  rw [if_neg (by simp [hl]), if_pos hb]

theorem inAtomic_unsupported (o : DevAtomic) (v w : Word) (c : Instr) (m : Bool) (h : devAtomicLen o = 16 ∨ busOk r = false) :
    inAtomic m r o v w c s = answerUr (logAer r.port s) := by
  unfold inAtomic
  dsimp only
  rw [if_neg (by simp [hl]), if_pos h]

theorem exec_atsTranslationRequest_unsupported (h : r.pasid.isSome = true ∨ busOk r = false) :
    exec (.atsTranslationRequest r) s = .next { answerUr (logAer r.port s) with pending := s.pending } := by
  show execAtsTranslationRequest r s = _
  unfold execAtsTranslationRequest
  rw [if_neg (by simp [hl]), if_pos h, keepQueue_done]

end Served

/-! ### Writes -/

/-- A write whose translation ends it. -/
theorem inMemWrite_untranslated {s s1 : State} {r : DevReq} {d : List Byte} {e m : Bool} {c : Instr}
    (hl : linkServes s r.port r.link = true) (hb : busOk r = true) (hx : inboundXlate r true true s = (s1, none)) :
    inMemWrite m r d e c s = s1 := by
  simp only [inMemWrite, hl, hb, hx, Bool.true_eq_false, if_false]

theorem inMemWrite_overAllowance {s s1 s2 : State} {r : DevReq} {d : List Byte} {e m : Bool} {c : Instr} {x : IoOk}
    (hl : linkServes s r.port r.link = true) (hb : busOk r = true) (hx : inboundXlate r true true s = (s1, some x))
    (hm : inboundMeter m r x (max 1 (linesOf x.pa d.length).length) c s s1 = (s2, false)) : inMemWrite m r d e c s = s2 := by
  simp only [inMemWrite, hl, hb, hx, hm, Bool.true_eq_false, if_false]

/-- A write that has been translated and admitted: refused, or performed at its region (Table 17.4). -/
def inWriteAt (r : DevReq) (d : List Byte) (a : Nat) (s : State) : State :=
  match refusal s (devAgent r) false true a with
  | some k => inboundRefused r k a true s
  | none =>
    match regionOf s a with
    | .imsic h f o =>
      if d.length = 4 ∧ (o = 0 ∨ o = 4) then
        if hartFailed s h then s else imsicSet h f (if o = 0 then leNat d else leNat d.reverse) s
      else logAer r.port s
    | g => if devMem g then plainWrite (devAgent r) a d false s else logAer r.port s

theorem inMemWrite_admitted {s s1 s2 : State} {r : DevReq} {d : List Byte} {m : Bool} {c : Instr} {x : IoOk}
    (hl : linkServes s r.port r.link = true) (hb : busOk r = true) (hx : inboundXlate r true true s = (s1, some x))
    (hm : inboundMeter m r x (max 1 (linesOf x.pa d.length).length) c s s1 = (s2, true)) :
    inMemWrite m r d false c s = inWriteAt r d x.pa s2 := by
  simp only [inMemWrite, hl, hb, hx, hm, Bool.true_eq_false, Bool.false_eq_true, if_false]
  rfl

theorem inWriteAt_refused {s : State} {r : DevReq} {d : List Byte} {a : Nat} {k : UcsKind}
    (h : refusal s (devAgent r) false true a = some k) : inWriteAt r d a s = inboundRefused r k a true s := by
  simp only [inWriteAt, h]

theorem inWriteAt_memory {s : State} {r : DevReq} {d : List Byte} {a : Nat} (h : refusal s (devAgent r) false true a = none)
    (hg : devMem (regionOf s a) = true) : inWriteAt r d a s = plainWrite (devAgent r) a d false s := by
  unfold inWriteAt
  rw [h]
  dsimp only
  split
  · next hr => simp [hr, devMem] at hg
  · rw [if_pos hg]

/-- An MSI to an interrupt file of a hart that has not failed (R423). -/
theorem inWriteAt_msi {s : State} {r : DevReq} {d : List Byte} {a h f : Nat} (hr : refusal s (devAgent r) false true a = none)
    (hg : regionOf s a = .imsic h f 0) (hd : d.length = 4) (hf : hartFailed s h = false) :
    inWriteAt r d a s = imsicSet h f (leNat d) s := by
  simp only [inWriteAt, hr, hg, hd, hf, true_or, and_self, if_true, Bool.false_eq_true, if_false]

/-! ### Reads -/

theorem inMemRead_waits {s s1 : State} {r : DevReq} {n : Nat} {m : Bool} {c : Instr} {x : IoOk}
    (hl : linkServes s r.port r.link = true) (hb : busOk r = true) (hx : inboundXlate r false false s = (s1, some x))
    (hw : (linesOf x.pa n).any (lineBusy s1) = true) : inMemRead m r n c s = s := by
  simp only [inMemRead, hl, hb, hx, hw, Bool.true_eq_false, if_false, if_true]

/-- A read that has been translated and admitted: refused, or answered (Table 17.4). -/
def inReadAt (r : DevReq) (n a : Nat) (s : State) : State :=
  match refusal s (devAgent r) false false a with
  | some k => inboundRefused r k a false s
  | none =>
    if devMem (regionOf s a) then
      if (cohRead s a n).2 then answerCa (reportUcs (devAgent r) .device a false s) else { s with answer := .bytes (cohRead s a n).1 }
    else answerUr (logAer r.port s)

theorem inMemRead_admitted {s s1 s2 : State} {r : DevReq} {n : Nat} {m : Bool} {c : Instr} {x : IoOk}
    (hl : linkServes s r.port r.link = true) (hb : busOk r = true) (hx : inboundXlate r false false s = (s1, some x))
    (hw : (linesOf x.pa n).any (lineBusy s1) = false)
    (hm : inboundMeter m r x (max 1 (linesOf x.pa n).length) c s s1 = (s2, true)) : inMemRead m r n c s = inReadAt r n x.pa s2 := by
  simp only [inMemRead, hl, hb, hx, hw, hm, Bool.true_eq_false, Bool.false_eq_true, if_false]
  rfl

theorem inReadAt_refused {s : State} {r : DevReq} {n a : Nat} {k : UcsKind} (h : refusal s (devAgent r) false false a = some k) :
    inReadAt r n a s = inboundRefused r k a false s := by
  simp only [inReadAt, h]

theorem inReadAt_memory {s : State} {r : DevReq} {n a : Nat} (h : refusal s (devAgent r) false false a = none)
    (hg : devMem (regionOf s a) = true) : inReadAt r n a s =
      if (cohRead s a n).2 then answerCa (reportUcs (devAgent r) .device a false s) else { s with answer := .bytes (cohRead s a n).1 } := by
  simp only [inReadAt, h, hg, if_true]

/-! ### Atomics -/

/-- An atomic on memory that no refusal and no poison stands in the way of (R420). -/
theorem inAtomic_performs {s s1 s2 : State} {r : DevReq} {o : DevAtomic} {v w : Word} {m : Bool} {c : Instr} {x : IoOk} {y : Nat × Nat}
    (hl : linkServes s r.port r.link = true) (hb : busOk r = true) (h16 : devAtomicLen o ≠ 16)
    (hx : inboundXlate r true false s = (s1, some x)) (hw : lineBusy s1 (x.pa / 64) = false)
    (hm : inboundMeter m r x 1 c s s1 = (s2, true)) (ha : x.pa % devAtomicLen o = 0) (hg : devMem (regionOf s2 x.pa) = true)
    (hr : refusal s2 (devAgent r) false true x.pa = none) (hp : (cohRead s2 x.pa (devAtomicLen o)).2 = false)
    (hy : devAtomicNew o v w (leNat (cohRead s2 x.pa (devAtomicLen o)).1) = some y) : inAtomic m r o v w c s =
      { cohWrite x.pa (leBytes (devAtomicLen o) y.2) false (clearResv (x.pa / 64) none s2) with
        answer := .bytes (cohRead s2 x.pa (devAtomicLen o)).1 } := by
  unfold inAtomic
  dsimp only
  rw [if_neg (by simp [hl]), if_neg (by simp [h16, hb])]
  simp only [hx, hw, hm, Bool.false_eq_true, if_false]
  rw [if_neg (by simp [ha, hg])]
  simp only [hr, hp, hy, Bool.false_eq_true, if_false]

/-! ### Translation requests -/

theorem exec_atsTranslationRequest_translated {s s1 : State} {r : DevReq} {x : IoOk} (hl : linkServes s r.port r.link = true)
    (hb : busOk r = true) (hp : r.pasid = none) (hx : ioTranslate (ioReq { r with xlated := false } false true) s = (s1, some x)) :
    exec (.atsTranslationRequest r) s = .next { s1 with
      answer := .word (cat [BitVec.ofNat 64 (x.pa / 4096 * 4096), on 0 (x.perm.getLsbD 1), on 1 (x.perm.getLsbD 2 && x.perm.getLsbD 7)])
      pending := s.pending } := by
  show execAtsTranslationRequest r s = _
  unfold execAtsTranslationRequest
  rw [if_neg (by simp [hl]), if_neg (by simp [hp, hb]), hx, keepQueue_done]
  rfl

/-- Settles O59: each request by the stage that ends it. -/
theorem inboundRequestsOfDevices : Obligations.InboundRequestsOfDevices := by
  refine ⟨fun s r d e => exec_inboundMemWrite_badLength e, fun s r n errs => exec_inboundMemRead_badLength errs, ?linkDown,
    fun s r d e => exec_inboundMemWrite e, fun s r n errs => exec_inboundMemRead errs, ?badBus, fun s r o v w => rfl, fun s r v => rfl,
    ?write, ?overAllowance, ?untranslated, ?read, ?atomic, ?cas128, ?atsUnsupported, ?ats, fun s p => rfl⟩
  case linkDown =>
    intro s r d e n v w hl
    refine ⟨fun hd => ?_, fun hn => ?_, keepQueue_done_eq (inAtomic_linkDown hl _ _ _ _ true),
      keepQueue_done_eq (inMemWrite_linkDown hl _ _ _ true), exec_atsTranslationRequest_linkDown hl⟩
    · rw [exec_inboundMemWrite e hd, inMemWrite_linkDown hl]
    · rw [exec_inboundMemRead [] hn, meet_nil, inMemRead_linkDown hl]
  case badBus =>
    exact fun s r d e n c o v w hl hb =>
      ⟨inMemWrite_badBus hl d e c true hb, inMemRead_badBus hl n c true hb, inAtomic_unsupported hl o v w c true (.inr hb)⟩
  case write =>
    intro s s1 s2 r d c x hl hb hx hm
    rw [inMemWrite_admitted hl hb hx hm]
    exact ⟨fun k => inWriteAt_refused, inWriteAt_memory, fun h f => inWriteAt_msi⟩
  case overAllowance => exact fun s s1 s2 r d c x hl hb hx hm => inMemWrite_overAllowance hl hb hx hm
  case untranslated => exact fun s s1 r d e c hl hb hx => inMemWrite_untranslated hl hb hx
  case read =>
    intro s s1 s2 r n c x hl hb hx
    refine ⟨inMemRead_waits hl hb hx, fun hw hm => ?_⟩
    rw [inMemRead_admitted hl hb hx hw hm]
    exact ⟨fun k => inReadAt_refused, inReadAt_memory⟩
  case atomic =>
    exact fun s s1 s2 r o v w c x y hl hb h16 hx hw hm ha hg hr hp hy => inAtomic_performs hl hb h16 hx hw hm ha hg hr hp hy
  case cas128 =>
    exact fun s r v w hl => keepQueue_done_eq (inAtomic_unsupported hl .cas128 v w _ true (.inl rfl))
  case atsUnsupported => exact fun s r hl h => exec_atsTranslationRequest_unsupported hl h
  case ats => exact fun s s1 r x hl hb hp hx => exec_atsTranslationRequest_translated hl hb hp hx

end Sys2Proof.Machine

/-! # The home agent of an address (R130)

The home agent is the exclusive or of the seven fields of the line number; each is a field of the address six bits further up. -/

namespace Sys2Proof.Machine

open Sys2Proof

theorem homeAgent_fields (n : Nat) : homeAgent n = n / 2 ^ 42 % 2 ^ 4 ^^^ n / 2 ^ 6 % 2 ^ 6 ^^^ n / 2 ^ 12 % 2 ^ 6 ^^^ n / 2 ^ 18 % 2 ^ 6 ^^^
    n / 2 ^ 24 % 2 ^ 6 ^^^ n / 2 ^ 30 % 2 ^ 6 ^^^ n / 2 ^ 36 % 2 ^ 6 := rfl

/-- A field of an address, as the field of its line number six bits further down. -/
theorem field_of_line (a : BitVec 52) (i w : Nat) : (a.extractLsb' (6 + i) w).toNat = a.toNat / 64 / 2 ^ i % 2 ^ w := by
  rw [BitVec.extractLsb'_toNat, Nat.shiftRight_eq_div_pow, Nat.pow_add, Nat.div_div_eq_div_mul]

theorem homeAgent_of_address (a : BitVec 52) : homeAgent (a.toNat / 64) = (a.extractLsb' 12 6 ^^^ a.extractLsb' 18 6 ^^^
    a.extractLsb' 24 6 ^^^ a.extractLsb' 30 6 ^^^ a.extractLsb' 36 6 ^^^ a.extractLsb' 42 6 ^^^
    (a.extractLsb' 48 4).zeroExtend 6).toNat := by
  have htop : ((a.extractLsb' 48 4).zeroExtend 6).toNat = a.toNat / 64 / 2 ^ 42 % 2 ^ 4 := by
    rw [BitVec.toNat_setWidth, field_of_line a 42 4]
    omega
  simp only [BitVec.toNat_xor, htop, field_of_line a 6 6, field_of_line a 12 6, field_of_line a 18 6, field_of_line a 24 6,
    field_of_line a 30 6, field_of_line a 36 6, homeAgent_fields]
  ac_rfl

/-- The home agent reads a line number above its six lowest bits, which number the line in its page. -/
theorem homeAgent_page {n m : Nat} (h : n / 2 ^ 6 = m / 2 ^ 6) : homeAgent n = homeAgent m := by
  have shift : ∀ i, n / 2 ^ (6 + i) = m / 2 ^ (6 + i) := fun i => by
    rw [Nat.pow_add, ← Nat.div_div_eq_div_mul, h, Nat.div_div_eq_div_mul]
  rw [homeAgent_fields, homeAgent_fields, shift 36, shift 0, shift 6, shift 12, shift 18, shift 24, shift 30]

/-- Settles O12: the seven fields, and the page that they lie above. -/
theorem homeAgentOfAnAddress : Obligations.HomeAgentOfAnAddress := by
  refine ⟨homeAgent_of_address, fun a => ?below, fun a b hab => ?page⟩
  case below =>
    rw [homeAgent_of_address]
    exact BitVec.isLt _
  case page =>
    refine homeAgent_page ?_
    rw [Nat.div_div_eq_div_mul, Nat.div_div_eq_div_mul]
    exact hab

end Sys2Proof.Machine

/-! # Atomics, reservations and fences (R144 to R146)

An access of a hart that issues, aligned and reaching its address, goes on where the path is cached, no line waits and the regulator
passes it; each command has one equation for that case. -/

namespace Sys2Proof.Machine

open Sys2Proof

/-- A memory command of a hart that issues, which meets no array error, is its access alone. -/
theorem done_byHartAccess {s : State} {h : HartId} {f : State → State} (hi : hartIssues s h = true) :
    keepQueue s (done (byHartMeet h [] f s)) = .next { f s with pending := s.pending } := by
  rw [byHartMeet_issues hi, keepQueue_done]

/-- LR of a line that it reads without poison (R145). -/
theorem doLr_reserves {s s1 s2 : State} {h : HartId} {dbl m : Bool} {rd : XReg} {va : Word} {t : Xl}
    (hal : va.toNat % (if dbl then 8 else 4) = 0) (hr : reach h (accOf (s.hart h) .load) va.toNat s = (s1, some t))
    (hp : pathOf s1 h t = .cached) (hw : lineWait s1 (hartCore h) (t.pa / 64) false = false)
    (hm : coreMeter m h (if lineMiss s1 (hartCore h) (t.pa / 64) false then 1 else 0) (.lr h dbl rd va []) s1 = (s2, true))
    (hpo : (readLine h (t.pa / 64) (countMiss h (t.pa / 64) s2)).2.poison = false) :
    doLr m h dbl rd va s = retire h 4 (fillTlbs h .load t ((train h (t.pa / 64)
      (readLine h (t.pa / 64) (countMiss h (t.pa / 64) s2)).1).modHart h fun x =>
        { x.setX rd (amoVal dbl (lineField (readLine h (t.pa / 64) (countMiss h (t.pa / 64) s2)).2.data t.pa (if dbl then 8 else 4)))
          with resv := some (t.pa / 64), resHold := some (s.time + 6) })) := by
  unfold doLr
  simp only [hal, hr, hp, hw, hm, hpo, Bool.false_eq_true, if_false, ne_eq, not_true_eq_false]

/-- SC ends with its result, and the reservation with it (R145). -/
def scEnds (h : HartId) (rd : XReg) (t : Xl) (r : Word) (s : State) : State :=
  retire h 4 (fillTlbs h .store t (s.modHart h fun x => { x.setX rd r with resv := none, resHold := none }))

section Sc

variable {s s1 : State} {h : HartId} {dbl : Bool} {rs2 : XReg} {va : Word} {t : Xl} (rd : XReg)
  (hal : va.toNat % (if dbl then 8 else 4) = 0) (hr : reach h (accOf (s.hart h) .store) va.toNat s = (s1, some t))
  (hp : pathOf s1 h t = .cached)
include hal hr hp

theorem doSc_unreserved (m : Bool) (hv : (s1.hart h).resv ≠ some (t.pa / 64)) : doSc m h dbl rd rs2 va s = scEnds h rd t 1 s1 := by
  unfold doSc
  simp only [hal, hr, hp, if_pos hv, if_false, ne_eq, not_true_eq_false]
  rfl

theorem doSc_reserved {s2 : State} {m : Bool} (hv : (s1.hart h).resv = some (t.pa / 64))
    (hw : lineWait s1 (hartCore h) (t.pa / 64) true = false)
    (hm : coreMeter m h (if lineMiss s1 (hartCore h) (t.pa / 64) true then 1 else 0) (.sc h dbl rd rs2 va []) s1 = (s2, true)) :
    doSc m h dbl rd rs2 va s = scEnds h rd t 0 (train h (t.pa / 64)
      (cachedWrite h t.pa (leBytes (if dbl then 8 else 4) ((s.hart h).gx rs2).toNat) s2)) := by
  unfold doSc
  simp only [hal, hr, hp, hv, hw, hm, Bool.false_eq_true, if_false, ne_eq, not_true_eq_false]
  rfl

end Sc

/-- An AMO placed in the L1D is the L1D's own. -/
theorem doAmo_l1d {s s1 : State} {h : HartId} {op : AmoOp} {dbl m : Bool} {aq : BitVec 2} {rd rs2 : XReg} {va : Word} {t : Xl}
    (hal : va.toNat % (if dbl then 8 else 4) = 0) (hr : reach h (accOf (s.hart h) .store) va.toNat s = (s1, some t))
    (hp : amoPlace s1 h op t = .l1d) : doAmo m h op dbl aq rd rs2 va s =
      amoL1d m h (.amo h op dbl aq rd rs2 va []) op dbl rd rs2 va.toNat (accOf (s.hart h) .store).virt t s1 := by
  unfold doAmo
  simp only [hal, hr, hp, if_false, ne_eq, not_true_eq_false]

/-- The line that an AMO leaves in the L1D: its operand replaced by the result of the operation. -/
def amoLine (op : AmoOp) (dbl : Bool) (t : Xl) (v : Word) (e : CLine) : CLine :=
  let z := if dbl then 8 else 4
  let new := leBytes z (amoNew op dbl (lineField e.data t.pa z) v).toNat
  { e with data := mergeLine e.data (partLine t.pa new (t.pa / 64)) (partMask t.pa z (t.pa / 64)) }

/-- An AMO of a line that it owns without poison. -/
theorem amoL1d_performs {s1 s2 : State} {h : HartId} {cmd : Instr} {op : AmoOp} {dbl m gva : Bool} {rd rs2 : XReg} {va : Nat} {t : Xl}
    (hw : lineWait s1 (hartCore h) (t.pa / 64) true = false)
    (hm : coreMeter m h (if lineMiss s1 (hartCore h) (t.pa / 64) true then 1 else 0) cmd s1 = (s2, true))
    (hpo : (ownLine h (t.pa / 64) (countMiss h (t.pa / 64) s2)).2.poison = false) :
    let r := ownLine h (t.pa / 64) (countMiss h (t.pa / 64) s2)
    amoL1d m h cmd op dbl rd rs2 va gva t s1 =
      amoDone h dbl rd (lineField r.2.data t.pa (if dbl then 8 else 4)) t (train h (t.pa / 64)
        (clearResv (t.pa / 64) (some h.val) (putOwned h (amoLine op dbl t ((s2.hart h).gx rs2) r.2) r.1))) := by
  unfold amoL1d
  simp only [hw, hm, Bool.false_eq_true, if_false]
  exact if_neg (by simp [hpo])

/-- Settles O18: each access by its path and the regulator's grant, a fence by its hart's issue. -/
theorem atomicsAndReservations : Obligations.AtomicsAndReservations := by
  refine ⟨?lr, ?scUnreserved, ?scReserved, ?amo, fun s h => rfl, fun s h p q tso hi => done_byHart hi, fun s h hi => done_byHart hi, ?errors⟩
  case lr =>
    intro s s1 s2 h dbl rd va t hi hal hr hp hw hm hpo
    rw [← doLr_reserves hal hr hp hw hm hpo]
    exact done_byHartAccess hi
  case scUnreserved =>
    intro s s1 h dbl rd rs2 va t hi hal hr hp hv
    exact (done_byHartAccess hi).trans (by rw [doSc_unreserved rd hal hr hp true hv]; rfl)
  case scReserved =>
    intro s s1 s2 h dbl rd rs2 va t hi hal hr hp hv hw hm
    exact (done_byHartAccess hi).trans (by rw [doSc_reserved rd hal hr hp hv hw hm]; rfl)
  case amo =>
    intro s s1 s2 h op dbl aq rd rs2 va t hi hal hr hp hw hm hpo
    exact (done_byHartAccess hi).trans (by rw [doAmo_l1d hal hr hp, amoL1d_performs hw hm hpo]; rfl)
  case errors =>
    exact fun s h op dbl aq rd rs2 va errs hi hs => ⟨done_byHartMeet hi hs, done_byHartMeet hi hs, done_byHartMeet hi hs⟩

end Sys2Proof.Machine

/-! # The platform's dictionary commands (R150, R217, R332, R333, R371 to R373, R441)

A fresh request of a session of the level runs its command's body, which has one equation per case; the request's answer follows from the
status that the body ends with. -/

namespace Sys2Proof.Machine

open Sys2Proof

/-! ### What answers a fresh request -/

/-- A fresh request of a session below the command's level does nothing (R361). -/
theorem dictCommand_denied {s : State} {x : DictCtx} {w : Session} {i : BitVec 16} {u : BitVec 8} {l : Nat}
    {body : State → State × Nat × List Byte} (h : reqState s x = .fresh w) (hl : w.level.toNat < l) :
    dictCommand x i u l true body s = cmdAnswered x i u stLevelDenied [] s := by
  have hp : stLevelDenied ≠ stPending := by decide
  simp only [dictCommand, h, if_pos hl, if_neg hp, cmdAnswered, Bool.true_eq_false, if_false]

theorem outcomeStatus_pending (c : Nat) : outcomeStatus c = stPending ↔ c = 1 :=
  match c with
  | 0 | 1 | 2 | 3 => by decide
  | c + 4 => by simp [outcomeStatus, stWithdrawn, stPending]

/-- A command that ends with the outcome of a power request is pending while the request is (Table 13.8). -/
theorem dictCommand_outcome {s t : State} {x : DictCtx} {w : Session} {i : BitVec 16} {u : BitVec 8} {l c : Nat}
    {body : State → State × Nat × List Byte} (h : reqState s x = .fresh w) (hl : l ≤ w.level.toNat) (hb : body s = (t, outcomeStatus c, [])) :
    dictCommand x i u l true body s = if c = 1 then cmdPended x i u t else cmdAnswered x i u (outcomeStatus c) [] t := by
  by_cases hc : c = 1
  · subst hc
    rw [if_pos rfl, dictCommand_pends h hl hb]
  · rw [if_neg hc, dictCommand_runs h hl hb (mt (outcomeStatus_pending c).mp hc)]

/-! ### Namespaces (R371 to R373) -/

/-- What NSCREATE does of a session that may create. -/
def nscreateBody (n : BitVec 8) (k : BitVec 32) (m : BitVec 8) (t : State) : State × Nat × List Byte :=
  if t.stor.st ≠ 2 then (t, stRefused, [])
  else if t.ftl.nsCmd.isSome then (t, stBusy, [])
  else if 64 ≤ n.toNat ∨ (t.ns n.toNat).state ≠ 0 ∨ k.toNat = 0 ∨ maskOk t m = false then (t, stReserved, [])
  else if min 458752 (lsegMax t) < nsegTotal t + k.toNat then (t, stExhausted, [])
  else
    match lowestBase t k.toNat with
    | none => (t, stExhausted, [])
    | some b => (jotNs n.toNat (t.setNs n.toNat ⟨1, m, b, k.toNat, segBlk (geoOfMask t m)⟩), stOK,
        leBytes 4 b ++ leBytes 8 (k.toNat * segBlk (geoOfMask t m)))

/-- NSRESIZE's change of the size of a namespace. -/
def resized (n k : Nat) (t : State) : State := jotNs n (t.setNs n { t.ns n with nseg := k })

/-- What NSRESIZE does of a session that may resize. -/
def nsresizeBody (x : DictCtx) (n : BitVec 8) (k : BitVec 32) (t : State) : State × Nat × List Byte :=
  let v := t.ns n.toNat
  if t.stor.st ≠ 2 then (t, stRefused, [])
  else if t.ftl.nsCmd.isSome then (t, stBusy, [])
  else if 64 ≤ n.toNat ∨ v.state = 0 ∨ v.state = 3 ∨ k.toNat = 0 then (t, stReserved, [])
  else if v.nseg < k.toNat then
    if v.state = 2 then (t, stRefused, [])
    else if rangeFree t n.toNat (v.sbase + v.nseg) (k.toNat - v.nseg) = false ∨ min 458752 (lsegMax t) < nsegTotal t + k.toNat - v.nseg then
      (t, stExhausted, [])
    else (resized n.toNat k.toNat t, stOK, leBytes 8 (k.toNat * v.segblk))
  else if k.toNat = v.nseg then (resized n.toNat k.toNat t, stOK, leBytes 8 (k.toNat * v.segblk))
  else ((resized n.toNat k.toNat t).modFtl fun f =>
    { f with nsCmd := some ⟨1, n.toNat, some x, v.sbase + k.toNat, v.sbase + v.nseg, nsCmds t n.toNat⟩ }, stPending, [])

/-- What NSDELETE does of a session that may delete. -/
def nsdeleteBody (x : DictCtx) (n : BitVec 8) (t : State) : State × Nat × List Byte :=
  let v := t.ns n.toNat
  if t.stor.st ≠ 2 then (t, stRefused, [])
  else if t.ftl.nsCmd.isSome then (t, stBusy, [])
  else if 64 ≤ n.toNat ∨ v.state = 0 ∨ v.state = 3 then (t, stReserved, [])
  else ((jotNs n.toNat (t.setNs n.toNat { v with state := 3 })).modFtl fun f =>
    { f with nsCmd := some ⟨2, n.toNat, some x, v.sbase, v.sbase + v.nseg, nsCmds t n.toNat⟩ }, stPending, [])

theorem exec_nscreate (x : DictCtx) (n : BitVec 8) (k : BitVec 32) (m : BitVec 8) (s : State) :
    exec (.nscreate x n k m) s = keepQueue s (done (dictCommand x 0x4001 0 1 true (nscreateBody n k m) s)) := rfl

theorem exec_nsresize (x : DictCtx) (n : BitVec 8) (k : BitVec 32) (s : State) :
    exec (.nsresize x n k) s = keepQueue s (done (settleMedia (dictCommand x 0x4002 0 1 true (nsresizeBody x n k) s))) := rfl

theorem exec_nsdelete (x : DictCtx) (n : BitVec 8) (s : State) :
    exec (.nsdelete x n) s = keepQueue s (done (settleMedia (dictCommand x 0x4003 0 1 true (nsdeleteBody x n) s))) := rfl

/-- What a namespace command does before storage runs, or while another namespace command does. -/
theorem nsBodies_refused {s : State} (x : DictCtx) (n : BitVec 8) (k : BitVec 32) (m : BitVec 8) (h : s.stor.st ≠ 2) :
    nscreateBody n k m s = (s, stRefused, []) ∧ nsresizeBody x n k s = (s, stRefused, []) ∧ nsdeleteBody x n s = (s, stRefused, []) :=
  ⟨if_pos h, if_pos h, if_pos h⟩

theorem nsBodies_busy {s : State} (x : DictCtx) (n : BitVec 8) (k : BitVec 32) (m : BitVec 8) (h : s.stor.st = 2)
    (hc : s.ftl.nsCmd.isSome = true) :
    nscreateBody n k m s = (s, stBusy, []) ∧ nsresizeBody x n k s = (s, stBusy, []) ∧ nsdeleteBody x n s = (s, stBusy, []) := by
  have hst : ¬ s.stor.st ≠ 2 := not_not_intro h
  exact ⟨(if_neg hst).trans (if_pos hc), (if_neg hst).trans (if_pos hc), (if_neg hst).trans (if_pos hc)⟩

section Idle

variable {s : State} (hst : s.stor.st = 2) (hcmd : s.ftl.nsCmd = none)
include hst hcmd

theorem nscreateBody_creates {n m : BitVec 8} {k : BitVec 32} {b : Nat} (hn : n.toNat < 64) (h0 : (s.ns n.toNat).state = 0)
    (hk : k.toNat ≠ 0) (hm : maskOk s m = true) (hroom : nsegTotal s + k.toNat ≤ min 458752 (lsegMax s))
    (hb : lowestBase s k.toNat = some b) : nscreateBody n k m s =
      (jotNs n.toNat (s.setNs n.toNat ⟨1, m, b, k.toNat, segBlk (geoOfMask s m)⟩), stOK,
        leBytes 4 b ++ leBytes 8 (k.toNat * segBlk (geoOfMask s m))) := by
  unfold nscreateBody
  rw [if_neg (not_not_intro hst), if_neg (by simp [hcmd]), if_neg (by simp [h0, hk, hm, hn]), if_neg (Nat.not_lt.mpr hroom)]
  simp only [hb]

theorem nsresizeBody_shrinks {x : DictCtx} {n : BitVec 8} {k : BitVec 32} (hn : n.toNat < 64) (h1 : (s.ns n.toNat).state = 1)
    (hk : k.toNat ≠ 0) (hlt : k.toNat < (s.ns n.toNat).nseg) : nsresizeBody x n k s =
      ((resized n.toNat k.toNat s).modFtl fun f => { f with nsCmd := some ⟨1, n.toNat, some x, (s.ns n.toNat).sbase + k.toNat,
        (s.ns n.toNat).sbase + (s.ns n.toNat).nseg, nsCmds s n.toNat⟩ }, stPending, []) := by
  unfold nsresizeBody
  dsimp only
  rw [if_neg (not_not_intro hst), if_neg (by simp [hcmd]), if_neg (by simp [h1, hk, hn]), if_neg (by omega), if_neg (by omega)]

theorem nsresizeBody_grows {x : DictCtx} {n : BitVec 8} {k : BitVec 32} (hn : n.toNat < 64) (h1 : (s.ns n.toNat).state = 1)
    (hlt : (s.ns n.toNat).nseg < k.toNat)
    (hfree : rangeFree s n.toNat ((s.ns n.toNat).sbase + (s.ns n.toNat).nseg) (k.toNat - (s.ns n.toNat).nseg) = true)
    (hroom : nsegTotal s + k.toNat - (s.ns n.toNat).nseg ≤ min 458752 (lsegMax s)) : nsresizeBody x n k s =
      (resized n.toNat k.toNat s, stOK, leBytes 8 (k.toNat * (s.ns n.toNat).segblk)) := by
  have hk : k.toNat ≠ 0 := by omega
  unfold nsresizeBody
  dsimp only
  rw [if_neg (not_not_intro hst), if_neg (by simp [hcmd]), if_neg (by simp [h1, hk, hn]), if_pos hlt, if_neg (by simp [h1]),
    if_neg (by rw [hfree]; exact not_or_intro (by decide) (Nat.not_lt.mpr hroom))]

theorem nsdeleteBody_deletes {x : DictCtx} {n : BitVec 8} (hn : n.toNat < 64) (h0 : (s.ns n.toNat).state ≠ 0)
    (h3 : (s.ns n.toNat).state ≠ 3) : nsdeleteBody x n s =
      ((jotNs n.toNat (s.setNs n.toNat { s.ns n.toNat with state := 3 })).modFtl fun f => { f with nsCmd := some ⟨2, n.toNat, some x,
        (s.ns n.toNat).sbase, (s.ns n.toNat).sbase + (s.ns n.toNat).nseg, nsCmds s n.toNat⟩ }, stPending, []) := by
  unfold nsdeleteBody
  dsimp only
  rw [if_neg (not_not_intro hst), if_neg (by simp [hcmd]), if_neg (by simp [h0, h3, hn])]

end Idle

/-- Of a session that may run them, the namespace commands answer a status that all three of their bodies end with at once. -/
theorem exec_ns_unrun {s : State} {x : DictCtx} {w : Session} {n m : BitVec 8} {k : BitVec 32} {st : Nat} (hw : reqState s x = .fresh w)
    (hl : 1 ≤ w.level.toNat) (hp : st ≠ stPending)
    (hb : nscreateBody n k m s = (s, st, []) ∧ nsresizeBody x n k s = (s, st, []) ∧ nsdeleteBody x n s = (s, st, [])) :
    exec (.nscreate x n k m) s = .next { cmdAnswered x 0x4001 0 st [] s with pending := s.pending } ∧
    exec (.nsresize x n k) s = .next { settleMedia (cmdAnswered x 0x4002 0 st [] s) with pending := s.pending } ∧
    exec (.nsdelete x n) s = .next { settleMedia (cmdAnswered x 0x4003 0 st [] s) with pending := s.pending } := by
  obtain ⟨hc, hr, hd⟩ := hb
  rw [exec_nscreate, exec_nsresize, exec_nsdelete, dictCommand_runs hw hl hc hp, dictCommand_runs hw hl hr hp,
    dictCommand_runs hw hl hd hp]
  exact ⟨rfl, rfl, rfl⟩

/-! ### Power (R332, R333) -/

/-- What PWRREQ does of a session that may request. -/
def pwrreqBody (x : DictCtx) (o b : BitVec 8) (t : State) : State × Nat × List Byte :=
  if h : b.toNat < 40 then
    if o.toNat < 3 then
      match powerRequest o.toNat ⟨b.toNat, h⟩ .dictionary (some x) t with
      | (t1, some oc) => (t1, outcomeStatus oc, [])
      | (t1, none) => (t1, stReserved, [])
    else (t, stReserved, [])
  else (t, stReserved, [])

theorem exec_pwrreq (x : DictCtx) (o b : BitVec 8) (s : State) :
    exec (.pwrreq x o b) s = keepQueue s (done (dictCommand x 0x3101 0 1 true (pwrreqBody x o b) s)) := rfl

theorem pwrreqBody_reserved {x : DictCtx} {o b : BitVec 8} (s : State) (h : 40 ≤ b.toNat ∨ 3 ≤ o.toNat) :
    pwrreqBody x o b s = (s, stReserved, []) := by
  unfold pwrreqBody
  split
  · exact if_neg (by omega)
  · rfl

theorem pwrreqBody_outcome {s : State} {x : DictCtx} {o : BitVec 8} {b : BlockId} {c : Nat} (ho : o.toNat < 3)
    (hc : (powerRequest o.toNat b .dictionary (some x) s).2 = some c) : pwrreqBody x o (BitVec.ofNat 8 b.val) s =
      ((powerRequest o.toNat b .dictionary (some x) s).1, outcomeStatus c, []) := by
  have hval : (BitVec.ofNat 8 b.val).toNat = b.val := Nat.mod_eq_of_lt (Nat.lt_trans b.isLt (by decide))
  have hlt : (BitVec.ofNat 8 b.val).toNat < 40 := by rw [hval]; exact b.isLt
  have hblock : (⟨(BitVec.ofNat 8 b.val).toNat, hlt⟩ : BlockId) = b := Fin.ext hval
  unfold pwrreqBody
  rw [dif_pos hlt, if_pos ho, hblock]
  rcases hreq : powerRequest o.toNat b .dictionary (some x) s with ⟨t, oc⟩
  rw [hreq] at hc
  subst hc
  rfl

/-! ### Self-test (R441) -/

/-- What BISTRUN does of a session that may test. -/
def bistrunBody (x : DictCtx) (t k : BitVec 8) (s : State) : State × Nat × List Byte :=
  if 12 < t.toNat ∨ 3 < k.toNat then (s, stReserved, [])
  else
    let r := bistGo t.toNat (k.setWidth 2) s
    let u := if r.2 = 0 ∧ t.toNat < 12 then r.1.setBist t.toNat { r.1.bist t.toNat with ctx := some (x.sid, x.reqid) } else r.1
    (u, match r.2 with
      | 0 => if t.toNat = 12 then stOK else stPending
      | 1 => stRefused
      | 3 => stReserved
      | _ => stBusy, [])

theorem exec_bistrun (x : DictCtx) (t k : BitVec 8) (s : State) :
    exec (.bistrun x t k) s = keepQueue s (done (dictCommand x 0x8000 0 1 true (bistrunBody x t k) s)) := rfl

theorem bistGo_sleeve {s : State} {t : Nat} {k : BitVec 2} (ht : t ≠ 12) (hg : goCheck s t k = 0) : (bistGo t k s).2 = 0 := by
  simp only [bistGo, hg, if_neg ht]

theorem bistGo_vest {s : State} {k : BitVec 2} (hg : goCheck s 12 k = 0) :
    bistGo 12 k s = (s.setBist 12 { s.bist 12 with state := 1, err := 0, kind := k }, 0) := by
  simp only [bistGo, hg, if_true]

theorem bistrunBody_sleeve {s : State} {x : DictCtx} {t k : BitVec 8} (ht : t.toNat < 12) (hk : k.toNat ≤ 3)
    (hg : goCheck s t.toNat (k.setWidth 2) = 0) : bistrunBody x t k s =
      ((bistGo t.toNat (k.setWidth 2) s).1.setBist t.toNat
        { (bistGo t.toNat (k.setWidth 2) s).1.bist t.toNat with ctx := some (x.sid, x.reqid) }, stPending, []) := by
  have h0 := bistGo_sleeve (by omega) hg
  unfold bistrunBody
  rw [if_neg (by omega)]
  simp only [h0]
  rw [if_pos ⟨trivial, ht⟩, if_neg (by omega)]

theorem bistrunBody_vest {s : State} {x : DictCtx} {k : BitVec 8} (hk : k.toNat ≤ 3) (hg : goCheck s 12 (k.setWidth 2) = 0) :
    bistrunBody x 12 k s = (s.setBist 12 { s.bist 12 with state := 1, err := 0, kind := k.setWidth 2 }, stOK, []) := by
  have h12 : (12 : BitVec 8).toNat = 12 := rfl
  unfold bistrunBody
  rw [h12, if_neg (by omega), bistGo_vest hg]
  rfl

/-- Settles O56: each command by the case of its body, and by the status that the case ends with. -/
theorem platformCommandsOfTheDictionary : Obligations.PlatformCommandsOfTheDictionary := by
  intro s x w hw
  refine ⟨fun hl => ?denied, fun hl => ?runs⟩
  case denied =>
    have hlt : w.level.toNat < 1 := by rw [hl]; decide
    exact ⟨keepQueue_done_eq (dictCommand_denied hw hlt), keepQueue_done_eq (dictCommand_denied hw hlt),
      keepQueue_done_eq (dictCommand_denied hw hlt)⟩
  have h1 := level_pos hl
  refine ⟨?refused, ?busy, fun hst hcmd => ⟨?create, ?shrink, ?grow, ?delete⟩, ?domrst, ?pwrReserved, ?pwrOutcome, ?pkgoff, ?bistReserved,
    ?bistSleeve, ?bistVest, ?disarm⟩
  case refused => exact fun hst n m k => exec_ns_unrun hw h1 (by decide) (nsBodies_refused x n k m hst)
  case busy => exact fun hst hcmd n m k => exec_ns_unrun hw h1 (by decide) (nsBodies_busy x n k m hst hcmd)
  case create =>
    intro n m k b hn h0 hk hm hroom hb
    have hk' : k.toNat ≠ 0 := BitVec.toNat_ne.mp hk
    exact (exec_nscreate x n k m s).trans
      (keepQueue_done_eq (dictCommand_runs hw h1 (nscreateBody_creates hst hcmd hn h0 hk' hm hroom hb) (by decide)))
  case shrink =>
    intro n k hn hs hk hlt
    have hk' : k.toNat ≠ 0 := BitVec.toNat_ne.mp hk
    exact (exec_nsresize x n k s).trans
      (keepQueue_done_eq (congrArg settleMedia (dictCommand_pends hw h1 (nsresizeBody_shrinks hst hcmd hn hs hk' hlt))))
  case grow =>
    intro n k hn hs hlt hfree hroom
    exact (exec_nsresize x n k s).trans
      (keepQueue_done_eq (congrArg settleMedia (dictCommand_runs hw h1 (nsresizeBody_grows hst hcmd hn hs hlt hfree hroom) (by decide))))
  case delete =>
    intro n hn h0 h3
    exact (exec_nsdelete x n s).trans
      (keepQueue_done_eq (congrArg settleMedia (dictCommand_pends hw h1 (nsdeleteBody_deletes hst hcmd hn h0 h3))))
  case domrst => exact fun m => keepQueue_done_eq (dictCommand_runs hw h1 rfl (by decide))
  case pwrReserved =>
    exact fun o b h => (exec_pwrreq x o b s).trans (keepQueue_done_eq (dictCommand_runs hw h1 (pwrreqBody_reserved s h) (by decide)))
  case pwrOutcome =>
    exact fun o b c ho hc =>
      (exec_pwrreq x o _ s).trans (keepQueue_done_eq (dictCommand_outcome hw h1 (pwrreqBody_outcome ho hc)))
  case pkgoff => exact keepQueue_done_eq (dictCommand_outcome hw h1 rfl)
  case bistReserved =>
    exact fun t k h => (exec_bistrun x t k s).trans (keepQueue_done_eq (dictCommand_runs hw h1 (if_pos h) (by decide)))
  case bistSleeve =>
    exact fun t k ht hk hg =>
      (exec_bistrun x t k s).trans (keepQueue_done_eq (dictCommand_pends hw h1 (bistrunBody_sleeve ht hk hg)))
  case bistVest =>
    exact fun k hk hg =>
      (exec_bistrun x 12 k s).trans (keepQueue_done_eq (dictCommand_runs hw h1 (bistrunBody_vest hk hg) (by decide)))
  case disarm => exact keepQueue_done_eq (dictCommand_runs hw h1 rfl (by decide))

end Sys2Proof.Machine

/-! # Write-backs, notices, data and completions (R134, R136, R140, R142, R143)

A message of or to an agent that is on leaves the network and is received. What a home does with a write-back depends on whether a
transaction awaits the agent's answer; what an agent does with an answer depends on what it has outstanding. -/

namespace Sys2Proof.Machine

open Sys2Proof

/-! ### Reception -/

theorem on_blocked {m : Msg} {s : State} (f : State → State) (h : msgBlocked m s = true) : onMsg m s f = s := if_pos h

/-- A write-back or notice that its home receives. -/
theorem giveUp_taken {m : Msg} {s : State} {f : State → State} (hb : msgBlocked m s = false)
    (ho : agentOff (takeMsg m s) m.lvl m.fr = false) : giveUp m s f = f (takeMsg m s) := by
  unfold giveUp
  rw [on_take hb, if_neg (by simp [ho])]

/-- A message that its agent receives. -/
theorem atAgent_taken {m : Msg} {s : State} {f : State → State} (hb : msgBlocked m s = false)
    (ho : agentOff (takeMsg m s) m.lvl m.dest = false) : atAgent m s f = f (takeMsg m s) := by
  unfold atAgent
  rw [on_take hb, if_neg (by simp [ho])]

/-- A message to an agent that is off only leaves the network (Table 6.13). -/
theorem atAgent_off {m : Msg} {s : State} (f : State → State) (hb : msgBlocked m s = false)
    (ho : agentOff (takeMsg m s) m.lvl m.dest = true) : atAgent m s f = takeMsg m s := by
  unfold atAgent
  rw [on_take hb, if_pos ho]

theorem takeMsg_coh (m : Msg) (s : State) : (takeMsg m s).coh = s.coh := by
  obtain ⟨w, hw⟩ := takeMsg_net m s
  rw [hw]

theorem takeMsg_pending (m : Msg) (s : State) : (takeMsg m s).pending = s.pending := by
  obtain ⟨w, hw⟩ := takeMsg_net m s
  rw [hw]

/-! ### Write-backs and notices at the home -/

/-- A transaction at the home awaits the agent's answer for the line. -/
def awaitsAnswer (u : State) (l : Level) (a n : Nat) : Bool := (txnOf u l n).any fun t => t.wait.contains a

theorem wbm_plain {l : Level} {a n : Nat} {d : LineData × Bool} {s : State}
    (ha : awaitsAnswer (noteWb l a n true true s) l a n = false) :
    wbm l a n d s = ack 0x27 l a n (wbmPlain l a n d (noteWb l a n true true s)) := by
  unfold awaitsAnswer at ha
  unfold wbm
  dsimp only
  cases ht : txnOf (noteWb l a n true true s) l n with
  | none => rfl
  | some t =>
    rw [ht] at ha
    exact if_neg (by simpa using ha)

theorem wbm_crosses {l : Level} {a n : Nat} {d : LineData × Bool} {s : State} {t : Txn}
    (ht : txnOf (noteWb l a n true true s) l n = some t) (hw : t.wait.contains a = true) :
    wbm l a n d s = serveLine l n (ack 0x27 l a n (crossing t a d (agentDrop l a n (noteWb l a n true true s)))) := by
  unfold wbm
  simp only [ht, hw, if_true]

/-- A WbK's data is home, and the Sleeve's copies in its sleeve cache are clean. -/
def wbkCleaned (k n : Nat) (d : LineData × Bool) (s : State) : State :=
  l3Mod k n (fun e => { e with st := if e.st = .M then .E else e.st }) (homeWbK k n d.1 d.2 (noteWb .vest k n true false s))

theorem wbk_unfiltered {k n : Nat} {d : LineData × Bool} {s : State} (hf : sfFind (wbkCleaned k n d s) k n = none) :
    wbk k n d s = ack 0x27 .vest k n (wbkCleaned k n d s) := by
  unfold wbkCleaned at hf ⊢
  unfold wbk
  simp only [hf]

/-- The snoop filter's entry is clean as well, where no core owns the line. -/
theorem wbk_filtered {k n : Nat} {d : LineData × Bool} {s : State} {x : Nat × SfEnt} (hf : sfFind (wbkCleaned k n d s) k n = some x)
    (hx : x.2.st = .M) (ho : ownerCore (wbkCleaned k n d s) k n = none) :
    wbk k n d s = ack 0x27 .vest k n (sfWrite k x.1 { x.2 with st := .E } (wbkCleaned k n d s)) := by
  unfold wbkCleaned at hf ho ⊢
  unfold wbk
  simp only [hf, hx, ho, Option.isNone_none, and_self, if_true]

/-- WbC of a line that the snoop filter has at the core. -/
theorem wbc_held {k : SleeveId} {c n : Nat} {d : LineData × Bool} {s u : State} (hu : u = noteWb (.sleeve k) c n true false s)
    (hc : (sfCores u k n).contains c = true) : wbc k c n d s = ack 0x27 (.sleeve k) c n
      (let st := ((coreLook (s.core (coreId k c)) n).map (·.st)).getD .S
       slvGiveUp k c (coreL3 u k c) ⟨n, if st = .M then .E else st, d.1, d.2⟩ true (coreDrop (coreId k c) n u)) := by
  subst hu
  exact congrArg (ack 0x27 (.sleeve k) c n) (if_pos hc)

theorem evc_sleeve_idle {a n : Nat} {s : State} (ht : txnOf (noteWb .vest a n false false s) .vest n = none) :
    evc .vest a n s = ack 0x28 .vest a n (homeEvC a n (slvDrop a n (noteWb .vest a n false false s))) := by
  unfold evc
  simp only [ht]

theorem evc_busy {l : Level} {a n : Nat} {s : State} {t : Txn} (ht : txnOf (noteWb l a n false false s) l n = some t) :
    evc l a n s = ack 0x28 l a n (if t.wait.contains a then agentDrop l a n (noteWb l a n false false s)
      else homeForget l a n (agentDrop l a n (noteWb l a n false false s))) := by
  unfold evc
  simp only [ht]

/-! ### Answers at the agent -/

/-- The write-back or notice of an agent for a line is no longer outstanding. -/
def endWb (l : Level) (a n : Nat) (s : State) : State :=
  { s with coh := { s.coh with wbs := s.coh.wbs.filter fun w => ¬ (w.lvl = l ∧ w.agent = a ∧ w.line = n) } }

theorem ackIn_matches {l : Level} {a n : Nat} {s : State} {w : WbOut} (hw : wbOut s l a n = some w) :
    ackIn w.wb l a n s = endWb l a n s := by
  unfold ackIn
  rw [hw]
  exact if_pos rfl

theorem ackIn_unmatched {wb : Bool} {l : Level} {a n : Nat} {s : State} (hw : wbOut s l a n = none) :
    ackIn wb l a n s = protoError (agentSlice l a) a n s := by
  unfold ackIn
  rw [hw]

theorem wbOut_takeMsg (m : Msg) (s : State) (l : Level) (a n : Nat) : wbOut (takeMsg m s) l a n = wbOut s l a n := by
  unfold wbOut
  rw [takeMsg_coh]

/-- Data that an outstanding request awaits (R134, rule 4). -/
theorem dataIn_awaited {l : Level} {a n : Nat} {st : LState} {d : LineData × Bool} {s : State} {m : Mshr}
    (hm : mshrOf s l a n = some m) (hd : m.needData = true) : dataIn l a n st d s =
      mshrDone l a n (takeData l a n m st d (setMshr l a n (fun r => { r with needData := false }) s)) := by
  unfold dataIn
  rw [hm]
  exact if_pos hd

theorem cmpIn_awaited {l : Level} {a n : Nat} {s : State} {m : Mshr} (hm : mshrOf s l a n = some m) (hc : m.needCmp = true) :
    cmpIn l a n s = mshrDone l a n (setMshr l a n (fun r => { r with needCmp := false }) s) := by
  unfold cmpIn
  rw [hm]
  exact if_pos hc

theorem cmpIn_unmatched {l : Level} {a n : Nat} {s : State} (hm : mshrOf s l a n = none) :
    cmpIn l a n s = protoError (agentSlice l a) a n s := by
  unfold cmpIn
  rw [hm]

theorem onMsg_data_taken {q : Msg} {l : Level} {a n : Nat} {st : LState} {d : LineData × Bool} {s : State} (hb : msgBlocked q s = false)
    (ho : agentOff (takeMsg q s) l a = false) :
    onMsg q s (fun u => if agentOff u l a then u else dataIn l a n st d u) = dataIn l a n st d (takeMsg q s) := by
  rw [on_take hb, if_neg (by simp [ho])]

/-- Settles O29: a write-back by the transaction that awaits it, an answer by what the agent has outstanding. -/
theorem writeBacksDataAndCompletions : Obligations.WriteBacksDataAndCompletions := by
  unfold Obligations.WriteBacksDataAndCompletions
  dsimp only
  refine ⟨?wbmSleeve, ?wbmCrosses, ?wbmCore, ?wbk, ?wbkFilter, ?wbc, ?evcIdle, ?evcBusy, ?acks, ?ackUnmatched, ?data, ?cmp, ?cmpUnmatched,
    ?cmpOff, ?cmpBlocked⟩
  case wbmSleeve =>
    rintro s a n d p u ⟨hb, ho⟩ rfl ha
    exact keepQueue_done_eq ((giveUp_taken hb ho).trans (wbm_plain ha))
  case wbmCrosses =>
    rintro s l a n d p u t ⟨hb, ho⟩ rfl ht hw
    exact keepQueue_done_eq ((giveUp_taken hb ho).trans (wbm_crosses ht hw))
  case wbmCore =>
    rintro s k c n d p u ⟨hb, ho⟩ rfl ha
    exact keepQueue_done_eq ((giveUp_taken hb ho).trans (wbm_plain ha))
  case wbk =>
    rintro s k n d p u ⟨hb, ho⟩ rfl hf
    exact keepQueue_done_eq ((giveUp_taken hb ho).trans (wbk_unfiltered hf))
  case wbkFilter =>
    rintro s k n d p u x ⟨hb, ho⟩ rfl hf hx hc
    exact keepQueue_done_eq ((giveUp_taken hb ho).trans (wbk_filtered hf hx hc))
  case wbc =>
    rintro s k c n d p v u ⟨hb, ho⟩ rfl hu hc
    exact keepQueue_done_eq ((giveUp_taken hb ho).trans (wbc_held hu hc))
  case evcIdle =>
    rintro s a n u ⟨hb, ho⟩ rfl ht
    exact keepQueue_done_eq ((giveUp_taken hb ho).trans (evc_sleeve_idle ht))
  case evcBusy =>
    rintro s l a n u t ⟨hb, ho⟩ rfl ht
    exact keepQueue_done_eq ((giveUp_taken hb ho).trans (evc_busy ht))
  case acks =>
    intro s l a n w u hw
    refine ⟨?_, ?_⟩
    · rintro hwb ⟨hb, ho⟩ rfl
      rw [← wbOut_takeMsg (toAgent l 0x27 a n)] at hw
      exact keepQueue_done_eq ((atAgent_taken hb ho).trans (hwb ▸ ackIn_matches hw))
    · rintro hwb ⟨hb, ho⟩ rfl
      rw [← wbOut_takeMsg (toAgent l 0x28 a n)] at hw
      exact keepQueue_done_eq ((atAgent_taken hb ho).trans (hwb ▸ ackIn_matches hw))
  case ackUnmatched =>
    rintro s l a n hw ⟨hb, ho⟩
    rw [← wbOut_takeMsg (toAgent l 0x27 a n)] at hw
    exact keepQueue_done_eq ((atAgent_taken hb ho).trans (ackIn_unmatched hw))
  case data =>
    rintro s l a n st d p q u m rfl hb rfl ho hm hd
    exact keepQueue_done_eq ((onMsg_data_taken hb ho).trans (dataIn_awaited hm hd))
  case cmp =>
    rintro s l a n m u ⟨hb, ho⟩ rfl hm hc
    exact keepQueue_done_eq ((atAgent_taken hb ho).trans (cmpIn_awaited hm hc))
  case cmpUnmatched =>
    rintro s l a n u ⟨hb, ho⟩ rfl hm
    exact keepQueue_done_eq ((atAgent_taken hb ho).trans (cmpIn_unmatched hm))
  case cmpOff =>
    intro s l a n hb ho
    exact (keepQueue_done_eq (atAgent_off _ hb ho)).trans (next_pending_self (takeMsg_pending _ _))
  case cmpBlocked => exact fun s l a n hb => keepQueue_done_eq (on_blocked _ hb)

end Sys2Proof.Machine

/-! # Requests of caching agents at their homes (R134, R136, R139, R140)

A request that leaves the network changes there only the mesh and its agent's outstanding requests, so that its home reads what it read
before. It queues behind a transaction that waits; at an idle line its transaction begins with the snoops of Table 6.6, and waits. -/

namespace Sys2Proof.Machine

open Sys2Proof

/-! ### The request on its way -/

/-- A caching agent's request as a command and as a message. -/
def reqInstr (kind : ReqKind) (l : Level) (a n : Nat) : Instr :=
  match kind with
  | .rds => .rds l a n
  | .rdc => .rdc l a n
  | .rdo => .rdo l a n
  | _ => .upg l a n

def reqMsg (kind : ReqKind) (l : Level) (a n : Nat) : Msg := mkMsg l (reqCmd kind) a homeEnd n

/-- The requests of caching agents. -/
def cachingKinds : List ReqKind := [.rds, .rdc, .rdo, .upg]

theorem exec_reqInstr {kind : ReqKind} (hk : kind ∈ cachingKinds) (l : Level) (a n : Nat) (s : State) :
    exec (reqInstr kind l a n) s = keepQueue s (done (agentReq kind l a n s)) := by
  simp only [cachingKinds, List.mem_cons, List.not_mem_nil, or_false] at hk
  rcases hk with rfl | rfl | rfl | rfl <;> rfl

/-- A request may be sent, and no earlier packet holds it up (R134, R158). -/
def reqDue (kind : ReqKind) (l : Level) (a n : Nat) (s : State) : Prop :=
  mayAsk s (reqMsg kind l a n) = true ∧ msgBlocked (reqMsg kind l a n) s = false

/-- The domain that an agent's request is made for. -/
def reqDomain (s : State) (l : Level) (a : Nat) : Nat :=
  match l with
  | .vest => domainOf s a
  | .sleeve k => domainOf s k

/-- A request that is due, of an agent that is on, for a cacheable line that its domain may use. -/
def reqGood (kind : ReqKind) (l : Level) (a n : Nat) (s : State) : Prop :=
  reqDue kind l a n s ∧ agentOff s l a = false ∧ cacheable (regionOf s (64 * n)) = true ∧ domainOk s (reqDomain s l a) (64 * n) = true

theorem agentReq_notDue {kind : ReqKind} {l : Level} {a n : Nat} {s : State} (h : ¬ reqDue kind l a n s) : agentReq kind l a n s = s := by
  by_cases hm : mayAsk s (reqMsg kind l a n) = true
  · have hb : msgBlocked (reqMsg kind l a n) s = true := by simpa [reqDue, hm] using h
    exact (if_pos hm).trans (on_blocked _ hb)
  · exact if_neg hm

theorem agentReq_due {kind : ReqKind} {l : Level} {a n : Nat} {s : State} (h : reqDue kind l a n s) :
    agentReq kind l a n s = takeReq kind l a n (takeMsg (reqMsg kind l a n) s) := by
  obtain ⟨hm, hb⟩ := h
  exact (if_pos hm).trans (on_take hb)

theorem agentOff_takeMsg (m : Msg) (s : State) (l : Level) (a : Nat) : agentOff (takeMsg m s) l a = agentOff s l a := by
  obtain ⟨w, hw⟩ := takeMsg_net m s
  rw [hw]
  rfl

/-- The address map does not read the mesh. -/
theorem regionOf_mesh (w : Mesh) (s : State) : regionOf { s with fab := { s.fab with mesh := w } } = regionOf s := by
  have hslv : slvPresent { s with fab := { s.fab with mesh := w } } = slvPresent s := rfl
  have hway : State.slv { s with fab := { s.fab with mesh := w } } = s.slv := rfl
  have hhart : hartPresent { s with fab := { s.fab with mesh := w } } = hartPresent s := rfl
  have hcxl : cxlTarget { s with fab := { s.fab with mesh := w } } = cxlTarget s := rfl
  funext x
  unfold regionOf
  rw [hslv, hway, hhart, hcxl]

theorem regionOf_takeMsg (m : Msg) (s : State) : regionOf (takeMsg m s) = regionOf s := by
  obtain ⟨w, hw⟩ := takeMsg_net m s
  rw [hw, regionOf_mesh]

theorem domainOk_takeMsg (m : Msg) (s : State) : domainOk (takeMsg m s) = domainOk s := by
  funext d x
  unfold domainOk
  rw [regionOf_takeMsg]
  obtain ⟨w, hw⟩ := takeMsg_net m s
  rw [hw]
  rfl

theorem reqDomain_takeMsg (m : Msg) (s : State) (l : Level) (a : Nat) : reqDomain (takeMsg m s) l a = reqDomain s l a := by
  obtain ⟨w, hw⟩ := takeMsg_net m s
  rw [hw]
  rfl

/-- A request of an agent that is off is discarded (Table 6.13). -/
theorem agentReq_off {kind : ReqKind} {l : Level} {a n : Nat} {s : State} (h : reqDue kind l a n s) (ho : agentOff s l a = true) :
    agentReq kind l a n s = takeMsg (reqMsg kind l a n) s := by
  rw [agentReq_due h]
  exact if_pos ((agentOff_takeMsg _ s l a).trans ho)

/-- The agent has the request outstanding. -/
def reqAsked (kind : ReqKind) (l : Level) (a n : Nat) (u : State) : State :=
  if (mshrOf u l a n).isSome then u else { u with coh := { u.coh with mshr := u.coh.mshr ++
    [⟨l, a, n, decide (kind = .rdo ∨ kind = .upg), decide (kind = .rdc), decide (kind ≠ .upg) || !agentHolds u l a n,
      decide (kind = .rdo ∨ kind = .upg), false, []⟩] } }

/-- The request has reached its home, before the home serves it. -/
def reqSent (kind : ReqKind) (l : Level) (a n : Nat) (s : State) : State := reqAsked kind l a n (takeMsg (reqMsg kind l a n) s)

/-- A request on its way changes the mesh and the outstanding requests, and nothing else. -/
theorem reqSent_frame (kind : ReqKind) (l : Level) (a n : Nat) (s : State) : ∃ w r, reqSent kind l a n s =
    { s with fab := { s.fab with mesh := w }, coh := { s.coh with mshr := r } } := by
  obtain ⟨w, hw⟩ := takeMsg_net (reqMsg kind l a n) s
  unfold reqSent reqAsked
  rw [hw]
  split
  · exact ⟨w, s.coh.mshr, rfl⟩
  · exact ⟨w, _, rfl⟩

section Sent

variable (kind : ReqKind) (l : Level) (a n : Nat) (s : State)

theorem reqSent_pending : (reqSent kind l a n s).pending = s.pending := by
  obtain ⟨w, r, h⟩ := reqSent_frame kind l a n s
  rw [h]

theorem reqSent_time : (reqSent kind l a n s).time = s.time := by
  obtain ⟨w, r, h⟩ := reqSent_frame kind l a n s
  rw [h]

theorem reqSent_queue : (reqSent kind l a n s).coh.queue = s.coh.queue := by
  obtain ⟨w, r, h⟩ := reqSent_frame kind l a n s
  rw [h]

theorem txnOf_reqSent (l' : Level) (m : Nat) : txnOf (reqSent kind l a n s) l' m = txnOf s l' m := by
  obtain ⟨w, r, h⟩ := reqSent_frame kind l a n s
  rw [h]
  rfl

theorem dirFind_reqSent (m : Nat) : dirFind (reqSent kind l a n s) m = dirFind s m := by
  obtain ⟨w, r, h⟩ := reqSent_frame kind l a n s
  rw [h]
  rfl

theorem slvLevel_reqSent (k m : Nat) : slvLevel (reqSent kind l a n s) k m = slvLevel s k m := by
  obtain ⟨w, r, h⟩ := reqSent_frame kind l a n s
  rw [h]
  rfl

theorem distance_reqSent (i j : Nat) : distance (reqSent kind l a n s) i j = distance s i j := by
  obtain ⟨w, r, h⟩ := reqSent_frame kind l a n s
  rw [h]
  rfl

theorem dirSt_reqSent (m : Nat) : dirSt (reqSent kind l a n s) m = dirSt s m := by
  unfold dirSt
  rw [dirFind_reqSent]

theorem nearestSlv_reqSent (k : Nat) (p : List Nat) : nearestSlv (reqSent kind l a n s) k p = nearestSlv s k p := by
  induction p with
  | nil => rfl
  | cons b p ih => simp only [nearestSlv, ih, distance_reqSent]

theorem lineIdle_reqSent {l' : Level} {m : Nat} (h : lineIdle l' m s) : lineIdle l' m (reqSent kind l a n s) := by
  obtain ⟨hq, ht⟩ := h
  exact ⟨(reqSent_queue kind l a n s).trans hq, (txnOf_reqSent kind l a n s l' m).trans ht⟩

end Sent

/-- A good request arrives at its home. -/
theorem agentReq_good {kind : ReqKind} {l : Level} {a n : Nat} {s : State} (h : reqGood kind l a n s) :
    agentReq kind l a n s = arrive (mkTxn l kind a n none s.time) (reqSent kind l a n s) := by
  obtain ⟨hd, ho, hc, hdom⟩ := h
  have hon : ¬ agentOff (takeMsg (reqMsg kind l a n) s) l a = true := by simp [agentOff_takeMsg, ho]
  have hok : ¬ (!cacheable (regionOf (takeMsg (reqMsg kind l a n) s) (64 * n)) ||
      !domainOk (takeMsg (reqMsg kind l a n) s) (reqDomain (takeMsg (reqMsg kind l a n) s) l a) (64 * n)) = true := by
    simp [regionOf_takeMsg, domainOk_takeMsg, reqDomain_takeMsg, hc, hdom]
  rw [agentReq_due hd, ← reqSent_time kind l a n s]
  exact (if_neg hon).trans (if_neg hok)

/-- The command of a good request has the effect of its arrival. -/
theorem exec_good {kind : ReqKind} {l : Level} {a n : Nat} {s v : State} (hk : kind ∈ cachingKinds) (hg : reqGood kind l a n s)
    (hv : arrive (mkTxn l kind a n none s.time) (reqSent kind l a n s) = v) (hp : v.pending = s.pending) :
    exec (reqInstr kind l a n) s = .next v := by
  rw [exec_reqInstr hk, agentReq_good hg, hv]
  exact next_pending_self hp

/-! ### The transaction's beginning -/

/-- A request for an idle line whose transaction begins with something to wait for. -/
theorem arrive_activates {t t' : Txn} {u v : State} (hi : lineIdle t.lvl t.line u) (hr : homeRoom u t.lvl t.line = true)
    (hs : startAt t.lvl t u = activeTxn t' v) (hv : v.coh.txns = u.coh.txns) (hl : t'.lvl = t.lvl) (hn : t'.line = t.line)
    (hw : t'.wait ≠ [] ∨ t'.home = true) : arrive t u = activeTxn t' v := by
  obtain ⟨hq, hx⟩ := hi
  refine arrive_begins (t' := { t' with since := v.time }) hx hq hr hs ?_ hl hn hw
  show v.coh.txns ++ _ = _
  rw [hv]

/-- A read that may share its line (Table 6.6). -/
def shares (k : ReqKind) : Prop := k = .rds ∨ k = .rdc

theorem shares_caching {k : ReqKind} (h : shares k) : k ∈ cachingKinds := by
  rcases h with rfl | rfl <;> decide

theorem startVest_shares_owned {t : Txn} {s : State} {o : Nat} (hk : shares t.kind) (hd : dirSt s t.line = some (.x o)) (ho : o ≠ t.req) :
    startVest t s = activeTxn { t with wait := [o], fwd := some o } (sendSnoops .vest 0x10 t.line t.req [o] s) := by
  rcases hk with hk | hk <;> simp only [startVest, hk, hd, if_neg ho] <;> rfl

theorem startVest_shares_held {t : Txn} {s : State} {o : Nat} {p : List Nat} (hk : shares t.kind) (hd : dirSt s t.line = some (.p p))
    (ho : nearestSlv s t.req (p.filter (· ≠ t.req)) = some o) :
    startVest t s = activeTxn { t with wait := [o], fwd := some o } (sendSnoops .vest 0x10 t.line t.req [o] s) := by
  rcases hk with hk | hk <;> simp only [startVest, hk, hd, ho] <;> rfl

theorem startVest_rdo_owned {t : Txn} {s : State} {o : Nat} (hk : t.kind = .rdo) (hd : dirSt s t.line = some (.x o)) (ho : o ≠ t.req) :
    startVest t s = activeTxn { t with wait := [o], fwd := some o } (sendSnoops .vest 0x11 t.line t.req [o] s) := by
  simp only [startVest, hk, hd, if_neg ho]
  rfl

theorem startVest_rdo_held {t : Txn} {s : State} {o : Nat} {p : List Nat} (hk : t.kind = .rdo) (hd : dirSt s t.line = some (.p p))
    (ho : nearestSlv s t.req (p.filter (· ≠ t.req)) = some o) :
    startVest t s = activeTxn { t with wait := p.filter (· ≠ t.req), fwd := some o }
      (sendSnoops .vest 0x13 t.line t.req ((p.filter (· ≠ t.req)).filter (· ≠ o)) (sendSnoops .vest 0x11 t.line t.req [o] s)) := by
  simp only [startVest, hk, hd, ho, reduceCtorEq, false_and, if_false]
  rfl

theorem startVest_upg_shared {t : Txn} {s : State} {p : List Nat} (hk : t.kind = .upg) (hd : dirSt s t.line = some (.p p))
    (hc : p.contains t.req = true) : startVest t s = activeTxn { t with wait := p.filter (· ≠ t.req) }
      (sendSnoops .vest 0x13 t.line t.req (p.filter (· ≠ t.req)) s) := by
  simp only [startVest, hk, hd, hc, and_self, if_true]
  rfl

/-- A slice whose Sleeve holds nothing of the line asks the home agent (Table 6.4). -/
theorem startSlice_asks {k : Nat} {t : Txn} {s : State} (hk : shares t.kind) (hs : scratchSlv t.line = none)
    (hl : slvLevel s k t.line = .I) : startSlice k t s = activeTxn { t with home := true } (askHome k t.line t.kind s) := by
  rcases hk with hk | hk <;> simp only [startSlice, hk, hs, hl, Option.isSome_none, Bool.false_eq_true, if_false, if_true] <;> rfl

theorem askHome_txns (k n : Nat) (kind : ReqKind) (s : State) : (askHome k n kind s).coh.txns = s.coh.txns := rfl

/-! ### The commands -/

/-- A good request of a Sleeve for an idle line that the directory has, whose transaction begins with snoops. -/
theorem exec_vest_snoops {kind : ReqKind} {a n : Nat} {s v : State} {t' : Txn} (hk : kind ∈ cachingKinds) (hg : reqGood kind .vest a n s)
    (hi : lineIdle .vest n s) (hd : dirSt s n ≠ none)
    (hs : startVest (mkTxn .vest kind a n none s.time) (reqSent kind .vest a n s) = activeTxn t' v)
    (hc : v.coh = (reqSent kind .vest a n s).coh) (hp : v.pending = (reqSent kind .vest a n s).pending) (hl : t'.lvl = .vest)
    (hn : t'.line = n) (hw : t'.wait ≠ []) : exec (reqInstr kind .vest a n) s = .next (activeTxn t' v) := by
  have hf : dirFind (reqSent kind .vest a n s) n ≠ none := fun h => hd (by rw [← dirSt_reqSent kind .vest a n, dirSt_eq_none h])
  exact exec_good hk hg (arrive_activates (t := mkTxn .vest kind a n none s.time) (lineIdle_reqSent kind .vest a n s hi)
    (dirRoom_of_found hf) hs (by rw [hc]) hl hn (.inl hw)) (hp.trans (reqSent_pending kind .vest a n s))

/-- A good request behind a transaction that waits queues (R140). -/
theorem exec_queues {kind : ReqKind} {l : Level} {a n : Nat} {s : State} {t : Txn} (hk : kind ∈ cachingKinds) (hg : reqGood kind l a n s)
    (ht : txnOf s l n = some t) (hw : t.wait ≠ []) : exec (reqInstr kind l a n) s = .next { reqSent kind l a n s with
      coh := { (reqSent kind l a n s).coh with queue := s.coh.queue ++ [mkTxn l kind a n none s.time] } } := by
  refine exec_good hk hg ?_ (reqSent_pending kind l a n s)
  rw [arrive_waits (t := mkTxn l kind a n none s.time) ((txnOf_reqSent kind l a n s l n).trans ht) fun h => hw h.1, reqSent_queue]

/-- A good request of a core, for a line of which its Sleeve holds nothing. -/
theorem exec_slice_asks {kind : ReqKind} {k : SleeveId} {c n : Nat} {s : State} (hk : shares kind) (hg : reqGood kind (.sleeve k) c n s)
    (hi : lineIdle (.sleeve k) n s) (hr : homeRoom (reqSent kind (.sleeve k) c n s) (.sleeve k) n = true) (hs : scratchSlv n = none)
    (hl : slvLevel s k n = .I) : exec (reqInstr kind (.sleeve k) c n) s =
      .next (activeTxn { mkTxn (.sleeve k) kind c n none s.time with home := true } (askHome k n kind (reqSent kind (.sleeve k) c n s))) := by
  have hstart := startSlice_asks (k := k) (t := mkTxn (.sleeve k) kind c n none s.time) (s := reqSent kind (.sleeve k) c n s) hk hs
    ((slvLevel_reqSent kind (.sleeve k) c n s k n).trans hl)
  exact exec_good (shares_caching hk) hg (arrive_activates (t := mkTxn (.sleeve k) kind c n none s.time)
    (lineIdle_reqSent kind (.sleeve k) c n s hi) hr hstart (askHome_txns _ _ _ _) rfl rfl (.inr rfl))
    (reqSent_pending kind (.sleeve k) c n s)

/-- Settles O26: a request by whether it is sent, must wait, or begins a transaction, and that by what the directory has of the line. -/
theorem coherenceRequestsOfCachingAgents : Obligations.CoherenceRequestsOfCachingAgents := by
  unfold Obligations.CoherenceRequestsOfCachingAgents
  dsimp only
  have sharing : ∀ {kind : ReqKind}, kind ∈ [ReqKind.rds, .rdc] → shares kind := fun h => by simpa [shares] using h
  refine ⟨fun s l a n => ⟨rfl, rfl, rfl, rfl⟩, ?leaves, fun s kind l a n t hk hg ht hw => exec_queues hk hg ht hw, ?sharesOwned, ?rdoOwned,
    ?sharesHeld, ?rdoHeld, ?upg, fun s kind k c n hk hg hi hr hs hl => exec_slice_asks (sharing hk) hg hi hr hs hl⟩
  case leaves =>
    intro s kind l a n hk
    refine ⟨fun hd ho => (exec_reqInstr hk l a n s).trans ?_, fun hd => (exec_reqInstr hk l a n s).trans ?_⟩
    · exact (keepQueue_done_eq (agentReq_off hd ho)).trans (next_pending_self (takeMsg_pending _ _))
    · exact keepQueue_done_eq (agentReq_notDue hd)
  case sharesOwned =>
    intro s kind a n o hk hg hi hd ho
    exact exec_vest_snoops (shares_caching (sharing hk)) hg hi (by simp [hd])
      (startVest_shares_owned (sharing hk) ((dirSt_reqSent _ _ _ _ _ _).trans hd) ho) (sendSnoops_coh _ _ _ _ _ _)
      (sendSnoops_pending _ _ _ _ _ _) rfl rfl (List.cons_ne_nil _ _)
  case rdoOwned =>
    intro s a n o hg hi hd ho
    exact exec_vest_snoops (by decide) hg hi (by simp [hd]) (startVest_rdo_owned rfl ((dirSt_reqSent _ _ _ _ _ _).trans hd) ho)
      (sendSnoops_coh _ _ _ _ _ _) (sendSnoops_pending _ _ _ _ _ _) rfl rfl (List.cons_ne_nil _ _)
  case sharesHeld =>
    intro s kind a n o p hk hg hi hd ho
    exact exec_vest_snoops (shares_caching (sharing hk)) hg hi (by simp [hd])
      (startVest_shares_held (sharing hk) ((dirSt_reqSent _ _ _ _ _ _).trans hd) ((nearestSlv_reqSent _ _ _ _ _ _ _).trans ho))
      (sendSnoops_coh _ _ _ _ _ _) (sendSnoops_pending _ _ _ _ _ _) rfl rfl (List.cons_ne_nil _ _)
  case rdoHeld =>
    intro s a n o p hg hi hd ho hmem
    exact exec_vest_snoops (by decide) hg hi (by simp [hd])
      (startVest_rdo_held rfl ((dirSt_reqSent _ _ _ _ _ _).trans hd) ((nearestSlv_reqSent _ _ _ _ _ _ _).trans ho))
      ((sendSnoops_coh _ _ _ _ _ _).trans (sendSnoops_coh _ _ _ _ _ _))
      ((sendSnoops_pending _ _ _ _ _ _).trans (sendSnoops_pending _ _ _ _ _ _)) rfl rfl (List.ne_nil_of_mem hmem)
  case upg =>
    intro s a n p hg hi hd hc hne
    exact exec_vest_snoops (by decide) hg hi (by simp [hd]) (startVest_upg_shared rfl ((dirSt_reqSent _ _ _ _ _ _).trans hd) hc)
      (sendSnoops_coh _ _ _ _ _ _) (sendSnoops_pending _ _ _ _ _ _) rfl rfl hne

end Sys2Proof.Machine

/-! # Training, repair and loss of a Cuff (R172, R173, R177 to R180, R185)

A step's completion by which step runs; an overrun by what the ended attempt leaves to do; a pause by whether a module is usable; the
timebase check by the difference it finds. -/

namespace Sys2Proof.Machine

open Sys2Proof

/-! ### An attempt that ends without success (R173) -/

/-- The next attempt starts from step 2, in the state that the Cuff shows. -/
theorem attemptFails_again {k : Nat} {s : State} (h : (s.cuff k).attempt < 3) : attemptFails k s =
    (trainStart k 2 ((s.cuff k).attempt + 1) (s.cuff k).isRetrain s).modCuff k fun x => { x with state := (s.cuff k).state } := if_pos h

theorem attemptFails_excludes {k : Nat} {s : State} (h : 3 ≤ (s.cuff k).attempt) (hr : (s.cuff k).isRetrain = false) :
    attemptFails k s = exclude k 5 s := by
  unfold attemptFails
  dsimp only
  rw [if_neg (Nat.not_lt.mpr h), if_neg (by simp [hr])]

theorem attemptFails_loses {k : Nat} {s : State} (h : 3 ≤ (s.cuff k).attempt) (hr : (s.cuff k).isRetrain = true) :
    attemptFails k s = cuffLost k s := by
  unfold attemptFails
  dsimp only
  rw [if_neg (Nat.not_lt.mpr h), if_pos hr]

theorem exec_cuffTrainTimeout {k : SleeveId} {s : State} (h : (s.cuff k).step ≠ 0) :
    exec (.cuffTrainTimeout k) s = .next { attemptFails k s with pending := s.pending } := by
  show execCuffTrainTimeout k s = _
  rw [execCuffTrainTimeout, if_neg h, keepQueue_done]

/-! ### A step that completes (R172, Table 7.11) -/

section StepDone

variable {k : SleeveId} {s : State} (l : LaneFails)

theorem exec_cuffTrainStepDone_plain (h : (s.cuff k).step ∉ [0, 5, 7, 8]) :
    exec (.cuffTrainStepDone k l) s = .next (s.setCuff k { s.cuff k with step := (s.cuff k).step + 1 }) := by
  simp only [List.mem_cons, List.not_mem_nil, or_false, not_or] at h
  obtain ⟨h0, h5, h7, h8⟩ := h
  show execCuffTrainStepDone k l s = _
  unfold execCuffTrainStepDone
  dsimp only
  rw [if_neg h0, if_neg h5, if_neg h7, if_neg h8, keepQueue_done]
  rfl

/-- Step 5 with a usable module (R177). -/
theorem exec_cuffTrainStepDone_lanes (h : (s.cuff k).step = 5) (hm : (laneRepair s l).1 ≠ 0) :
    exec (.cuffTrainStepDone k l) s =
      .next (s.setCuff k { s.cuff k with mods := (laneRepair s l).1, repaired := (laneRepair s l).2, step := 6 }) := by
  show execCuffTrainStepDone k l s = _
  unfold execCuffTrainStepDone
  dsimp only
  rw [if_neg (by omega), if_pos h, if_neg hm, keepQueue_done]
  rfl

/-- Step 7 with a version in common (R179). -/
theorem exec_cuffTrainStepDone_versions (h : (s.cuff k).step = 7)
    (hv : versionSel (fuseVmap (fuseOf s 12)) (fuseVmap (fuseOf s k)) ≠ 0) :
    exec (.cuffTrainStepDone k l) s = .next (s.setCuff k { s.cuff k with vermap := fuseVmap (fuseOf s k), step := 8 }) := by
  show execCuffTrainStepDone k l s = _
  unfold execCuffTrainStepDone
  dsimp only
  rw [if_neg (by omega), if_neg (by omega), if_pos h, if_neg hv, keepQueue_done]
  rfl

end StepDone

/-! ### The end of a repair pause (R178) -/

theorem exec_repairPauseDone_noPause {k : SleeveId} {s : State} (l : LaneFails) (h : (s.cuff k).state ≠ 3) :
    exec (.repairPauseDone k l) s = .next s := by
  show execRepairPauseDone k l s = _
  unfold execRepairPauseDone
  dsimp only
  rw [if_pos h, keepQueue_done]

theorem exec_repairPauseDone_resumes {k : SleeveId} {s : State} {l : LaneFails} (h : (s.cuff k).state = 3) (hm : (laneRepair s l).1 ≠ 0) :
    exec (.repairPauseDone k l) s = .next (s.setCuff k
      { resumeEnds { s.cuff k with mods := (laneRepair s l).1, repaired := (laneRepair s l).2 } with state := 2 }) := by
  show execRepairPauseDone k l s = _
  unfold execRepairPauseDone
  dsimp only
  rw [if_neg (not_not_intro h), if_neg hm, keepQueue_done]
  rfl

theorem exec_repairPauseDone_retrains {k : SleeveId} {s : State} {l : LaneFails} (h : (s.cuff k).state = 3) (hm : (laneRepair s l).1 = 0) :
    exec (.repairPauseDone k l) s = .next { reportCuff k 1 0 (trainStart k 3 1 true (s.setCuff k
      { s.cuff k with mods := 0, repaired := (laneRepair s l).2, retrain := satInc (s.cuff k).retrain })) with pending := s.pending } := by
  show execRepairPauseDone k l s = _
  unfold execRepairPauseDone
  dsimp only
  rw [if_neg (not_not_intro h), if_pos hm, keepQueue_done, hm]

/-! ### Loss of supply (R180) and the timebase check (R185) -/

theorem exec_sleeveSupplyLoss {k : SleeveId} {s : State} (h : slvPresent s k = true) :
    exec (.sleeveSupplyLoss k) s = .next { cuffLost k s with pending := s.pending } := by
  show execSleeveSupplyLoss k s = _
  rw [execSleeveSupplyLoss, if_pos h, keepQueue_done]

theorem exec_timebaseCheck_within {k : SleeveId} {s : State} {slip : Int} (h : slvPresent s k = true)
    (h1 : -1 ≤ (s.cuff k).tbOff + slip) (h2 : (s.cuff k).tbOff + slip ≤ 1) :
    exec (.timebaseCheck k slip) s = .next (s.setCuff k { s.cuff k with
      tbOff := (s.cuff k).tbOff + slip, tbMin := max (s.cuff k).tbMin (s.time + (s.cuff k).tbOff) }) := by
  show execTimebaseCheck k slip s = _
  unfold execTimebaseCheck
  dsimp only
  rw [if_neg (by simp [h]), if_neg (by omega), keepQueue_done]
  rfl

theorem exec_timebaseCheck_reloads {k : SleeveId} {s : State} {slip : Int} (h : slvPresent s k = true)
    (ho : (s.cuff k).tbOff + slip < -1 ∨ 1 < (s.cuff k).tbOff + slip) :
    exec (.timebaseCheck k slip) s = .next (reportCuff k 2 0 (s.setCuff k (loadTime s.time
      { s.cuff k with tbMin := max (s.cuff k).tbMin (s.time + (s.cuff k).tbOff) }))) := by
  show execTimebaseCheck k slip s = _
  unfold execTimebaseCheck
  dsimp only
  rw [if_neg (by simp [h]), if_pos ho.symm, keepQueue_done]
  rfl

/-- Settles O10: a step's end by the step, an overrun by the attempt, a pause by the modules left, the check by what it finds. -/
theorem cuffTraining : Obligations.CuffTraining := by
  unfold Obligations.CuffTraining
  refine ⟨fun s k l h => exec_cuffTrainStepDone_plain l h, fun s k l h hm => exec_cuffTrainStepDone_lanes l h hm,
    fun s k l h hv => exec_cuffTrainStepDone_versions l h hv, ?again, ?excluded, ?lost, fun s k l h hm => exec_repairPauseDone_resumes h hm,
    fun s k l h hm => exec_repairPauseDone_retrains h hm, fun s k l h => exec_repairPauseDone_noPause l h,
    fun s k h => exec_sleeveSupplyLoss h, fun s k slip h h1 h2 => exec_timebaseCheck_within h h1 h2,
    fun s k slip h ho => exec_timebaseCheck_reloads h ho⟩
  case again =>
    intro s k h ha
    rw [exec_cuffTrainTimeout h, attemptFails_again ha]
    rfl
  case excluded =>
    intro s k h ha hr
    rw [exec_cuffTrainTimeout h, attemptFails_excludes ha hr]
  case lost =>
    intro s k h ha hr
    rw [exec_cuffTrainTimeout h, attemptFails_loses ha hr]

end Sys2Proof.Machine

/-! # Flits, acknowledgements and replay (R164, R174 to R176, R178, R179)

What a sender may send, what a receiver accepts, what an acknowledgement and a timeout do to the replay buffer; and the messages that
two ends of a Cuff send each other. -/

namespace Sys2Proof.Machine

open Sys2Proof

/-! ### Sending and accepting a data flit -/

/-- What lets an end with no replay under way send a new flit. -/
def sendsNew (f : Flit) (e : LinkEnd) : Prop :=
  f.seq = e.nextSeq ∧ e.replay.length < 128 ∧ ∀ v, v < 6 → f.units v ≤ linkCredit e v

theorem all_credits_iff (f : Flit) (e : LinkEnd) :
    ((upto 6).all fun v => decide (f.units v ≤ linkCredit e v)) = true ↔ ∀ v, v < 6 → f.units v ≤ linkCredit e v := by
  simp [upto]

theorem sendData?_new {f : Flit} {e : LinkEnd} (ha : e.again = none) (h : sendsNew f e) : sendData? f e = some { e with
    nextSeq := f.seq + 1, replay := e.replay ++ [f], sent := (upto 6).foldl (fun a v => ctrAdd a v (f.units v)) e.sent } := by
  obtain ⟨hs, hl, hc⟩ := h
  simp only [sendData?, ha]
  exact if_pos ⟨hs, hl, (all_credits_iff f e).mpr hc⟩

theorem sendData?_refused {f : Flit} {e : LinkEnd} (ha : e.again = none) (h : ¬ sendsNew f e) : sendData? f e = none := by
  simp only [sendData?, ha]
  exact if_neg fun ⟨hs, hl, hc⟩ => h ⟨hs, hl, (all_credits_iff f e).mp hc⟩

theorem not_sendsNew {f : Flit} {e : LinkEnd} (h : f.seq ≠ e.nextSeq ∨ 128 ≤ e.replay.length ∨ ∃ v, v < 6 ∧ linkCredit e v < f.units v) :
    ¬ sendsNew f e := by
  rintro ⟨hs, hl, hc⟩
  obtain h | h | ⟨v, hv, h⟩ := h
  · exact h hs
  · omega
  · exact absurd (hc v hv) (by omega)

theorem exec_cuffDataFlit_sent {s : State} {k : SleeveId} {v : Bool} {f err : BitVec 2048} {r : EccResult} {e : LinkEnd}
    (hb : bandUp s k = true) (ht : (flitOf f).ftype = 0) (hc : flitCrcOk f = true) (he : sendData? (flitOf f) (endOf (s.cuff k) (!v)) = some e) :
    exec (.cuffDataFlit k v f err r) s = .next { bufferEcc r (recvData k v (flitOf (f ^^^ err)) (flitCrcOk (f ^^^ err))
      (s.setCuff k (setEnd (s.cuff k) (!v) e))) with pending := s.pending } := by
  show execCuffDataFlit k v f s err r = _
  unfold execCuffDataFlit
  dsimp only
  rw [if_pos (by simp [hb, ht, hc]), he, keepQueue_done]

theorem exec_cuffDataFlit_unsent {s : State} {k : SleeveId} {v : Bool} {f : BitVec 2048} (err : BitVec 2048) (r : EccResult)
    (he : sendData? (flitOf f) (endOf (s.cuff k) (!v)) = none) : exec (.cuffDataFlit k v f err r) s = .next s := by
  show execCuffDataFlit k v f s err r = _
  unfold execCuffDataFlit
  dsimp only
  rw [he, ite_self, keepQueue_done]

theorem recvData_accepted {s : State} {k : Nat} {v : Bool} {f : Flit} (h : f.seq = (endOf (s.cuff k) v).expSeq) :
    recvData k v f true s = takeControl k v f ((upto 7).foldl (slotIn k v f) (s.setCuff k (setEnd (s.cuff k) v
      { endOf (s.cuff k) v with expSeq := (endOf (s.cuff k) v).expSeq + 1, nak := none }))) := if_pos ⟨rfl, h⟩

theorem recvData_discarded {s : State} {k : Nat} {v good : Bool} {f : Flit} (h : good = false ∨ f.seq ≠ (endOf (s.cuff k) v).expSeq) :
    recvData k v f good s = s.setCuff k (setEnd (s.cuff k) v { endOf (s.cuff k) v with nak := some (endOf (s.cuff k) v).expSeq }) :=
  if_neg fun ⟨hg, hs⟩ => h.elim (by simp [hg]) fun hne => hne hs

/-! ### Acknowledgement and replay -/

/-- What stays in the replay buffer lies outside the window acknowledged. -/
theorem mem_takeAck_replay (f : Flit) (e : LinkEnd) (q : Flit) :
    q ∈ (takeAck f e).replay ↔ q ∈ e.replay ∧ 2048 ≤ (f.ack - q.seq).toNat := by
  simp only [takeAck, List.mem_filter, ackedBy, Bool.not_eq_true', decide_eq_false_iff_not, Nat.not_lt]

theorem exec_cuffAckTimeout {s : State} {k : SleeveId} {v : Bool} {q : Flit} {l : List Flit} (hb : bandUp s k = true)
    (hr : (endOf (s.cuff k) v).replay = q :: l) :
    exec (.cuffAckTimeout k v) s = .next { replayAt k v q.seq s with pending := s.pending } := by
  show execCuffAckTimeout k v s = _
  unfold execCuffAckTimeout
  simp only [hr, if_pos hb, keepQueue_done]

theorem replayAt_oldest {s : State} {k : Nat} {v : Bool} {q : Flit} {l : List Flit} (hr : (endOf (s.cuff k) v).replay = q :: l)
    (hn : (endOf (s.cuff k) v).replays < (s.cuff k).retryLimF.toNat) :
    replayAt k v q.seq s = s.setCuff k { setEnd (s.cuff k) v
      { endOf (s.cuff k) v with replays := (endOf (s.cuff k) v).replays + 1, again := some q.seq } with
      replay := satInc (s.cuff k).replay } := by
  have hheld : ((endOf (s.cuff k) v).replay.any fun x => x.seq == q.seq) = true := by simp [hr]
  unfold replayAt
  dsimp only
  rw [if_neg (Nat.not_le.mpr hn), hheld, if_pos rfl]

theorem replayAt_limit {s : State} {k : Nat} {v : Bool} {q : BitVec 12}
    (hn : (s.cuff k).retryLimF.toNat ≤ (endOf (s.cuff k) v).replays) :
    replayAt k v q s = retryLimitHit k (s.setCuff k (setEnd (s.cuff k) v { endOf (s.cuff k) v with nakSeen := some q })) := if_pos hn

/-! ### Control flits and messages -/

theorem exec_cuffControlFlit_good {s : State} {k : SleeveId} {v : Bool} {f err : BitVec 2048} (hb : bandUp s k = true)
    (hc : flitCrcOk (f ^^^ err) = true) (ht : (flitOf (f ^^^ err)).ftype = 1) :
    exec (.cuffControlFlit k v f err) s = .next { takeControl k v (flitOf (f ^^^ err)) s with pending := s.pending } := by
  show execCuffControlFlit k v f s err = _
  unfold execCuffControlFlit
  dsimp only
  rw [if_neg (by simp [hc]), ht]
  exact congrArg (keepQueue s) (if_pos hb)

theorem exec_cuffControlFlit_bad {s : State} {k : SleeveId} {v : Bool} {f err : BitVec 2048} (hc : flitCrcOk (f ^^^ err) = false) :
    exec (.cuffControlFlit k v f err) s = .next s := by
  show execCuffControlFlit k v f s err = _
  unfold execCuffControlFlit
  dsimp only
  rw [if_pos hc, keepQueue_done]

/-- The first repair message of an active link under version 2 (R178). -/
theorem repairIn_pauses {s : State} {k : Nat} {v : Bool} {n : BitVec 12} (h : (s.cuff k).state = 2)
    (hv : 2 ≤ (tabGet s.pkg.cuffVer 0 k).toNat) :
    repairIn k v n s = reportCuff k 0 (repairedCount (s.cuff k).repaired) (s.setCuff k
      { setEnd (s.cuff k) v { endOf (s.cuff k) v with nakSeen := some n } with state := 3, repair := satInc (s.cuff k).repair }) := by
  unfold repairIn
  dsimp only
  rw [if_neg fun hn => hn.elim (fun hs => hs (.inl h)) (Nat.not_lt.mpr hv), if_neg (by rw [h]; decide)]

/-- A version message outside step 7 of training is noted and ends no attempt (R179). -/
theorem versionIn_noted {s : State} {k : Nat} {v : Bool} {map sel : BitVec 8} (h : (s.cuff k).step ≠ 7) :
    versionIn k v map sel s = s.setCuff k (let c := setEnd (s.cuff k) v { endOf (s.cuff k) v with verSeen := map, selSeen := sel }
      if v then { c with vermap := map } else c) := if_neg fun hn => h hn.1

/-- Settles O11: a data flit by what its sender may send and its receiver expects, a timeout by the replays counted. -/
theorem cuffFlitsAndReplay : Obligations.CuffFlitsAndReplay := by
  unfold Obligations.CuffFlitsAndReplay
  refine ⟨fun s k v f err r e hb ht hc he => exec_cuffDataFlit_sent hb ht hc he, fun s k v f err r he => exec_cuffDataFlit_unsent err r he,
    fun f e ha hs hl hc => sendData?_new ha ⟨hs, hl, hc⟩, fun f e ha h => sendData?_refused ha (not_sendsNew h),
    fun s k v f h => recvData_accepted h, fun s k v good f h => recvData_discarded h, mem_takeAck_replay,
    fun s k v f err hb hc ht => exec_cuffControlFlit_good hb hc ht, fun s k v f err hc => exec_cuffControlFlit_bad hc, ?replays, ?limit,
    ?repair, ?toVest, ?toSleeve⟩
  case replays =>
    intro s k v q l hb hr hn
    rw [exec_cuffAckTimeout hb hr, replayAt_oldest hr hn]
    rfl
  case limit =>
    intro s k v q l hb hr hn
    rw [exec_cuffAckTimeout hb hr, replayAt_limit hn]
  case repair => exact fun s k v n h hv => keepQueue_done_eq (repairIn_pauses h hv)
  case toVest => exact fun s k map sel h => keepQueue_done_eq (versionIn_noted h)
  case toSleeve => exact fun s k map sel h => keepQueue_done_eq (versionIn_noted h)

end Sys2Proof.Machine

/-! # I/O packets at their targets, completions, MSI writes and grants (R149, R160, R168, R417, R426, R466)

A packet that no earlier one holds up leaves the network, and its target then acts by the refusal that the request meets and by the
region of its address. A completion acts by the request that waits for it. -/

namespace Sys2Proof.Machine

open Sys2Proof

/-! ### Arrival -/

/-- A packet that no earlier one holds up leaves the network, in `u`. -/
def arrives (q : Packet) (s u : State) : Prop := pktBlocked s q = false ∧ u = pktTake q s

theorem onPacket_arrives {q : Packet} {s u : State} (h : arrives q s u) (f : State → State) : onPacket q s f = f u := by
  obtain ⟨hb, rfl⟩ := h
  exact if_neg (by simp [hb])

theorem onPacket_blocked {q : Packet} {s : State} (h : pktBlocked s q = true) (f : State → State) : onPacket q s f = s := if_pos h

section Arrival

variable {s u : State} {p : IoPkt} {n : Nat} {l : List Byte} {op : AmoOp} {d : Bool} {v : Word} {tag : BitVec 12} {w : Agent} {st : BitVec 8}

theorem exec_iord (h : arrives (ioPkt s 0x48 p n 0 []) s u) : exec (.iord p n) s = .next { ioReadReq p n u with pending := s.pending } :=
  keepQueue_done_eq (onPacket_arrives h _)

theorem exec_iord_blocked (h : pktBlocked s (ioPkt s 0x48 p n 0 []) = true) : exec (.iord p n) s = .next s :=
  keepQueue_done_eq (onPacket_blocked h _)

theorem exec_iowr (h : arrives (ioPkt s 0x40 p l.length 0 l) s u) :
    exec (.iowr p l) s = .next { ioPosted p l u with pending := s.pending } := keepQueue_done_eq (onPacket_arrives h _)

theorem exec_iowrnp (h : arrives (ioPkt s 0x49 p l.length 0 l) s u) :
    exec (.iowrnp p l) s = .next { ioWriteNp p l u with pending := s.pending } := keepQueue_done_eq (onPacket_arrives h _)

theorem exec_ioatom (h : arrives (ioPkt s 0x4A p (if d then 8 else 4) (amoCode op d) (leBytes (if d then 8 else 4) v.toNat)) s u) :
    exec (.ioatom p op d v) s = .next { ioAtomic p op u with pending := s.pending } := keepQueue_done_eq (onPacket_arrives h _)

theorem exec_iocpl (h : arrives (cplFor s tag w st []) s u) :
    exec (.iocpl tag w st) s = .next { ioComplete tag w st [] u with pending := s.pending } := keepQueue_done_eq (onPacket_arrives h _)

theorem exec_iocpld (h : arrives (cplFor s tag w st l) s u) :
    exec (.iocpld tag w st l) s = .next { ioComplete tag w st l u with pending := s.pending } := keepQueue_done_eq (onPacket_arrives h _)

end Arrival

/-! ### Requests at their targets (Tables 7.5 and 17.7) -/

/-- A request that its target does not refuse. -/
abbrev ioAllowed (u : State) (p : IoPkt) (w : Bool) : Prop := refusal u p.who (agentSecure u p.who) w p.addr = none

/-- What waits at a port `q` once a request is sent through its link, or the error that it ends in. -/
theorem ioToPort_eq (p : IoPkt) (q : Nat) (w : Bool) (u : State) : ioToPort p q w u = if linkServes u q (winLink u q p.addr)
    then u.modPort q fun x => { x with wait := x.wait ++ [(p.tag, (p.who, p.addr))] }
    else faultAgent p.who w (reportIo q (winLink u q p.addr) p.who p.addr u) := rfl

section Targets

variable {u : State} {p : IoPkt}

theorem ioReadReq_refused {k : UcsKind} (n : Nat) (hk : refusal u p.who (agentSecure u p.who) false p.addr = some k) :
    ioReadReq p n u = ioRefuse p false k u := by
  simp only [ioReadReq, hk]

theorem ioPosted_refused {k : UcsKind} (l : List Byte) (hk : refusal u p.who (agentSecure u p.who) true p.addr = some k) :
    ioPosted p l u = ioRefuse p true k u := by
  simp only [ioPosted, hk]

theorem ioReadReq_file {h f o : Nat} (n : Nat) (ho : ioAllowed u p false) (hr : regionOf u p.addr = .imsic h f o) :
    ioReadReq p n u = { u with answer := .bytes (zeros n) } := by
  simp only [ioReadReq, ho, hr]

theorem ioReadReq_register {n o : Nat} {t : State} {b : List Byte} (ho : ioAllowed u p false) (hr : regionOf u p.addr = .vestMmio o)
    (hm : mmioRead p.who ((regOf (.vestMmio o)).getD none) p.addr n u = some (t, b)) :
    ioReadReq p n u = { t with answer := .bytes b } := by
  simp only [ioReadReq, ho, hr, hm]

theorem ioReadReq_window {q : Nat} (n : Nat) (ho : ioAllowed u p false) (hr : regionOf u p.addr = .pcie q) :
    ioReadReq p n u = ioToPort p q false u := by
  simp only [ioReadReq, ho, hr]

theorem ioWriteReg_register {l : List Byte} {o : Nat} {t : State} (ok : State → State) (hr : regionOf u p.addr = .vestMmio o)
    (hm : mmioWrite p.who ((regOf (.vestMmio o)).getD none) p.addr l u = some t) : ioWriteReg p l ok u = ok t := by
  simp only [ioWriteReg, hr, hm]

theorem ioPosted_register {l : List Byte} {o : Nat} {t : State} (ho : ioAllowed u p true) (hr : regionOf u p.addr = .vestMmio o)
    (hm : mmioWrite p.who ((regOf (.vestMmio o)).getD none) p.addr l u = some t) : ioPosted p l u = t := by
  simp only [ioPosted, ho, hr, ioWriteReg_register id hr hm, id]

theorem ioWriteNp_register {l : List Byte} {o : Nat} {t : State} (ho : ioAllowed u p true) (hr : regionOf u p.addr = .vestMmio o)
    (hm : mmioWrite p.who ((regOf (.vestMmio o)).getD none) p.addr l u = some t) : ioWriteNp p l u = ioOk t := by
  simp only [ioWriteNp, ho, hr, ioWriteReg_register ioOk hr hm]

theorem ioPosted_file {h f o : Nat} (l : List Byte) (ho : ioAllowed u p true) (hr : regionOf u p.addr = .imsic h f o)
    (hf : hartFailed u h = false) : ioPosted p l u = imsicPage h f o l u := by
  simp only [ioPosted, ho, ioWriteReg, hr, hf, Bool.false_eq_true, if_false, id]

theorem ioPosted_window {q : Nat} (l : List Byte) (ho : ioAllowed u p true) (hr : regionOf u p.addr = .pcie q)
    (hs : ownSpace p.addr = false) : ioPosted p l u = if linkServes u q (winLink u q p.addr) then u else logAer q u := by
  simp only [ioPosted, ho, hr, hs, Bool.false_or]

theorem ioWriteNp_window {q : Nat} (l : List Byte) (ho : ioAllowed u p true) (hr : regionOf u p.addr = .pcie q) :
    ioWriteNp p l u = ioToPort p q true u := by
  simp only [ioWriteNp, ho, hr]

theorem ioAtomic_window {q : Nat} (op : AmoOp) (ho : ioAllowed u p true) (hr : regionOf u p.addr = .pcie q) :
    ioAtomic p op u = if op = .swap ∨ op = .add then ioToPort p q true u else faultAgent p.who true u := by
  simp only [ioAtomic, ho, hr]

end Targets

/-! ### Completions (Table 17.7) -/

/-- A request leaves the port at which it waited. -/
def ioTaken (u : State) (tag : BitVec 12) (w : Agent) (q a : Nat) : State :=
  u.modPort q fun x => { x with wait := x.wait.erase (tag, (w, a)) }

theorem ioComplete_nothing {u : State} {tag : BitVec 12} {w : Agent} (st : BitVec 8) (d : List Byte) (h : waitingAt u tag w = none) :
    ioComplete tag w st d u = u := by
  simp only [ioComplete, h]

section Completion

variable {u : State} {tag : BitVec 12} {q a : Nat} (d : List Byte)

theorem ioComplete_error {w : Agent} {st : BitVec 8} (h : waitingAt u tag w = some (q, a)) (hs : st ≠ 0) :
    ioComplete tag w st d u = endIoError q (winLink u q a) w tag a (ioTaken u tag w q a) := by
  simp only [ioComplete, h, if_pos hs, ioTaken]

theorem ioComplete_hart {i : HartId} (h : waitingAt u tag (.hart i) = some (q, a)) :
    ioComplete tag (.hart i) 0 d u = hartIoDone i tag d (ioTaken u tag (.hart i) q a) := by
  simp only [ioComplete, h, ne_eq, not_true_eq_false, if_false, ioTaken]

theorem ioComplete_agent {w : Agent} (h : waitingAt u tag w = some (q, a)) (hw : ∀ i, w ≠ .hart i) :
    ioComplete tag w 0 d u = { ioTaken u tag w q a with answer := if d = [] then .status 0 [] else .bytes d } := by
  simp only [ioComplete, h, ne_eq, not_true_eq_false, if_false]
  cases w with
  | hart i => exact absurd rfl (hw i)
  | _ => rfl

end Completion

/-! ### MSI writes (R149, R466) -/

theorem msiAt_file {s : State} {a h f o : Nat} (w : Agent) (v : BitVec 32) (hr : regionOf s a = .imsic h f o) :
    msiAt w a v s = if hartFailed s h then s else imsicPage h f o (leBytes 4 v.toNat) s := by
  simp only [msiAt, hr]

theorem msiAt_reserved {s : State} {a : Nat} (w : Agent) (v : BitVec 32) (hr : regionOf s a = .reserved) :
    msiAt w a v s = reportUcs w .reserved a (secureAddr s a) s := by
  simp only [msiAt, hr]

theorem exec_msiWrite_alone {s : State} {a : Nat} {v : BitVec 32} (h : msiFlight s a v = none) :
    exec (.msiWrite a v) s = .next { msiAt .power a v s with pending := s.pending } := by
  show execMsiWrite a v s = _
  unfold execMsiWrite
  rw [h, keepQueue_done]

theorem exec_msiWrite_flight {s u : State} {a : Nat} {v : BitVec 32} {g : Flight} (h : msiFlight s a v = some g) (hg : arrives g.pkt s u) :
    exec (.msiWrite a v) s = .next { msiAt (nodeAgent g.pkt.srcN) a v u with pending := s.pending } := by
  show execMsiWrite a v s = _
  unfold execMsiWrite
  simp only [h, onPacket_arrives hg, keepQueue_done]

/-! ### Grants (R168) -/

theorem exec_regulatorGrant (pt : InjPoint) (a : Fin 256) (s : State) : exec (.regulatorGrant pt a) s =
    .next { (grantUnits (pointNo pt) a s).2.foldl runReleased (grantUnits (pointNo pt) a s).1 with pending := s.pending } :=
  keepQueue_done _ _

theorem grantUnits_unasked {s : State} {pt a : Nat} (h : s.fab.asked.contains (allowKey pt a) = false) : grantUnits pt a s = (s, []) :=
  if_pos h

/-- Settles O30: a packet by its arrival, then by the refusal, region or waiting request that it meets. -/
theorem ioPacketsAtTargetsAndRequesters : Obligations.IoPacketsAtTargetsAndRequesters := by
  unfold Obligations.IoPacketsAtTargetsAndRequesters
  dsimp only
  refine ⟨?readRefused, ?writeRefused, ?readFile, ?readRegister, ?readWindow, ?writeRegister, ?writeFile, ?postedWindow, ?window,
    ?agentDone, ?hartDone, ?nothing, fun s p n hb => exec_iord_blocked hb, ?msi, ?msiFailed, ?msiReserved, ?msiFlight,
    fun s pt a _ => exec_regulatorGrant pt a s, ?unasked⟩
  case readRefused =>
    intro s u p n k harr hk
    rw [exec_iord harr, ioReadReq_refused n hk]
    rfl
  case writeRefused =>
    intro s u p l k harr hk
    rw [exec_iowr harr, ioPosted_refused l hk]
    rfl
  case readFile =>
    intro s u p n h f o harr ho hr
    rw [exec_iord harr, ioReadReq_file n ho hr]
  case readRegister =>
    intro s u p n o t b harr ho hr hm
    rw [exec_iord harr, ioReadReq_register ho hr hm]
  case readWindow =>
    intro s u p n q harr ho hr
    rw [exec_iord harr, ioReadReq_window n ho hr, ioToPort_eq]
  case writeRegister =>
    intro s u p l o t ho hr hm
    refine ⟨fun harr => ?_, fun harr => ?_⟩
    · rw [exec_iowr harr, ioPosted_register ho hr hm]
    · rw [exec_iowrnp harr, ioWriteNp_register ho hr hm]
      rfl
  case writeFile =>
    intro s u p l h f o harr ho hr hf
    rw [exec_iowr harr, ioPosted_file l ho hr hf]
  case postedWindow =>
    intro s u p l q harr ho hr hs
    rw [exec_iowr harr, ioPosted_window l ho hr hs]
  case window =>
    intro s u p l op d v q ho hr hl
    refine ⟨fun harr => ?_, fun harr hop => ?_, fun harr hns hna => ?_⟩
    · rw [exec_iowrnp harr, ioWriteNp_window l ho hr, ioToPort_eq, if_pos hl]
    · rw [exec_ioatom harr, ioAtomic_window op ho hr, if_pos hop, ioToPort_eq, if_pos hl]
    · rw [exec_ioatom harr, ioAtomic_window op ho hr, if_neg (by simp [hns, hna])]
  case agentDone =>
    intro s u tag w q a d hw hn hd
    refine ⟨fun harr => ?_, fun harr => ?_⟩
    · rw [exec_iocpl harr, ioComplete_agent [] hw hn]
      rfl
    · rw [exec_iocpld harr, ioComplete_agent d hw hn, if_neg hd]
      rfl
  case hartDone =>
    intro s u tag h q a st d hw
    refine ⟨fun harr => ?_, fun harr => ?_, fun harr hs => ?_⟩
    · rw [exec_iocpld harr, ioComplete_hart d hw]
      rfl
    · rw [exec_iocpl harr, ioComplete_hart [] hw]
      rfl
    · rw [exec_iocpl harr, ioComplete_error [] hw hs]
      rfl
  case nothing =>
    intro s u tag w st harr hw
    rw [exec_iocpl harr, ioComplete_nothing st [] hw]
  case msi =>
    intro s a h f o v hv hr hf
    rw [exec_msiWrite_alone hv, msiAt_file .power v hr, if_neg (by simp [hf])]
  case msiFailed =>
    intro s a h f o v hv hr hf
    rw [exec_msiWrite_alone hv, msiAt_file .power v hr, if_pos hf]
  case msiReserved =>
    intro s a v hv hr
    rw [exec_msiWrite_alone hv, msiAt_reserved .power v hr]
  case msiFlight =>
    intro s u a h f o v g hv harr hr hf
    rw [exec_msiWrite_flight hv harr, msiAt_file _ v hr, if_neg (by simp [hf])]
  case unasked =>
    intro s pt a ha
    rw [exec_regulatorGrant, grantUnits_unasked ha]
    rfl

end Sys2Proof.Machine

/-! # Charges, period boundaries and activity entries of the Belt (R168, R306, R309, R310, R313)

An item by the activity that matches it, and by whether that one covers it; a boundary by its class; a write of an entry by the first
rejection that it meets. -/

namespace Sys2Proof.Machine

open Sys2Proof

/-! ### A charge (R306) -/

/-- The scope of its class in which an item is charged. -/
def chargeScope (i : BeltItem) : Nat := if i.scope.val < scopesOf i.cls then i.scope else 0

section Charge

variable {s : State} {eng : Bool} {tid : BitVec 12} {c k : Nat} (cost : Nat) (w : HeldWhat)

theorem beltCharge_unmatched (h : matchAct s eng tid c k = none) : beltCharge eng tid c k cost w s = (s, true) := by
  simp only [beltCharge, h]

variable {cost} {a : Nat} (h : matchAct s eng tid c k = some a)
include h

theorem beltCharge_covered (hb : heldBefore s a k = false) (hc : canCover s a k cost = true) :
    beltCharge eng tid c k cost w s = (takeUnits a k cost s, true) := by
  simp only [beltCharge, h, hb, hc, Bool.not_false, Bool.and_self, if_true]

theorem beltCharge_holds (hn : heldBefore s a k = true ∨ canCover s a k cost = false) :
    beltCharge eng tid c k cost w s = (holdItem a k cost w s, false) := by
  have hfails : ¬ (!heldBefore s a k && canCover s a k cost) = true := by
    obtain hb | hc := hn
    · simp [hb]
    · simp [hc]
  simp only [beltCharge, h, if_neg hfails]

end Charge

/-- The answer to a charge: 1 for an item that passes. -/
def chargeAnswered (x : State × Bool) : State := x.1.answerW (if x.2 then 1 else 0)

/-- A charge, with no entry found uncorrectable. -/
theorem exec_beltCharge {s : State} {i : BeltItem} {x : State × Bool}
    (h : beltCharge i.eng i.tid i.cls (chargeScope i) i.cost (itemWhat i s) s = x) :
    exec (.beltCharge i none) s = .next { chargeAnswered x with pending := s.pending } := keepQueue_done_eq (congrArg chargeAnswered h)

theorem itemWhat_txn {s : State} {i : BeltItem} {n : Fin (2 ^ 46)} (hl : i.line = some n) (hc : i.cls = 1)
    (ht : (s.coh.txns.any fun t => t.lvl == Level.vest && t.line == n.val) = true) : itemWhat i s = .txn n := by
  simp only [itemWhat, hl]
  exact if_pos ⟨hc, ht⟩

/-! ### A period boundary (R168, R309) -/

theorem exec_beltPeriodBoundary_metered {c : Fin 6} (s : State) (h : c ≠ 0) : exec (.beltPeriodBoundary c) s =
    .next { (beltBoundary c s).2.foldl runItem (beltBoundary c s).1 with pending := s.pending } := by
  show execBeltPeriodBoundary c s = _
  unfold execBeltPeriodBoundary
  dsimp only
  rw [if_neg fun h0 : c.val = 0 => h (Fin.ext h0), keepQueue_done]

/-! ### A write of an activity entry (R313) -/

section Write

variable {s : State} {a : Nat} {v : Word}

theorem wrAct_rejected (h : actReject s a (s.act a) (actWritten a v (s.act a)).1 ≠ 0) : wrAct a v s = { s with belt := { s.belt with
    errEnt := BitVec.ofNat 8 a, errCode := BitVec.ofNat 3 (actReject s a (s.act a) (actWritten a v (s.act a)).1) } } := by
  unfold wrAct
  dsimp only
  rw [if_pos h, if_pos h]

theorem wrAct_applied (h : actReject s a (s.act a) (actWritten a v (s.act a)).1 = 0) :
    wrAct a v s = ({ s with belt := { s.belt with
      errEnt := BitVec.ofNat 8 a, errCode := if (actWritten a v (s.act a)).2 then 5 else 0 } } : State).setAct a
        { (actWritten a v (s.act a)).1 with
          bad := false, sc := if (s.act a).cls ≠ (actWritten a v (s.act a)).1.cls then [] else (actWritten a v (s.act a)).1.sc } := by
  unfold wrAct
  dsimp only
  rw [if_neg (not_not_intro h), if_neg (not_not_intro h)]
  cases (actWritten a v (s.act a)).2 <;> rfl

end Write

theorem exec_actCfgWrite {s : State} {w : Agent} (a : Fin 256) (v : Word) (hw : agentRuns s w = true) :
    exec (.actCfgWrite w a v) s = .next { wrAct a v s with pending := s.pending } := by
  show keepQueue s (sentBy w s (done (wrAct a v s))) = _
  rw [sentBy_runs hw, keepQueue_done]

/-- Settles O45: a charge by the activity it matches and what that one covers, a write of an entry by the rejection it meets. -/
theorem beltChargesAndPeriods : Obligations.BeltChargesAndPeriods := by
  unfold Obligations.BeltChargesAndPeriods
  refine ⟨fun s i h => exec_beltCharge (beltCharge_unmatched _ _ h), fun s i a h hb hc => exec_beltCharge (beltCharge_covered _ h hb hc),
    fun s i a h hn => exec_beltCharge (beltCharge_holds _ h hn), fun s i a => keepQueue_done _ _, fun s i n hl hc ht => itemWhat_txn hl hc ht,
    fun s c hc => exec_beltPeriodBoundary_metered s hc, fun s => keepQueue_done _ _, ?rejected, ?applied⟩
  case rejected =>
    intro s w a v hw h
    rw [exec_actCfgWrite a v hw, wrAct_rejected h]
  case applied =>
    intro s w a v hw h
    rw [exec_actCfgWrite a v hw, wrAct_applied h]
    rfl

end Sys2Proof.Machine

/-! # The interleave of the DRAM channels (R192)

An offset's grain number gives its channel by the remainder and its grain there by the quotient; the channel's place in the list gives
the remainder back. -/

namespace Sys2Proof.Machine

open Sys2Proof

/-- In a list without repetition, as many elements stand before an element as its place says. -/
theorem length_takeWhile_ne_getElem {l : List Nat} (hn : l.Nodup) {i : Nat} (hi : i < l.length) :
    (l.takeWhile (· ≠ l[i])).length = i := by
  have hidx : l.findIdx (fun a => !decide (a ≠ l[i])) = l.idxOf l[i] := by
    simp only [List.idxOf]
    congr 1
    funext a
    by_cases h : a = l[i] <;> simp [h]
  rw [List.takeWhile_eq_take_findIdx_not, hidx, hn.idxOf_getElem i hi, List.length_take, Nat.min_eq_left (Nat.le_of_lt hi)]

theorem interleave_eq {g : Nat} {l : List Nat} (off : Nat) (hi : off / g % l.length < l.length) :
    interleave g l off = (l[off / g % l.length], off / g / l.length * g + off % g) := by
  simp only [interleave, List.getD_eq_getElem?_getD, List.getElem?_eq_getElem hi, Option.getD_some]

/-- Settles O33: the quotients and remainders of `interleave` are those from which `unleave` rebuilds the offset. -/
theorem interleaveIsInvertible : Obligations.InterleaveIsInvertible := by
  intro g l off hg hn hl
  have hlen : 0 < l.length := List.length_pos_iff.mpr hl
  have hi : off / g % l.length < l.length := Nat.mod_lt _ hlen
  have hrem : off % g < g := Nat.mod_lt _ hg
  rw [interleave_eq off hi]
  refine ⟨List.getElem_mem hi, ?_⟩
  have hdiv : (off / g / l.length * g + off % g) / g = off / g / l.length := by
    rw [Nat.add_comm, Nat.add_mul_div_right _ _ hg, Nat.div_eq_of_lt hrem, Nat.zero_add]
  have hmod : (off / g / l.length * g + off % g) % g = off % g := by
    rw [Nat.add_comm, Nat.add_mul_mod_self_right, Nat.mod_eq_of_lt hrem]
  calc unleave g l l[off / g % l.length] (off / g / l.length * g + off % g)
      = (off / g / l.length * l.length + off / g % l.length) * g + off % g := by
        rw [unleave, hdiv, hmod, length_takeWhile_ne_getElem hn hi]
    _ = off := by rw [Nat.div_add_mod', Nat.div_add_mod']

end Sys2Proof.Machine

/-! # The bring-up of the DRAM channels and the lock of the map (R186 to R191, R194)

A step's end by the step that the channel is in, an overrun by the step and the attempts made, a write of the map by its lock and by
the validation. -/

namespace Sys2Proof.Machine

open Sys2Proof

/-! ### The end of a step (R188, Table 8.3) -/

section StepDone

variable {s : State} {n : ChanId} {x : DimmSpd}

theorem exec_dramStepDone_spds (h : (s.chan n).step = 2) (hx : (s.chan n).dpc.toNat ≤ x.dimms.length) : exec (.dramStepDone n x) s =
    .next (s.setChan n { s.chan n with spd := ⟨x.dimms.take (s.chan n).dpc.toNat, 0⟩, step := 3 }) := by
  show execDramStepDone n x s = _
  simp only [execDramStepDone, h, if_neg (Nat.not_lt.mpr hx)]
  rfl

theorem exec_dramStepDone_noSpd (h : (s.chan n).step = 2) (hx : x.dimms.length < (s.chan n).dpc.toNat) :
    exec (.dramStepDone n x) s = .next { chFail n 1 s with pending := s.pending } := by
  show execDramStepDone n x s = _
  simp only [execDramStepDone, h, if_pos hx, keepQueue_done]

theorem exec_dramStepDone_notAccepted (h : (s.chan n).step = 3) (hc : configCause (s.chan n).spd.dimms ≠ 0) :
    exec (.dramStepDone n x) s = .next { chFail n (configCause (s.chan n).spd.dimms) s with pending := s.pending } := by
  show execDramStepDone n x s = _
  simp only [execDramStepDone, h, if_pos hc, keepQueue_done]

theorem exec_dramStepDone_accepted {d : Dimm} {l : List Dimm} (h : (s.chan n).step = 3) (hc : configCause (s.chan n).spd.dimms = 0)
    (hd : (s.chan n).spd.dimms = d :: l) : exec (.dramStepDone n x) s = .next (s.setChan n { s.chan n with
      step := 4
      cap := BitVec.ofNat 10 ((d :: l).foldl (fun a d => a + d.gib) 0)
      lranks := BitVec.ofNat 4 ((d :: l).foldl (fun a d => a + d.ranks * d.stack) 0)
      width := if d.width = 8 then 1 else 0
      dens := if d.dens = 24 then 1 else if d.dens = 32 then 2 else 0 }) := by
  show execDramStepDone n x s = _
  simp only [execDramStepDone, h, if_neg (not_not_intro hc)]
  simp only [hd]
  rfl

theorem exec_dramStepDone_trains (h4 : 4 ≤ (s.chan n).step) (h6 : (s.chan n).step ≤ 6) :
    exec (.dramStepDone n x) s = .next (s.setChan n { s.chan n with step := (s.chan n).step + 1 }) := by
  have h : (s.chan n).step = 4 ∨ (s.chan n).step = 5 ∨ (s.chan n).step = 6 := by omega
  show execDramStepDone n x s = _
  rcases h with h | h | h <;> simp only [execDramStepDone, h] <;> rfl

theorem exec_dramStepDone_rate (h : (s.chan n).step = 7) : exec (.dramStepDone n x) s = .next { chCapr n (s.setChan n { s.chan n with
    step := 8, state := 2, rate := BitVec.ofNat 8 (chRate (s.chan n).spd.dimms), oscLim := x.oscLim }) with pending := s.pending } := by
  show execDramStepDone n x s = _
  simp only [execDramStepDone, h, keepQueue_done, modChan_eq]

theorem exec_dramStepDone_ready (h : (s.chan n).step = 8) : exec (.dramStepDone n x) s =
    .next { chLoad (s.setChan n { s.chan n with step := 0, state := 3, pz := [] }) with pending := s.pending } := by
  show execDramStepDone n x s = _
  simp only [execDramStepDone, h, keepQueue_done, modChan_eq]

end StepDone

/-! ### An overrun or a failure of a step (R189) -/

section StepTimeout

variable {s : State} {n : ChanId} {w : DramFail}

theorem exec_dramStepTimeout_spd (h : (s.chan n).step = 2) :
    exec (.dramStepTimeout n w) s = .next { chFail n 1 s with pending := s.pending } := by
  show execDramStepTimeout n w s = _
  simp [execDramStepTimeout, h]

theorem exec_dramStepTimeout_again (h : 5 ≤ (s.chan n).step) (ha : (s.chan n).attempt < 3) : exec (.dramStepTimeout n w) s =
    .next (s.setChan n { s.chan n with step := 5, attempt := (s.chan n).attempt + 1, state := 1, rate := 0 }) := by
  obtain ⟨h0, h2, h3, h4⟩ : (s.chan n).step ≠ 0 ∧ (s.chan n).step ≠ 2 ∧ (s.chan n).step ≠ 3 ∧ (s.chan n).step ≠ 4 := by omega
  show execDramStepTimeout n w s = _
  simp only [execDramStepTimeout, h0, h2, h3, h4, ha, if_false, if_true]
  rfl

theorem exec_dramStepTimeout_last (h : 5 ≤ (s.chan n).step) (ha : 3 ≤ (s.chan n).attempt) :
    exec (.dramStepTimeout n w) s = .next { chFail n 4 s with pending := s.pending } := by
  obtain ⟨h0, h2, h3, h4⟩ : (s.chan n).step ≠ 0 ∧ (s.chan n).step ≠ 2 ∧ (s.chan n).step ≠ 3 ∧ (s.chan n).step ≠ 4 := by omega
  show execDramStepTimeout n w s = _
  simp only [execDramStepTimeout, h0, h2, h3, h4, Nat.not_lt.mpr ha, if_false, keepQueue_done]

end StepTimeout

/-- A check of the drift of a ready channel (R190). -/
theorem exec_dqsOscCheck_ready {s : State} {n : ChanId} (x : Nat) (h : (s.chan n).state = 3) : exec (.dqsOscCheck n x) s =
    .next (if (s.chan n).oscLim < x then s.setChan n { s.chan n with updTil := s.time + 200 } else s) := by
  show execDqsOscCheck n x s = _
  by_cases hx : (s.chan n).oscLim < x
  · rw [if_pos hx]
    exact congrArg (keepQueue s) (if_pos ⟨h, hx⟩)
  · rw [if_neg hx]
    exact congrArg (keepQueue s) (if_neg fun hc => hx hc.2)

/-! ### A write of the map (R191, R194) -/

section Map

variable {s : State} {v : Word}

theorem exec_dramMapLock {a : Agent} (hw : agentRuns s a = true) :
    exec (.dramMapLock a v) s = .next { wrDramMap v s with pending := s.pending } := by
  show keepQueue s (sentBy a s (done (wrDramMap v s))) = _
  rw [sentBy_runs hw, keepQueue_done]

theorem wrDramMap_locked (h : s.dram.mapLock = true) : wrDramMap v s = s := if_pos h

variable (h : s.dram.mapLock = false) (hv : bit v 63 = true)
include h hv

theorem wrDramMap_bad (he : mapValidate s (fld v 28 12) (bit v 9) ≠ 0) :
    wrDramMap v s = { s with dram := { s.dram with mapErr := BitVec.ofNat 3 (mapValidate s (fld v 28 12) (bit v 9)) } } := by
  simp only [wrDramMap, h, hv, if_pos he, Bool.false_eq_true, if_false, if_true]

theorem wrDramMap_locks (hl : s.dram.chLoaded = true) (hg : (fld v 2 3).toNat < 5) (he : mapValidate s (fld v 28 12) (bit v 9) = 0) :
    wrDramMap v s = addressPoison { s with dram := { s.dram with
      chmask := fld v 28 12, pwben := bit v 9, ilen := bit v 8, grain := fld v 2 3, order := fld v 0 2, mapLock := true, mapErr := 0
      top := BitVec.ofNat 52 (0x100000000 + ((upto 12).filter fun n => (fld v 28 12).getLsbD n).foldl
        (fun a n => a + (s.chan n).cap.toNat * 0x40000000) 0) } } := by
  simp only [wrDramMap, h, hv, hl, if_pos hg, if_neg (Nat.not_le.mpr hg), if_neg (not_not_intro he), Bool.false_eq_true, if_false, if_true,
    mapList]

end Map

/-- Settles O32: a step's end and an overrun by the step, a write of the map by its lock and the validation. -/
theorem dramBringUpAndMap : Obligations.DramBringUpAndMap := by
  unfold Obligations.DramBringUpAndMap
  refine ⟨fun s d => keepQueue_done _ _, fun s d h => fillFree_full h, fun s n x => exec_dramStepDone_spds, fun s n x => exec_dramStepDone_noSpd,
    fun s n x => exec_dramStepDone_notAccepted, fun s n x d l => exec_dramStepDone_accepted, ?trains, fun s n x => exec_dramStepDone_rate,
    fun s n x => exec_dramStepDone_ready, fun s n w => exec_dramStepTimeout_spd, fun s n w => exec_dramStepTimeout_again,
    fun s n w => exec_dramStepTimeout_last, fun s n x => exec_dqsOscCheck_ready x, ?locked, ?bad, ?locks⟩
  case trains =>
    rintro s n x _ rfl
    exact exec_dramStepDone_trains
  case locked =>
    intro s a v hw h
    rw [exec_dramMapLock hw, wrDramMap_locked h]
  case bad =>
    intro s a v hw h hv he
    rw [exec_dramMapLock hw, wrDramMap_bad h hv he]
  case locks =>
    intro s a v hw h hv hl hg he
    rw [exec_dramMapLock hw, wrDramMap_locks h hv hl hg he]

end Sys2Proof.Machine

/-! # Requests at a DRAM channel, its refresh and its scrub (R197, R200, R201, R203, R206, R207)

A request by the state of its channel and the room in its queue, a refresh by the hits that wait for its rows, an activate by its
row's entry in the table. -/

namespace Sys2Proof.Machine

open Sys2Proof

/-! ### Requests (R197) -/

section Request

variable {s : State} {n : ChanId} {q : DramReq}

theorem exec_dramRequest_notReady (h : (s.chan n).state ≠ 3) : exec (.dramRequest n q) s = .next { s with answer := .error } :=
  congrArg (keepQueue s) (if_pos h)

theorem exec_dramRequest_full (h : (s.chan n).state = 3)
    (hf : 64 ≤ (if q.wr.isNone then (s.chan n).rq else (s.chan n).wq).length) : exec (.dramRequest n q) s = .next s :=
  congrArg (keepQueue s) ((if_neg (not_not_intro h)).trans (if_pos hf))

theorem exec_dramRequest_joins (h : (s.chan n).state = 3)
    (hr : (if q.wr.isNone then (s.chan n).rq else (s.chan n).wq).length < 64) : exec (.dramRequest n q) s =
      .next { serveAll n 128 (forward n (startService n
        (s.setChan n { s.chan n with reqs := (s.chan n).reqs ++ [⟨q, s.time⟩] }))) with pending := s.pending } :=
  congrArg (keepQueue s) ((if_neg (not_not_intro h)).trans (if_neg (Nat.not_le.mpr hr)))

theorem exec_dramReadAgeExpire_serves {i : Nat} (h : issues s n = true) (hi : firstIdx isRead (s.chan n).reqs = some i) :
    exec (.dramReadAgeExpire n) s = .next { serveAll n 128 (serveAt n 128 i (startService n s)) with pending := s.pending } := by
  show execDramReadAgeExpire n s = _
  simp only [execDramReadAgeExpire, h, if_true, hi, keepQueue_done]

theorem exec_dramReadAgeExpire_waits (h : issues s n = false) : exec (.dramReadAgeExpire n) s = .next s := by
  show execDramReadAgeExpire n s = _
  simp only [execDramReadAgeExpire, h, Bool.false_eq_true, if_false, keepQueue_done]

end Request

/-- A write is served after the oldest request of its line that arrived before it. -/
theorem serveAt_write_waits {s : State} {n i j : Nat} (f : Nat) {e : DQEnt} {w : BitVec 64 × BitVec 512 × Bool}
    (he : (s.chan n).reqs[i]? = some e) (hw : e.rq.wr = some w)
    (hj : firstIdx (fun x : DQEnt => x.rq.loc == e.rq.loc) ((s.chan n).reqs.take i) = some j) :
    serveAt n (f + 1) i s = serveAt n f (i - 1) (serveAt n f j s) := by
  simp only [serveAt, he, hw, hj]

theorem serveAll_waits {s : State} {n : Nat} (f : Nat) (h : issues s n = false) : serveAll n f s = s := by
  cases f with
  | zero => rfl
  | succ f => rw [serveAll, if_pos h]

/-! ### Refresh (R200, R203) -/

section Refresh

variable {s : State} {n : ChanId} {rk : Fin 8} {b : Fin 4}

theorem not_refreshBlocked (h : (s.chan n).state = 3) (hs : selfRefresh s n = false) : ¬ ((s.chan n).state ≠ 3 ∨ selfRefresh s n = true) := by
  simp [h, hs]

theorem exec_refsbDue_closes (h : (s.chan n).state = 3) (hs : selfRefresh s n = false)
    (hw : hitsWait (s.modChan n applyTh) n rk b = false) : exec (.refsbDue n rk b) s =
      .next ((s.modChan n applyTh).modChan n fun c => { c with
        postp := tabSet c.postp 0 (4 * rk.val + b.val) 0
        openRow := c.openRow.filter fun e => !keyIn rk b e.1
        raa := (c.raa.map fun e => if keyIn rk b e.1 then (e.1, e.2 - raaOf c rk) else e).filter fun e => e.2 ≠ 0 }) := by
  show execRefsbDue n rk b s = _
  simp only [execRefsbDue, if_neg (not_refreshBlocked h hs), hw, Bool.false_and, Bool.false_eq_true, if_false]
  rfl

theorem exec_refsbDue_postpones (h : (s.chan n).state = 3) (hs : selfRefresh s n = false)
    (hw : hitsWait (s.modChan n applyTh) n rk b = true)
    (hk : tabGet ((s.modChan n applyTh).chan n).postp 0 (4 * rk.val + b.val) < 4) : exec (.refsbDue n rk b) s =
      .next ((s.modChan n applyTh).modChan n fun c => { c with
        postp := tabSet c.postp 0 (4 * rk.val + b.val) (tabGet ((s.modChan n applyTh).chan n).postp 0 (4 * rk.val + b.val) + 1) }) := by
  show execRefsbDue n rk b s = _
  simp only [execRefsbDue, if_neg (not_refreshBlocked h hs), hw, hk, decide_true, Bool.and_self, if_true]
  rfl

end Refresh

/-! ### Temperature (R200) -/

section Temperature

variable {s : State} {n : ChanId} {v : BitVec 8}

theorem exec_dimmTempSample_noRecord (h : v.toNat ≤ 95 ∨ (s.chan n).hotRec = true) : exec (.dimmTempSample n (some v)) s =
    .next (s.setChan n { s.chan n with temp := v, fast := decide (85 < v.toNat), hotRec := decide (95 < v.toNat) }) := by
  have hno : ¬ (decide (95 < v.toNat) && !(s.chan n).hotRec) = true := by
    rcases h with h | h
    · simp only [decide_eq_false (Nat.not_lt.mpr h), Bool.false_and, Bool.false_eq_true, not_false_eq_true]
    · simp only [h, Bool.not_true, Bool.and_false, Bool.false_eq_true, not_false_eq_true]
  exact congrArg (keepQueue s) (if_neg hno)

theorem exec_dimmTempSample_record (h : 95 < v.toNat) (hr : (s.chan n).hotRec = false) : exec (.dimmTempSample n (some v)) s =
    .next (report (mkReport (0x4000 + n) 0 0x031 false 8 (leBytes 1 n ++ leBytes 1 v.toNat))
      (s.setChan n { s.chan n with temp := v, fast := decide (85 < v.toNat), hotRec := decide (95 < v.toNat) })) := by
  have hyes : (decide (95 < v.toNat) && !(s.chan n).hotRec) = true := by simp [h, hr]
  exact congrArg (keepQueue s) (if_pos hyes)

end Temperature

/-! ### The patrol scrub (R206, R207) -/

/-- A codeword that no error meets is good. -/
theorem eccOf_nil (c : Chan) : eccOf c [] = .ok := by
  simp [eccOf]

theorem exec_patrolScrubRead_clean {s : State} {n : ChanId} (he : s.dram.scrubEn = true) (hi : issues s n = true) (hp : s.pls.pf = false) :
    exec (.patrolScrubRead n []) s =
      .next ((s.modChan n (openFor (placeOf (orderOf s) (s.chan n) (s.chan n).scrubPos))).modChan n fun c =>
        { c with scrubPos := if (s.chan n).cap.toNat * 0x1000000 ≤ c.scrubPos + 1 then 0 else c.scrubPos + 1 }) := by
  show execPatrolScrubRead n [] s = _
  simp only [execPatrolScrubRead, he, hi, hp, Bool.not_true, Bool.or_self, Bool.false_eq_true, if_false, eccOf_nil, eccRead, eccLocal]
  cases dramPhys s n (64 * (s.chan n).scrubPos) <;> rfl

/-! ### The activate counts (R201) -/

/-- An activate adds an entry for its row while there is room, or counts in a place that the table has: the row's own, or the one
that the row takes over. -/
theorem actTable_cases (r : Nat) (l : List (Nat × Nat)) : (actTable r l = (l ++ [(r, 1)], 1) ∧ l.length < 32) ∨
    ∃ i k, actTable r l = (setAt l i (r, k + 1), k + 1) := by
  unfold actTable
  split
  case h_1 => exact .inr ⟨_, _, rfl⟩
  case h_2 =>
    split
    · exact .inl ⟨rfl, ‹_›⟩
    · exact .inr ⟨_, _, rfl⟩

theorem actTable_bounded (r : Nat) {l : List (Nat × Nat)} (hl : l.length ≤ 32) :
    (actTable r l).1.length ≤ 32 ∧ l.length ≤ (actTable r l).1.length ∧ 1 ≤ (actTable r l).2 := by
  obtain ⟨h, hroom⟩ | ⟨i, k, h⟩ := actTable_cases r l
  · have hlen : (l ++ [(r, 1)]).length = l.length + 1 := List.length_append
    simp only [h, hlen]
    omega
  · have hlen : (setAt l i (r, k + 1)).length = l.length := List.length_set
    simp only [h, hlen]
    omega

/-- Settles O34: a request by its channel and its queue, a refresh by the hits that wait, an activate by its row's entry. -/
theorem dramServiceAndProtection : Obligations.DramServiceAndProtection := by
  unfold Obligations.DramServiceAndProtection
  refine ⟨fun s n q => exec_dramRequest_notReady, fun s n q => exec_dramRequest_full, fun s n q => exec_dramRequest_joins,
    fun s n i => exec_dramReadAgeExpire_serves, fun s n => exec_dramReadAgeExpire_waits, fun s n f i j e w => serveAt_write_waits f,
    fun s n f => serveAll_waits f, fun s n rk b => exec_refsbDue_closes, ?postpones, fun s n => keepQueue_done _ _,
    fun s n v => exec_dimmTempSample_noRecord, fun s n v => exec_dimmTempSample_record, fun s => keepQueue_done _ _,
    fun s n => exec_patrolScrubRead_clean, fun r l => actTable_bounded r⟩
  case postpones =>
    rintro s n rk b _ h hs hw rfl hk
    exact exec_refsbDue_postpones h hs hw hk

end Sys2Proof.Machine

/-! # CXL decoders and the isolation of links (R211, R213)

A write of RANGE by whether the decoder is committed, then by the bit COMMIT written and by the validation; a timeout or a lost link by
whether the link carries CXL memory. -/

namespace Sys2Proof.Machine

open Sys2Proof

/-! ### A write of RANGE (R211) -/

theorem exec_cxlDecCommit {s : State} {a : Agent} (k : Fin 16) (v : Word) (hw : agentRuns s a = true) :
    exec (.cxlDecCommit a k v) s = .next { wrCxlRange k v s with pending := s.pending } := by
  show keepQueue s (sentBy a s (done (wrCxlRange k v s))) = _
  rw [sentBy_runs hw, keepQueue_done]

theorem exec_cxlDecDecommit {s : State} {a : Agent} (k : Fin 16) (v : Word) (hw : agentRuns s a = true) :
    exec (.cxlDecDecommit a k v) s = .next { wrCxlRange k (v &&& 0x7FFFFFFFFFFFFFFF) s with pending := s.pending } := by
  show keepQueue s (sentBy a s (done (wrCxlRange k (v &&& 0x7FFFFFFFFFFFFFFF) s))) = _
  rw [sentBy_runs hw, keepQueue_done]

/-- A decoder with the fields that a write of RANGE names; an encoding that is reserved leaves its field. -/
def rangeFields (d : CxlDec) (v : Word) : CxlDec := { d with
  iw := if (fld v 60 3).toNat < 4 then fld v 60 3 else d.iw, ig := if fld v 57 3 = 7 then d.ig else fld v 57 3
  limit := fld v 32 24, base := fld v 0 24 }

section Range

variable {s : State} {k : Nat} {v : Word}

theorem wrCxlRange_commits (h : (s.dec k).commit = false) (hv : bit v 63 = true) (hi : (fld v 60 3).toNat < 4) (hg : fld v 57 3 ≠ 7)
    (hc : commitOk s k (rangeFields (s.dec k) v) = true) :
    wrCxlRange k v s = s.setDec k { rangeFields (s.dec k) v with commit := true, err := 0 } := by
  have hok : (decide ((fld v 60 3).toNat < 4) && decide (fld v 57 3 ≠ 7) && commitOk s k (rangeFields (s.dec k) v)) = true := by
    simp only [decide_eq_true hi, decide_eq_true hg, hc, Bool.and_self]
  simp only [wrCxlRange, h, hv, Bool.false_eq_true, if_false, if_true]
  exact if_pos hok

theorem wrCxlRange_rejects (h : (s.dec k).commit = false) (hv : bit v 63 = true) (hc : commitOk s k (rangeFields (s.dec k) v) = false) :
    wrCxlRange k v s = s.setDec k { s.dec k with err := 1 } := by
  have hno : ¬ (decide ((fld v 60 3).toNat < 4) && decide (fld v 57 3 ≠ 7) && commitOk s k (rangeFields (s.dec k) v)) = true := by
    simp [hc]
  simp only [wrCxlRange, h, hv, Bool.false_eq_true, if_false, if_true]
  exact if_neg hno

theorem wrCxlRange_keeps (h : (s.dec k).commit = true) (hv : bit v 63 = true) : wrCxlRange k v s = s := by
  simp only [wrCxlRange, h, hv, if_true]

theorem wrCxlRange_decommits (h : (s.dec k).commit = true) (hv : bit v 63 = false) : wrCxlRange k v s =
    endIsolation ((s.setDec k { s.dec k with commit := false }).modDram fun r => { r with recalls := r.recalls ++ [s.dec k] }) := by
  simp only [wrCxlRange, h, hv, Bool.false_eq_true, if_false, if_true]

end Range

/-- A decommit is a write with COMMIT clear. -/
theorem bit_commit_cleared (v : Word) : bit (v &&& 0x7FFFFFFFFFFFFFFF) 63 = false := by
  simp [bit]

/-! ### Isolation (R213) -/

section Isolation

variable {s : State} {t : Nat}

theorem isolate_enters (kind : Nat) (h : s.dram.cxlIso.getLsbD t = false) : isolate t kind s =
    report (mkReport (0x5000 + t) 3 0x032 false 8 (leBytes 1 (t / 4) ++ leBytes 1 (t % 4) ++ leBytes 1 kind))
      (s.modDram fun d => { d with cxlIso := setBit d.cxlIso t true, cxlRetr := setBit d.cxlRetr t false }) := if_neg (by simp [h])

theorem isolate_stays (kind : Nat) (h : s.dram.cxlIso.getLsbD t = true) : isolate t kind s = s := if_pos h

variable {p : PortId} {l : LinkId}

theorem exec_cxlMemTimeout_cxl (h : cxlLink s (4 * p + l) = true) :
    exec (.cxlMemTimeout p l) s = .next { isolate (4 * p + l) 0 s with pending := s.pending } := congrArg (keepQueue s) (if_pos h)

theorem exec_cxlMemTimeout_other (h : cxlLink s (4 * p + l) = false) : exec (.cxlMemTimeout p l) s = .next s :=
  congrArg (keepQueue s) (if_neg (by simp [h]))

theorem exec_cxlLinkDown_cxl (h : cxlLink s (4 * p + l) = true) : exec (.cxlLinkDown p l) s =
    .next { isolate (4 * p + l) 1 (s.modLink (4 * p + l) fun k => { k with up := false }) with pending := s.pending } :=
  congrArg (keepQueue s) (if_pos h)

theorem exec_cxlLinkDown_other (h : cxlLink s (4 * p + l) = false) :
    exec (.cxlLinkDown p l) s = .next (s.modLink (4 * p + l) fun k => { k with up := false }) :=
  congrArg (keepQueue s) (if_neg (by simp [h]))

end Isolation

/-- Settles O35: a write of RANGE by the decoder's state and the bit COMMIT, a timeout and a lost link by what the link carries. -/
theorem cxlMemoryDecodersAndIsolation : Obligations.CxlMemoryDecodersAndIsolation := by
  unfold Obligations.CxlMemoryDecodersAndIsolation
  dsimp only
  refine ⟨?commits, ?rejects, ?keeps, ?decommits, fun s _ => keepQueue_done _ _, ?timeout, ?noTimeout, fun s p l => exec_cxlLinkDown_cxl,
    fun s p l => exec_cxlLinkDown_other⟩
  case commits =>
    intro s a k v hw h hv hi hg hc
    rw [exec_cxlDecCommit k v hw, wrCxlRange_commits h hv hi hg hc]
    rfl
  case rejects =>
    intro s a k v hw h hv hc
    rw [exec_cxlDecCommit k v hw, wrCxlRange_rejects h hv hc]
    rfl
  case keeps =>
    intro s a k v hw h hv
    rw [exec_cxlDecCommit k v hw, wrCxlRange_keeps h hv]
  case decommits =>
    intro s a k v hw h
    rw [exec_cxlDecDecommit k v hw, wrCxlRange_decommits h (bit_commit_cleared v)]
  case timeout =>
    intro s p l h hi
    rw [exec_cxlMemTimeout_cxl h, isolate_enters 0 hi]
    rfl
  case noTimeout =>
    intro s p l h
    cases hl : cxlLink s (4 * p + l) with
    | false => exact exec_cxlMemTimeout_other hl
    | true => rw [exec_cxlMemTimeout_cxl hl, isolate_stays 0 (h.resolve_left (by simp [hl]))]

end Sys2Proof.Machine

/-! # Links, their containment, and the registers of the IOMMU (R213, R415, R422, R424, R426, R427)

A link trains where each condition on its port holds, a timeout takes the first request that waits on the link, a block set keeps the
bits outside the mask of its write. -/

namespace Sys2Proof.Machine

open Sys2Proof

/-! ### A link comes up (R426) -/

/-- The conditions under which a link trains: the package, its port, the width, the rate and the mode. -/
def LinkTrains (s : State) (p : PortId) (l : LinkId) (c : Bool) (w : BitVec 8) (v : BitVec 4) : Prop :=
  s.pins.inReset = false ∧ portOn s p = true ∧ (w.toNat ∈ [1, 2, 4, 8, 16] ∧ w.toNat ≤ linkLanes (s.port p).bifurF l) ∧
    (1 ≤ v.toNat ∧ v.toNat + (s.port p).rateF.toNat ≤ 6) ∧ (c = false ∨ (s.port p).cxlenF.getLsbD l = true)

section LinkUp

variable {s : State} {p : PortId} {l : LinkId} {c : Bool} {w : BitVec 8} {v : BitVec 4} (q : Bool)

/-- `execLinkUp` leaves a link untrained exactly where a condition fails. -/
theorem linkUp_refused_iff : (s.pins.inReset = true ∨ portOn s p = false ∨
    ([1, 2, 4, 8, 16].contains w.toNat && decide (w.toNat ≤ linkLanes (s.port p).bifurF l)) = false ∨
    decide (1 ≤ v.toNat ∧ v.toNat + (s.port p).rateF.toNat ≤ 6) = false ∨ (c = true ∧ (s.port p).cxlenF.getLsbD l = false)) ↔
      ¬ LinkTrains s p l c w v := by
  simp only [LinkTrains, Classical.not_and_iff_not_or_not, not_or, ← Bool.not_eq_true, Classical.not_not, Bool.and_eq_true, List.contains_iff_mem, decide_eq_true_eq]

theorem exec_linkUp_trains (h : LinkTrains s p l c w v) : exec (.linkUp p l c w v q) s =
    .next { cxlRetrained (4 * p.val + l.val) (s.modLink (4 * p.val + l.val) fun k => { k with
      up := true, cxl := c, noPoison := q, width := w, speed := v }) with pending := s.pending } :=
  congrArg (keepQueue s) (if_neg fun hr => linkUp_refused_iff.mp hr h)

theorem exec_linkUp_stays (h : ¬ LinkTrains s p l c w v) : exec (.linkUp p l c w v q) s = .next s :=
  congrArg (keepQueue s) (if_pos (linkUp_refused_iff.mpr h))

end LinkUp

/-! ### Requests that wait on a link (R426) -/

section Completion

variable {s : State} {p : PortId} {l : LinkId}

theorem exec_completionTimeout_none (h : waitsOn s p l = []) : exec (.completionTimeout p l) s = .next s := by
  show execCompletionTimeout p l s = _
  simp only [execCompletionTimeout, h, keepQueue_done]

theorem exec_completionTimeout_oldest {t : BitVec 12} {a : Agent} {n : Nat} {r : List (BitVec 12 × (Agent × Nat))}
    (h : waitsOn s p l = (t, (a, n)) :: r) : exec (.completionTimeout p l) s =
    .next { endIoError p l a t n ((s.modPort p fun x => { x with wait := x.wait.erase (t, (a, n)) }).modLink (4 * p.val + l.val)
      fun k => { k with ctocnt := satInc k.ctocnt }) with pending := s.pending } := by
  show execCompletionTimeout p l s = _
  simp only [execCompletionTimeout, h, keepQueue_done]

theorem exec_surpriseLinkDown_down (h : (s.link (4 * p.val + l.val)).up = false) : exec (.surpriseLinkDown p l) s = .next s :=
  congrArg (keepQueue s) (if_pos h)

theorem exec_surpriseLinkDown_up (h : (s.link (4 * p.val + l.val)).up = true) :
    let s1 := logAer p (contain p l (s.modLink (4 * p.val + l.val) fun k => { k with up := false }))
    exec (.surpriseLinkDown p l) s =
      .next { (if cxlLink s (4 * p.val + l.val) then isolate (4 * p.val + l.val) 1 s1 else s1) with pending := s.pending } :=
  congrArg (keepQueue s) (if_neg (by simp [h]))

theorem exec_dpcRelease {w : Agent} (hw : agentRuns s w = true) : exec (.dpcRelease w p l) s =
    .next (s.modLink (4 * p.val + l.val) fun k => { k with dpc := false }) := congrArg (keepQueue s) (sentBy_runs hw)

end Completion

/-! ### The IOMMU's registers (R422, R424) -/

section Iommu

variable {s : State} {w : Agent}

theorem exec_iommuCommandQueue (v : BitVec 32) (hw : agentRuns s w = true) : exec (.iommuCommandQueue w v) s =
    .next { cqRunAll (setIow 0x24 (BitVec.ofNat 32 (v.toNat % qSize s 0x18)) s) with pending := s.pending } :=
  congrArg (keepQueue s) (sentBy_runs hw)

/-- The bits that a write of register `r` of a block set may change (Table 17.6). -/
def blkMask (s : State) (r : Nat) (v : Word) : Word :=
  if r / 8 % 2 = 1 then 0xFFFFFF0FFFFFFFFF
  else cat [0x0000FFFFFFFF0001, if 16 ≤ r then 0x0003000000000000 else 0x10,
    if fld v 61 2 = 3 then 0 else 0x6000000000000000, if featOn s 0 || !bit v 60 then on 60 true else 0,
    if bit v 2 && !bit v 1 then 0 else 0xE]

theorem exec_iommuBlockWrite (n : Fin 64) (r : Fin 32) (v : Word) (hw : agentRuns s w = true) : exec (.iommuBlockWrite w n r v) s =
    .next { s with pcie := { s.pcie with iommu := { s.pcie.iommu with
      blk := tabSet s.pcie.iommu.blk 0 (32 * n + r) ((ioBlk s n r &&& ~~~blkMask s r v) ||| (v &&& blkMask s r v))
      tlb := s.pcie.iommu.tlb.filter fun e => e.bset != some n.val } } } := by
  refine (congrArg (keepQueue s) (sentBy_runs hw)).trans ?_
  simp only [wrIommuBlk, blkMask, decide_eq_true_eq, keepQueue_done]

/-- A field outside the mask of a write keeps its value. -/
theorem fld_masked_clear {old v m : Word} {lo n : Nat} (h : fld m lo n = 0) : fld ((old &&& ~~~m) ||| (v &&& m)) lo n = fld old lo n := by
  ext i hi
  have hm : m.getLsbD (lo + i) = false := by simpa [fld, hi] using congrArg (·.getLsbD i) h
  simpa [fld, hm] using BitVec.lt_of_getLsbD

/-- A reserved mode is outside the mask. -/
theorem fld_blkMask_reserved {r : Nat} {v : Word} (hr : r / 8 % 2 = 0) (hv : fld v 61 2 = 3) : fld (blkMask s r v) 61 2 = 0 := by
  simp only [blkMask, hr, hv, if_true, if_neg Nat.zero_ne_one]
  repeat' split
  all_goals rfl

theorem blkMask_address {r : Nat} (v : Word) (hr : r / 8 % 2 = 1) : blkMask s r v = 0xFFFFFF0FFFFFFFFF := if_pos hr

end Iommu

/-- Settles O60: a link by the conditions on its port, a timeout by what waits, a block set by the mask of its write. -/
theorem linksAndIommuRegisters : Obligations.LinksAndIommuRegisters := by
  unfold Obligations.LinksAndIommuRegisters
  refine ⟨?trains, ?stays, fun s p l => exec_completionTimeout_none, fun s p l t a n r => exec_completionTimeout_oldest,
    fun s p l => exec_surpriseLinkDown_down, fun s p l => exec_surpriseLinkDown_up, fun p l s => rfl, fun s w p l => exec_dpcRelease,
    fun s p => keepQueue_done _ _, fun s w v => exec_iommuCommandQueue v, ?block⟩
  case trains =>
    exact fun s p l c q w v hr hp hw hl h1 h6 hm => exec_linkUp_trains q ⟨hr, hp, ⟨hw, hl⟩, ⟨h1, h6⟩, hm⟩
  case stays =>
    intro s p l c q w v h
    refine exec_linkUp_stays q ?_
    rintro ⟨hr, hp, ⟨hw, hl⟩, ⟨h1, h6⟩, hm⟩
    rcases h with h | h | h | h | rfl | h | ⟨hc, h⟩
    · exact Bool.false_ne_true (hr.symm.trans h)
    · exact Bool.false_ne_true (h.symm.trans hp)
    · exact h hw
    · omega
    · exact absurd h1 (by decide)
    · omega
    · exact hm.elim (fun hf => Bool.false_ne_true (hf.symm.trans hc)) fun ht => Bool.false_ne_true (h.symm.trans ht)
  case block =>
    intro s w n r v hw
    refine ⟨_, exec_iommuBlockWrite n r v hw, fun hr => ?_, fun hr hv => fld_masked_clear (fld_blkMask_reserved hr hv)⟩
    rw [blkMask_address v hr]
    rfl

end Sys2Proof.Machine

/-! # Storage: enabling, disabling, and the ends of recovery and of a disable (R215, R265, R289, R295) -/

namespace Sys2Proof.Machine

open Sys2Proof

/-! ### Writes of EN -/

section StorWrite

variable {s : State} {a : Agent} {v : Word}

theorem exec_storEnable (m : MediaFacts) (ha : agentRuns s a = true) (hv : bit v 63 = true) :
    exec (.storEnable a v m) s = .next { storEnable m s with pending := s.pending } :=
  congrArg (keepQueue s) ((sentBy_runs ha).trans (congrArg done (if_pos hv)))

theorem exec_storDisable (ha : agentRuns s a = true) (hv : bit v 63 = false) :
    exec (.storDisable a v) s = .next { storDisable s with pending := s.pending } :=
  congrArg (keepQueue s) ((sentBy_runs ha).trans (congrArg done (if_neg (by simp [hv]))))

/-- In a state that an enable does not leave, its write changes nothing. -/
theorem storEnable_stays (m : MediaFacts) (h : s.stor.st = 1 ∨ s.stor.st = 2 ∨ s.stor.st = 8) : storEnable m s = s := by
  refine if_neg ?_
  rcases h with h | h | h <;> rw [h] <;> decide

/-- With storage off and a condition unmet, ST takes the refusal's code (Table 9.2). -/
theorem storEnable_refused (m : MediaFacts) (h : s.stor.st = 0) (hr : enableRefusal s ≠ 0) :
    storEnable m s = { s with stor := { s.stor with st := BitVec.ofNat 4 (enableRefusal s) } } := by
  unfold storEnable
  rw [if_pos (.inl h)]
  split
  · next h0 => exact absurd h0 hr
  · rfl

theorem storDisable_busy (h : s.stor.st = 2) (hp : ∃ e ∈ s.stor.pairs, e.2.en = true) :
    storDisable s = { s with stor := { s.stor with dref := true } } :=
  (if_pos h).trans (if_pos (List.any_eq_true.mpr hp))

theorem storDisable_starts (h : s.stor.st = 2) (hp : ∀ e ∈ s.stor.pairs, e.2.en = false) :
    storDisable s = { s with stor := { s.stor with en := false, st := 8, dref := false } } :=
  (if_pos h).trans (if_neg (by simpa using hp))

theorem storDisable_stays (h : s.stor.st ≠ 2) : storDisable s = s := if_neg h

end StorWrite

/-- Settles O37: a write of EN by the state that it finds and the conditions met, an end by the slots that are left. -/
theorem storageEnableAndRecovery : Obligations.StorageEnableAndRecovery := by
  unfold Obligations.StorageEnableAndRecovery
  refine ⟨?refused, ?starts, ?stays, ?busy, ?disables, ?disableStays, ?failed, ?waits, ?recovers, ?ends, ?notYet⟩
  case refused =>
    intro s a v m ha hv h hr
    rw [exec_storEnable m ha hv, storEnable_refused m h hr]
  case starts =>
    intro s a v m ha hv h hr
    rw [exec_storEnable m ha hv, storEnable, if_pos (.inl h), hr]
    rfl
  case stays =>
    intro s a v m ha hv h
    rw [exec_storEnable m ha hv, storEnable_stays m h]
  case busy =>
    intro s a v ha hv h hp
    rw [exec_storDisable ha hv, storDisable_busy h hp]
  case disables =>
    intro s a v ha hv h hp
    rw [exec_storDisable ha hv, storDisable_starts h hp]
  case disableStays =>
    intro s a v ha hv h
    rw [exec_storDisable ha hv, storDisable_stays h]
  case failed =>
    exact fun s h hr => congrArg (keepQueue s) ((if_neg (not_not_intro h)).trans (if_pos hr))
  case waits =>
    exact fun s h hr hw => congrArg (keepQueue s)
      ((if_neg (not_not_intro h)).trans ((if_neg (not_not_intro hr)).trans (if_pos hw)))
  case recovers =>
    exact fun s h hr hw => congrArg (keepQueue s)
      ((if_neg (not_not_intro h)).trans ((if_neg (not_not_intro hr)).trans (if_neg (not_not_intro hw))))
  case ends => exact fun s h hw => congrArg (keepQueue s) (if_pos ⟨h, hw⟩)
  case notYet => exact fun s h => congrArg (keepQueue s) (if_neg fun ⟨h8, hw⟩ => h.elim (· h8) (· hw))

end Sys2Proof.Machine

/-! # Queue pairs (R218 to R223, R233, R235, R241, R302)

A register of a pair's page has its effect where the sender runs and its TID may use the page; each effect is then a case of the pair's
enable, its state and the room in its queues. -/

namespace Sys2Proof.Machine

open Sys2Proof

/-! ### CFG (R218) -/

section Cfg

variable {s : State} {a : Agent} {q : QId} {v : Word}

theorem exec_sqcEnable (ha : agentRuns s a = true) : exec (.sqcEnable a q v) s = .next { wrSqcCfg q v s with pending := s.pending } :=
  congrArg (keepQueue s) (sentBy_runs ha)

theorem exec_sqcDisable (ha : agentRuns s a = true) : exec (.sqcDisable a q v) s = .next { wrSqcCfg q v s with pending := s.pending } :=
  congrArg (keepQueue s) (sentBy_runs ha)

theorem wrSqcCfg_refused (hv : bit v 63 = true) (h : enableCheck q v s ≠ 0) :
    wrSqcCfg q v s = s.setQp q { s.qp q with err := BitVec.ofNat 3 (enableCheck q v s) } := by
  unfold wrSqcCfg
  rw [if_pos hv]
  split
  · next h0 => exact absurd h0 h
  · rfl

theorem wrSqcCfg_resets (hv : bit v 63 = false) (he : (s.qp q).en = true) (hc : cfgDiffers v (s.qp q) = false) (hs : (s.qp q).state ≠ 2) :
    wrSqcCfg q v s = startReset q true true s := by
  simp only [wrSqcCfg, hv, he, hc, if_neg hs, if_true, Bool.false_eq_true, if_false]

theorem wrSqcCfg_off (hv : bit v 63 = false) (he : (s.qp q).en = false) : wrSqcCfg q v s = s.setQp q (cfgFields v (s.qp q)) := by
  simp only [wrSqcCfg, hv, he, Bool.false_eq_true, if_false]

end Cfg

/-! ### The page of a pair (R219) -/

section Page

variable {s : State} {a : Agent} {q : QId}

/-- A command to a pair's page that its sender may use. -/
theorem page_used {e r : Out} (ha : agentRuns s a = true) (hp : pageRefused s a q = false) :
    keepQueue s (sentBy a s (if pageRefused s a q then r else e)) = keepQueue s e := by
  rw [sentBy_runs ha, if_neg (by simp [hp])]

/-- A command to a pair's page that its sender may not use. -/
theorem page_refused {e : Out} {off : Nat} (ha : agentRuns s a = true) (hp : pageRefused s a q = true) :
    keepQueue s (sentBy a s (if pageRefused s a q then done (refusePage a q off s) else e)) =
      .next { refusePage a q off s with pending := s.pending } := by
  rw [sentBy_runs ha, if_pos hp, keepQueue_done]

/-- SQ.PUSH and SQ.PUSHEND differ in the end mark only. -/
theorem exec_push (e : Bool) (w : Word) (ha : agentRuns s a = true) (hp : pageRefused s a q = false) :
    exec (if e then .sqPushend a q w else .sqPush a q w) s = .next { sqPush q w e s with pending := s.pending } := by
  cases e <;> exact page_used ha hp

end Page

/-! ### Pushes (R221) -/

section Push

variable {s : State} {q : Nat} {w : Word} {e : Bool}

theorem sqPush_off (he : (s.qp q).en = false) : sqPush q w e s = s := if_pos he

theorem sqPush_overflows (he : (s.qp q).en = true) (h : (s.qp q).state = 2 ∨ sqWords (s.qp q) ≤ (s.qp q).sq.length) :
    sqPush q w e s = s.setQp q { s.qp q with ovf := true } := (if_neg (by simp [he])).trans (if_pos h)

theorem sqPush_appends (he : (s.qp q).en = true) (h2 : (s.qp q).state ≠ 2) (hl : (s.qp q).sq.length < sqWords (s.qp q)) :
    sqPush q w e s = s.setQp q { s.qp q with sq := (s.qp q).sq ++ [(w, e)] } :=
  (if_neg (by simp [he])).trans (if_neg (not_or.mpr ⟨h2, Nat.not_le.mpr hl⟩))

theorem qp_setQp_ne {k : Nat} (p : QPair) (h : k ≠ q) : (s.setQp q p).qp k = s.qp k := tabGet_set_ne _ _ _ _ _ h

end Push

/-! ### Every pair of a table -/

theorem mem_tabErase {α : Type} {k : Nat} {e : Nat × α} : ∀ {t : Tab α}, e ∈ tabErase k t → e ∈ t
  | [], h => h
  | f :: r, h => by
    unfold tabErase at h
    split at h
    · exact .tail _ h
    · rcases List.mem_cons.mp h with rfl | h
      · exact .head _
      · exact .tail _ (mem_tabErase h)

theorem mem_tabInsert {α : Type} {k : Nat} {v : α} {e : Nat × α} : ∀ {t : Tab α}, e ∈ tabInsert k v t → e = (k, v) ∨ e ∈ t
  | [], h => .inl (List.mem_singleton.mp h)
  | f :: r, h => by
    unfold tabInsert at h
    split at h
    · exact List.mem_cons.mp h
    · split at h
      · exact (List.mem_cons.mp h).imp_right (.tail _)
      · rcases List.mem_cons.mp h with rfl | h
        · exact .inr (.head _)
        · exact (mem_tabInsert h).imp_right (.tail _)

/-- The entries of a table after a write are the one written and earlier ones. -/
theorem mem_tabSet {α : Type} [DecidableEq α] {t : Tab α} {d v : α} {k : Nat} {e : Nat × α} (h : e ∈ tabSet t d k v) : e = (k, v) ∨ e ∈ t := by
  unfold tabSet at h
  split at h
  · exact .inr (mem_tabErase h)
  · exact mem_tabInsert h

/-- What a key reads as is the default or an entry's value. -/
theorem tabGet_mem {α : Type} (d : α) (k : Nat) : ∀ t : Tab α, tabGet t d k = d ∨ (k, tabGet t d k) ∈ t
  | [] => .inl rfl
  | e :: r => by
    by_cases h : k = e.1
    · subst h
      exact .inr (by rw [tabGet_cons_self]; exact .head _)
    · rw [tabGet_cons_ne r d h]
      exact (tabGet_mem d k r).imp_right (.tail _)

/-! ### The depth of the submission queues -/

/-- Every pair holds no more SQ words than its depth, and the pairs stand in rising order. -/
def QueuesWithinDepth (s : State) : Prop := tabRising s.stor.pairs = true ∧ ∀ p ∈ s.stor.pairs, p.2.sq.length ≤ sqWords p.2

section Depth

variable {s : State} {q : Nat}

/-- A pair is one of those listed, or has its reset value, with an empty SQ. -/
theorem sq_le_of_within (h : QueuesWithinDepth s) : (s.qp q).sq.length ≤ sqWords (s.qp q) := by
  rcases tabGet_mem QPair.reset q s.stor.pairs with hr | hm
  · rw [State.qp, hr]
    exact Nat.zero_le _
  · exact h.2 _ hm

theorem setQp_within {p : QPair} (h : QueuesWithinDepth s) (hp : p.sq.length ≤ sqWords p) : QueuesWithinDepth (s.setQp q p) := by
  refine ⟨tabRising_set _ _ _ _ h.1, fun e he => ?_⟩
  rcases mem_tabSet he with rfl | hm
  · exact hp
  · exact h.2 e hm

/-- A push leaves the pairs as they are, or writes the pair pushed to, with its SQ within its depth where it was. -/
theorem sqPush_cases (s : State) (q : Nat) (w : Word) (e : Bool) : sqPush q w e s = s ∨
    ∃ p : QPair, ((s.qp q).sq.length ≤ sqWords (s.qp q) → p.sq.length ≤ sqWords p) ∧ sqPush q w e s = s.setQp q p := by
  cases he : (s.qp q).en with
  | false => exact .inl (sqPush_off he)
  | true =>
    right
    by_cases hf : (s.qp q).state = 2 ∨ sqWords (s.qp q) ≤ (s.qp q).sq.length
    · exact ⟨{ s.qp q with ovf := true }, id, sqPush_overflows he hf⟩
    · obtain ⟨h2, hl⟩ := not_or.mp hf
      have hl := Nat.not_le.mp hl
      refine ⟨_, fun _ => ?_, sqPush_appends he h2 hl⟩
      rw [List.length_append]
      exact hl

theorem sqPush_within (w : Word) (e : Bool) (h : QueuesWithinDepth s) : QueuesWithinDepth (sqPush q w e s) := by
  rcases sqPush_cases s q w e with hs | ⟨p, hp, hs⟩ <;> rw [hs]
  · exact h
  · exact setQp_within h (hp (sq_le_of_within h))

theorem qp_sqPush_ne {k : Nat} (w : Word) (e : Bool) (hk : k ≠ q) : (sqPush q w e s).qp k = s.qp k := by
  rcases sqPush_cases s q w e with hs | ⟨p, -, hs⟩ <;> rw [hs]
  exact qp_setQp_ne p hk

end Depth

/-- Settles O39: a push writes at most the pair pushed to, and appends to its SQ only where there is room. -/
theorem storeQueuesKeepTheirDepth : Obligations.StoreQueuesKeepTheirDepth := by
  intro s t a q w e ha hr hd ht hp
  rw [exec_push e w ha hp] at ht
  cases ht
  obtain ⟨hr', hd'⟩ := sqPush_within (q := q) w e ⟨hr, hd⟩
  exact ⟨hr', hd', fun k hk => qp_sqPush_ne w e hk⟩

/-! ### Pops, marks and releases (R222, R223, R241) -/

section Pop

variable {s : State} {a : Agent} {q : QId}

/-- The pair after a pop that reads a word with the end mark `m`. -/
def poppedQp (p : QPair) (m : Bool) : QPair := { p with rp := p.rp + 1, em := m }

theorem cqPop_word {w : Word × Bool} (he : (s.qp q).en = true) (hw : (s.qp q).cq[(s.qp q).rp]? = some w) :
    cqPop q s = (s.setQp q (poppedQp (s.qp q) w.2), w.1) := by
  simp only [cqPop, he, if_true, hw, poppedQp]

theorem cqPop_empty (he : (s.qp q).en = true) (hr : (s.qp q).cq.length ≤ (s.qp q).rp) :
    cqPop q s = (s.setQp q { s.qp q with em := true }, idleItem) := by
  simp only [cqPop, he, if_true, List.getElem?_eq_none hr]

theorem cqHas_eq (he : (s.qp q).en = true) : cqHas s q = decide ((s.qp q).rp < (s.qp q).cq.length) := by
  simp only [cqHas, he, Bool.true_and]

/-- A pop that reads a word, by what the SRAM yields for it. -/
theorem exec_cqPop_word {w : Word × Bool} (ha : agentRuns s a = true) (hp : pageRefused s a q = false) (he : (s.qp q).en = true)
    (hw : (s.qp q).cq[(s.qp q).rp]? = some w) :
    let u := s.setQp q (poppedQp (s.qp q) w.2)
    exec (.cqPop a q .ok) s = .next (u.answerW w.1) ∧
    exec (.cqPop a q .ce) s = .next { (countVestCe 0 u).answerW w.1 with pending := s.pending } ∧
    exec (.cqPop a q .ue) s = .next { faultAgent a false (report (mkReport (0x7000 + q) 3 0x054 false 8 (leBytes 2 q))
      (queueUe (cqOffset (s.qp q) (s.qp q).rp) u)) with pending := s.pending } := by
  have hh : cqHas s q = true := (cqHas_eq he).trans (decide_eq_true (List.getElem?_eq_some_iff.mp hw).1)
  have hu := cqPop_word he hw
  refine ⟨?_, ?_, ?_⟩ <;> refine (page_used ha hp).trans ?_ <;> simp only [hh, if_true, hu] <;> rfl

theorem exec_cqPop_empty (z : EccResult) (ha : agentRuns s a = true) (hp : pageRefused s a q = false) (he : (s.qp q).en = true)
    (hr : (s.qp q).cq.length ≤ (s.qp q).rp) :
    exec (.cqPop a q z) s = .next ((s.setQp q { s.qp q with em := true }).answerW (BitVec.allOnes 64)) := by
  have hh : cqHas s q = false := (cqHas_eq he).trans (decide_eq_false (Nat.not_lt.mpr hr))
  refine (page_used ha hp).trans ?_
  simp only [hh, Bool.false_eq_true, if_false, cqPop_empty he hr]
  rfl

theorem exec_cqMark (ha : agentRuns s a = true) (hp : pageRefused s a q = false) (he : (s.qp q).en = true) :
    exec (.cqMark a q) s = .next (s.setQp q { s.qp q with mark := (s.qp q).rp }) :=
  (page_used ha hp).trans (congrArg (fun p => keepQueue s (done (s.setQp q p))) (if_pos he))

theorem exec_cqRewind (ha : agentRuns s a = true) (hp : pageRefused s a q = false) (he : (s.qp q).en = true) :
    exec (.cqRewind a q) s = .next (s.setQp q { s.qp q with rp := (s.qp q).mark }) :=
  (page_used ha hp).trans (congrArg (fun p => keepQueue s (done (s.setQp q p))) (if_pos he))

end Pop

/-! ### Resets and interrupts (R233, R235, R302) -/

section Reset

variable {s : State} {a : Agent} {q : QId}

theorem exec_queueReset (ha : agentRuns s a = true) (hp : pageRefused s a q = false) :
    exec (.queueReset a q) s = .next { wrQReset q false s with pending := s.pending } := page_used ha hp

theorem exec_queueResetDrop (ha : agentRuns s a = true) (hp : pageRefused s a q = false) :
    exec (.queueResetDrop a q) s = .next { wrQReset q true s with pending := s.pending } := page_used ha hp

theorem wrQReset_active (drop : Bool) (h : (s.qp q).state = 1) : wrQReset q drop s = startReset q drop false s := if_pos h

theorem wrQReset_stays (drop : Bool) (h : (s.qp q).state ≠ 1) : wrQReset q drop s = s := if_neg h

end Reset

/-- Settles O38: a CFG write by its check, a push by the room in the SQ, a pop by the word it reads, a reset by the pair's state. -/
theorem queuePairsAndTheirResets : Obligations.QueuePairsAndTheirResets := by
  unfold Obligations.QueuePairsAndTheirResets
  refine ⟨?enables, ?refused, ?disables, ?fields, ?page, ?appends, ?overflows, ?discards, ?pops, ?idle, ?marks, ?releases, ?resets,
    ?noReset, ?msi, ?noMsi⟩
  case enables =>
    intro s a q v ha hv h
    rw [exec_sqcEnable ha, wrSqcCfg, if_pos hv, h]
    rfl
  case refused =>
    intro s a q v ha hv h
    rw [exec_sqcEnable ha, wrSqcCfg_refused hv h]
    rfl
  case disables =>
    intro s a q v ha hv he hc hs
    rw [exec_sqcDisable ha, wrSqcCfg_resets hv he hc hs]
  case fields =>
    intro s a q v ha hv he
    rw [exec_sqcDisable ha, wrSqcCfg_off hv he]
    rfl
  case page => exact fun s a q w ha hp => ⟨page_refused ha hp, page_refused ha hp, fun e => page_refused ha hp⟩
  case appends =>
    intro s a q w ha hp he h2 hl
    have hpush (e : Bool) := (exec_push e w ha hp).trans (keepQueue_done_eq (sqPush_appends he h2 hl))
    exact ⟨hpush false, hpush true⟩
  case overflows =>
    intro s a q w ha hp he h
    have hpush (e : Bool) := (exec_push e w ha hp).trans (keepQueue_done_eq (sqPush_overflows he h))
    exact ⟨hpush false, hpush true⟩
  case discards =>
    intro s a q w ha hp he
    have hpush (e : Bool) := (exec_push e w ha hp).trans (keepQueue_done_eq (sqPush_off he))
    exact ⟨hpush false, hpush true⟩
  case pops => exact fun s a q w ha hp he hw => exec_cqPop_word ha hp he hw
  case idle => exact fun s a q z ha hp he hr => exec_cqPop_empty z ha hp he hr
  case marks => exact fun s a q ha hp he => ⟨exec_cqMark ha hp he, exec_cqRewind ha hp he⟩
  case releases => exact fun s a q ha hp he => (page_used ha hp).trans (keepQueue_done_eq (if_pos he))
  case resets =>
    intro s a q ha hp h
    rw [exec_queueReset ha hp, exec_queueResetDrop ha hp, wrQReset_active false h, wrQReset_active true h]
    exact ⟨rfl, rfl⟩
  case noReset =>
    intro s a q ha hp h
    rw [exec_queueReset ha hp, exec_queueResetDrop ha hp, wrQReset_stays false h, wrQReset_stays true h]
    exact ⟨rfl, rfl⟩
  case msi => exact fun s q hi hp => congrArg (keepQueue s) (if_pos ⟨hi, hp⟩)
  case noMsi =>
    intro s q h
    refine congrArg (keepQueue s) (if_neg ?_)
    rintro ⟨hi, hp⟩
    exact h.elim (by simp [hi]) hp

end Sys2Proof.Machine

/-! # Store commands: admission, the five commands and their completion (R224, R225, R228 to R230, R237, R238, R251, R253)

Admission goes by the queue that the arbiter picks and by the packet's first failure; a command acts where it is found, started and not
issued; it completes where it is ready, and takes a failure of the media engine first. -/

namespace Sys2Proof.Machine

open Sys2Proof

/-! ### Admission (R225, R229) -/

/-- A packet with every word read has the failure that the checks of Table 9.9 find. -/
theorem firstFailure_of_read {ue : List (Fin 8)} {f : Option Nat} (h : ue = []) : (if ue ≠ [] then some scQueueData else f) = f :=
  if_neg (not_not_intro h)

/-! ### The commands that have started -/

section Started

variable {s : State} {id : Nat} {c : Cmd}

theorem exec_nop_started (h : startedCmd s id 0 = some c) :
    exec (.nop id) s = .next (modCmd id (fun c => { c with issued := true }) s) := by
  show execNop id s = _
  simp only [execNop, h]
  rfl

theorem exec_flush_started (h : startedCmd s id 4 = some c) :
    exec (.flush id) s = .next (modCmd id (fun c => { c with issued := true }) s) := by
  show execFlush id s = _
  simp only [execFlush, h]
  rfl

theorem exec_read_started (h : startedCmd s id 1 = some c) :
    exec (.read id) s = .next { (upto (c.nlb + 1)).foldl (readBlk c)
      (modCmd id (fun d => { d with issued := true, todo := upto (c.nlb + 1) }) s) with pending := s.pending } := by
  show execRead id s = _
  simp only [execRead, h, keepQueue_done]

/-- A DISCARD whose blocks lie in one segment. -/
theorem exec_discard_started (h : startedCmd s id 3 = some c) (hs : (blkSeg s c 0).1 = (blkSeg s c c.nlb).1) :
    exec (.discard id) s = .next { settleMedia (discardSeg (blkSeg s c 0).1 (blkSeg s c 0).2
      ((blkSeg s c c.nlb).2 + 1 - (blkSeg s c 0).2) (modCmd id (fun c => { c with issued := true }) s)) with pending := s.pending } := by
  have hone : upto ((blkSeg s c c.nlb).1 + 1 - (blkSeg s c c.nlb).1) = [0] := by
    rw [Nat.add_sub_cancel_left]
    rfl
  show execDiscard id s = _
  simp only [execDiscard, h, hs, hone, List.foldl_cons, List.foldl_nil, Nat.add_zero, if_true, keepQueue_done]

theorem exec_nop_none (h : startedCmd s id 0 = none) : exec (.nop id) s = .next s := by
  show execNop id s = _
  simp only [execNop, h, keepQueue_done]

theorem exec_flush_none (h : startedCmd s id 4 = none) : exec (.flush id) s = .next s := by
  show execFlush id s = _
  simp only [execFlush, h, keepQueue_done]

theorem exec_read_none (h : startedCmd s id 1 = none) : exec (.read id) s = .next s := by
  show execRead id s = _
  simp only [execRead, h, keepQueue_done]

theorem exec_discard_none (h : startedCmd s id 3 = none) : exec (.discard id) s = .next s := by
  show execDiscard id s = _
  simp only [execDiscard, h, keepQueue_done]

end Started

/-! ### WRITE (R232, R253) -/

section Write

variable {s u : State} {id : Nat} {c : Cmd}

/-- An admitted command before the one named `id` holds it back (R232). -/
def heldBack (s : State) (id : Nat) (c : Cmd) : Bool := (s.stor.cmds.takeWhile fun d => d.id ≠ id).any fun e => lockClash e c

theorem heldBack_eq_false (h : ∀ e ∈ s.stor.cmds.takeWhile (fun d => d.id ≠ id), lockClash e c = false) : heldBack s id c = false :=
  List.any_eq_false.mpr fun e he => by simp [h e he]

variable (hf : (s.stor.cmds.find? fun c => c.id == id && c.opc == 2 && !c.issued) = some c)

include hf

/-- An earlier command that overlaps it keeps a WRITE where it is. -/
theorem runWrite_heldBack (hb : heldBack s id c = true) : runWrite id s = s := by
  unfold heldBack at hb
  simp only [runWrite, hf, hb, if_true]

/-- The Belt holds the packets that read the WRITE's source. -/
theorem runWrite_metered (hb : heldBack s id c = false) (hm : meterSource c s = (u, false)) : runWrite id s = u := by
  unfold heldBack at hb
  simp only [runWrite, hf, hb, Bool.false_eq_true, if_false, hm]

end Write

/-! ### Completion (R228, R237) -/

theorem keepQueue_keepQueue (s t : State) (o : Out) : keepQueue s (keepQueue t o) = keepQueue s o := by
  cases o <;> rfl

/-- The queue that a meaning leaves is the one it found, whatever queue its state has. -/
theorem keepQueue_requeued (s t : State) (p : List Instr) : keepQueue s (.next { t with pending := p }) = .next { t with pending := s.pending } := rfl

section Complete

variable {s : State} {id : Nat} {c : Cmd}

/-- A command has nothing outstanding; a FLUSH has its condition met, or a failure. -/
def readyCmd (s : State) (c : Cmd) : Bool := if c.opc = 4 then flushMet s c || c.errs ≠ [] else decide (c.todo = [])

theorem readyCmd_iff : readyCmd s c = true ↔ if c.opc = 4 then flushMet s c = true ∨ c.errs ≠ [] else c.todo = [] := by
  unfold readyCmd
  split <;> simp

/-- The LBA and the status that a command completes with: of its failure at the lowest LBA, else success. -/
def outcomeOf (c : Cmd) : Nat × Nat := (lowestErr c.errs).getD (0, scSuccess)

theorem outcomeOf_success (h : c.errs = []) : outcomeOf c = (0, scSuccess) := by rw [outcomeOf, h]; rfl

theorem outcomeOf_failure {e : Nat × Nat} (h : lowestErr c.errs = some e) : outcomeOf c = e := by rw [outcomeOf, h]; rfl

section Issued

variable (hi : (s.stor.cmds.find? fun c => c.id == id && c.started && c.issued) = some c)

include hi

/-- Without a failure the engine takes none, whether or not a command of this id has begun: the split in this proof and the next. -/
theorem exec_commandComplete_ready (hr : readyCmd s c = true) : exec (.commandComplete id none) s =
    .next { settleMedia (completeCmd c (outcomeOf c).2 (outcomeOf c).1 s) with pending := s.pending } := by
  show execCommandComplete id s none = _
  unfold readyCmd at hr
  unfold execCommandComplete outcomeOf
  cases s.stor.cmds.find? (fun c => c.id == id && c.started) <;> simp only [hi, hr, if_true] <;> cases lowestErr c.errs <;> rfl

theorem exec_commandComplete_waits (hr : readyCmd s c = false) : exec (.commandComplete id none) s = .next s := by
  show execCommandComplete id s none = _
  unfold readyCmd at hr
  unfold execCommandComplete
  cases s.stor.cmds.find? (fun c => c.id == id && c.started) <;> simp only [hi, hr, Bool.false_eq_true, if_false, keepQueue_done]

end Issued

/-- A command that has begun takes the media engine's failure, and then completes as one without (R227). -/
theorem exec_commandComplete_fails (k : BitVec 8) (h : (s.stor.cmds.find? fun c => c.id == id && c.started) = some c) :
    exec (.commandComplete id (some k)) s = keepQueue s (exec (.commandComplete id none) (failCmd c k s)) := by
  show execCommandComplete id s (some k) = keepQueue s (execCommandComplete id (failCmd c k s) none)
  simp only [execCommandComplete, h, keepQueue_keepQueue]
  cases (failCmd c k s).stor.cmds.find? (fun c => c.id == id && c.started) <;> rfl

end Complete

/-- Settles O40: admission by the packet's first failure, a command by what finds it, a completion by whether the command is ready. -/
theorem storeCommandsRun : Obligations.StoreCommandsRun := by
  unfold Obligations.StoreCommandsRun
  refine ⟨?nothing, ?admits, fun s id c => exec_nop_started, fun s id c => exec_flush_started, fun s id c => exec_read_started,
    fun s id c => exec_discard_started, ?none, ?held, ?metered, ?writes, ?completes, ?waits, ?fails⟩
  case nothing =>
    intro s u bad ce hp
    show execCommandAdmit bad s ce = _
    simp only [execCommandAdmit, hp, keepQueue_done]
  case admits =>
    intro s u q bad ce ws r hp hf
    refine ⟨fun st hst => ?_, fun hue hc => ?_⟩
    · show execCommandAdmit bad s ce = _
      simp only [execCommandAdmit, hp, hf, hst, keepQueue_done]
    · have hst := (firstFailure_of_read hue).trans hc
      show execCommandAdmit bad s ce = _
      simp only [execCommandAdmit, hp, hf, hst, keepQueue_done]
  case none =>
    exact fun s id h0 h1 h3 h4 => ⟨exec_nop_none h0, exec_read_none h1, exec_discard_none h3, exec_flush_none h4⟩
  case held =>
    exact fun s id c hf hb => keepQueue_done_eq (runWrite_heldBack hf (List.any_eq_true.mpr hb))
  case metered =>
    exact fun s u id c hf hb hm => keepQueue_done_eq (runWrite_metered hf (heldBack_eq_false hb) hm)
  case writes =>
    intro s u id c hf hb hm
    have hb := heldBack_eq_false hb
    unfold heldBack at hb
    refine ⟨fun hp => keepQueue_done_eq ?_, fun hp => keepQueue_done_eq ?_⟩
    · simp only [runWrite, hf, hb, Bool.false_eq_true, if_false, hm, hp] <;> rfl
    · simp only [runWrite, hf, hb, Bool.false_eq_true, if_false, hm, hp]
  case completes =>
    intro s id c hi hr
    rw [exec_commandComplete_ready hi (readyCmd_iff.mpr hr)]
    exact ⟨fun h => by rw [outcomeOf_success h], fun e h => by rw [outcomeOf_failure h]⟩
  case waits =>
    intro s id c hi hr
    exact exec_commandComplete_waits hi (Bool.eq_false_iff.mpr (mt readyCmd_iff.mp hr))
  case fails =>
    intro s id c d k e hc hd ho ht he
    have hr : readyCmd (failCmd c k s) d = true := readyCmd_iff.mpr (by rw [if_neg ho]; exact ht)
    have h := exec_commandComplete_ready hd hr
    rw [outcomeOf_failure he] at h
    exact (exec_commandComplete_fails k hc).trans ((congrArg (keepQueue s) h).trans (keepQueue_requeued s _ _))

end Sys2Proof.Machine

/-! # Flash: bring-up, the ends of operations, die failures, ageing and temperatures (R242, R247, R261 to R270)

An operation ends only while it runs. A read is counted first, and then ends by what its step of the ladder reads; a program ends by
its status; an erase ends its erase block, and the band when no other operation is left on it. -/

namespace Sys2Proof.Machine

open Sys2Proof

section FlashOp

variable {s : State} {id : Nat} {b : Bool} {o : FOp}

/-! ### No operation of the id -/

theorem exec_flashReadDone_none (ho : findOp s id = none) : exec (.flashReadDone id b) s = .next s := by
  show execFlashReadDone id b s = _
  simp only [execFlashReadDone, ho, keepQueue_done]

theorem exec_flashProgramDone_none (ho : findOp s id = none) : exec (.flashProgramDone id b) s = .next s := by
  show execFlashProgramDone id b s = _
  simp only [execFlashProgramDone, ho, keepQueue_done]

theorem exec_flashEraseDone_none (ho : findOp s id = none) : exec (.flashEraseDone id b) s = .next s := by
  show execFlashEraseDone id b s = _
  simp only [execFlashEraseDone, ho, keepQueue_done]

theorem opClass_verify (hk : o.kind = .verify) : opClass o = 0 := by rw [opClass, hk]

variable (ho : findOp s id = some o) (hr : opRuns s o = true)

include ho hr

/-! ### Reads (R267, R268) -/

section Read

variable (hc : opClass o = 0)

include hc

/-- A read that its step decodes serves its purpose. -/
theorem exec_flashReadDone_decodes {x : FUnit} (hu : readUnit (countRead o s) o b = some x) : exec (.flashReadDone id b) s =
    .next { settleMedia (readServed o x (countRead o s)) with pending := s.pending } := by
  show execFlashReadDone id b s = _
  simp only [execFlashReadDone, ho, hr, hc, decide_true, Bool.and_true, if_true, hu, keepQueue_done]

section Undecoded

variable (hu : readUnit (countRead o s) o b = none)

include hu

/-- A verification read has no ladder: its band is rebuilt (R269). -/
theorem exec_flashReadDone_rebuilds (hk : o.kind = .verify) : exec (.flashReadDone id b) s =
    .next { settleMedia (rebuildBand o.bn (endOp o ((countRead o s).modEblk
      (bandEb (countRead o s) o.bn (o.u / 1048576)) fun e => { e with suspect := true }))) with pending := s.pending } := by
  show execFlashReadDone id b s = _
  simp only [execFlashReadDone, ho, hr, hc, decide_true, Bool.and_true, if_true, hu, hk, keepQueue_done]

/-- Another read goes on to the ladder's next step. -/
theorem exec_flashReadDone_climbs {n : Nat} (hk : o.kind ≠ .verify) (hn : nextStep (countRead o s) o = some n) :
    exec (.flashReadDone id b) s = .next { chargeOp 4 id (setOp { o with step := n, left := [2] } (countRead o s)) with
      pending := s.pending } := by
  show execFlashReadDone id b s = _
  simp only [execFlashReadDone, ho, hr, hc, decide_true, Bool.and_true, if_true, hu, if_neg hk, hn, keepQueue_done]

/-- After the ladder's last step the read is lost. -/
theorem exec_flashReadDone_lost (hk : o.kind ≠ .verify) (hn : nextStep (countRead o s) o = none) :
    exec (.flashReadDone id b) s = .next { settleMedia (readLost o (countRead o s)) with pending := s.pending } := by
  show execFlashReadDone id b s = _
  simp only [execFlashReadDone, ho, hr, hc, decide_true, Bool.and_true, if_true, hu, if_neg hk, hn, keepQueue_done]

end Undecoded

end Read

/-! ### Programs and erases (R261, R264, R269, R270) -/

theorem exec_flashProgramDone_ends (hc : opClass o = 1) : exec (.flashProgramDone id b) s =
    .next { settleMedia (dieStatus o b (if b then progGood o s else progBad o s)) with pending := s.pending } := by
  show execFlashProgramDone id b s = _
  simp only [execFlashProgramDone, ho, hr, hc, decide_true, Bool.and_true, if_true, keepQueue_done]

theorem exec_flashEraseDone_ends {pos : Nat} (hk : o.kind = .erase pos) :
    let e := dieStatus o b (eraseOne o.bn pos b (endOp o s))
    exec (.flashEraseDone id b) s = .next { settleMedia (if e.ftl.ops.any (fun p => p.bn == o.bn) then e
      else wearLevel (bnLg o.bn) (eraseEnd o.bn e)) with pending := s.pending } := by
  show execFlashEraseDone id b s = _
  simp only [execFlashEraseDone, ho, hr, hk, if_true]
  generalize dieStatus o b (eraseOne o.bn pos b (endOp o s)) = e
  cases e.ftl.ops.any fun p => p.bn == o.bn <;> rfl

end FlashOp

/-! ### Keys of a die -/

theorem dieKey_lg {lg pos slot : Nat} (hp : pos < 16) (hs : slot < 16) : dieKey lg pos slot / 256 = lg := by
  unfold dieKey
  omega

theorem dieKey_slot (lg pos : Nat) {slot : Nat} (hs : slot < 16) : dieKey lg pos slot % 16 = slot := by
  unfold dieKey
  omega

/-- Settles O41: the end of an operation by its kind and by what is read; the other commands have one effect, in every state. -/
theorem flashOperationsEnd : Obligations.FlashOperationsEnd := by
  unfold Obligations.FlashOperationsEnd
  refine ⟨?bringup, ?bringupDone, fun s pop => fillFree_full, ?noOp, ?decodes, ?climbs, ?lost, ?rebuilds, ?program, ?erase, ?dieFails,
    fun lg pos slot hp hs => ⟨dieKey_lg hp hs, dieKey_slot lg pos hs⟩, ?ages, ?samples⟩
  case bringup => exact fun s => keepQueue_done _ _
  case bringupDone => exact fun s pop => keepQueue_done _ _
  case noOp => exact fun s id b ho => ⟨exec_flashReadDone_none ho, exec_flashProgramDone_none ho, exec_flashEraseDone_none ho⟩
  case decodes => exact fun s id b o x ho hr hc hu => exec_flashReadDone_decodes ho hr hc hu
  case climbs => exact fun s id b o n ho hr hc hu hk hn => exec_flashReadDone_climbs ho hr hc hu hk hn
  case lost => exact fun s id b o ho hr hc hu hk hn => exec_flashReadDone_lost ho hr hc hu hk hn
  case rebuilds => exact fun s id b o ho hr hk hu => exec_flashReadDone_rebuilds ho hr (opClass_verify hk) hu hk
  case program => exact fun s id b o ho hr hc => exec_flashProgramDone_ends ho hr hc
  case erase => exact fun s id pos b o ho hr hk => exec_flashEraseDone_ends ho hr hk
  case dieFails => exact fun s lg pos slot => keepQueue_done _ _
  case ages => exact fun s => keepQueue_done _ _
  case samples => exact fun s lg l => keepQueue_done _ _

end Sys2Proof.Machine

/-! # Merges, idle fills, the decay of write counts, and the journal's timed records (R253, R256, R258, R260, R287, R288) -/

namespace Sys2Proof.Machine

open Sys2Proof

section Merge

variable {s : State} {g : Nat}

/-! ### The start of a merge (R256, R260) -/

theorem exec_mergeStart_starts (hs : s.stor.st = 2) (ha : mergeAllowed s g = true) :
    exec (.mergeStart g) s = .next { settleMedia (mergeStart g false 0 s).1 with pending := s.pending } :=
  congrArg (keepQueue s) (if_pos ⟨hs, ha⟩)

theorem exec_mergeStart_stays (h : s.stor.st ≠ 2 ∨ mergeAllowed s g = false) : exec (.mergeStart g) s = .next s :=
  congrArg (keepQueue s) (if_neg fun ⟨hs, ha⟩ => h.elim (· hs) fun hf => Bool.false_ne_true (hf.symm.trans ha))

/-! ### The segment's descriptor: a map change of a merge, an idle direct fill (R253, Table 10.10) -/

theorem exec_mergeMapDurable_ends {d : FDesc} (hd : s.desc g = some d) (hr : d.run = true) (h4 : d.step = 4) :
    exec (.mergeMapDurable g) s = .next { settleMedia (ackMore 4096 (finishMerge d s)) with pending := s.pending } := by
  show execMergeMapDurable g s = _
  simp only [execMergeMapDurable, hd, if_pos (And.intro hr h4), keepQueue_done]

theorem exec_mergeMapDurable_stays (h : ∀ d, s.desc g = some d → d.run = false ∨ d.step ≠ 4) :
    exec (.mergeMapDurable g) s = .next s := by
  show execMergeMapDurable g s = _
  cases hd : s.desc g with
  | none => simp only [execMergeMapDurable, hd, keepQueue_done]
  | some d =>
    have hn : ¬ (d.run = true ∧ d.step = 4) := by
      rcases h d hd with hr | h4
      · simp [hr]
      · simp [h4]
    simp only [execMergeMapDurable, hd, if_neg hn, keepQueue_done]

theorem exec_fillIdleExpire_merges {d : FDesc} (hd : s.desc g = some d) (hr : d.run = false) (hf : d.fill = true) :
    exec (.fillIdleExpire g) s = .next { settleMedia (mergeStart g false 0 s).1 with pending := s.pending } := by
  show execFillIdleExpire g s = _
  have hi : (!d.run) = true ∧ d.fill = true := ⟨by rw [hr]; rfl, hf⟩
  simp only [execFillIdleExpire, hd, if_pos hi, keepQueue_done]

theorem exec_fillIdleExpire_stays (h : ∀ d, s.desc g = some d → d.run = true ∨ d.fill = false) :
    exec (.fillIdleExpire g) s = .next s := by
  show execFillIdleExpire g s = _
  cases hd : s.desc g with
  | none => simp only [execFillIdleExpire, hd, keepQueue_done]
  | some d =>
    have hn : ¬ ((!d.run) = true ∧ d.fill = true) := by
      rcases h d hd with hr | hf
      · simp [hr]
      · simp [hf]
    simp only [execFillIdleExpire, hd, if_neg hn, keepQueue_done]

end Merge

/-! ### Checkpoints and TIME records (R287, R288) -/

section Journal

variable {s : State}

theorem startCkpt_starts (h : s.pls.snap = none) : startCkpt s = issueOp .ckpt (((journalHome s).getD 0) * 65536) 0 none [] FUnit.none
    (s.modPls fun p => { p with snap := some (snapshot s), ckNum := p.ckNum + 1, mapChg := 0, ckAt := s.time, jUnits := 0 }) :=
  if_neg (by simp [h])

theorem startCkpt_running (h : s.pls.snap.isSome = true) : startCkpt s = s := if_pos h

theorem exec_checkpointStart (hs : s.stor.st = 2) : exec .checkpointStart s = .next { startCkpt s with pending := s.pending } :=
  congrArg (keepQueue s) (if_pos hs)

theorem exec_checkpointStart_stays (hs : s.stor.st ≠ 2) : exec .checkpointStart s = .next s := congrArg (keepQueue s) (if_neg hs)

theorem exec_journalTimeRecord (hs : s.stor.st = 2) : exec .journalTimeRecord s =
    .next { jot (.time (mediaTime s)) (s.modPls fun p => { p with timeAt := s.time }) with pending := s.pending } :=
  congrArg (keepQueue s) (if_pos hs)

theorem exec_journalTimeRecord_stays (hs : s.stor.st ≠ 2) : exec .journalTimeRecord s = .next s := congrArg (keepQueue s) (if_neg hs)

end Journal

/-- Settles O42: each command by whether storage runs, the segment's descriptor, and the checkpoint being written. -/
theorem mergesFillsAndJournalRecords : Obligations.MergesFillsAndJournalRecords := by
  unfold Obligations.MergesFillsAndJournalRecords
  refine ⟨fun s g => exec_mergeStart_starts, fun s g => exec_mergeStart_stays, fun s g d => exec_mergeMapDurable_ends,
    fun s g => exec_mergeMapDurable_stays, fun s g d => exec_fillIdleExpire_merges, fun s g => exec_fillIdleExpire_stays, ?decay,
    fun s => exec_journalTimeRecord, ?checkpoint, ?running, fun s hs => ⟨exec_checkpointStart_stays hs, exec_journalTimeRecord_stays hs⟩⟩
  case decay => exact fun s => keepQueue_done _ _
  case checkpoint =>
    intro s hs h
    rw [exec_checkpointStart hs, startCkpt_starts h]
  case running =>
    intro s hs h
    rw [exec_checkpointStart hs, startCkpt_running h]

end Sys2Proof.Machine

/-! # The holdup bank (R279 to R281)

A test starts where the bank is charged near VCHG and otherwise waits; its steps follow one another unless a reading is missing. -/

namespace Sys2Proof.Machine

open Sys2Proof

section Hold

variable {s : State}

/-! ### The start of a test (R280) -/

theorem startTest_near {h : Hold} (now : Nat) (hn : nearVchg h = true) :
    startTest now h = { h with busy := true, waiting := false, step := 1, since := now, chgOut := false } := if_pos hn

theorem startTest_waits {h : Hold} (now : Nat) (hn : nearVchg h = false) :
    startTest now h = { h with busy := true, waiting := true, step := 0, since := now, chgOut := true } := if_neg (by simp [hn])

theorem holdStart_starts (hc : s.hold.vchg ≠ 0) (hb : s.hold.busy = false) : holdStart s = s.modHold (startTest s.time) :=
  if_neg (not_or_intro hc (by simp [hb]))

theorem holdStart_stays (h : s.hold.vchg = 0 ∨ s.hold.busy = true) : holdStart s = s := if_pos h

theorem holdStart_near (hc : s.hold.vchg ≠ 0) (hb : s.hold.busy = false) (hn : nearVchg s.hold = true) : holdStart s =
    s.modHold fun h => { h with busy := true, waiting := false, step := 1, since := s.time, chgOut := false } :=
  (holdStart_starts hc hb).trans (congrArg (fun h => { s with hold := h }) (startTest_near s.time hn))

theorem holdStart_waits (hc : s.hold.vchg ≠ 0) (hb : s.hold.busy = false) (hn : nearVchg s.hold = false) : holdStart s =
    s.modHold fun h => { h with busy := true, waiting := true, step := 0, since := s.time, chgOut := true } :=
  (holdStart_starts hc hb).trans (congrArg (fun h => { s with hold := h }) (startTest_waits s.time hn))

/-! ### VEST.HOLD.TEST -/

theorem wrHoldTest_enabled {v : Word} (hd : storDisabled s = false) : wrHoldTest v s = if bit v 63 then holdStart s else s := by
  simp only [wrHoldTest, hd, Bool.false_eq_true, if_false]

/-- The Quiesce fields as a write leaves them: each keeps its value at a reserved encoding. -/
def testFields (v : Word) (h : Hold) : Hold := { h with
  ttst := if 2 ≤ (fld v 16 8).toNat ∧ (fld v 16 8).toNat ≤ 100 then fld v 16 8 else h.ttst
  ereq := if 100 ≤ (fld v 0 16).toNat ∧ (fld v 0 16).toNat ≤ 10000 then fld v 0 16 else h.ereq }

theorem wrHoldTest_disabled {v : Word} (hd : storDisabled s = true) (hv : bit v 63 = false) :
    wrHoldTest v s = s.modHold (testFields v) := by
  simp only [wrHoldTest, hd, hv, Bool.false_eq_true, if_false, if_true]
  rfl

theorem exec_holdTestStart {w : Agent} (v : Word) (hw : agentRuns s w = true) :
    exec (.holdTestStart w v) s = .next { wrHoldTest v s with pending := s.pending } := congrArg (keepQueue s) (sentBy_runs hw)

theorem exec_holdTestStart_start {w : Agent} {v : Word} (hw : agentRuns s w = true) (hv : bit v 63 = true) (hd : storDisabled s = false) :
    exec (.holdTestStart w v) s = .next { holdStart s with pending := s.pending } := by
  rw [exec_holdTestStart v hw, wrHoldTest_enabled hd, if_pos hv]

/-! ### The steps of a test (Table 11.3) -/

theorem exec_holdTestDaily_starts (hv : s.hold.valid = true) (ha : testAllowed s = true) :
    exec .holdTestDaily s = .next { holdStart s with pending := s.pending } := congrArg (keepQueue s) (if_pos (by simp [hv, ha]))

theorem exec_holdTestDaily_stays (h : s.hold.valid = false ∨ testAllowed s = false) : exec .holdTestDaily s = .next s :=
  congrArg (keepQueue s) (if_neg (by simpa [Decidable.imp_iff_not_or] using h))

theorem exec_holdTestStepDone (hb : s.hold.busy = false ∨ s.hold.waiting = true) (u : Option Nat) : exec (.holdTestStepDone u) s = .next s :=
  congrArg (keepQueue s) (if_pos hb)

/-- A test under way takes the step that the sample is for. -/
theorem exec_holdTestStepDone_sample (v : Nat) (hb : s.hold.busy = true) (hw : s.hold.waiting = false) :
    exec (.holdTestStepDone (some v)) s = keepQueue s (match s.hold.step with
      | 1 => done (s.modHold fun h => { h with step := 2, v1 := v, tstOut := true })
      | 2 => done (s.modHold fun h => { h with step := 3, va := v })
      | 3 => done (testCompute v s)
      | _ => done s) := congrArg (keepQueue s) (if_neg (by simp [hb, hw]))

end Hold

/-- Settles O43: a write of TEST by whether storage is disabled, a start by the charge of the bank, a step by its number. -/
theorem holdupBankAndTests : Obligations.HoldupBankAndTests := by
  unfold Obligations.HoldupBankAndTests
  refine ⟨fun s v => keepQueue_done _ _, fun s hb => congrArg (keepQueue s) (if_neg (by simp [hb])),
    fun s hb => congrArg (keepQueue s) (if_pos hb), ?notDisabled, ?fields, ?near, ?waits, ?refused, ?daily,
    fun s => exec_holdTestDaily_stays, fun s hb hw => congrArg (keepQueue s) (if_pos (by simp [hb, hw])), ?notWaiting, ?invalid, ?step1,
    ?step2, ?step3, fun s u hb => exec_holdTestStepDone hb u, fun s x w hw hl => keepQueue_done_eq (dictCommand_runs hw (level_pos hl) rfl (by decide))⟩
  case notDisabled =>
    intro s w v hw hv hd
    rw [exec_holdTestStart v hw, wrHoldTest_enabled hd, if_neg (by simp [hv])]
  case fields =>
    intro s w v hw hv hd
    rw [exec_holdTestStart v hw, wrHoldTest_disabled hd hv]
    rfl
  case near =>
    intro s w v hw hv hd hc hb hn
    rw [exec_holdTestStart_start hw hv hd, holdStart_near hc hb hn]
    rfl
  case waits =>
    intro s w v hw hv hd hc hb hn
    rw [exec_holdTestStart_start hw hv hd, holdStart_waits hc hb hn]
    rfl
  case refused =>
    intro s w v hw hv hd h
    rw [exec_holdTestStart_start hw hv hd, holdStart_stays h]
  case daily =>
    intro s hv ha hc hb
    rw [exec_holdTestDaily_starts hv ha, holdStart_starts hc hb]
    rfl
  case notWaiting =>
    intro s h
    exact congrArg (keepQueue s) (if_neg (by simpa [Decidable.imp_iff_not_or] using h))
  case invalid => exact fun s hb hw => congrArg (keepQueue s) (if_neg (by simp [hb, hw]))
  case step1 =>
    intro s v hb hw h1
    rw [exec_holdTestStepDone_sample v hb hw, h1]
    rfl
  case step2 =>
    intro s v hb hw h2
    rw [exec_holdTestStepDone_sample v hb hw, h2]
    rfl
  case step3 =>
    intro s v hb hw h3
    rw [exec_holdTestStepDone_sample v hb hw, h3]
    rfl

end Sys2Proof.Machine

/-! # A power failure, and the drain of the protected write buffer (R282 to R285)

A failure acts by what the package does at the time: nothing in PK3 or package reset, on the drain that runs, or with a drain of its own. -/

namespace Sys2Proof.Machine

open Sys2Proof

section PowerFail

variable {s : State}

/-! ### The failure of a power input (R282, R454) -/

theorem exec_powerFailDetect_off (src : PfSource) (h : s.pwr.pk3 = true ∨ s.pins.inReset = true) :
    exec (.powerFailDetect src) s = .next { s with pins := setPfLand src true s.pins } :=
  congrArg (keepQueue s) (if_pos (by simpa using h))

theorem exec_powerFailDetect_draining (src : PfSource) (hk : s.pwr.pk3 = false) (hr : s.pins.inReset = false) (hd : s.pls.step ≠ 0) :
    exec (.powerFailDetect src) s = .next { ((abortTest { s with pins := setPfLand src true s.pins }).modHold fun h => { h with
      enOut := true, chgOut := false, tstOut := false }).modPls (fun p => { p with pf := true, holdEn := true }) with
      pending := s.pending } :=
  congrArg (keepQueue s) ((if_neg (by simp [hk, hr])).trans (if_pos hd))

/-- The POWERFAIL record: the source, and whether storage was active. -/
def powerFailRecord (src : PfSource) (s : State) : Report :=
  mkReport 0x8FFF 0 0x043 false 8 (leBytes 1 (if src = .pwrfailN then 0 else 1) ++ leBytes 1 (if storActive s then 1 else 0))

/-- What follows: storage that is active drains. -/
def powerFailEnds (t : State) : State := if storActive t then startDrain 0 true t else powerFinish t

theorem keepQueue_powerFailEnds (t : State) :
    keepQueue s (if storActive t then done (startDrain 0 true t) else done (powerFinish t)) =
      .next { powerFailEnds t with pending := s.pending } := by
  rw [← apply_ite done]
  rfl

/-- What a power failure does before the drain: the record, every hart halted, requests withdrawn, a test aborted, HOLD_EN asserted. -/
def powerFailHalted (src : PfSource) (s : State) : State :=
  (abortTest (withdrawAll (stopAllHarts (recordNow (powerFailRecord src s) s)))).modHold fun h => { h with
    enOut := true, chgOut := false, tstOut := false }

theorem exec_powerFailDetect_on (src : PfSource) (hk : s.pwr.pk3 = false) (hr : s.pins.inReset = false) (hd : s.pls.step = 0) :
    exec (.powerFailDetect src) s =
      .next { powerFailEnds (powerFailHalted src { s with pins := setPfLand src true s.pins }) with pending := s.pending } := by
  rw [← keepQueue_powerFailEnds]
  show execPowerFailDetect src s = _
  unfold execPowerFailDetect powerFailHalted powerFailRecord
  extract_lets s1
  refine congrArg (keepQueue s) (((if_neg (by simp [hk, hr])).trans (if_neg (not_not_intro hd))).trans ?_)
  cases src <;> rfl

/-! ### The drain (R283, Table 11.4) -/

/-- Channels 0 and 1 kept, and every flash operation ended: a unit whose program is cut off is not programmed. -/
def opsCut (s : State) : State :=
  let s0 := keepChannel 1 (keepChannel 0 s)
  dropOps (fun _ => true) ((s0.ftl.ops.filter fun o => opRuns s0 o && (match o.kind with
    | .progSlot _ | .progMerge .. => !(s0.band o.bn).slc
    | _ => false)).foldl (fun a o => putUnit o false a) s0)

theorem startDrain_eq (c : Nat) (b : Bool) (s : State) : startDrain c b s = (stopRest (opsCut s)).modPls fun p => { p with
    step := 4, cause := c, pf := b, holdEn := b, drainNum := p.drainNum + 1
    drain := some ⟨p.drainNum + 1, s.time + s.ftl.mtOff, s.ftl.seq, (drainMan p).length, [], false, [], false, !b⟩ } := rfl

theorem startDrain_drainNum (c : Nat) (b : Bool) (s : State) : (startDrain c b s).pls.drainNum = (opsCut s).pls.drainNum + 1 := by
  rw [startDrain_eq]
  generalize opsCut s = t
  rfl

/-- A step of the drain that writes its part of the image and goes on to the next. -/
theorem drainStep_next {n : Nat} (f : DrainImg → DrainImg) (h : s.pls.step = n) :
    keepQueue s (done ((modDrain f s).modPls fun p => { p with step := p.step + 1 })) =
      .next (s.modPls fun p => { p with step := n + 1, drain := p.drain.map f }) := by
  subst h
  rfl

theorem exec_drainStepDone_none (l : List Nat) (h : s.pls.step < 4 ∨ 7 < s.pls.step) : exec (.drainStepDone l) s = .next s := by
  show execDrainStepDone s l = _
  unfold execDrainStepDone
  split
  case h_5 => exact keepQueue_done s s
  all_goals omega

end PowerFail

/-- Settles O44: a failure by what runs at the time, a drain's step by its number. -/
theorem powerFailureAndDrain : Obligations.PowerFailureAndDrain := by
  unfold Obligations.PowerFailureAndDrain
  refine ⟨fun s src => exec_powerFailDetect_off src, fun s src => exec_powerFailDetect_draining src,
    ?fails, ?manifest, ?data, ?journal, ?completion, fun s l => exec_drainStepDone_none l,
    ?start⟩
  case start => exact fun c b s => ⟨rfl, rfl, rfl,
    (startDrain_drainNum c b s).trans (congrArg (fun t : State => t.pls.drainNum + 1) (rfl : opsCut s = _))⟩
  case fails =>
    intro s src hk hr hd s1 r s2
    have hnext : exec (.powerFailDetect src) s = .next { powerFailEnds s2 with pending := s.pending } := exec_powerFailDetect_on src hk hr hd
    clear_value s2
    exact hnext
  case completion =>
    intro s l h
    show execDrainStepDone s l = _
    unfold execDrainStepDone
    rw [h]
    rfl
  all_goals
    intro s l h
    show execDrainStepDone s l = _
    unfold execDrainStepDone
    rw [h]
    exact drainStep_next _ h

end Sys2Proof.Machine

/-! # Tenant resets and SHARE (R316, R317, R322)

A reset by the register and one by the dictionary run the same operation; SHARE writes the entry that it picks. -/

namespace Sys2Proof.Machine

open Sys2Proof

/-! ### Tenant resets (R316, R317) -/

section Reset

variable {s : State}

theorem exec_tenantReset {w : Agent} (v : Word) (hw : agentRuns s w = true) :
    exec (.tenantReset w v) s = .next { wrTenRst v s with pending := s.pending } := congrArg (keepQueue s) (sentBy_runs hw)

theorem wrTenRst_tid {v : Word} (hv : bit v 63 = false) : wrTenRst v s = { s with belt := { s.belt with tTid := fld v 0 12 } } :=
  if_neg (by simp [hv])

theorem wrTenRst_busy {v : Word} (hv : bit v 63 = true) (hb : s.belt.tBusy = true) :
    wrTenRst v s = { s with belt := { s.belt with tErr := 1 } } := (if_pos hv).trans (if_pos hb)

theorem wrTenRst_starts {v : Word} (hv : bit v 63 = true) (hb : s.belt.tBusy = false) :
    wrTenRst v s = rechargeOps (tenantReset (fld v 0 12) { s with belt := { s.belt with tTid := fld v 0 12 } }) :=
  (if_pos hv).trans (if_neg (by simp [hb]))

/-- The state in which a tenant reset by TENRESET has been started. -/
def tenantResetStarted (t : BitVec 12) (s : State) : State := rechargeOps (tenantReset t { s with belt := { s.belt with tTid := t } })

/-- What TENRESET does of a session that may reset a tenant. -/
def tenresetBody (t : BitVec 16) (s : State) : State × Nat × List Byte :=
  if 4096 ≤ t.toNat then (s, stReserved, [])
  else if s.belt.tBusy then ({ s with belt := { s.belt with tErr := 1 } }, stBusy, [])
  else (tenantResetStarted (t.setWidth 12) s, if (tenantResetStarted (t.setWidth 12) s).belt.tBusy then stPending else stOK, [])

theorem exec_tenreset (x : DictCtx) (t : BitVec 16) (s : State) :
    exec (.tenreset x t) s = keepQueue s (done (dictCommand x 0x5000 1 1 true (tenresetBody t) s)) := by
  show execTenreset x t s = _
  unfold execTenreset tenresetBody tenantResetStarted
  with_reducible rfl

theorem tenresetBody_busy {t : BitVec 16} (ht : t.toNat < 4096) (hb : s.belt.tBusy = true) :
    tenresetBody t s = ({ s with belt := { s.belt with tErr := 1 } }, stBusy, []) := (if_neg (Nat.not_le.mpr ht)).trans (if_pos hb)

theorem tenresetBody_starts {t : BitVec 16} (ht : t.toNat < 4096) (hb : s.belt.tBusy = false) : tenresetBody t s =
    (tenantResetStarted (t.setWidth 12) s, if (tenantResetStarted (t.setWidth 12) s).belt.tBusy then stPending else stOK, []) :=
  (if_neg (Nat.not_le.mpr ht)).trans (if_neg (by simp [hb]))

/-- A reset that has ended at once is answered OK, one that goes on PENDING. -/
def tenresetAnswered (x : DictCtx) (u : State) : State :=
  if u.belt.tBusy then cmdPended x 0x5000 1 u else cmdAnswered x 0x5000 1 stOK [] u

theorem dictCommand_tenreset {x : DictCtx} {w : Session} {t : BitVec 16} (hw : reqState s x = .fresh w) (hl : 1 ≤ w.level.toNat)
    (ht : t.toNat < 4096) (hb : s.belt.tBusy = false) : dictCommand x 0x5000 1 1 true (tenresetBody t) s =
      tenresetAnswered x (tenantResetStarted (t.setWidth 12) s) := by
  have hbody := tenresetBody_starts ht hb
  by_cases hu : (tenantResetStarted (t.setWidth 12) s).belt.tBusy = true
  · rw [if_pos hu] at hbody
    exact (dictCommand_pends hw hl hbody).trans (if_pos hu).symm
  · rw [if_neg hu] at hbody
    exact (dictCommand_runs hw hl hbody (by decide)).trans (if_neg hu).symm

end Reset

/-! ### SHARE (R322) -/

section Share

variable {s : State} {t : BitVec 16} {c p : BitVec 8}

/-- The entry that SHARE writes: the one of the TID and class, or else the lowest that is free. -/
def shareSlot (t : BitVec 12) (c : Nat) (s : State) : Option Nat :=
  ((upto 256).find? fun i => (s.act i).en && !(s.act i).eng && decide ((s.act i).tid = t) && decide ((s.act i).cls.toNat = c)) <|>
    (upto 256).find? fun i => !(s.act i).en && !(s.act i).active

/-- The word that SHARE writes to the entry: SCOPE 0xF, BORROW, and the percentage as a budget. -/
def shareWord (t : BitVec 16) (c p : BitVec 8) (s : State) : Word :=
  cat [on 63 true, on 62 true, at_ 58 (c.setWidth 3), at_ 54 (0xF : BitVec 4), at_ 32 (t.setWidth 12),
    at_ 0 (BitVec.ofNat 32 (shareBudget s c.toNat p.toNat))]

/-- What SHARE does. -/
def shareBody (t : BitVec 16) (c p : BitVec 8) (s : State) : State × Nat × List Byte :=
  if 4096 ≤ t.toNat ∨ 6 ≤ c.toNat ∨ p = 0 ∨ 100 < p.toNat then (s, stReserved, [])
  else
    match shareSlot (t.setWidth 12) c.toNat s with
    | none => (s, stExhausted, [])
    | some a =>
      let u := wrAct a (shareWord t c p s) s
      if u.belt.errCode = 0 then (u, stOK, []) else (u, stNotQuiesced, leBytes 1 u.belt.errCode.toNat)

theorem exec_share (x : DictCtx) (t : BitVec 16) (c p : BitVec 8) (s : State) :
    exec (.share x t c p) s = keepQueue s (done (dictCommand x 0x5001 0 0 true (shareBody t c p) s)) := by
  have hslot (u : State) : shareSlot (t.setWidth 12) c.toNat u = (match (upto 256).find? fun i =>
      (u.act i).en && !(u.act i).eng && decide ((u.act i).tid = t.setWidth 12) && decide ((u.act i).cls.toNat = c.toNat) with
    | some i => some i
    | none => (upto 256).find? fun i => !(u.act i).en && !(u.act i).active) := by
    unfold shareSlot
    cases (upto 256).find? _ <;> rfl
  refine congrArg (fun b => keepQueue s (done (dictCommand x 0x5001 0 0 true b s))) (funext fun u => ?_)
  unfold shareBody
  rw [hslot u]
  rfl

section InRange

variable (ht : t.toNat < 4096) (hc : c.toNat < 6) (hp : p ≠ 0) (hp' : p.toNat ≤ 100)
include ht hc hp hp'

theorem shareBody_writes {a : Nat} (ha : shareSlot (t.setWidth 12) c.toNat s = some a)
    (he : (wrAct a (shareWord t c p s) s).belt.errCode = 0) : shareBody t c p s = (wrAct a (shareWord t c p s) s, stOK, []) := by
  unfold shareBody
  rw [if_neg (by simp only [hp, false_or]; omega), ha]
  exact if_pos he

theorem shareBody_exhausted (ha : shareSlot (t.setWidth 12) c.toNat s = none) : shareBody t c p s = (s, stExhausted, []) := by
  unfold shareBody
  rw [if_neg (by simp only [hp, false_or]; omega), ha]

end InRange

end Share

/-- Settles O46: a reset by whether one runs, SHARE by the entry that it picks. -/
theorem tenantResetAndShare : Obligations.TenantResetAndShare := by
  unfold Obligations.TenantResetAndShare
  refine ⟨?tid, ?busy, ?starts, ?tenReserved, ?tenBusy, ?tenStarts, ?shareReserved, ?shares⟩
  case tid =>
    intro s w v hw hv
    rw [exec_tenantReset v hw, wrTenRst_tid hv]
  case busy =>
    intro s w v hw hv hb
    rw [exec_tenantReset v hw, wrTenRst_busy hv hb]
  case starts =>
    intro s w v hw hv hb
    rw [exec_tenantReset v hw, wrTenRst_starts hv hb]
  case tenReserved =>
    exact fun s x w t hw hl ht =>
      (exec_tenreset x t s).trans (keepQueue_done_eq (dictCommand_runs hw (level_pos hl) (if_pos ht) (by decide)))
  case tenBusy =>
    exact fun s x w t hw hl ht hb =>
      (exec_tenreset x t s).trans (keepQueue_done_eq (dictCommand_runs hw (level_pos hl) (tenresetBody_busy ht hb) (by decide)))
  case tenStarts =>
    intro s x w t hw hl ht hb u
    have hnext : exec (.tenreset x t) s = .next { tenresetAnswered x u with pending := s.pending } :=
      (exec_tenreset x t s).trans (keepQueue_done_eq (dictCommand_tenreset hw (level_pos hl) ht hb))
    clear_value u
    exact hnext
  case shareReserved =>
    exact fun s x w t c p hw h =>
      (exec_share x t c p s).trans (keepQueue_done_eq (dictCommand_runs hw (Nat.zero_le _) (if_pos h) (by decide)))
  case shares =>
    refine fun s x w t c p hw ht hc hp hp' => ⟨fun a ha he => ?_, fun ha => ?_⟩
    · exact (exec_share x t c p s).trans
        (keepQueue_done_eq (dictCommand_runs hw (Nat.zero_le _) (shareBody_writes ht hc hp hp' ha he) (by decide)))
    · exact (exec_share x t c p s).trans
        (keepQueue_done_eq (dictCommand_runs hw (Nat.zero_le _) (shareBody_exhausted ht hc hp hp' ha) (by decide)))

end Sys2Proof.Machine

/-! # Performance levels, the power limiter, sleep and wake, and the Lace port (R324 to R335)

A core whose Sleeve and package are active wakes alone; a ready signal advances the wake that it belongs to. -/

namespace Sys2Proof.Machine

open Sys2Proof

section Levels

variable {s : State}

/-! ### Performance levels and the limiter (R324, R325) -/

theorem exec_plTransitionDone {k : SleeveId} (h : (s.slvPwr k).busy = true) : exec (.plTransitionDone k) s =
    .next { plApply k (s.setSlvPwr k { s.slvPwr k with cur := (s.slvPwr k).target, busy := false }) with pending := s.pending } :=
  congrArg (keepQueue s) (if_neg (by simp [h]))

theorem exec_powerLimiterTick_within {m : BitVec 10} (h : m.toNat ≤ s.pwr.limit.toNat) (h' : s.pwr.limit.toNat * 95 ≤ m.toNat * 100) :
    exec (.powerLimiterTick m) s = .next { s with pwr := { s.pwr with meas := m, belowCnt := 0 } } :=
  congrArg (keepQueue s) ((if_neg (Nat.not_lt.mpr h)).trans (if_neg (Nat.not_lt.mpr h')))

/-- The limiter's tick records the power and, outside the band below the limit, starts its count anew. -/
def limiterCounted (m : BitVec 10) (s : State) : State := { s with pwr := { s.pwr with meas := m, belowCnt := 0 } }

theorem exec_powerLimiterTick_above {m : BitVec 10} {k : Nat} (h : s.pwr.limit.toNat < m.toNat)
    (hk : limiterPick (limiterCounted m s) = some k) : exec (.powerLimiterTick m) s =
      let t := (limiterCounted m s).modSlvPwr k fun v => { v with pwc := v.pwc - 1 }
      .next { plApply k { t with pwr := { t.pwr with lowered := k :: s.pwr.lowered.filter (· ≠ k) } } with pending := s.pending } := by
  unfold limiterCounted at hk ⊢
  show execPowerLimiterTick m s = _
  simp only [execPowerLimiterTick, if_pos h, hk, keepQueue_done]
  rfl

/-! ### Sleep (R326, R328) -/

theorem exec_sleepEnter {sc : Scope} {st : Nat} (he : opOn sc s.pwr.entering = false) (hw : opOn sc s.pwr.waking = false)
    (hf : (stateList s sc).find? (fun st => entryOk s sc st && stateFits s sc st && decide (stateOf s sc < st)) = some st) :
    exec (.sleepEnter sc) s = .next { s with pwr := { s.pwr with entering := s.pwr.entering ++ [⟨sc, st, 0, 0⟩] } } := by
  have hidle : ¬ (opOn sc s.pwr.entering || opOn sc s.pwr.waking) = true := by simp [he, hw]
  show execSleepEnter sc s = _
  simp only [execSleepEnter, if_neg hidle, hf, keepQueue_done]

theorem exec_sleepEntryDone {sc : Scope} {o : SleepOp} (ho : s.pwr.entering.find? (fun o => o.scope = sc) = some o)
    (hu : unacked s sc = false) : exec (.sleepEntryDone sc) s = .next { enterEffect sc o.state (setStateOf sc o.state
      { s with pwr := { s.pwr with entering := s.pwr.entering.filter fun o => o.scope ≠ sc } }) with pending := s.pending } := by
  show execSleepEntryDone sc s = _
  simp only [execSleepEntryDone, ho, hu, Bool.false_eq_true, if_false, keepQueue_done]

/-! ### Wake (R328 to R330) -/

/-- The wake of a core has started. -/
def coreWoken (c : CoreId) (src : BitVec 8) (s : State) : State := { s with pwr := { s.pwr with
  waking := s.pwr.waking.filter (fun o => o.scope ≠ .core c) ++ [⟨.core c, coreSl s c, 1, src⟩] } }

theorem leavingState_of_entering_nil (he : s.pwr.entering = []) (sc : Scope) : leavingState s sc = stateOf s sc := by
  simp only [leavingState, he, List.find?_nil]

theorem wakeScope_package_active (he : s.pwr.entering = []) (hp : s.pwr.pk = 0) (n : Nat) : wakeScope .package n s = s := by
  have h0 : leavingState s .package = 0 := (leavingState_of_entering_nil he _).trans (if_pos hp)
  unfold wakeScope
  simp [h0]

theorem wakeScope_core {c : CoreId} (he : s.pwr.entering = []) (hw : opOn (.core c) s.pwr.waking = false) (hc : coreSl s c ≠ 0) (n : Nat) :
    wakeScope (.core c) n s = coreWoken c (BitVec.ofNat 8 n) s := by
  have hleft : leavingState s (.core c) = coreSl s c := leavingState_of_entering_nil he _
  unfold wakeScope coreWoken
  simp [hleft, hc, hw, he, heldScope, recordWake]

/-- A core that sleeps, while its Sleeve and the package are active, wakes alone. -/
theorem startWake_core {c : CoreId} (he : s.pwr.entering = []) (hw : opOn (.core c) s.pwr.waking = false) (hc : coreSl s c ≠ 0)
    (hs : (s.slvPwr (Fin.ofNat 12 (c.val / 20)).val).sl = 0) (hp : s.pwr.pk = 0) (n : Nat) :
    startWake (.core c) n s = coreWoken c (BitVec.ofNat 8 n) s := by
  have htarget : wakeTarget s (.core c) = .core c := if_pos ((leavingState_of_entering_nil he (.sleeve _)).trans hs)
  have hleft : leavingState s (.core c) ≠ 0 := by rwa [leavingState_of_entering_nil he]
  unfold startWake
  simp only [htarget, if_neg hleft]
  rw [wakeScope_package_active he hp, wakeScope_core he hw hc]

theorem exec_wakeStepReady {sc : Scope} {o : SleepOp} (ho : s.pwr.waking.find? (fun o => o.scope = sc) = some o)
    (hp : packageFirst s sc = false) (hw : stepWaits o s = false) : exec (.wakeStepReady sc) s = keepQueue s (if o.step < 4 then done (wakeStep o s)
      else done (wakeDone o { s with pwr := { s.pwr with waking := s.pwr.waking.filter fun o => o.scope ≠ sc } })) := by
  show execWakeStepReady sc s = _
  simp only [execWakeStepReady, ho, hp, hw, Bool.or_self, Bool.false_eq_true, if_false]

/-! ### The Lace port (R334, R335) -/

theorem packageOff_enters (who : Requester) (ctx : Option DictCtx) (ht : s.thm.shut = 0) (hs : s.stor.st = 0) (hc : claimsOn s = 0) :
    packageOff who ctx s = (enterPk3 1 s, ocDone) :=
  (if_neg (not_not_intro ht)).trans ((if_neg (not_not_intro hs)).trans (if_neg (not_not_intro hc)))

theorem lacePk3_enters (hl : s.lace.lacepd = true) (ht : s.thm.shut = 0) (hs : s.stor.st = 0) (hc : claimsOn s = 0) :
    lacePk3 s = { enterPk3 1 s with lace := { (enterPk3 1 s).lace with cmdstat := 0 } } := by
  unfold lacePk3
  rw [if_pos hl, packageOff_enters _ _ ht hs hc]
  rfl

end Levels

/-- Settles O24: a tick by where the power lies, a wake by the scope that it starts from, a Lace command by its address or its index. -/
theorem performanceSleepAndWake : Obligations.PerformanceSleepAndWake := by
  unfold Obligations.PerformanceSleepAndWake
  refine ⟨fun s a k v ha => congrArg (keepQueue s) (sentBy_runs ha), fun s k => exec_plTransitionDone,
    fun s m => exec_powerLimiterTick_within, fun s m k => exec_powerLimiterTick_above, fun s sc st => exec_sleepEnter,
    fun s sc o => exec_sleepEntryDone, ?wakeSource, ?knownEvent, ?stepReady, ?lastReady, ?assign, fun s => keepQueue_done _ _,
    fun s => keepQueue_done _ _, fun s => keepQueue_done _ _, fun s => keepQueue_done _ _, fun s => ⟨_, _, keepQueue_done _ _⟩,
    fun s a h => congrArg (keepQueue s) (if_pos h), fun s a h => congrArg (keepQueue s) (if_neg (by simp [h])), ?index,
    fun s => keepQueue_done _ _, ?pk3⟩
  case wakeSource =>
    intro s c src hw he hc hs hp
    have hwoken := startWake_core he hw hc hs hp src.toNat
    rw [BitVec.ofNat_toNat, BitVec.setWidth_eq] at hwoken
    exact keepQueue_done_eq hwoken
  case knownEvent =>
    intro s c e hn hw he hc hs hp
    show execKnownEventWake (.core c) s = _
    simp only [execKnownEventWake, hn]
    exact keepQueue_done_eq (startWake_core he hw hc hs hp e.2)
  case stepReady =>
    intro s sc o ho hp hw hlt
    rw [exec_wakeStepReady ho hp hw, if_pos hlt, keepQueue_done]
  case lastReady =>
    intro s sc o ho hp hw hle
    rw [exec_wakeStepReady ho hp hw, if_neg (Nat.not_lt.mpr hle), keepQueue_done]
  case assign =>
    exact fun s d hd => ⟨congrArg (keepQueue s) (if_pos ⟨rfl, hd⟩), congrArg (keepQueue s) (if_pos hd)⟩
  case index => exact fun s i => keepQueue_done _ _
  case pk3 =>
    intro s hl ht hs hc
    exact ⟨_, keepQueue_done_eq (lacePk3_enters hl ht hs hc), rfl, rfl, rfl, rfl, rfl, rfl⟩

end Sys2Proof.Machine

/-! # Sensors, coolant and flow (R336, R341 to R343)

Readings that are missing are free; a fault is reported at its onset; a pulse counts by its width. -/

namespace Sys2Proof.Machine

open Sys2Proof

/-! ### A list filled up with free values (log 130) -/

section Fill

variable {α : Type} {n : Nat} {f : Nat → α} {l : List α} {s : State}

theorem fillFree_short (h : l.length ≠ n) : fillFree n f l s =
    ({ s with free := s.free + n }, l.take n ++ (upto (n - l.length)).map fun i => f (Config.freeNat (s.free + i))) := if_neg h

theorem fillFree_length : (fillFree n f l s).2.length = n := by
  by_cases h : l.length = n
  · rw [fillFree_full h, h]
  · rw [fillFree_short h]
    simp only [List.length_append, List.length_take, List.length_map, upto, List.length_range]
    omega

/-- What the list holds is kept. -/
theorem fillFree_getElem? {i : Nat} (hi : i < min n l.length) : (fillFree n f l s).2[i]? = l[i]? := by
  by_cases h : l.length = n
  · rw [fillFree_full h]
  · rw [fillFree_short h, List.getElem?_append_left (by simpa using hi), List.getElem?_take_of_lt (by omega)]

end Fill

section Flow

variable {s : State}

/-! ### Flow pulses (R336, Table 19.8) -/

/-- A pulse counts: it is the last one, and those of the last second stay with it. -/
def pulseCounted (s : State) : Thm := { s.thm with
  pulses := s.time :: s.thm.pulses.filter (fun p => decide (s.time < p + 100000000)), lastPulse := s.time, noFlow := false }

theorem exec_flowPulse_rejected {n : Nat} (h : n < 10) : exec (.flowPulse n) s = .next s := by
  have hwide : decide (50 ≤ n) = false := decide_eq_false (by omega)
  have hmid : decide (10 ≤ n) = false := decide_eq_false (by omega)
  have hdraw : ¬ (10 ≤ n ∧ n < 50) := by omega
  show execFlowPulse n s = _
  simp only [execFlowPulse, hwide, hmid, hdraw, Bool.false_and, Bool.or_false, Bool.false_eq_true, if_false, keepQueue_done]

theorem exec_flowPulse_counted {n : Nat} (h : 50 ≤ n) : exec (.flowPulse n) s = .next { s with thm := pulseCounted s } := by
  have hdraw : ¬ (10 ≤ n ∧ n < 50) := by omega
  show execFlowPulse n s = _
  simp only [execFlowPulse, decide_eq_true h, hdraw, Bool.true_or, if_true, if_false, keepQueue_done]
  rfl

theorem exec_flowPulse_free {n : Nat} (h : 10 ≤ n) (h' : n < 50) : exec (.flowPulse n) s = .next { s with
    free := s.free + 1, thm := if Config.freeNat s.free % 2 = 1 then pulseCounted s else s.thm } := by
  have hwide : decide (50 ≤ n) = false := decide_eq_false (by omega)
  have hdraw : 10 ≤ n ∧ n < 50 := ⟨h, h'⟩
  show execFlowPulse n s = _
  by_cases hf : Config.freeNat s.free % 2 = 1
  · simp only [execFlowPulse, hwide, hdraw, hf, decide_true, Bool.and_self, Bool.or_true, and_self, if_true, keepQueue_done]
    rfl
  · simp only [execFlowPulse, hwide, hdraw, hf, decide_false, Bool.and_false, Bool.or_false, and_self, Bool.false_eq_true, if_true, if_false,
      keepQueue_done]
    rfl

/-! ### Demand and faults (R341 to R343) -/

theorem exec_fdemUpdate : exec .fdemUpdate s = .next { s with thm := { s.thm with
    fdem := if s.thm.noFlow then (s.tobj.fmax : Rat) / 100 else flowDemand s.tobj (meanNat s.thm.pHist) (modelTin s) } } := keepQueue_done _ _

theorem reportCoolant_pending (n : Nat) (b : Bool) : (reportCoolant n b s).pending = s.pending := by
  cases b <;> rfl

theorem exec_noFlowTimeout_faults (h : s.tobj.vmin ≤ s.thm.duty) : exec .noFlowTimeout s =
    .next (reportCoolant 2 (!s.thm.noFlow) { s with thm := { s.thm with
      noFlow := true, flowF := 0, duty := 1000, fdem := (s.tobj.fmax : Rat) / 100, pulses := [] } }) :=
  (congrArg (keepQueue s) (if_neg (Nat.not_lt.mpr h))).trans (next_pending_self (reportCoolant_pending _ _))

theorem exec_flowShortTimeout_faults (h : s.thm.shortFrom.isSome = true) : exec .flowShortTimeout s =
    .next (reportCoolant 3 (!s.thm.flowShort) { s with thm := { s.thm with flowShort := true } }) :=
  (congrArg (keepQueue s) (if_pos h)).trans (next_pending_self (reportCoolant_pending _ _))

end Flow

/-- Settles O47: a pulse by its width, a fault by its onset. -/
theorem sensorsFlowAndCoolant : Obligations.SensorsFlowAndCoolant := by
  unfold Obligations.SensorsFlowAndCoolant
  refine ⟨fun s l => keepQueue_done _ _, ?filled, fun s i o => keepQueue_done _ _, fun s n => exec_flowPulse_rejected,
    fun s n => exec_flowPulse_counted, fun s n => exec_flowPulse_free, ?noFlow, ?flows, fun s h => congrArg (keepQueue s) (if_pos h),
    fun s => exec_noFlowTimeout_faults, fun s => exec_flowShortTimeout_faults, ?notShort, fun s n => ⟨rfl, rfl⟩⟩
  case filled =>
    intro s l
    refine ⟨fillFree_full, fun h => ⟨fillFree_length, ?_, fun i => fillFree_getElem?⟩⟩
    rw [fillFree_short h]
  case noFlow =>
    intro s h
    rw [exec_fdemUpdate, if_pos h]
  case flows =>
    intro s h
    rw [exec_fdemUpdate, if_neg (by simp [h])]
  case notShort => exact fun s h => congrArg (keepQueue s) (if_neg (by simp [h]))

end Sys2Proof.Machine

/-! # The thermal model, the hotspot caps, the shutdown and the valve (R337 to R340, R342) -/

namespace Sys2Proof.Machine

open Sys2Proof

section Thermal

variable {s : State}

/-! ### The hotspot caps (R340) -/

section Cap

variable {k : Nat}

theorem hscTickOne_lowers (h : (s.slvPwr k).hscLow = true) : hscTickOne k s = plApply k (s.setSlvPwr k { s.slvPwr k with
    hsc := (s.slvPwr k).hsc - (if (s.slvPwr k).hsc = 0 then 0 else 1), hscTick := 0 }) :=
  congrArg (fun v => plApply k (s.setSlvPwr k v)) (if_pos h)

theorem hscTickOne_raises (h : (s.slvPwr k).hscLow = false) (hc : (s.slvPwr k).hot < (s.tobj.tjCtl : Int) * 1000)
    (ht : 9 ≤ (s.slvPwr k).hscTick) : hscTickOne k s = plApply k (s.setSlvPwr k { s.slvPwr k with
      hsc := if (s.slvPwr k).hsc = 7 then 7 else (s.slvPwr k).hsc + 1, hscTick := 0 }) :=
  congrArg (fun v => plApply k (s.setSlvPwr k v)) ((if_neg (by simp [h])).trans ((if_pos hc).trans (if_pos (by omega))))

theorem hscTickOne_counts (h : (s.slvPwr k).hscLow = false) (hc : (s.slvPwr k).hot < (s.tobj.tjCtl : Int) * 1000)
    (ht : (s.slvPwr k).hscTick < 9) : hscTickOne k s =
      plApply k (s.setSlvPwr k { s.slvPwr k with hscTick := (s.slvPwr k).hscTick + 1 }) :=
  congrArg (fun v => plApply k (s.setSlvPwr k v)) ((if_neg (by simp [h])).trans ((if_pos hc).trans (if_neg (by omega))))

end Cap

/-! ### The shutdown (R340) -/

theorem exec_thermalShutdown_stays (n : Fin 56) (h : s.thm.shut ≠ 0 ∨ s.pwr.pk3 = true) : exec (.thermalShutdown n) s = .next s :=
  congrArg (keepQueue s) (if_pos (by simpa using h))

/-- The package halted by a thermal shutdown. -/
def thermalHalted (n : Nat) (s : State) : State :=
  withdrawAll (stopAllHarts { s with thm := { s.thm with shut := 2, shutSens := n } })

/-- What follows: a drain that runs takes the cause over, and storage that is active drains first. -/
def thermalEnds (t : State) : State :=
  if t.pls.step ≠ 0 then t.modPls (fun p => { p with cause := 2 }) else if storActive t then startDrain 2 false t else thermalFinish t

theorem exec_thermalShutdown_halts (n : Fin 56) (h : s.thm.shut = 0) (hk : s.pwr.pk3 = false) :
    exec (.thermalShutdown n) s = .next { thermalEnds (thermalHalted n s) with pending := s.pending } := by
  show execThermalShutdown n s = _
  unfold execThermalShutdown
  rw [if_neg (by simp [h, hk])]
  unfold thermalHalted
  generalize withdrawAll (stopAllHarts { s with thm := { s.thm with shut := 2, shutSens := n } }) = t
  show keepQueue s (if _ then done _ else if _ then done _ else done _) = _
  rw [← apply_ite done, ← apply_ite done]
  rfl

end Thermal

/-- Settles O48: a cap by the reading and the count, a shutdown by what runs at the time, the valve by its mode. -/
theorem thermalModelCapsAndShutdown : Obligations.ThermalModelCapsAndShutdown := by
  unfold Obligations.ThermalModelCapsAndShutdown
  refine ⟨fun s => ⟨_, keepQueue_done _ _, rfl, rfl, rfl, rfl, rfl, rfl, rfl, rfl, rfl, rfl, rfl⟩, fun s => keepQueue_done _ _,
    fun s k => hscTickOne_lowers, fun s k => hscTickOne_raises, fun s k => hscTickOne_counts, fun s n => exec_thermalShutdown_stays n,
    ?halts, fun s => ⟨_, keepQueue_done _ _, rfl, fun h => if_pos h, fun h hm => (if_neg (by simp [h])).trans (if_pos hm),
      fun h hm => (if_neg (by simp [h])).trans (if_neg (by rw [hm]; exact Bool.false_ne_true)), rfl, rfl, rfl, rfl, rfl⟩⟩
  case halts =>
    intro s n h hk s1
    have hnext : exec (.thermalShutdown n) s = .next { thermalEnds s1 with pending := s.pending } := exec_thermalShutdown_halts n h hk
    clear_value s1
    exact hnext

end Sys2Proof.Machine

/-! # The security services of the dictionary (R377, R378, R384, R386, R390 to R393, R437)

Each command's body has one equation per case; a fresh request of a session of the level is answered by the status that the case ends with. -/

namespace Sys2Proof.Machine

open Sys2Proof

/-- A command of a feature that is off is not supported (Table 14.7). -/
theorem dictCommand_unsupported {s : State} {x : DictCtx} {w : Session} {i : BitVec 16} {u : BitVec 8} {l : Nat} {on : Bool}
    {body : State → State × Nat × List Byte} (h : reqState s x = .fresh w) (hf : on = false) :
    dictCommand x i u l on body s = cmdAnswered x i u stNotSupported [] s := by
  have hp : stNotSupported ≠ stPending := by decide
  simp only [dictCommand, h, if_pos hf, if_neg hp, cmdAnswered]

section Security

variable {s : State} {x : DictCtx} {w : Session}

/-! ### Attestation, counters and the boot flash (R377, R378, R390) -/

/-- What ATTEST does. -/
def attestBody (n : List Byte) (t : State) : State × Nat × List Byte :=
  if n.length ≠ 32 then (t, stTypeMismatch, []) else (t.draw, stOK, attReport t n)

/-- What SVNCOMMIT does of a session that may commit. -/
def svncommitBody (ty : BitVec 8) (t : State) : State × Nat × List Byte :=
  if ty.toNat < 1 ∨ 5 < ty.toNat then (t, stReserved, [])
  else ({ t with boot := { t.boot with svn := tabSet t.boot.svn 0 ty.toNat (max (svnFuse t ty.toNat) (commitSvn t ty.toNat)) } }, stOK, [])

/-- What FWWRITE does of a session that may write. -/
def fwwriteBody (ty k : BitVec 8) (off : BitVec 32) (d : List Byte) (t : State) : State × Nat × List Byte :=
  if ty.toNat < 1 ∨ 6 < ty.toNat ∨ 1 < k.toNat ∨ (ty.toNat = 6 ∧ k.toNat = 1) then (t, stReserved, [])
  else if d.length < 1 ∨ 4096 < d.length then (t, stTypeMismatch, [])
  else if slotLimit ty.toNat < off.toNat + d.length then (t, stReserved, [])
  else ((fwWrite ty.toNat k.toNat off.toNat d t).1, stOK, dirEntry ty.toNat k.toNat (fwWrite ty.toNat k.toNat off.toNat d t).2)

/-- What FWCHECK does of a session that may check. -/
def fwcheckBody (ty k : BitVec 8) (f : ImageFacts) (t : State) : State × Nat × List Byte :=
  if ty.toNat < 1 ∨ 5 < ty.toNat ∨ 1 < k.toNat then (t, stReserved, [])
  else (t, stOK, leBytes 1 (imageCheck t ty.toNat k.toNat f))

theorem exec_attest (n : List Byte) : exec (.attest x n) s = keepQueue s (done (dictCommand x 0x7000 0 0 true (attestBody n) s)) := rfl

theorem exec_svncommit (ty : BitVec 8) :
    exec (.svncommit x ty) s = keepQueue s (done (dictCommand x 0x7019 0 1 true (svncommitBody ty) s)) := rfl

theorem exec_fwwrite (ty k : BitVec 8) (off : BitVec 32) (d : List Byte) :
    exec (.fwwrite x ty k off d) s = keepQueue s (done (dictCommand x 0x7020 0 1 true (fwwriteBody ty k off d) s)) := rfl

theorem exec_fwcheck (ty k : BitVec 8) (f : ImageFacts) :
    exec (.fwcheck x ty k f) s = keepQueue s (done (dictCommand x 0x7021 0 1 true (fwcheckBody ty k f) s)) := rfl

theorem fwwriteBody_reserved {ty k : BitVec 8} {off : BitVec 32} {d : List Byte}
    (h : ty = 0 ∨ 6 < ty.toNat ∨ 1 < k.toNat ∨ (ty = 6 ∧ k = 1)) : fwwriteBody ty k off d s = (s, stReserved, []) := by
  exact if_pos (by bv_omega)

theorem fwwriteBody_writes {ty k : BitVec 8} {off : BitVec 32} {d : List Byte} (h1 : 1 ≤ ty.toNat) (h6 : ty.toNat ≤ 6) (hk : k.toNat ≤ 1)
    (hn : ¬ (ty = 6 ∧ k = 1)) (hd : 1 ≤ d.length) (hd' : d.length ≤ 4096) (ho : off.toNat + d.length ≤ slotLimit ty.toNat) :
    fwwriteBody ty k off d s =
      ((fwWrite ty.toNat k.toNat off.toNat d s).1, stOK, dirEntry ty.toNat k.toNat (fwWrite ty.toNat k.toNat off.toNat d s).2) := by
  exact (if_neg (by bv_omega)).trans ((if_neg (by omega)).trans (if_neg (Nat.not_lt.mpr ho)))

/-! ### Debug tokens (R392, R437) -/

/-- What DBGCHAL does of a session that may unlock. -/
def dbgchalBody (t : State) : State × Nat × List Byte := ((newChallenge t).1, stOK, (newChallenge t).2)

/-- What DBGUNLOCK does of a session that may unlock. -/
def dbgunlockBody (x : DictCtx) (tok : List Byte) (t : State) : State × Nat × List Byte :=
  if !Config.secdbgEn then ({ t with dbg := { t.dbg with tokRes := 4 } }, stRefused, [])
  else if t.dbg.tok.isSome then (t, stBusy, [])
  else if tok.length ≠ 3136 then (t, stTypeMismatch, [])
  else (tokenIn tok (some (x.sid, x.reqid)) t, stPending, [])

theorem exec_dbgchal : exec (.dbgchal x) s = keepQueue s (done (dictCommand x 0x7031 0 1 (featOn s 8) dbgchalBody s)) := rfl

theorem exec_dbgunlock (tok : List Byte) :
    exec (.dbgunlock x tok) s = keepQueue s (done (dictCommand x 0x7032 0 1 (featOn s 8) (dbgunlockBody x tok) s)) := rfl

/-- DBGUNLOCK's answer: refused, busy, of the wrong type, or pending with the token passed on. -/
def dbgunlockAnswered (x : DictCtx) (tok : List Byte) (s : State) : State :=
  if Config.secdbgEn = false then cmdAnswered x 0x7032 0 stRefused [] { s with dbg := { s.dbg with tokRes := 4 } }
  else if s.dbg.tok.isSome then cmdAnswered x 0x7032 0 stBusy [] s
  else if tok.length ≠ 3136 then cmdAnswered x 0x7032 0 stTypeMismatch [] s
  else cmdPended x 0x7032 0 (tokenIn tok (some (x.sid, x.reqid)) s)

theorem dictCommand_dbgunlock (tok : List Byte) (hw : reqState s x = .fresh w) (hl : 1 ≤ w.level.toNat) :
    dictCommand x 0x7032 0 1 true (dbgunlockBody x tok) s = dbgunlockAnswered x tok s := by
  unfold dbgunlockAnswered
  split
  next he => exact dictCommand_runs hw hl (if_pos (by simp [he])) (by decide)
  next he =>
    have hon : ¬ (!Config.secdbgEn) = true := by simpa using he
    split
    next hb => exact dictCommand_runs hw hl ((if_neg hon).trans (if_pos hb)) (by decide)
    next hb =>
      split
      next ht => exact dictCommand_runs hw hl ((if_neg hon).trans ((if_neg hb).trans (if_pos ht))) (by decide)
      next ht => exact dictCommand_pends hw hl ((if_neg hon).trans ((if_neg hb).trans (if_neg ht)))

/-! ### Handover and the management reset (R384, R386) -/

/-- A handover is possible: a holder with a present standby. -/
def canHandOver (s : State) : Bool := decide (s.own.phase = 2) && s.own.present (decide (s.own.holder ≠ 1))

theorem canHandOver_eq (s : State) :
    (decide (s.own.phase = 2) && s.own.present (!decide (s.own.holder = 1))) = canHandOver s := by
  rw [canHandOver, ← decide_not]

theorem exec_handover_gives (hw : reqState s x = .fresh w) (hl : 1 ≤ w.level.toNat) (h : canHandOver s = true) : exec (.handover x) s =
    .next { ownRelease (decide (s.own.holder = 1)) (cmdAnswered x 0x7100 2 stOK [] s) with pending := s.pending } := by
  show execHandover x s = _
  unfold execHandover
  simp only [hw, canHandOver_eq, h, decide_eq_true hl, Bool.and_self, if_true]
  rw [dictCommand_runs hw hl rfl (by decide), keepQueue_done]

theorem exec_handover_refused (hw : reqState s x = .fresh w) (hl : 1 ≤ w.level.toNat) (h : canHandOver s = false) : exec (.handover x) s =
    .next { cmdAnswered x 0x7100 2 stRefused [] s with pending := s.pending } := by
  show execHandover x s = _
  unfold execHandover
  simp only [hw, canHandOver_eq, h, Bool.and_false, Bool.false_eq_true, if_false]
  rw [dictCommand_runs hw hl rfl (by decide), keepQueue_done]

theorem exec_mgmtrst (hw : reqState s x = .fresh w) (hl : 1 ≤ w.level.toNat) : exec (.mgmtrst x) s =
    .next { mgmtReset (cmdAnswered x 0x1040 0 stOK [] s) with pending := s.pending } := by
  show execMgmtrst x s = _
  unfold execMgmtrst
  simp only [hw, decide_eq_true hl, if_true]
  rw [dictCommand_runs hw hl rfl (by decide), keepQueue_done]

end Security

/-- Settles O51: each command by the case of its body. -/
theorem securityServicesOfTheDictionary : Obligations.SecurityServicesOfTheDictionary := by
  unfold Obligations.SecurityServicesOfTheDictionary
  refine ⟨?attest, ?attestLength, fun s => keepQueue_done _ _, fun s x w hw hl => ?services⟩
  case attest =>
    exact fun s x w n hw hn => (exec_attest n).trans
      (keepQueue_done_eq (dictCommand_runs hw (Nat.zero_le _) (if_neg (not_not_intro hn)) (by decide)))
  case attestLength =>
    exact fun s x w n hw hn => (exec_attest n).trans
      (keepQueue_done_eq (dictCommand_runs hw (Nat.zero_le _) (if_pos hn) (by decide)))
  have h1 := level_pos hl
  refine ⟨?commit, ?commitReserved, ?write, ?writeReserved, ?check, keepQueue_done_eq (dictCommand_runs hw h1 rfl (by decide)), ?challenge,
    ?unlock, ?unsupported, ?handover, ?handoverRefused, exec_mgmtrst hw h1⟩
  case commit =>
    exact fun t ht ht' => (exec_svncommit t).trans
      (keepQueue_done_eq (dictCommand_runs hw h1 (if_neg (by omega)) (by decide)))
  case commitReserved =>
    intro t ht
    exact (exec_svncommit t).trans (keepQueue_done_eq (dictCommand_runs hw h1 (if_pos (by bv_omega)) (by decide)))
  case write =>
    exact fun t k o d ht ht' hk hn hd hd' ho => (exec_fwwrite t k o d).trans
      (keepQueue_done_eq (dictCommand_runs hw h1 (fwwriteBody_writes ht ht' hk hn hd hd' ho) (by decide)))
  case writeReserved =>
    exact fun t k o d h => (exec_fwwrite t k o d).trans
      (keepQueue_done_eq (dictCommand_runs hw h1 (fwwriteBody_reserved h) (by decide)))
  case check =>
    exact fun t k f ht ht' hk => (exec_fwcheck t k f).trans
      (keepQueue_done_eq (dictCommand_runs hw h1 (if_neg (by omega)) (by decide)))
  case challenge =>
    intro hf
    rw [exec_dbgchal, hf]
    exact keepQueue_done_eq (dictCommand_runs hw h1 rfl (by decide))
  case unlock =>
    intro tok hf
    rw [exec_dbgunlock, hf, dictCommand_dbgunlock tok hw h1]
    exact keepQueue_done _ _
  case unsupported =>
    exact fun tok hf => ⟨(exec_dbgunlock tok).trans (keepQueue_done_eq (dictCommand_unsupported hw hf)),
      exec_dbgchal.trans (keepQueue_done_eq (dictCommand_unsupported hw hf))⟩
  case handover =>
    intro hp ha
    have hcan : canHandOver s = true := by rw [canHandOver, hp, ha]; rfl
    exact exec_handover_gives hw h1 hcan
  case handoverRefused =>
    intro h
    have hcan : canHandOver s = false := by simpa [canHandOver, Decidable.imp_iff_not_or] using h
    exact exec_handover_refused hw h1 hcan

end Sys2Proof.Machine

/-! # The boot sequence, its keys and the release of harts (R377 to R381, R389, R442) -/

namespace Sys2Proof.Machine

open Sys2Proof

section Boot

variable {s : State} {f : BootFacts}

/-! ### A step of the sequence (R379, Table 15.4) -/

theorem exec_bootStepDone_stopped (h : s.boot.romStop = true ∨ s.pins.inReset = true) : exec (.bootStepDone f) s = .next s :=
  congrArg (keepQueue s) (if_pos h)

/-- What the step with a number does when it completes. -/
def bootArm (f : BootFacts) (s : State) : Nat → Out
  | 0 | 1 => done s
  | 2 => done { s with boot := { s.boot with step := s.boot.step + 1 } }
  | 3 =>
    if s.pkg.fuseRead = false then done s
    else if s.pkg.vestBad then done { s with boot := { s.boot with romStop := true } }
    else done { vestBist s with boot := { (vestBist s).boot with step := (vestBist s).boot.step + 1 } }
  | 4 => done (bootCloak f s)
  | 5 => done (bootImages f s)
  | 6 => done { s with boot := { s.boot with step := 8 } }
  | 8 => if s.pkg.domLock then done { s with boot := { s.boot with step := s.boot.step + 1 } } else done s
  | 9 =>
    if (presentSleeves s).any fun k => !s.pkg.slvHeld.getLsbD k then done { s with boot := { s.boot with step := s.boot.step + 1 } }
    else done s
  | 10 => done { placeNormal f s with boot := { (placeNormal f s).boot with step := (placeNormal f s).boot.step + 1 } }
  | _ => done s

section Runs

variable (hr : s.boot.romStop = false) (hi : s.pins.inReset = false)
include hr hi

theorem exec_bootStepDone_runs {n : Nat} (h : s.boot.step = n) : exec (.bootStepDone f) s = keepQueue s (bootArm f s n) := by
  subst h
  exact congrArg (keepQueue s) (if_neg (by simp [hr, hi]))

theorem exec_bootStepDone_outside (h : s.boot.step < 2 ∨ s.boot.step = 7 ∨ 10 < s.boot.step) : exec (.bootStepDone f) s = .next s := by
  rw [exec_bootStepDone_runs hr hi rfl]
  unfold bootArm
  split
  case h_1 | h_2 | h_11 => exact keepQueue_done s s
  all_goals omega

theorem exec_bootStepDone_next (h : s.boot.step = 2 ∨ (s.boot.step = 8 ∧ s.pkg.domLock = true) ∨
    (s.boot.step = 9 ∧ (presentSleeves s).any (fun k => !s.pkg.slvHeld.getLsbD k) = true)) :
    exec (.bootStepDone f) s = .next { s with boot := { s.boot with step := s.boot.step + 1 } } := by
  obtain h2 | ⟨h8, hl⟩ | ⟨h9, ha⟩ := h
  · exact exec_bootStepDone_runs hr hi h2
  · exact (exec_bootStepDone_runs hr hi h8).trans (congrArg (keepQueue s) (if_pos hl))
  · exact (exec_bootStepDone_runs hr hi h9).trans (congrArg (keepQueue s) (if_pos ha))

theorem exec_bootStepDone_waits (h : (s.boot.step = 8 ∧ s.pkg.domLock = false) ∨
    (s.boot.step = 9 ∧ (presentSleeves s).any (fun k => !s.pkg.slvHeld.getLsbD k) = false)) : exec (.bootStepDone f) s = .next s := by
  obtain ⟨h8, hl⟩ | ⟨h9, ha⟩ := h
  · exact (exec_bootStepDone_runs hr hi h8).trans (congrArg (keepQueue s) (if_neg (by simp [hl])))
  · exact (exec_bootStepDone_runs hr hi h9).trans (congrArg (keepQueue s) (if_neg (by simp [ha])))

end Runs

theorem vestBist_boot (s : State) : (vestBist s).boot = s.boot := by
  unfold vestBist
  dsimp only
  split <;> rfl

/-! ### The Cloak firmware (step 4) -/

theorem imgOf_setImg (i : Nat) (r : ImgRec) (s : State) : imgOf (setImg i r s) i = some r := by
  show tabFind i (tabInsert i r s.boot.imgs) = some r
  rw [tabFind_insert, if_pos rfl]

theorem setBytes_boot (a : Nat) (l : List Byte) (s : State) : (setBytes a l s).boot = s.boot := by
  rw [setBytes_frame]
  rfl

/-- The Cloak's image recorded, and the device secret locked. -/
def cloakLoaded (k c : Nat) (s : State) : State :=
  let t := setImg 0 (imgRec s 1 k) (setRes 0 c s)
  { t with boot := { t.boot with udsLock := true } }

/-- The Cloak's image placed at the start of the secure SRAM. -/
def cloakPlaced (k c : Nat) (s : State) : State :=
  setBytes 0x1000000 (imageBody (cloakLoaded k c s) 1 (imgRec s 1 k).slot) (cloakLoaded k c s)

theorem cloakPlaced_boot (k c : Nat) (s : State) : (cloakPlaced k c s).boot = (cloakLoaded k c s).boot := setBytes_boot _ _ _

theorem bootCloak_accepts {k c : Nat} (h : pickSlot s 1 f = (some k, c)) : bootCloak f s =
    let t := cloakPlaced k c s
    { t with boot := { t.boot with stage := 1, step := 5, meas := tabInsert 0 (imgRec s 1 k).dig t.boot.meas } } := by
  have hload : loadPicked 0 f s = (setImg 0 (imgRec s 1 k) (setRes 0 c s), true) := by
    unfold loadPicked imgType
    simp only [h]
  have himg : imgOf (cloakLoaded k c s) 0 = some (imgRec s 1 k) := imgOf_setImg 0 _ _
  unfold cloakPlaced
  unfold cloakLoaded at himg ⊢
  unfold bootCloak
  simp only [hload, himg]

theorem bootCloak_fails {c : Nat} (h : pickSlot s 1 f = (none, c)) : bootCloak f s =
    let t := imageFail 1 1 c (setRes 0 c (dropImg 0 s))
    { t with boot := { t.boot with udsLock := true, romStop := true } } := by
  have hload : loadPicked 0 f s = (imageFail 1 1 c (setRes 0 c (dropImg 0 s)), false) := by
    unfold loadPicked imgType
    simp only [h]
  unfold bootCloak
  simp only [hload]

/-! ### The release of harts (R380) -/

theorem exec_hartrelSet {w : Agent} (v : Word) (hw : agentRuns s w = true) :
    exec (.hartrelSet w v) s = .next { wrHartrel w v s with pending := s.pending } := congrArg (keepQueue s) (sentBy_runs hw)

theorem wrHartrel_holder {m : Mc} (v : Word) (h : mcHolds s m = true) : wrHartrel (.mc m) v s =
    settleRelease { s with boot := { s.boot with hartrel := s.boot.hartrel ||| fld v 0 12 } } := if_pos h

theorem wrHartrel_other {w : Agent} (v : Word) (h : ∀ m, w = .mc m → mcHolds s m = false) : wrHartrel w v s = s := by
  cases w with
  | mc m => exact if_neg (by simp [h m rfl])
  | _ => rfl

end Boot

/-- Settles O49: a boot step by its number, a release by its writer. -/
theorem bootSequenceAndRelease : Obligations.BootSequenceAndRelease := by
  unfold Obligations.BootSequenceAndRelease
  refine ⟨fun s f => exec_bootStepDone_stopped, fun s f => exec_bootStepDone_outside, fun s f => exec_bootStepDone_next,
    fun s f => exec_bootStepDone_waits, ?fuses, fun s f hr hi h => exec_bootStepDone_runs hr hi h, ?accepts, ?fails, fun s f hr hi h => exec_bootStepDone_runs hr hi h,
    fun s f hr hi h => exec_bootStepDone_runs hr hi h, ?normal, ?keys, fun s h => congrArg (keepQueue s) (if_pos h), ?holder, ?other⟩
  case fuses =>
    refine fun s f hr hi h3 => ⟨fun hf => ?_, fun hf hb => ?_, fun hf hb => ?_⟩
    · exact (exec_bootStepDone_runs hr hi h3).trans (congrArg (keepQueue s) (if_pos hf))
    · exact (exec_bootStepDone_runs hr hi h3).trans (congrArg (keepQueue s) ((if_neg (by simp [hf])).trans (if_pos hb)))
    · refine ((exec_bootStepDone_runs hr hi h3).trans (congrArg (keepQueue s) ((if_neg (by simp [hf])).trans (if_neg (by simp [hb]))))).trans ?_
      rw [keepQueue_done, vestBist_boot, h3]
  case accepts =>
    intro s f k c h
    have hstop : (cloakPlaced k c s).boot.romStop = s.boot.romStop := by rw [cloakPlaced_boot]; rfl
    have hlock : (cloakPlaced k c s).boot.udsLock = true := by rw [cloakPlaced_boot]; rfl
    rw [bootCloak_accepts h]
    exact ⟨rfl, rfl, hstop, hlock⟩
  case fails =>
    intro s f c h
    rw [bootCloak_fails h]
    exact ⟨rfl, rfl, rfl⟩
  case normal =>
    intro s f hr hi h
    rw [exec_bootStepDone_runs hr hi h, bootArm, keepQueue_done]
  case keys => exact fun s hs hk => congrArg (keepQueue s) (if_neg (by simp [hk]; omega))
  case holder =>
    intro s m v hw h
    rw [exec_hartrelSet v hw, wrHartrel_holder v h]
  case other =>
    intro s w v hw h
    rw [exec_hartrelSet v hw, wrHartrel_other v h]

end Sys2Proof.Machine

/-! # The ownership of the package (R382 to R386)

A live controller's write of its CTL with one bit does what that bit says; PEERABS is written back as it stood. -/

namespace Sys2Proof.Machine

open Sys2Proof

section Own

variable {s : State} {m : Mc}

/-! ### Writes of VEST.OWN.CTL (Table 15.7) -/

theorem exec_own_unheard (h : mcLive s m = false) : exec (.ownClaim m) s = .next s ∧ exec (.ownTake m) s = .next s ∧
    exec (.ownRelease m) s = .next s ∧ exec (.ownAlive m) s = .next s := by
  have hn (n : Nat) : keepQueue s (done (ownBit m n s)) = .next s := congrArg (fun t => keepQueue s (done t)) (if_neg (by simp [h]))
  exact ⟨hn 63, hn 62, hn 61, hn 60⟩

/-- What a live controller's CTL word does that leaves PEERABS as it is. -/
def ctlActs (e : Bool) (v : Word) (s : State) : State :=
  let s2 := if bit v 60 then ownAlive e s else s
  let s3 := if bit v 61 then ownRelease e s2 else s2
  let s4 := if bit v 62 then ownTake e s3 else s3
  if bit v 63 then ownClaim e s4 else s4

theorem wrOwnCtl_live {v : Word} (h : mcLive s m = true) (hv : bit v 59 = if mcBit m then s.own.absE else s.own.absW) :
    wrOwnCtl (.mc m) m v s = ctlActs (mcBit m) v s := by
  have hown : ({ s with own := if mcBit m then { s.own with absE := bit v 59 } else { s.own with absW := bit v 59 } } : State) = s := by
    rw [hv]
    cases mcBit m <;> rfl
  unfold wrOwnCtl
  rw [if_pos ⟨rfl, h⟩]
  simp only [hown]
  rfl

theorem ctlActs_claim (e b : Bool) (s : State) : ctlActs e (cat [on 63 true, on 59 b]) s = ownClaim e s := by cases b <;> rfl
theorem ctlActs_take (e b : Bool) (s : State) : ctlActs e (cat [on 62 true, on 59 b]) s = ownTake e s := by cases b <;> rfl
theorem ctlActs_release (e b : Bool) (s : State) : ctlActs e (cat [on 61 true, on 59 b]) s = ownRelease e s := by cases b <;> rfl
theorem ctlActs_alive (e b : Bool) (s : State) : ctlActs e (cat [on 60 true, on 59 b]) s = ownAlive e s := by cases b <;> rfl

section Live

variable (h : mcLive s m = true)
include h

theorem ownBit_live {n : Nat} (hn : ∀ b : Bool, bit (cat [on n true, on 59 b]) 59 = b) :
    ownBit m n s = ctlActs (mcBit m) (cat [on n true, on 59 (if mcBit m then s.own.absE else s.own.absW)]) s :=
  wrOwnCtl_live h (hn _)

theorem exec_ownClaim_live : exec (.ownClaim m) s = .next { ownClaim (mcBit m) s with pending := s.pending } :=
  keepQueue_done_eq ((ownBit_live h (by decide)).trans (ctlActs_claim _ _ _))

theorem exec_ownTake_live : exec (.ownTake m) s = .next { ownTake (mcBit m) s with pending := s.pending } :=
  keepQueue_done_eq ((ownBit_live h (by decide)).trans (ctlActs_take _ _ _))

theorem exec_ownRelease_live : exec (.ownRelease m) s = .next { ownRelease (mcBit m) s with pending := s.pending } :=
  keepQueue_done_eq ((ownBit_live h (by decide)).trans (ctlActs_release _ _ _))

theorem exec_ownAlive_live : exec (.ownAlive m) s = .next { ownAlive (mcBit m) s with pending := s.pending } :=
  keepQueue_done_eq ((ownBit_live h (by decide)).trans (ctlActs_alive _ _ _))

end Live

/-! ### What the bits do -/

theorem ownTake_keeps {e : Bool} (h : s.own.phase ≠ 2 ∨ s.own.holder ≠ mcCode (!e) ∨ s.own.present (!e) = true) : ownTake e s = s :=
  if_neg fun ⟨hp, hh, ha⟩ => by
    obtain h | h | h := h
    · exact h hp
    · exact h hh
    · rw [ha] at h; cases h

theorem ownRelease_gives {e : Bool} (hp : s.own.phase = 2) (hh : s.own.holder = mcCode e) (ha : s.own.present (!e) = true) :
    ownRelease e s = giveToken (!e) s := if_pos ⟨hp, hh, ha⟩

theorem ownRelease_keeps {e : Bool} (h : s.own.phase ≠ 2 ∨ s.own.holder ≠ mcCode e ∨ s.own.present (!e) = false) : ownRelease e s = s :=
  if_neg fun ⟨hp, hh, ha⟩ => by
    obtain h | h | h := h
    · exact h hp
    · exact h hh
    · rw [ha] at h; cases h

/-- The effects of a takeover: the token, the count, and the former holder held in reset. -/
theorem ownTake_takes {e : Bool} (hp : s.own.phase = 2) (hh : s.own.holder = mcCode (!e)) (ha : s.own.present (!e) = false) :
    (ownTake e s).own.holder = mcCode e ∧ (ownTake e s).own.takeovers = satInc s.own.takeovers ∧ (ownTake e s).own.inRst (!e) = true := by
  unfold ownTake
  rw [if_pos ⟨hp, hh, ha⟩]
  cases e <;> exact ⟨rfl, rfl, rfl⟩

/-! ### The window, absence and disagreement (R382, R383, R385) -/

/-- With neither controller present, the holder and its standby are both absent. -/
theorem absent_both (h : Bool) : (s.own.present h = false ∧ s.own.present (!h) = false) ↔
    (s.own.present true = false ∧ s.own.present false = false) := by
  cases h
  · exact and_comm
  · exact Iff.rfl

theorem exec_holderAbsentTimeout_resets (hp : s.own.phase = 2) (ht : s.own.present true = false) (hf : s.own.present false = false) :
    exec .holderAbsentTimeout s = .next { mgmtReset s with pending := s.pending } :=
  congrArg (keepQueue s) (if_pos ⟨hp, (absent_both _).mpr ⟨ht, hf⟩⟩)

theorem exec_holderAbsentTimeout_stays (h : s.own.phase ≠ 2 ∨ s.own.present true = true ∨ s.own.present false = true) :
    exec .holderAbsentTimeout s = .next s :=
  congrArg (keepQueue s) (if_neg fun ⟨hp, ha⟩ => by
    obtain ⟨ht, hf⟩ := (absent_both _).mp ha
    simp [hp, ht, hf] at h)

end Own

/-- Settles O50: a write of CTL by whether its controller is live, a timeout by who is present. -/
theorem ownershipOfThePackage : Obligations.OwnershipOfThePackage := by
  unfold Obligations.OwnershipOfThePackage
  refine ⟨fun s m => exec_own_unheard, ?claims, ?claimLate, ?alive, ?presence, ?both, ?sole, fun s h => congrArg (keepQueue s) (if_pos h),
    fun s e => ⟨rfl, rfl⟩, ?takes, ?takeKeeps, ?releases, ?releaseKeeps, fun s => exec_holderAbsentTimeout_resets,
    fun s => exec_holderAbsentTimeout_stays, fun s h => congrArg (keepQueue s) (if_neg (by simp [h])), ?disagree,
    fun s e w h => congrArg (keepQueue s) (if_pos h), ?reload⟩
  case claims =>
    intro s m h hp
    rw [exec_ownClaim_live h, ownClaim, if_neg (Nat.not_le.mpr hp)]
    cases m <;> rfl
  case claimLate =>
    intro s m h hp
    rw [exec_ownClaim_live h, ownClaim, if_pos hp]
  case alive =>
    intro s m h
    rw [exec_ownAlive_live h]
    cases m <;> rfl
  case presence => exact fun s m => by cases m <;> rfl
  case both =>
    intro s hp he hw
    exact congrArg (keepQueue s) ((if_neg (not_not_intro hp)).trans (if_pos (by simp [he, hw])))
  case sole =>
    intro s hp h
    exact congrArg (keepQueue s) ((if_neg (not_not_intro hp)).trans (if_neg (by simpa [Decidable.imp_iff_not_or] using h)))
  case takes => exact fun s m h hp hh ha => ⟨exec_ownTake_live h, ownTake_takes hp hh ha⟩
  case takeKeeps =>
    intro s m h hk
    rw [exec_ownTake_live h, ownTake_keeps hk]
  case releases =>
    intro s m h hp hh ha
    rw [exec_ownRelease_live h, ownRelease_gives hp hh ha]
  case releaseKeeps =>
    intro s m h hk
    rw [exec_ownRelease_live h, ownRelease_keeps hk]
  case disagree => exact fun s h => ⟨_, congrArg (keepQueue s) (if_pos h), rfl, rfl, rfl, rfl, rfl⟩
  case reload => exact fun s e w h => congrArg (keepQueue s) (if_neg (by simp [h]))

end Sys2Proof.Machine

/-! # Records, ports and clearing of the Pocket (R396, R398, R403, R405, R409, R412, R413) -/

namespace Sys2Proof.Machine

open Sys2Proof

section Pocket

variable {s : State}

/-! ### A record write (R405) -/

theorem exec_pocketRecordWrite_empty (h : s.pkt.queue = []) : exec .pocketRecordWrite s = .next s := by
  show execPocketRecordWrite s = _
  simp only [execPocketRecordWrite, h, keepQueue_done]

theorem exec_pocketRecordWrite_oldest {e : PktEntry} {l : List PktEntry} (h : s.pkt.queue = e :: l) :
    exec .pocketRecordWrite s = .next { writeEntry e s with pending := s.pending } := by
  show execPocketRecordWrite s = _
  simp only [execPocketRecordWrite, h, keepQueue_done]

/-! ### Clearing (R412) -/

theorem exec_pocketClear_permitted {w : Agent} {a : Nat} (hw : agentRuns s w = true) (ha : clearAgent s w = some a) :
    exec (.pocketClear w) s = .next { clearRing a s with pending := s.pending } := by
  show execPocketClear w s = _
  simp only [execPocketClear, sentBy_runs hw, ha, keepQueue_done]

theorem exec_pocketClear_other {w : Agent} (hw : agentRuns s w = true) (ha : clearAgent s w = none) : exec (.pocketClear w) s = .next s := by
  show execPocketClear w s = _
  simp only [execPocketClear, sentBy_runs hw, ha, keepQueue_done]

/-- The CLEARED record of an agent. -/
def clearedRecord (a : Nat) : Report := mkReport 0 0 0x003 false 8 (leBytes 1 a)

/-- A record that fits before the ring's end is put at HEAD. -/
theorem newRec_fits {p : Pkt} (time rep now : Nat) (r : Report) (h : p.head + recSize r ≤ ringSize) :
    let q := newRec time rep now r p
    let u := putRec p.head time rep r p
    q.ring = u.ring ∧ q.written = u.written ∧ q.overwr = u.overwr ∧ q.head = u.head ∧ q.tail = u.tail ∧ q.queue = u.queue := by
  simp only [newRec, decide_eq_true h, if_true, and_self]

/-- The first record of an empty ring. -/
theorem putRec_first {p : Pkt} (time rep : Nat) (r : Report) (hr : p.ring = []) (hs : recSize r < ringSize) :
    let u := putRec 0 time rep r p
    u.ring = [⟨0, time, rep, r, false, false⟩] ∧ u.written = satInc p.written ∧ u.overwr = satAdd p.overwr 0 ∧ u.head = recSize r ∧
      u.tail = 0 ∧ u.queue = p.queue := by
  simp only [putRec, evictRecs, hr, Nat.zero_add, Nat.mod_eq_of_lt hs, List.filter_nil, List.nil_append, List.length_nil, List.head?_cons,
    Option.map_some, Option.getD_some, and_self]

theorem recSize_clearedRecord (a : Nat) : recSize (clearedRecord a) = 32 := by
  simp [recSize, clearedRecord, mkReport, leBytes, zeros]

/-- The ring with no record, its pointers and counts zero. -/
def ringEmptied (p : Pkt) : Pkt := { p with
  ring := [], back := p.ring.foldl (fun m g => unrecord g m) p.back, head := 0, tail := 0, written := 0, overwr := 0, rdLoaded := false }

theorem clearRing_pkt (a : Nat) (s : State) : (clearRing a s).pkt = newRec s.time 1 s.time (clearedRecord a) (ringEmptied s.pkt) := rfl

theorem clearRing_first (a : Nat) (s : State) : (clearRing a s).pkt.ring = [⟨0, s.time, 1, clearedRecord a, false, false⟩] ∧
    (clearRing a s).pkt.written = 1 ∧ (clearRing a s).pkt.overwr = 0 ∧ (clearRing a s).pkt.head = 32 ∧ (clearRing a s).pkt.tail = 0 ∧
    (clearRing a s).pkt.queue = s.pkt.queue := by
  have hlt : recSize (clearedRecord a) < ringSize := by rw [recSize_clearedRecord]; decide
  have hfits : (ringEmptied s.pkt).head + recSize (clearedRecord a) ≤ ringSize := (Nat.zero_add _).trans_le hlt.le
  obtain ⟨hring, hwritten, hoverwr, hhead, htail, hqueue⟩ := newRec_fits s.time 1 s.time (clearedRecord a) hfits
  obtain ⟨hring', hwritten', hoverwr', hhead', htail', hqueue'⟩ :=
    putRec_first (p := ringEmptied s.pkt) s.time 1 (clearedRecord a) rfl hlt
  rw [clearRing_pkt]
  exact ⟨hring.trans hring', hwritten.trans hwritten', hoverwr.trans hoverwr', (hhead.trans hhead').trans (recSize_clearedRecord a), htail.trans htail',
    hqueue.trans hqueue'⟩

/-! ### The read port (R403) -/

theorem exec_rdptrWrite {w : Agent} (v : Word) (hw : agentRuns s w = true) :
    exec (.rdptrWrite w v) s = .next { s with pkt := rdptrWrite (fld v 0 22).toNat s.pkt } := congrArg (keepQueue s) (sentBy_runs hw)

theorem exec_rddataRead {w : Agent} (hw : agentRuns s w = true) :
    exec (.rddataRead w) s = .next { s with pkt := (rddataRead s.pkt).1, answer := .word (rddataRead s.pkt).2 } :=
  congrArg (keepQueue s) (sentBy_runs hw)

theorem rddataRead_next {p : Pkt} {v : Word} {l : List Word} (h : p.rdBuf = v :: l) : rddataRead p = ({ p with rdBuf := l }, v) := by
  simp only [rddataRead, h]

theorem rddataRead_idle {p : Pkt} (hb : p.rdBuf = []) (hr : p.ring = []) : rddataRead p = (p, BitVec.allOnes 64) := by
  have hnext : portNext p.rdOff.toNat ([] : List PktRec) = none := rfl
  simp only [rddataRead, hb, hr, hnext, List.head?_nil, ite_self]

theorem portWords_ne_nil (g : PktRec) : portWords g ≠ [] := by
  unfold portWords
  dsimp only
  split <;> simp

theorem rddataRead_tail {p : Pkt} {g : PktRec} {l : List PktRec} (hb : p.rdBuf = []) (hl : p.rdLoaded = false) (hr : p.ring = g :: l) :
    rddataRead p = ({ portLoad g p with rdBuf := (portWords g).tail }, (portWords g).head?.getD 0) := by
  cases hw : portWords g with
  | nil => exact absurd hw (portWords_ne_nil g)
  | cons v r => simp only [rddataRead, hb, hl, hr, hw, Bool.false_eq_true, if_false, List.head?_cons, List.tail_cons, Option.getD_some]

/-! ### The dictionary's reads (R413) -/

/-- What PKTREAD does. -/
def pktreadBody (o : BitVec 32) (m : BitVec 16) (t : State) : State × Nat × List Byte :=
  if m.toNat < 16 ∨ 8000 < m.toNat then (t, stReserved, [])
  else (t, stOK, (recsFrom o.toNat m.toNat t.pkt).1 ++ leBytes 4 (recsFrom o.toNat m.toNat t.pkt).2)

/-- The unit that MIRREAD names. -/
def mirrorUnit (c : BitVec 8) (n : BitVec 32) (t : State) : Option MirUnit := (if c = 0 then t.pkt.mir0 else t.pkt.mir1)[n.toNat - 1]?

/-- What MIRREAD does of a session that may read the mirror. -/
def mirreadBody (c : BitVec 8) (n : BitVec 32) (t : State) : State × Nat × List Byte :=
  if 1 < c.toNat ∨ n = 0 then (t, stReserved, [])
  else
    match mirrorUnit c n t with
    | some u => (t, stOK, unitBytes u)
    | none => (t, stFailed, [])

theorem exec_pktread (x : DictCtx) (o : BitVec 32) (m : BitVec 16) :
    exec (.pktread x o m) s = keepQueue s (done (dictCommand x 0x6010 0 0 true (pktreadBody o m) s)) := rfl

theorem exec_mirread (x : DictCtx) (c : BitVec 8) (n : BitVec 32) :
    exec (.mirread x c n) s = keepQueue s (done (dictCommand x 0x6011 0 1 true (mirreadBody c n) s)) := rfl

section Unit

variable {c : BitVec 8} {n : BitVec 32} (hc : c.toNat ≤ 1) (hn : n ≠ 0)
include hc hn

theorem mirreadBody_unit {u : MirUnit} (h : mirrorUnit c n s = some u) : mirreadBody c n s = (s, stOK, unitBytes u) := by
  unfold mirreadBody
  rw [if_neg (not_or_intro (Nat.not_lt.mpr hc) hn), h]

theorem mirreadBody_erased (h : mirrorUnit c n s = none) : mirreadBody c n s = (s, stFailed, []) := by
  unfold mirreadBody
  rw [if_neg (not_or_intro (Nat.not_lt.mpr hc) hn), h]

end Unit

end Pocket

/-- Settles O52: a record write by the queue, a clear by its agent, a read by the buffer, a dictionary read by the case of its body. -/
theorem pocketRecordsAndPorts : Obligations.PocketRecordsAndPorts := by
  unfold Obligations.PocketRecordsAndPorts
  refine ⟨fun s r => keepQueue_done _ _, fun s => exec_pocketRecordWrite_empty, fun s e l => exec_pocketRecordWrite_oldest,
    fun s hd he => congrArg (keepQueue s) (if_pos (by simp [hd, he])), ?forgets, fun s h => congrArg (keepQueue s) (if_pos h),
    fun s h => congrArg (keepQueue s) (if_neg h), fun s w a => exec_pocketClear_permitted, fun s w => exec_pocketClear_other,
    clearRing_first, ?selects, ?noRecord, ?nextWord, ?idleWord, ?tailWord, ?reads, ?readReserved, ?mirror,
    fun s x w hw hl => keepQueue_done_eq (dictCommand_runs hw (level_pos hl) rfl (by decide))⟩
  case forgets => exact fun s h => congrArg (keepQueue s) (if_neg (by simpa [Decidable.imp_iff_not_or] using h))
  case selects =>
    intro s w v g hw hg
    rw [exec_rdptrWrite v hw, rdptrWrite, hg]
    rfl
  case noRecord =>
    intro s w v hw hg
    rw [exec_rdptrWrite v hw, rdptrWrite, hg, BitVec.ofNat_toNat, BitVec.setWidth_eq]
  case nextWord =>
    intro s w v l hw hb
    rw [exec_rddataRead hw, rddataRead_next hb]
  case idleWord =>
    intro s w hw hb hr
    rw [exec_rddataRead hw, rddataRead_idle hb hr]
  case tailWord =>
    intro s w g l hw hb hl hr
    rw [exec_rddataRead hw, rddataRead_tail hb hl hr]
  case reads =>
    exact fun s x w o m hw hm hm' => (exec_pktread x o m).trans
      (keepQueue_done_eq (dictCommand_runs hw (Nat.zero_le _) (if_neg (by omega)) (by decide)))
  case readReserved =>
    exact fun s x w o m hw h => (exec_pktread x o m).trans
      (keepQueue_done_eq (dictCommand_runs hw (Nat.zero_le _) (if_pos h) (by decide)))
  case mirror =>
    refine fun s x w c n hw hl hc hn => ⟨fun u hu => ?_, fun hu => ?_⟩
    · exact (exec_mirread x c n).trans
        (keepQueue_done_eq (dictCommand_runs hw (level_pos hl) (mirreadBody_unit hc hn hu) (by decide)))
    · exact (exec_mirread x c n).trans
        (keepQueue_done_eq (dictCommand_runs hw (level_pos hl) (mirreadBody_erased hc hn hu) (by decide)))

end Sys2Proof.Machine

/-! # The Pocket's ingress queue (R405 to R408)

The bounds speak of the entries' places and source classes alone: a report adds at most one entry, where its kind has room, and a
record write takes one away before it may place a LOST record. -/

namespace Sys2Proof.Machine

open Sys2Proof

/-! ### The bounds as counts -/

/-- Shared entries of a queue, and the reserved ones of a class. -/
def sharedIn (q : List PktEntry) : Nat := q.countP fun e => !e.rsvd
def reservedIn (k : Nat) (q : List PktEntry) : Nat := q.countP fun e => e.rsvd && srcCls e.rpt == k

theorem ingressOk_iff (p : Pkt) : ingressOk p ↔ sharedIn p.queue ≤ 48 ∧ ∀ k, reservedIn k p.queue ≤ 1 := by
  simp only [ingressOk, sharedIn, reservedIn, List.countP_eq_length_filter]

theorem ingressOk_of_queue {p p' : Pkt} (h : p'.queue = p.queue) (hp : ingressOk p) : ingressOk p' := by
  rw [ingressOk_iff] at hp ⊢
  rwa [h]

theorem sharedIn_append (q r : List PktEntry) : sharedIn (q ++ r) = sharedIn q + sharedIn r := List.countP_append

theorem reservedIn_append (k : Nat) (q r : List PktEntry) : reservedIn k (q ++ r) = reservedIn k q + reservedIn k r := List.countP_append

theorem sharedIn_eq (p : Pkt) : sharedIn p.queue = pktOcc p - pktRsv p := by
  have h := List.length_eq_countP_add_countP (fun e : PktEntry => e.rsvd) (l := p.queue)
  simp only [pktOcc, pktRsv, sharedIn, ← List.countP_eq_length_filter]
  simp only [Bool.not_eq_true, Bool.decide_eq_false] at h
  omega

/-- An entry that takes a report's occurrence stays where it is and of its class. -/
theorem ingressOk_folds {p : Pkt} {e : PktEntry} (n : Nat) (h : p.queue.getLast? = some e) (hp : ingressOk p) :
    ingressOk { p with queue := p.queue.dropLast ++ [{ e with count := n }] } := by
  have hq : p.queue = p.queue.dropLast ++ [e] := (List.dropLast_append_getLast? e h).symm
  rw [ingressOk_iff] at hp ⊢
  rw [hq] at hp
  simp only [sharedIn_append, reservedIn_append] at hp ⊢
  exact hp

/-! ### A report (R406, R407) -/

theorem ingressOk_shares {p : Pkt} (r : Report) (now n : Nat) (hroom : sharedIn p.queue < 48) (hp : ingressOk p) :
    ingressOk (pktEnqueue r now n false p) := by
  rw [ingressOk_iff] at hp ⊢
  obtain ⟨-, hk⟩ := hp
  refine ⟨?_, fun k => ?_⟩
  · show sharedIn (p.queue ++ [⟨r, now, n, false⟩]) ≤ 48
    rw [sharedIn_append]
    exact hroom
  · show reservedIn k (p.queue ++ [⟨r, now, n, false⟩]) ≤ 1
    rw [reservedIn_append]
    exact hk k

theorem reservedIn_eq_zero {q : List PktEntry} {k : Nat} (h : (q.any fun e => e.rsvd && srcCls e.rpt == k) = false) :
    reservedIn k q = 0 := by
  rw [reservedIn, List.countP_eq_zero]
  simpa using h

theorem ingressOk_reserves {p : Pkt} (r : Report) (now n : Nat)
    (hfree : (p.queue.any fun e => e.rsvd && srcCls e.rpt == srcCls r) = false) (hp : ingressOk p) :
    ingressOk (pktEnqueue r now n true p) := by
  rw [ingressOk_iff] at hp ⊢
  obtain ⟨hs, hk⟩ := hp
  refine ⟨?_, fun k => ?_⟩
  · show sharedIn (p.queue ++ [⟨r, now, n, true⟩]) ≤ 48
    rw [sharedIn_append]
    exact hs
  · show reservedIn k (p.queue ++ [⟨r, now, n, true⟩]) ≤ 1
    rw [reservedIn_append]
    by_cases h : srcCls r = k
    · subst h
      have hone : reservedIn (srcCls r) [⟨r, now, n, true⟩] ≤ 1 := List.countP_le_length
      rw [reservedIn_eq_zero hfree]
      omega
    · have hnone : reservedIn k [⟨r, now, n, true⟩] = 0 := by simp [reservedIn, h]
      rw [hnone]
      exact hk k

theorem ingressOk_pktNew (r : Report) (now : Nat) {p : Pkt} (hp : ingressOk p) : ingressOk (pktNew r now p) := by
  obtain ⟨hroom, h⟩ | ⟨-, -, h⟩ | ⟨-, hfree, h⟩ := pktNew_cases r now p
  · rw [h]
    exact ingressOk_shares r now 1 (by rwa [sharedIn_eq]) hp
  · rw [h]
    exact hp
  · rw [h]
    exact ingressOk_reserves r now 1 hfree hp

theorem ingressOk_pktIngress (r : Report) (now : Nat) {p : Pkt} (hp : ingressOk p) : ingressOk (pktIngress r now p) := by
  have hc : ingressOk (countCls r p) := ingressOk_of_queue (countCls_queue r p).1 hp
  obtain ⟨e, he, -, h⟩ | ⟨g, -, -, -, h⟩ | h := pktIngress_cases r now p
  · rw [h]
    exact ingressOk_folds _ he hc
  · rw [h]
    exact hc
  · rw [h]
    exact ingressOk_pktNew r now hc

/-! ### A record write (R405, R408) -/

theorem newRec_queue (time rep now : Nat) (r : Report) (p : Pkt) : (newRec time rep now r p).queue = p.queue := by
  unfold newRec
  dsimp only
  split <;> rfl

theorem errMsiFor_queue (c : BitVec 3) (s : State) : (errMsiFor c s).pkt.queue = s.pkt.queue := by
  have hsend : (sendErrMsi s).pkt.queue = s.pkt.queue := by
    unfold sendErrMsi
    dsimp only
    split
    · rw [imsicSet_frame]
    · rfl
  unfold errMsiFor
  dsimp only
  split
  · split
    · split
      · rfl
      · exact hsend
    · exact hsend
  · rfl

theorem mirProgram_queue (cap : Nat) (two : Bool) (p : Pkt) : (mirProgram cap two p).queue = p.queue := by
  unfold mirProgram
  extract_lets w rot p0 to0 to1
  split
  · rfl
  · split <;> rfl

theorem mirFill_queue (n : Nat) (s : State) : (mirFill n s).pkt.queue = s.pkt.queue := by
  induction n generalizing s with
  | zero => rfl
  | succ n ih =>
    unfold mirFill
    split
    · exact (ih _).trans (mirProgram_queue _ _ _)
    · rfl

/-- A LOST record is placed where the queue has fallen to 32 entries, so that it leaves room. -/
theorem ingressOk_placeLost (now : Nat) {p : Pkt} (hp : ingressOk p) : ingressOk (placeLost now p) := by
  unfold placeLost
  split
  next h =>
    have hle : sharedIn p.queue ≤ p.queue.length := List.countP_le_length
    exact ingressOk_of_queue rfl (ingressOk_shares (mkReport 0 0 0x002 false 80 _) now 1 (by omega) hp)
  next => exact hp

theorem ingressOk_drop {p p' : Pkt} (h : p'.queue = p.queue.drop 1) (hp : ingressOk p) : ingressOk p' := by
  rw [ingressOk_iff] at hp ⊢
  obtain ⟨hs, hk⟩ := hp
  have hsub : p'.queue.Sublist p.queue := h ▸ List.drop_sublist 1 _
  exact ⟨(hsub.countP_le).trans hs, fun k => (hsub.countP_le).trans (hk k)⟩

/-- What follows the writing of a new record keeps the queue that the record was written with. -/
theorem ingressOk_afterRecord {s t : State} {n m : Nat} (c : BitVec 3) (o : Nat) (ht : t.pkt = s.pkt) (hs : ingressOk s.pkt) :
    ingressOk (mirFill n (errMsiFor c (cleanRing o m t))).pkt := by
  refine ingressOk_of_queue ?_ hs
  rw [mirFill_queue, errMsiFor_queue, ← ht]
  rfl

theorem ingressOk_writeEntry (e : PktEntry) {s : State} (hs : ingressOk s.pkt) : ingressOk (writeEntry e s).pkt := by
  have htaken (q : Pkt) (hq : q.queue = s.pkt.queue.drop 1) (m : Nat) : ingressOk (placeLost s.time (newRec e.time m s.time e.rpt q)) :=
    ingressOk_placeLost _ (ingressOk_of_queue (newRec_queue _ _ _ _ _) (ingressOk_drop hq hs))
  have hfresh (q : Pkt) (hq : q.queue = s.pkt.queue.drop 1) (m o n : Nat) : ingressOk (mirFill 4 (errMsiFor e.rpt.cls
      (cleanRing o n { s with pkt := placeLost s.time (newRec e.time m s.time e.rpt q) }))).pkt :=
    ingressOk_afterRecord (s := { s with pkt := placeLost s.time (newRec e.time m s.time e.rpt q) }) _ _ rfl (htaken q hq m)
  unfold writeEntry
  dsimp only
  split
  · split
    · split
      · exact ingressOk_placeLost _ (ingressOk_drop rfl hs)
      · exact hfresh _ rfl _ _ _
    · exact hfresh _ rfl _ _ _
  · exact hfresh _ rfl _ _ _

/-! ### The queue's length -/

theorem srcCls_lt (r : Report) : srcCls r < 16 := (r.src.extractLsb' 12 4).isLt

/-- With at most one reserved entry of each of the sixteen classes there are at most sixteen. -/
theorem reserved_le_sixteen {q : List PktEntry} (h : ∀ k, reservedIn k q ≤ 1) : (q.filter (·.rsvd)).length ≤ 16 := by
  have hnodup : ((q.filter (·.rsvd)).map fun e => srcCls e.rpt).Nodup := by
    rw [List.nodup_iff_count_le_one]
    intro k
    have hcount : ((q.filter (·.rsvd)).map fun e => srcCls e.rpt).count k = reservedIn k q := by
      rw [List.count, List.countP_map, List.countP_filter, reservedIn]
      exact List.countP_congr fun e _ => by simp [and_comm]
    rw [hcount]
    exact h k
  have hsub : ((q.filter (·.rsvd)).map fun e => srcCls e.rpt) ⊆ List.range 16 := by
    intro k hk
    obtain ⟨e, -, rfl⟩ := List.mem_map.mp hk
    exact List.mem_range.mpr (srcCls_lt e.rpt)
  simpa using (List.subperm_of_subset hnodup hsub).length_le

theorem queue_le_of_ingressOk {p : Pkt} (hp : ingressOk p) : p.queue.length ≤ 64 := by
  obtain ⟨hs, hk⟩ := (ingressOk_iff p).mp hp
  have hr : pktRsv p ≤ 16 := reserved_le_sixteen hk
  rw [sharedIn_eq] at hs
  unfold pktOcc at hs
  omega

/-- Settles O53: a report adds where its kind has room, a record write takes an entry away first. -/
theorem pocketIngressKeepsItsBounds : Obligations.PocketIngressKeepsItsBounds := by
  refine ⟨fun r now p => ingressOk_pktIngress r now, fun e s => ingressOk_writeEntry e, fun s t r hs h => ?_, fun p => queue_le_of_ingressOk,
    by decide, fun k => Nat.zero_le _⟩
  obtain h | h := h
  · cases h
    exact ingressOk_pktIngress r s.time hs
  · cases hq : s.pkt.queue with
    | nil =>
      have hexec : exec .pocketRecordWrite s = .next s := by
        show execPocketRecordWrite s = _
        simp only [execPocketRecordWrite, hq, keepQueue_done]
      cases hexec.symm.trans h
      exact hs
    | cons e l =>
      have hexec : exec .pocketRecordWrite s = .next { writeEntry e s with pending := s.pending } := by
        show execPocketRecordWrite s = _
        simp only [execPocketRecordWrite, hq, keepQueue_done]
      cases hexec.symm.trans h
      exact ingressOk_writeEntry e hs

end Sys2Proof.Machine

/-! # The management network and the sessions of the dictionary (R347 to R355)

A datagram, a hello and an authentication each run a chain of checks. Each lemma here names one outcome of a chain by the
checks that lead to it. -/

namespace Sys2Proof.Machine

open Sys2Proof

section Network

variable {s : State} {src : NetAddr} {b : List Byte}

/-! ### Datagrams (R348, R349, R353) -/

theorem datagramReceive_notServing (hs : adpServes s = false) : datagramReceive src b s = { s with answer := .none } :=
  if_pos (by simp [hs])

/-- With a header that fits neither an untagged nor a tagged message, the datagram is discarded, whatever its type. -/
theorem datagramReceive_malformed (h0 : adpHeaderOk b 0 = false) (h32 : adpHeaderOk b 32 = false) :
    datagramReceive src b s = { s with answer := .none } := by
  simp only [datagramReceive, h0, h32, Bool.false_and, Bool.false_eq_true, if_false, ite_self]

theorem datagramReceive_handshake (hs : adpServes s = true) (ht : leNat (sl b 3 1) = 3) (h0 : adpHeaderOk b 0 = true) :
    datagramReceive src b s =
      reassemble src (argAt b 4 32) 3 (leNat (sl b 16 2)) (leNat (sl b 18 1)) (leNat (sl b 19 1)) (b.drop 24) s := by
  simp [datagramReceive, hs, ht, h0]

theorem datagramReceive_session (hs : adpServes s = true) (hlo : 0x10 ≤ leNat (sl b 3 1)) (hhi : leNat (sl b 3 1) ≤ 0x17)
    (h32 : adpHeaderOk b 32 = true) : datagramReceive src b s = sessionDatagram src (argAt b 4 32) b s := by
  have ht : ¬ (leNat (sl b 3 1) = 0x01 ∨ leNat (sl b 3 1) = 0x03) := by omega
  simp [datagramReceive, hs, ht, h32, hlo, hhi]

/-! ### The hello of a client (R350, R355) -/

theorem clientHello_notServing (hs : adpServes s = false) : clientHello src b s = { s with answer := .none } :=
  if_pos (by simp [hs])

theorem clientHello_serving (hs : adpServes s = true) : clientHello src b s =
    if s.adp.blocked.any fun k => k.1 = src.ip then sendPlain src 0x30 0 [0x07] s
    else if b.length ≠ 1608 ∨ 2 < leNat (sl b 32 1) then failHandshake src 0x06 s
    else if 4 ≤ s.adp.hs.length then { s with answer := .none }
    else deviceHello src b s := if_neg (by simp [hs])

theorem clientHello_blocked (hs : adpServes s = true) (hb : (s.adp.blocked.any fun k => k.1 = src.ip) = true) :
    clientHello src b s = sendPlain src 0x30 0 [0x07] s :=
  (clientHello_serving hs).trans (if_pos hb)

theorem clientHello_heard (hs : adpServes s = true) (hb : (s.adp.blocked.any fun k => k.1 = src.ip) = false) :
    clientHello src b s = if b.length ≠ 1608 ∨ 2 < leNat (sl b 32 1) then failHandshake src 0x06 s
      else if 4 ≤ s.adp.hs.length then { s with answer := .none } else deviceHello src b s :=
  (clientHello_serving hs).trans (if_neg (by simp [hb]))

/-! ### The authentication of a client (R351, R352) -/

theorem clientAuth_unknown {n : BitVec 32} (h : s.adp.hs.find? (·.sid = n) = none) :
    clientAuth src n b s = { s with answer := .none } := by
  simp only [clientAuth, h]

theorem clientAuth_known {n : BitVec 32} {k : Handshake} (h : s.adp.hs.find? (·.sid = n) = some k) :
    clientAuth src n b s = if k.level.toNat < 2
      then authKey src k b { s with adp := { s.adp with hs := s.adp.hs.filter (·.sid ≠ n) } }
      else authToken src k b { s with adp := { s.adp with hs := s.adp.hs.filter (·.sid ≠ n) } } := by
  simp only [clientAuth, h]

theorem authKey_malformed {k : Handshake} (hl : b.length ≠ 3080) : authKey src k b s = failHandshake src 0x06 s := if_pos hl

theorem authKey_unlisted {k : Handshake} (hl : b.length = 3080) (hk : keyListed k.keys (sl b 0 1793) k.level.toNat = false)
    (he : enrolOpen s k.level.toNat = false) : authKey src k b s = failHandshake src 0x02 s := by
  simp [authKey, hl, hk, he]

/-! ### The end of a session (R354) -/

theorem sessionClose_unknown {n : BitVec 32} (h : findSession s n = none) : sessionClose n s = { s with answer := .none } := by
  simp only [sessionClose, h]

theorem sessionClose_known {n : BitVec 32} {w : Session} (h : findSession s n = some w) : sessionClose n s =
    endSession n (sendIn n w.src 0x05 [(Config.freeWord s.free).setWidth 8] { s with free := s.free + 1 }) := by
  simp only [sessionClose, h]
  rfl

theorem findSession_endSession (n : BitVec 32) : findSession (endSession n s) n = none := by
  refine List.find?_eq_none.mpr fun w hw => ?_
  have hne := (List.mem_filter.mp hw).2
  simpa using hne

end Network

/-- Settles O54: each outcome of the checks of a datagram, a hello or an authentication is a lemma of its chain. -/
theorem networkAndSessions : Obligations.NetworkAndSessions := by
  unfold Obligations.NetworkAndSessions
  refine ⟨fun s d h => ?dadOver, fun s hr hd => ⟨?dadHeld, ?dadDuplicate⟩, fun s a t => rfl, fun s a b => rfl,
    fun s a b hs => ⟨?datagramOff, ?helloOff⟩, fun s a b h0 h32 => ?datagramMalformed, fun s a b hs ht h0 => ?datagramHandshake,
    fun s a b hs hlo hhi h32 => ?datagramSession, fun s a b hs hb => ?helloBlocked, fun s a b hs hb hbad => ?helloMalformed,
    fun s a b hs hb hl hv => ?helloHeard, fun s a n b h => ?authUnknown, fun s a n b k h => ?authKnown,
    fun s a k b hl => authKey_malformed hl, fun s a k b hl hk he => authKey_unlisted hl hk he, fun a c s => ⟨rfl, rfl⟩,
    fun s => ⟨rfl, rfl⟩, fun s a => rfl, fun s n => ⟨rfl, rfl⟩, fun s n h => ?closeUnknown, fun s n w h => ?closeKnown,
    fun s n => findSession_endSession n⟩
  case dadOver => exact congrArg (keepQueue s) (if_pos h)
  case dadHeld => exact congrArg (keepQueue s) ((if_neg (by simp [hr, hd])).trans (if_neg Bool.false_ne_true))
  case dadDuplicate => exact congrArg (keepQueue s) ((if_neg (by simp [hr, hd])).trans (if_pos rfl))
  case datagramOff => exact keepQueue_done_eq (datagramReceive_notServing hs)
  case helloOff => exact keepQueue_done_eq (clientHello_notServing hs)
  case datagramMalformed => exact keepQueue_done_eq (datagramReceive_malformed h0 h32)
  case datagramHandshake => exact keepQueue_done_eq (datagramReceive_handshake hs ht h0)
  case datagramSession => exact keepQueue_done_eq (datagramReceive_session hs hlo hhi h32)
  case helloBlocked => exact keepQueue_done_eq (clientHello_blocked hs hb)
  case helloMalformed => exact keepQueue_done_eq ((clientHello_heard hs hb).trans (if_pos hbad))
  case helloHeard => exact keepQueue_done_eq ((clientHello_heard hs hb).trans (if_neg (by omega)))
  case authUnknown => exact keepQueue_done_eq (clientAuth_unknown h)
  case authKnown => exact keepQueue_done_eq (clientAuth_known h)
  case closeUnknown => exact keepQueue_done_eq (sessionClose_unknown h)
  case closeKnown => exact keepQueue_done_eq (sessionClose_known h)

end Sys2Proof.Machine

/-! # The requests of the dictionary (R358 to R362)

A request's fate is decided before its objects are looked at: by the session, the kept response or the request's number.
What a fresh one does is its body. The identifier of a new subscription is free because there are more candidates than
identifiers in use. -/

namespace Sys2Proof.Machine

open Sys2Proof

/-! ### Identifiers (R360) -/

section Identifiers

variable {w : Nat} {start : BitVec w} {used : List (BitVec w)}

/-- The identifiers that a new one is chosen from: more than there are in use, with 0. -/
def idCandidates (start : BitVec w) (used : List (BitVec w)) : List (BitVec w) :=
  (upto (used.length + 2)).map fun k => start + BitVec.ofNat w k

theorem idCandidates_length : (idCandidates start used).length = used.length + 2 := by
  simp [idCandidates, upto]

theorem idCandidates_nodup (h : used.length + 2 ≤ 2 ^ w) : (idCandidates start used).Nodup := by
  refine List.Nodup.map_on (fun a ha b hb hab => ?_) List.nodup_range
  have ha : a < 2 ^ w := (List.mem_range.mp ha).trans_le h
  have hb : b < 2 ^ w := (List.mem_range.mp hb).trans_le h
  have hk : BitVec.ofNat w a = BitVec.ofNat w b := by simpa using hab
  simpa [Nat.mod_eq_of_lt ha, Nat.mod_eq_of_lt hb] using congrArg BitVec.toNat hk

/-- Some candidate is neither 0 nor in use: they are distinct, and one more than those that are barred. -/
theorem exists_idCandidate (h : used.length + 2 ≤ 2 ^ w) : ∃ i ∈ idCandidates start used, i ≠ 0 ∧ i ∉ used := by
  by_contra hno
  have hsub : idCandidates start used ⊆ 0 :: used := by
    intro i hi
    by_contra hbar
    exact hno ⟨i, hi, fun h0 => hbar (h0 ▸ List.mem_cons_self), fun hu => hbar (List.mem_cons_of_mem _ hu)⟩
  have hle := (List.subperm_of_subset (idCandidates_nodup h) hsub).length_le
  rw [idCandidates_length, List.length_cons] at hle
  omega

theorem freshId_fresh (h : used.length + 2 ≤ 2 ^ w) : freshId w start used ≠ 0 ∧ freshId w start used ∉ used := by
  obtain ⟨i, hi, h0, hu⟩ := exists_idCandidate (start := start) h
  cases hf : (idCandidates start used).find? fun i => decide (i ≠ 0) && !used.contains i with
  | none =>
    exact absurd (by simpa [hu] using List.find?_eq_none.mp hf i hi) h0
  | some j =>
    have hj : freshId w start used = j := by
      show Option.getD ((idCandidates start used).find? fun i => decide (i ≠ 0) && !used.contains i) 1 = j
      rw [hf, Option.getD_some]
    have hp := List.find?_some hf
    rw [hj]
    simpa using hp

end Identifiers

section Requests

variable {s : State} {x : DictCtx} {w : Session} {es : List DictEntry} {e : DictEntry}
  {body : Nat → State → State × List (Bool × Nat × List Byte)}

/-! ### The fate of a request (R362) -/

theorem reqState_noSession (h : findSession s x.sid = none) : reqState s x = .noSession := by
  simp only [reqState, h]

theorem request_noSession (h : findSession s x.sid = none) : request x es body s = { s with answer := .none } := by
  simp only [request, reqState_noSession h, reqNotRun]

theorem request_kept {b : List Byte} (hw : findSession s x.sid = some w) (h : reqState s x = .kept b) :
    request x es body s = { sendIn x.sid w.src 0x20 b s with answer := .bytes b } := by
  simp only [request, h, reqNotRun, hw]

theorem request_stale (hw : findSession s x.sid = some w) (h : reqState s x = .stale) :
    request x [e] body s = { sendIn x.sid w.src 0x20 (respBody x.reqid [entryBytes e.index e.sub false stStale []]) s with
      answer := .status stStale [] } := by
  simp only [request, h, reqNotRun, hw, List.map_cons, List.map_nil]

theorem request_fresh (h : reqState s x = .fresh w) :
    request x es body s = answerAll x es (fitResponse (body (lvlOf w) s).2) (body (lvlOf w) s).1 := by
  simp only [request, h]

/-! ### Writes (R359) -/

theorem writeOne_applied {l : Nat} {o : Obj} (h : writeCheck s l e = .inl o) :
    writeOne l e s = (odWrite e.value s o.od, (odPend (odWrite e.value s o.od) o.od, stOK, [])) := by
  simp only [writeOne, h, applyEntry]

theorem rejected_unrecorded {st : Nat} (hst : st ≠ stNotQuiesced) : rejected e st s = (s, []) := by
  simp only [rejected, decide_eq_false hst]

theorem writeOne_rejected {l st : Nat} (h : writeCheck s l e = .inr st) (hst : st ≠ stNotQuiesced) :
    writeOne l e s = (s, (false, st, [])) := by
  simp only [writeOne, h, rejected_unrecorded hst]

/-! ### Requests of several entries -/

theorem exec_mread_counted (h : countOk es = true) :
    exec (.mread x es) s = keepQueue s (done (request x es (readAll es) s)) := congrArg (keepQueue s) (if_pos h)

theorem exec_describe_counted (h : countOk es = true) :
    exec (.describe x es) s = keepQueue s (done (request x es (fun l t => (t, es.map (describeEntry t l))) s)) :=
  congrArg (keepQueue s) (if_pos h)

theorem exec_mwrite_counted (h : countOk es = true) : exec (.mwrite x es) s = keepQueue s (done
    (request x es (fun l t => if allPass l es t then applyAll l es t else failAll l t es t) s)) := congrArg (keepQueue s) (if_pos h)

/-! ### Subscriptions (R360) -/

/-- The subscription that SUBSCRIBE adds. -/
def newSub (s : State) (x : DictCtx) (e : DictEntry) (mode : BitVec 8) (n : Nat) (o : Obj) : Sub :=
  ⟨freshId 16 ((Config.freeWord s.free).setWidth 16) (s.adp.subs.map (·.id)), x.sid,
    ((findSession s x.sid).map (·.src)).getD ⟨0, 0⟩, e.index, e.sub, mode, n, odRead s o.ty o.od⟩

theorem subscribeBody_adds {m : BitVec 8} {i : BitVec 32} {l n : Nat} {o : Obj} (hr : readCheck s l e.index e.sub = .inl o)
    (hi : subInt m i = some n) (h64 : (s.adp.subs.filter (·.sid = x.sid)).length < 64) (h256 : s.adp.subs.length < 256) :
    (subscribeBody x e m i l s).1 =
      { s with free := s.free + 1, adp := { s.adp with subs := s.adp.subs ++ [newSub s x e m n o] } } := by
  have hfull : ¬ (64 ≤ (s.adp.subs.filter (·.sid = x.sid)).length ∨ 256 ≤ s.adp.subs.length) := by omega
  simp only [subscribeBody, hr, hi, if_neg hfull]
  rfl

theorem newSub_id_fresh {m : BitVec 8} {n : Nat} {o : Obj} (h : s.adp.subs.length < 256) :
    (newSub s x e m n o).id ≠ 0 ∧ ∀ q ∈ s.adp.subs, q.id ≠ (newSub s x e m n o).id := by
  have hlen : (s.adp.subs.map (·.id)).length + 2 ≤ 2 ^ 16 := by
    rw [List.length_map]
    omega
  obtain ⟨h0, hu⟩ := freshId_fresh (start := (Config.freeWord s.free).setWidth 16) hlen
  exact ⟨h0, fun q hq he => hu (List.mem_map.mpr ⟨q, hq, he⟩)⟩

theorem exec_unsubscribe_hit {n : BitVec 16} {b : Sub} (hw : reqState s x = .fresh w)
    (h : (s.adp.subs.find? fun q => q.id = n ∧ q.sid = x.sid) = some b) :
    exec (.unsubscribe x n) s = .next { answerAll x [⟨b.index, b.sub, []⟩] (fitResponse [(false, stOK, [])]) { s with adp := { s.adp with
      subs := s.adp.subs.filter fun q => ¬ (q.id = n ∧ q.sid = x.sid) } } with pending := s.pending } := by
  show execUnsubscribe x n s = _
  simp only [execUnsubscribe, h, Option.isSome_some, if_true, request_fresh hw, keepQueue_done]

theorem exec_unsubscribe_miss {n : BitVec 16} (hw : reqState s x = .fresh w)
    (h : (s.adp.subs.find? fun q => q.id = n ∧ q.sid = x.sid) = none) :
    exec (.unsubscribe x n) s =
      .next { answerAll x [⟨0, 0, []⟩] (fitResponse [(false, stNoObject, [])]) s with pending := s.pending } := by
  show execUnsubscribe x n s = _
  simp only [execUnsubscribe, h, Option.isSome_none, Bool.false_eq_true, if_false, request_fresh hw, keepQueue_done]

theorem exec_notify_none {n : BitVec 16} (h : s.adp.subs.find? (·.id = n) = none) : exec (.notify n) s = .next s := by
  show execNotify n s = _
  simp only [execNotify, h, keepQueue_done]

theorem exec_notify_sends {n : BitVec 16} {b : Sub} (h : s.adp.subs.find? (·.id = n) = some b) :
    exec (.notify n) s = (
      let a := readEntry s (((findSession s b.sid).map lvlOf).getD 0) ⟨b.index, b.sub, []⟩
      let c := (Config.freeWord s.free).toNat % 65536
      .next { sendIn b.sid b.dst 0x21 (leBytes 2 n.toNat ++ leBytes 2 (if a.2.2 = b.value then c else max 1 c) ++
        ansBytes ⟨b.index, b.sub, []⟩ a) { s with free := s.free + 1, adp := { s.adp with
          subs := s.adp.subs.map fun q => if q.id = n then { q with value := a.2.2 } else q } } with pending := s.pending }) := by
  show execNotify n s = _
  simp only [execNotify, h, keepQueue_done]
  rfl

/-! ### Command objects (R361) -/

theorem objOf_tokrevoke : objOf 0x7030 2 = some ⟨.command, .cmd, .wo, 1, 0, none, []⟩ := rfl

/-- The command object of OD 0x7030.02, without arguments, is TOKREVOKE. -/
theorem runCommand_tokrevoke : runCommand x ⟨0x7030, 2, []⟩ s = outState (execTokrevoke x s) s := by
  simp only [runCommand, objOf_tokrevoke]
  rfl

theorem runCommand_noObject (hw : reqState s x = .fresh w) (h : objOf e.index e.sub = none) :
    runCommand x e s = cmdAnswered x e.index e.sub stNoObject [] s := by
  simp only [runCommand, cmdRefuse, h]
  exact dictCommand_runs hw (Nat.zero_le _) rfl (by decide)

end Requests

/-- Settles O55: what a request meets is decided by its state alone; a fresh one does what its body says. -/
theorem dictionaryRequests : Obligations.DictionaryRequests := by
  unfold Obligations.DictionaryRequests
  refine ⟨?noSession, fun s x e w b hf h => ⟨?keptWrite, ?keptRead⟩, fun s x e w hf h => ?stale, fun s x e w h => ?read,
    fun s x e w o h hc => ?write, fun s x e w st h hc hst => ?writeRejected, ?counts, fun s x es w hc h => ⟨?mread, ?describe, ?mwrite⟩,
    fun s x e m i w h => ?subscribe, ?subscribed, fun s x n w b h hb => exec_unsubscribe_hit h hb,
    fun s x n w h hb => exec_unsubscribe_miss h hb, fun s n h => exec_notify_none h, fun s n b h => exec_notify_sends h,
    fun s x e => rfl, fun s t x h => ?tokrevoke, fun s x e w ho h => ?noObject⟩
  case noSession =>
    intro s x e h
    exact ⟨keepQueue_done_eq (request_noSession h), keepQueue_done_eq (request_noSession h), keepQueue_done_eq (request_noSession h),
      keepQueue_done_eq (request_noSession h), keepQueue_done_eq (request_noSession h), keepQueue_done_eq (request_noSession h),
      keepQueue_done_eq (request_noSession h)⟩
  case keptWrite => exact keepQueue_done_eq (request_kept hf h)
  case keptRead => exact keepQueue_done_eq (request_kept hf h)
  case stale => exact keepQueue_done_eq (request_stale hf h)
  case read => exact keepQueue_done_eq (request_fresh h)
  case write =>
    refine keepQueue_done_eq ((request_fresh h).trans ?_)
    simp only [writeOne_applied hc]
  case writeRejected =>
    refine keepQueue_done_eq ((request_fresh h).trans ?_)
    simp only [writeOne_rejected hc hst]
  case counts =>
    intro s x es h
    have hn : ¬ countOk es = true := by simp [h]
    exact ⟨congrArg (keepQueue s) (if_neg hn), congrArg (keepQueue s) (if_neg hn), congrArg (keepQueue s) (if_neg hn)⟩
  case mread => exact (exec_mread_counted hc).trans (keepQueue_done_eq (request_fresh h))
  case describe => exact (exec_describe_counted hc).trans (keepQueue_done_eq (request_fresh h))
  case mwrite => exact (exec_mwrite_counted hc).trans (keepQueue_done_eq (request_fresh h))
  case subscribe => exact keepQueue_done_eq (request_fresh h)
  case subscribed =>
    intro s x e m i l n o hr hi h64 h256
    obtain ⟨h0, hu⟩ := newSub_id_fresh (x := x) (e := e) (m := m) (n := n) (o := o) h256
    exact ⟨newSub s x e m n o, subscribeBody_adds hr hi h64 h256, rfl, rfl, rfl, rfl, rfl, rfl, h0, hu⟩
  case tokrevoke =>
    have hrun : runCommand x ⟨0x7030, 2, []⟩ s = t := by
      rw [runCommand_tokrevoke, show execTokrevoke x s = .next t from h]
      rfl
    exact keepQueue_done_eq hrun
  case noObject => exact keepQueue_done_eq (runCommand_noObject h ho)

end Sys2Proof.Machine

/-! # Package reset: its conditions, its end and the reset cause (R450, R454, R455, R457, R465)

Each event sets or clears its own condition; a condition that begins outside package reset asserts it, and `packageReset`
says what that leaves. -/

namespace Sys2Proof.Machine

open Sys2Proof

section PackageReset

variable {s : State}

/-! ### Package reset is asserted (R454) -/

theorem assertReset_inReset (h : s.pins.inReset = true) : assertReset s = s := if_pos h

theorem assertReset_running (h : s.pins.inReset = false) : assertReset s = packageReset false false s := if_neg (by simp [h])

/-- Without REFCLK package reset is held. -/
theorem resetHeld_noRefclk (h : s.pins.refclkOk = false) : resetHeld s = true := by
  simp [resetHeld, h]

/-! ### The conditions -/

theorem exec_resetNLow : exec .resetNLow s = keepQueue s (done (
    if draining s then { s with pins := { s.pins with resetNLow := true, evRstN := true } }
    else assertReset { s with pins := { s.pins with resetNLow := true, evRstN := true } })) := rfl

theorem draining_of_step (h : s.pls.step ≠ 0) : draining s = true := decide_eq_true h

theorem draining_of_no_step (h : s.pls.step = 0) : draining s = false := decide_eq_false (not_not_intro h)

/-- RESET_N low outside package reset, with no drain to complete first, resets the package. -/
theorem exec_resetNLow_resets (hd : s.pls.step = 0) (hr : s.pins.inReset = false) : exec .resetNLow s =
    .next (packageReset false false { s with pins := { s.pins with resetNLow := true, evRstN := true } }) := by
  rw [exec_resetNLow, draining_of_no_step hd, if_neg Bool.false_ne_true, assertReset_running (by exact hr), keepQueue_done]
  rfl

theorem exec_refclkLoss_resets (hr : s.pins.inReset = false) : exec .refclkLoss s =
    .next (packageReset false false { s with pins := { s.pins with refclkOk := false } }) := by
  show keepQueue s (done (assertReset _)) = _
  rw [assertReset_running (by exact hr), keepQueue_done]
  rfl

/-- A rail that was in tolerance joins those that are not; whether it resets the package depends on the rail and the drain. -/
theorem exec_railOutOfTolerance {r : Rail} (h : r ∉ s.pins.railBad) : exec (.railOutOfTolerance r) s = keepQueue s (done (
    if isSlvRail r || (draining s && !onHoldBus r) then { s with pins := { s.pins with railBad := s.pins.railBad ++ [r] } }
    else assertReset { s with pins := { s.pins with railBad := s.pins.railBad ++ [r] } })) := by
  show execRailOutOfTolerance r s = _
  have hc : ¬ s.pins.railBad.contains r = true := by simpa using h
  simp only [execRailOutOfTolerance, if_neg hc]

theorem exec_railOutOfTolerance_inReset {r : Rail} (hr : s.pins.inReset = true) (h : r ∉ s.pins.railBad) :
    exec (.railOutOfTolerance r) s = .next { s with pins := { s.pins with railBad := s.pins.railBad ++ [r] } } := by
  rw [exec_railOutOfTolerance h, assertReset_inReset (by exact hr), ite_self]
  rfl

theorem exec_pwrfailRelease_pwrfailN (h : s.pwr.pk3 = false) :
    exec (.pwrfailRelease .pwrfailN) s = .next { s with pins := { s.pins with pwrfailLow := false } } := by
  show execPwrfailRelease .pwrfailN s = _
  simp only [execPwrfailRelease, setPfLand, leavePk3, if_pos h, ite_self, keepQueue_done]

end PackageReset

/-- Settles O6: each event's own condition, and `packageReset` where one begins outside package reset. -/
theorem packageResetConditions : Obligations.PackageResetConditions := by
  unfold Obligations.PackageResetConditions
  refine ⟨fun s hd => ?lowDraining, fun s hd hr => ?lowInReset, fun s hd hr => ⟨_, exec_resetNLow_resets hd hr, rfl, rfl, rfl, rfl, rfl, rfl, rfl, rfl, rfl⟩,
    fun s => rfl, fun s r hr h => exec_railOutOfTolerance_inReset hr h, fun s k h => exec_railOutOfTolerance h, fun s r => rfl,
    fun s hr => ⟨_, exec_refclkLoss_resets hr, rfl, resetHeld_noRefclk rfl, rfl, rfl⟩, fun s hr => ?refclkInReset, fun s => rfl, fun s => rfl, fun s => rfl,
    fun s h => exec_pwrfailRelease_pwrfailN h, fun s => ⟨_, rfl, rfl, rfl, rfl, rfl, rfl, rfl, rfl, rfl, rfl, rfl, rfl, rfl, rfl⟩⟩
  case lowDraining => exact exec_resetNLow.trans (keepQueue_done_eq (if_pos (draining_of_step hd)))
  case lowInReset =>
    exact exec_resetNLow.trans (keepQueue_done_eq ((if_neg (by rw [draining_of_no_step hd]; decide)).trans (assertReset_inReset (by exact hr))))
  case refclkInReset => exact keepQueue_done_eq (assertReset_inReset (by exact hr))

/-- Settles O4: the starting point of the model has no waiting command and no condition that holds its package reset. -/
theorem resetHasAnEmptyReadyQueue : Obligations.ResetHasAnEmptyReadyQueue := by
  unfold Obligations.ResetHasAnEmptyReadyQueue
  exact ⟨rfl, rfl, rfl, rfl⟩

/-! ### The reset cause (R455) -/

section Cause

/-- The events since the last package reset ended, in the order in which they count. -/
def causeEvents (p : Pins) : List (Nat × Bool) :=
  [(0, p.evPor), (1, p.evWdt), (4, p.evThm), (3, p.evPf), (2, p.evPk3), (5, p.evRstN)]

/-- The code of the first event that occurred, or `d` when none did. -/
def firstCode (d : Nat) (l : List (Nat × Bool)) : Nat := (l.find? (·.2)).elim d (·.1)

theorem firstCode_cons (d c : Nat) (b : Bool) (l : List (Nat × Bool)) :
    firstCode d ((c, b) :: l) = if b then c else firstCode d l := by
  cases b with
  | true => rfl
  | false => rfl

theorem bootCause_eq_firstCode (p : Pins) (n : Nat) : bootCause p n = firstCode (Config.freeNat n % 256) (causeEvents p) := by
  simp only [causeEvents, firstCode_cons]
  rfl

theorem bootCause_first {p : Pins} {n c : Nat} {b : Bool} (h : (causeEvents p).find? (·.2) = some (c, b)) : bootCause p n = c := by
  rw [bootCause_eq_firstCode, firstCode, h]
  rfl

end Cause

/-- Settles O7: the cause that is reported is the code of the first event on record. -/
theorem resetCauseIsTheFirstEvent : Obligations.ResetCauseIsTheFirstEvent := by
  unfold Obligations.ResetCauseIsTheFirstEvent
  intro s straps c b hr hh hc
  have hends : ¬ (s.pins.inReset = false ∨ resetHeld s = true) := by simp [hr, hh]
  have hcause : bootCause s.pins s.free = c := bootCause_first hc
  show execPackageResetEnd straps s = _
  simp only [execPackageResetEnd, if_neg hends, hcause, keepQueue_done]
  rfl

end Sys2Proof.Machine

/-! # The test access port and the self-test (R428, R429, R437, R438, R440, R441, R444, R445)

The instructions without a condition are their definitions. The others branch on what the debug port, the token or the
self-test is doing: one lemma for each branch. -/

namespace Sys2Proof.Machine

open Sys2Proof

section TestPort

variable {s : State}

/-! ### The transport (R428, R429) -/

theorem exec_dtmcs (v : BitVec 32) : exec (.dtmcs v) s = .next { s with
    dbg := { s.dbg with ir := 0x10, dmistat := if v.getLsbD 16 || v.getLsbD 17 then 0 else s.dbg.dmistat }
    answer := .word (dtmcs s) } := by
  show execDtmcs v s = _
  unfold execDtmcs
  cases v.getLsbD 16 || v.getLsbD 17 with
  | true => rfl
  | false => rfl

/-- What DMI captures: the last access, and the status. -/
def dmiCaptured (s : State) : State :=
  { s with dbg := { s.dbg with ir := 0x11 }, answer := .word (cat [at_ 34 s.dbg.dmiAddr, at_ 2 s.dbg.dmiData, at_ 0 s.dbg.dmistat]) }

/-- What DMI leaves of an access: the address and the data that the next capture returns. -/
def dmiKept (v : BitVec 50) (w : BitVec 32) (t : State) : State :=
  { t with dbg := { t.dbg with dmiAddr := v.extractLsb' 34 16, dmiData := w } }

theorem exec_dmi_idle {v : BitVec 50} (h : s.dbg.dmistat ≠ 0 ∨ (v.extractLsb' 0 2 ≠ 1 ∧ v.extractLsb' 0 2 ≠ 2)) :
    exec (.dmi v) s = .next (dmiCaptured s) :=
  congrArg (keepQueue s) (if_pos (by bv_omega))

/-- An access to a module that is awake. -/
theorem exec_dmi_awake {v : BitVec 50} {m : ModuleId} (hst : s.dbg.dmistat = 0) (hop : v.extractLsb' 0 2 = 1 ∨ v.extractLsb' 0 2 = 2)
    (hm : dmiModule (v.extractLsb' 34 16).toNat = some m) (hup : m.val = 12 ∨ (s.slvPwr m).sl = 0) :
    exec (.dmi v) s = .next { (
      let r := (v.extractLsb' 34 16).toNat % 0x200
      if v.extractLsb' 0 2 = 1 then dmiKept v (fld (dmiRead m r (dmiCaptured s)).2 0 32) (dmiRead m r (dmiCaptured s)).1
      else dmiKept v (v.extractLsb' 2 32) (dmWrite m r (v.extractLsb' 2 32) (dmiCaptured s))) with pending := s.pending } := by
  have hrun : ¬ (s.dbg.dmistat ≠ 0 ∨ ((v.extractLsb' 0 2).toNat ≠ 1 ∧ (v.extractLsb' 0 2).toNat ≠ 2)) := by bv_omega
  have hawake : ¬ (m.val < 12 ∧ (s.slvPwr m).sl ≠ 0) := by omega
  have hread : (v.extractLsb' 0 2).toNat = 1 ↔ v.extractLsb' 0 2 = 1 := by bv_omega
  show execDmi v s = _
  simp only [execDmi, if_neg hrun, hm, if_neg hawake, hread]
  split <;> rfl

/-! ### Debug tokens (R437, R438) -/

theorem exec_sectoken (k : List Byte) : exec (.sectoken k) s = .next (
    let s1 : State := { s with dbg := { s.dbg with ir := 0x13 }, answer := .word (unlockStatus s) }
    let l := fillFree 3136 (BitVec.ofNat 8) k s1
    if secdbgOk s = false then { s1 with dbg := { s1.dbg with tokRes := 4 } }
    else if s.dbg.tok.isSome then s1 else { tokenIn l.2 none l.1 with pending := s.pending }) := by
  show execSectoken k s = _
  unfold execSectoken
  split
  · rfl
  · split
    · rfl
    · rfl

theorem exec_tokenVerifyDone_none (h : s.dbg.tok = none) : exec .tokenVerifyDone s = .next s := by
  show execTokenVerifyDone s = _
  simp only [execTokenVerifyDone, h, keepQueue_done]

theorem exec_tokenVerifyDone_tap {k c : List Byte} (h : s.dbg.tok = some (k, c)) (hd : s.dbg.tokDict = none) :
    exec .tokenVerifyDone s = .next (
      if debugTokenOk s k c then { s with
        dbg := { s.dbg with tok := none, tokRes := 1, scope := s.dbg.scope ||| BitVec.ofNat 13 (leNat (sl k 20 4)) }
        boot := { s.boot with chal := none, dbgEver := true } }
      else { s with dbg := { s.dbg with tok := none, tokRes := 2 } }) := by
  show execTokenVerifyDone s = _
  cases hok : debugTokenOk s k c with
  | true => simp [execTokenVerifyDone, h, hd, hok]
  | false => simp [execTokenVerifyDone, h, hd, hok]

/-! ### The self-test (R440, R441, R444, R445) -/

theorem wrBistCtl_disallowed (v : Word) : wrBistCtl false v s = s := if_pos rfl

theorem goCheck_vest {k : BitVec 2} (hk : k ≠ 0) (hk' : k.getLsbD 1 = false) (h : (s.bist 12).state ≠ 2) : goCheck s 12 k = 0 := by
  have hres : ¬ (k = 0 ∨ (k.getLsbD 1 = true ∧ featOn s 5 = false)) := by
    rw [hk']
    simpa using hk
  simp only [goCheck, if_neg hres, if_neg h, if_true]

/-- A GO for the Vest with KIND 1 arms it. -/
theorem wrBistCtl_arms {v : Word} (ht : fld v 8 4 = (12 : BitVec 4)) (hk : fld v 0 2 = (1 : BitVec 2)) (hgo : bit v 63 = true)
    (h : (s.bist 12).state ≠ 2) : wrBistCtl true v s =
      ({ s with dbg := { s.dbg with bTarget := 12, bKind := 1 } } : State).setBist 12 { s.bist 12 with state := 1, err := 0, kind := 1 } := by
  have hcheck : goCheck { s with dbg := { s.dbg with bTarget := 12, bKind := 1 } } 12 1 = 0 :=
    goCheck_vest (by decide) (by decide) h
  simp only [wrBistCtl, ht, hk, hgo]
  exact congrArg Prod.fst (bistGo_vest hcheck)

theorem exec_bistStepDone_idle {k : SleeveId} {l : List (BitVec 64)} (h : (s.bist k).state ≠ 2) :
    exec (.bistStepDone k l) s = .next s := congrArg (keepQueue s) (if_pos h)

theorem exec_bistStepDone_step {k : SleeveId} {l : List (BitVec 64)} (h : (s.bist k).state = 2) (h5 : (s.bist k).step < 5) :
    exec (.bistStepDone k l) s = .next (s.setBist k { s.bist k with step :=
      if (s.bist k).step = 2 then (if (s.bist k).kind.getLsbD 0 then 3 else 4)
      else if (s.bist k).step = 3 then (if (s.bist k).kind.getLsbD 1 then 4 else 5) else (s.bist k).step + 1 }) :=
  congrArg (keepQueue s) ((if_neg (not_not_intro h)).trans (if_pos h5))

theorem exec_bistStepDone_last {k : SleeveId} {l : List (BitVec 64)} (h : (s.bist k).state = 2) (h5 : 5 ≤ (s.bist k).step) :
    exec (.bistStepDone k l) s = .next { bistEnd k (fillFree 78 (BitVec.ofNat 64) l s).2 (fillFree 78 (BitVec.ofNat 64) l s).1 with
      pending := s.pending } :=
  congrArg (keepQueue s) ((if_neg (not_not_intro h)).trans (if_neg (Nat.not_lt.mpr h5)))

end TestPort

/-- Settles O57: the instructions by their definitions, and one lemma for each branch of DMI, a token and a self-test. -/
theorem testAccessPortAndSelfTest : Obligations.TestAccessPortAndSelfTest := by
  unfold Obligations.TestAccessPortAndSelfTest
  refine ⟨fun s => ⟨rfl, rfl⟩, fun s a b => ⟨rfl, rfl⟩, fun s b => rfl, fun s v => exec_dtmcs v, fun s v h => exec_dmi_idle h, ?dmi,
    fun s => rfl, fun s k => exec_sectoken k, fun s k h => fillFree_full h, fun s h => exec_tokenVerifyDone_none h,
    fun s k c h hd => exec_tokenVerifyDone_tap h hd, fun s v => rfl, ?disallowed, ?arms, fun s k l h => exec_bistStepDone_idle h,
    fun s k l h h5 => exec_bistStepDone_step h h5, fun s k l h h5 => exec_bistStepDone_last h h5, fun s l h => fillFree_full h⟩
  case dmi =>
    intro s v m hst hm hup s1 rg
    have hs1 : s1 = dmiCaptured s := by
      simp only [s1, dmiCaptured, hst]
    rw [hs1]
    refine ⟨fun hop => ?_, fun hop => ?_⟩
    · rw [exec_dmi_awake hst (.inl hop) hm hup, if_pos hop]
      rfl
    · rw [exec_dmi_awake hst (.inr hop) hm hup, if_neg (by rw [hop]; decide)]
      rfl
  case disallowed =>
    intro s w v hw ha
    refine (congrArg (keepQueue s) (sentBy_runs hw)).trans (keepQueue_done_eq ?_)
    rw [ha, wrBistCtl_disallowed]
  case arms =>
    intro s w v hw ha ht hk hgo h
    refine (congrArg (keepQueue s) (sentBy_runs hw)).trans ?_
    rw [ha, wrBistCtl_arms ht hk hgo h]
    rfl

end Sys2Proof.Machine

/-! # Halting and resuming, abstract commands, bus accesses and triggers (R431 to R436)

Each request of a debug module runs a chain of checks. Each lemma here names one outcome of a chain by the checks that lead
to it. -/

namespace Sys2Proof.Machine

open Sys2Proof

section Debugging

variable {s : State}

/-! ### Halt and resume (R432 to R434) -/

theorem haltReq_ignored {h : Nat} (hn : dbgAvail s h ≠ 2 ∨ (s.hart h).halted = true) : haltReq h s = s := if_pos hn

theorem haltReq_heard {h : Nat} (ha : dbgAvail s h = 2) (hr : (s.hart h).halted = false) : haltReq h s =
    match sleepScope s h with
    | some sc => startWake sc 7 (s.modHart h fun x => { x with haltPend := true })
    | none => wakeSl1 h (if dbgHold s h then s.modHart h fun x => { x with haltPend := true } else enterDebug h 3 s) :=
  if_neg (by simp [ha, hr])

theorem haltReq_asleep {h : Nat} {sc : Scope} (ha : dbgAvail s h = 2) (hr : (s.hart h).halted = false)
    (hs : sleepScope s h = some sc) : haltReq h s = startWake sc 7 (s.setHart h { s.hart h with haltPend := true }) := by
  rw [haltReq_heard ha hr, hs]
  rfl

theorem haltReq_held {h : Nat} (ha : dbgAvail s h = 2) (hr : (s.hart h).halted = false) (hs : sleepScope s h = none)
    (hd : dbgHold s h = true) : haltReq h s = wakeSl1 h (s.setHart h { s.hart h with haltPend := true }) := by
  rw [haltReq_heard ha hr, hs]
  exact congrArg (wakeSl1 h) (if_pos hd)

theorem haltReq_halts {h : Nat} (ha : dbgAvail s h = 2) (hr : (s.hart h).halted = false) (hs : sleepScope s h = none)
    (hd : dbgHold s h = false) : haltReq h s = wakeSl1 h (enterDebug h 3 s) := by
  rw [haltReq_heard ha hr, hs]
  exact congrArg (wakeSl1 h) (if_neg (by simp [hd]))

theorem resumeReq_ignored {h : Nat} (hn : dbgAvail s h ≠ 2 ∨ (s.hart h).halted = false) : resumeReq h s = s := if_pos hn

theorem resumeReq_alone {h : Nat} (ha : dbgAvail s h = 2) (hr : (s.hart h).halted = true) (hg : tabGet s.dbg.resGrp 0 h = 0) :
    resumeReq h s = resumeHart h s :=
  (if_neg (by simp [ha, hr])).trans (if_pos hg)

theorem resumeHart_machine {h : Nat} (hp : fld ((s.hart h).c 0x7B0) 0 2 = (3 : BitVec 2)) :
    resumeHart h s = wakeSl1 h ((s.setHart h { s.hart h with
      pc := (s.hart h).c 0x7B1, priv := 3, virt := false, halted := false, haltPend := false, prog := false }).modDm (hartDm h).1 fun d =>
        { d with resumeAck := setBit d.resumeAck (hartDm h).2 true }) := by
  simp only [resumeHart, hp, ne_eq, not_true_eq_false, decide_false, Bool.and_false, if_true]

theorem resumeHart_lower {h : Nat} (hp : fld ((s.hart h).c 0x7B0) 0 2 ≠ (3 : BitVec 2)) :
    resumeHart h s = wakeSl1 h ((s.setHart h (({ s.hart h with
      pc := (s.hart h).c 0x7B1, priv := fld ((s.hart h).c 0x7B0) 0 2, virt := bit ((s.hart h).c 0x7B0) 5, halted := false
      haltPend := false, prog := false } : Hart).setC 0x300 ((s.hart h).c 0x300 &&& ~~~(on 17 true)))).modDm (hartDm h).1 fun d =>
        { d with resumeAck := setBit d.resumeAck (hartDm h).2 true }) := by
  simp only [resumeHart, ne_eq, hp, not_false_eq_true, decide_true, Bool.and_true, if_false]

/-! ### ndmreset (Table 18.3) -/

theorem ndmReset_noSleeve {m : Nat} (b : Bool) (h : m = 12 ∨ slvPresent s m = false) :
    ndmReset m b s = s.setDm m { s.dm m with ndm := b } := if_pos h

theorem ndmReset_sets {m : Nat} (hm : m ≠ 12) (hp : slvPresent s m = true) (hn : (s.dm m).ndm = false) : ndmReset m true s =
    forgetSleeve m (resetSleeve m ((s.modDm m fun d => { d with ndm := true }).modDm m fun d => { d with haveReset := BitVec.allOnes 80 })) :=
  (if_neg (by simp [hm, hp])).trans (if_pos (by simp [hn]))

/-! ### Abstract commands (R431, Table 18.3) -/

section Abstract

variable {m : Nat} {c : BitVec 32}

/-- The state with the command in its register. -/
def cmdTaken (m : Nat) (c : BitVec 32) (s : State) : State := s.modDm m fun d => { d with cmd := c }

/-- The hart that the command is for. -/
def cmdHart (m : Nat) (c : BitVec 32) (s : State) : Nat := dmHart m ((cmdTaken m c s).dm m).hartsel.toNat

/-- That hart is halted. -/
def cmdHalted (m : Nat) (c : BitVec 32) (s : State) : Bool := dmHalted (cmdTaken m c s) m ((cmdTaken m c s).dm m).hartsel.toNat

/-- An Access Register command without postincrement. -/
def cmdForm (c : BitVec 32) : Prop := c.extractLsb' 24 8 = 0 ∧ c.getLsbD 23 = false ∧ c.getLsbD 19 = false

/-- A command that transfers a register of 32 or 64 bits. -/
def cmdTransfers (c : BitVec 32) : Prop :=
  cmdForm c ∧ c.getLsbD 17 = true ∧ (c.extractLsb' 20 3 = 2 ∨ c.extractLsb' 20 3 = 3)

/-- No error stands, and no program buffer runs. -/
def cmdFree (s : State) (m : Nat) : Prop := cmderrOf s m = 0 ∧ dmBusy s m = false

theorem abstractCmd_errorStands (h : cmderrOf s m ≠ 0) : abstractCmd m c s = s := if_pos h

theorem abstractCmd_busy (h : cmderrOf s m = 0) (hb : dmBusy s m = true) :
    abstractCmd m c s = s.modDm m fun d => { d with cmderr := 1 } :=
  (if_neg (not_not_intro h)).trans ((if_pos hb).trans (if_pos h))

theorem not_cmdForm (h : ¬ cmdForm c) : c.extractLsb' 24 8 ≠ 0 ∨ c.getLsbD 23 = true ∨ c.getLsbD 19 = true := by
  simp only [cmdForm, not_and_or, Bool.not_eq_false] at h
  exact h

theorem abstractCmd_badForm (hf : cmdFree s m) (h : ¬ cmdForm c) :
    abstractCmd m c s = (cmdTaken m c s).modDm m fun d => { d with cmderr := 2 } := by
  obtain ⟨he, hb⟩ := hf
  exact (if_neg (not_not_intro he)).trans ((if_neg (by simp [hb])).trans (if_pos (not_cmdForm h)))

/-- A well-formed command that no error and no program bars. -/
theorem abstractCmd_formed (hf : cmdFree s m) (h : cmdForm c) : abstractCmd m c s = (
    let t := cmdTaken m c s
    let err (e : BitVec 3) : State := t.modDm m fun d => { d with cmderr := e }
    let size := (c.extractLsb' 20 3).toNat
    let regno := (c.extractLsb' 0 16).toNat
    if c.getLsbD 17 = false then (if cmdHalted m c s then postExec c (cmdHart m c s) t else err 4)
    else if size ≠ 2 ∧ size ≠ 3 then err 2
    else if cmdHalted m c s = false then err 4
    else if c.getLsbD 16 then
      match absWrite (cmdHart m c s) regno (absArg t (t.dm m) size) t with
      | some u => postExec c (cmdHart m c s) u.draw
      | none => err 3
    else
      match absRead t (cmdHart m c s) regno with
      | some v => postExec c (cmdHart m c s) (t.modDm m fun e =>
          { e with data0 := fld v 0 32, data1 := if size = 3 then fld v 32 32 else e.data1 })
      | none => err 3) := by
  obtain ⟨he, hb⟩ := hf
  obtain ⟨h24, h23, h19⟩ := h
  exact (if_neg (not_not_intro he)).trans ((if_neg (by simp [hb])).trans (if_neg (by simp only [h24, h23, h19]; decide)))

theorem abstractCmd_none (hf : cmdFree s m) (h : cmdForm c) (ht : c.getLsbD 17 = false) (hh : cmdHalted m c s = true) :
    abstractCmd m c s = postExec c (cmdHart m c s) (cmdTaken m c s) :=
  (abstractCmd_formed hf h).trans ((if_pos ht).trans (if_pos hh))

/-- A register transfer, once its size and its kind are known to be what the module supports. -/
theorem abstractCmd_transfers (hf : cmdFree s m) (h : cmdTransfers c) : abstractCmd m c s = (
    let t := cmdTaken m c s
    let err (e : BitVec 3) : State := t.modDm m fun d => { d with cmderr := e }
    let size := (c.extractLsb' 20 3).toNat
    let regno := (c.extractLsb' 0 16).toNat
    if cmdHalted m c s = false then err 4
    else if c.getLsbD 16 then
      match absWrite (cmdHart m c s) regno (absArg t (t.dm m) size) t with
      | some u => postExec c (cmdHart m c s) u.draw
      | none => err 3
    else
      match absRead t (cmdHart m c s) regno with
      | some v => postExec c (cmdHart m c s) (t.modDm m fun e =>
          { e with data0 := fld v 0 32, data1 := if size = 3 then fld v 32 32 else e.data1 })
      | none => err 3) := by
  obtain ⟨hform, ht, hsize⟩ := h
  have hsup : ¬ ((c.extractLsb' 20 3).toNat ≠ 2 ∧ (c.extractLsb' 20 3).toNat ≠ 3) := by bv_omega
  exact (abstractCmd_formed hf hform).trans ((if_neg (by rw [ht]; decide)).trans (if_neg hsup))

theorem abstractCmd_running (hf : cmdFree s m) (h : cmdTransfers c ∨ (cmdForm c ∧ c.getLsbD 17 = false)) (hh : cmdHalted m c s = false) :
    abstractCmd m c s = (cmdTaken m c s).modDm m fun d => { d with cmderr := 4 } := by
  rcases h with ht | ⟨hform, ht⟩
  · exact (abstractCmd_transfers hf ht).trans (if_pos hh)
  · exact (abstractCmd_formed hf hform).trans ((if_pos ht).trans (if_neg (by rw [hh]; decide)))

theorem abstractCmd_reads {v : Word} (hf : cmdFree s m) (h : cmdTransfers c) (hh : cmdHalted m c s = true) (hw : c.getLsbD 16 = false)
    (hv : absRead (cmdTaken m c s) (cmdHart m c s) (c.extractLsb' 0 16).toNat = some v) :
    abstractCmd m c s = postExec c (cmdHart m c s) ((cmdTaken m c s).modDm m fun e =>
      { e with data0 := fld v 0 32, data1 := if c.extractLsb' 20 3 = 3 then fld v 32 32 else e.data1 }) := by
  have hsize : (c.extractLsb' 20 3).toNat = 3 ↔ c.extractLsb' 20 3 = 3 := by bv_omega
  rw [abstractCmd_transfers hf h]
  simp only [hh, hw, hv, hsize, Bool.true_eq_false, Bool.false_eq_true, if_false]

theorem abstractCmd_writes {t : State} (hf : cmdFree s m) (h : cmdTransfers c) (hh : cmdHalted m c s = true) (hw : c.getLsbD 16 = true)
    (ht : absWrite (cmdHart m c s) (c.extractLsb' 0 16).toNat
      (absArg (cmdTaken m c s) ((cmdTaken m c s).dm m) (c.extractLsb' 20 3).toNat) (cmdTaken m c s) = some t) :
    abstractCmd m c s = postExec c (cmdHart m c s) { t with free := t.free + 1 } := by
  rw [abstractCmd_transfers hf h]
  simp only [hh, hw, ht, Bool.true_eq_false, if_true, if_false]
  rfl

end Abstract

/-! ### The program buffer -/

theorem postExec_hart (h : HartId) (c : BitVec 32) :
    postExec c h s = wakeSl1 h (if c.getLsbD 18 then s.setHart h { s.hart h with prog := true } else s) := by
  have hlt : decide (h.val < 960) = true := decide_eq_true h.isLt
  simp only [postExec, hlt, Bool.and_true, modHart_eq]

/-- An instruction of the program buffer acts on the hart with the rights of M-mode, and on nothing else. -/
theorem inProgram_congr {h : Nat} {f g : State → State}
    (hfg : f (s.setHart h { s.hart h with priv := 3, virt := false }) = g (s.setHart h { s.hart h with priv := 3, virt := false })) :
    inProgram h f s = inProgram h g s := by
  simp only [inProgram, hfg]

theorem hart_inProgram_prog {h : Nat} (hp : (s.hart h).prog = true) :
    ((s.setHart h { s.hart h with priv := 3, virt := false }).hart h).prog = true := by
  have hne : ({ s.hart h with priv := 3, virt := false } : Hart) ≠ Hart.reset := by
    intro he
    have hprog := congrArg Hart.prog he
    exact Bool.noConfusion (hp.symm.trans hprog)
  rw [hart_setHart_self _ _ _ hne]
  exact hp

theorem byHart_inProgram {h : Nat} {f : State → State} (hr : hartRuns s h = true) (hi : (s.hart h).indir = none)
    (hl : (s.hart h).rest = [] ∨ (s.hart h).rest = [.alone]) (hp : (s.hart h).prog = true) : byHart h f s = inProgram h f s := by
  have hgo : (hartRuns s h && (s.hart h).indir.isNone && ((s.hart h).rest == [] || (s.hart h).rest == [.alone])) = true := by
    simp [hr, hi, hl]
  exact (if_pos hgo).trans (if_pos hp)

theorem takeTrap_inProgram {h : Nat} (t : Trap) (hp : (s.hart h).prog = true) : takeTrap h t s =
    { s.setHart h (endProgram true (s.hart h)) with fab := { s.fab with held := s.fab.held.filter fun e => !heldOf h e } } := if_pos hp

/-! ### System bus accesses (R436) -/

theorem sbRun_wide {m : ModuleId} {w : Bool} (h : 3 < (s.dm m).sbAcc.toNat) : sbRun m w s = sbEnd m 4 s := if_pos h

theorem sbRun_misaligned {m : ModuleId} {w : Bool} (h : (s.dm m).sbAcc.toNat ≤ 3)
    (ha : (s.dm m).sbAddr.toNat % 2 ^ 52 % 2 ^ (s.dm m).sbAcc.toNat ≠ 0) : sbRun m w s = sbEnd m 3 s :=
  (if_neg (Nat.not_lt.mpr h)).trans (if_pos ha)

/-! ### Triggers (R435, Table 18.5) -/

section Triggers

variable {h : HartId} {ev : TrigEvent}

/-- Trigger 0 matches: it is marked as hit, and its action is taken. -/
theorem exec_triggerFire_matches (hr : hartRuns s h = true) (hh : (s.hart h).halted = false) (hi : (s.hart h).indir = none)
    (hd : dbgHold s h = false) (hc : trigChain (s.hart h) 0 = false) (hm : trigMatch (s.hart h) ((s.hart h).trig 0) ev = true) :
    exec (.triggerFire h 0 ev) s = keepQueue s (
      match trigAction ((s.hart h).trig 0) with
      | 0 => if trigReentrant (s.hart h) then done s else
          done (takeTrap h (plainTrap 3 (trigTval (s.hart h) ev) (s.hart h).virt) (s.setHart h (trigHit (s.hart h) 0)))
      | 1 => if bit ((s.hart h).trig 0).data1 59 then done (enterDebug h 2 (s.setHart h (trigHit (s.hart h) 0))) else done s
      | _ => done s) := by
  refine congrArg (keepQueue s) (if_neg ?_)
  simp [hr, hh, hi, hd, hc, hm, upto]

theorem exec_triggerFire_breakpoint (hr : hartRuns s h = true) (hh : (s.hart h).halted = false) (hi : (s.hart h).indir = none)
    (hd : dbgHold s h = false) (hc : trigChain (s.hart h) 0 = false) (hm : trigMatch (s.hart h) ((s.hart h).trig 0) ev = true)
    (ha : trigAction ((s.hart h).trig 0) = 0) : exec (.triggerFire h 0 ev) s = .next (if trigReentrant (s.hart h) then s else
      { takeTrap h (plainTrap 3 (trigTval (s.hart h) ev) (s.hart h).virt) (s.setHart h (trigHit (s.hart h) 0)) with
        pending := s.pending }) := by
  rw [exec_triggerFire_matches hr hh hi hd hc hm]
  simp only [ha]
  split
  · rfl
  · rfl

theorem exec_triggerFire_debugMode (hr : hartRuns s h = true) (hh : (s.hart h).halted = false) (hi : (s.hart h).indir = none)
    (hd : dbgHold s h = false) (hc : trigChain (s.hart h) 0 = false) (hm : trigMatch (s.hart h) ((s.hart h).trig 0) ev = true)
    (ha : trigAction ((s.hart h).trig 0) = 1) : exec (.triggerFire h 0 ev) s = .next (if bit ((s.hart h).trig 0).data1 59 then
      { enterDebug h 2 (s.setHart h (trigHit (s.hart h) 0)) with pending := s.pending } else s) := by
  rw [exec_triggerFire_matches hr hh hi hd hc hm]
  simp only [ha]
  split
  · rfl
  · rfl

end Triggers

end Debugging

/-- Settles O58: each outcome of a debug request is a lemma of its chain of checks. -/
theorem haltResumeAccessesAndTriggers : Obligations.HaltResumeAccessesAndTriggers := by
  unfold Obligations.HaltResumeAccessesAndTriggers
  refine ⟨fun s h hn => ?haltIgnored, fun s h ha hr hs hd => ?haltHeld, fun s h ha hr hs hd => ?halts, fun s h c ha hr hs => ?haltAsleep,
    fun s h hn => ?resumeIgnored, fun s h ha hr hg => ?resumes, fun s h hp => resumeHart_machine hp, fun s h hp => resumeHart_lower hp,
    fun s m b h => ?ndmNoSleeve, fun s m hm hp hn => ?ndmSets, ?abstractCommand, fun s h c => postExec_hart h c, ?ebreak,
    fun s h t hp => takeTrap_inProgram t hp, fun s m w h => ?busBarred, fun s m w he hb => ?busRuns, fun s m w h => sbRun_wide h,
    fun s m w h ha => sbRun_misaligned h ha, fun s m h => ?busTimeout, fun s m h => ?busIdle, fun s h t ev hn => ?triggerBarred,
    fun s h ev hr hh hi hd hc hm => ⟨fun ha => exec_triggerFire_breakpoint hr hh hi hd hc hm ha,
      fun ha => exec_triggerFire_debugMode hr hh hi hd hc hm ha⟩⟩
  case haltIgnored => exact keepQueue_done_eq (haltReq_ignored hn)
  case haltHeld => exact keepQueue_done_eq (haltReq_held ha hr hs hd)
  case halts => exact keepQueue_done_eq (haltReq_halts ha hr hs hd)
  case haltAsleep => exact keepQueue_done_eq (haltReq_asleep ha hr hs)
  case resumeIgnored => exact keepQueue_done_eq (resumeReq_ignored hn)
  case resumes => exact keepQueue_done_eq (resumeReq_alone ha hr hg)
  case ndmNoSleeve => exact keepQueue_done_eq (ndmReset_noSleeve b (h.imp (fun he => by rw [he]; rfl) id))
  case ndmSets => exact keepQueue_done_eq (ndmReset_sets (fun he => hm (Fin.ext he)) hp hn)
  case abstractCommand =>
    intro s m c s1 h halted form ok free
    exact ⟨fun he => keepQueue_done_eq (abstractCmd_errorStands he), fun he hb => keepQueue_done_eq (abstractCmd_busy he hb),
      fun hf hn => keepQueue_done_eq (abstractCmd_badForm hf hn), fun hf hk hh => keepQueue_done_eq (abstractCmd_running hf hk hh),
      fun hf hk ht hh => keepQueue_done_eq (abstractCmd_none hf hk ht hh),
      fun v hf hk hh hw hv => keepQueue_done_eq (abstractCmd_reads hf hk hh hw hv),
      fun t hf hk hh hw ht => keepQueue_done_eq (abstractCmd_writes hf hk hh hw ht)⟩
  case ebreak =>
    intro s h z hr hi hl hp
    exact keepQueue_done_eq ((byHart_inProgram hr hi hl hp).trans (inProgram_congr (if_pos (hart_inProgram_prog hp))))
  case busBarred => exact congrArg (keepQueue s) (if_pos h)
  case busRuns => exact congrArg (keepQueue s) (if_neg (by simp [he, hb]))
  case busTimeout => exact congrArg (keepQueue s) (if_pos h)
  case busIdle => exact congrArg (keepQueue s) (if_neg (by simp [h]))
  case triggerBarred => exact congrArg (keepQueue s) (if_pos (by tauto))

end Sys2Proof.Machine
